-- ==== Sys2Proof/Word.lean ====
section
/-!
DEFINITION. Word types of the die. Widths follow spec/00_scope.md R12 and R13: memory, packets and flits are
little-endian, bit 0 is the least significant.
-/

namespace Sys2Proof

/-- One byte of the Cistern, of a packet or of a flit. -/
abbrev Byte := BitVec 8
/-- A 16-bit field: a status code (R14), a die id (R468), a tag. -/
abbrev Half := BitVec 16
/-- A 32-bit control-space word (R16). -/
abbrev Word := BitVec 32
/-- A 64-bit x register or offset (R224). -/
abbrev DWord := BitVec 64

end Sys2Proof
end

