-- ==== Sys2Proof/Syntax.lean ====
section
/-!
DEFINITION. The commands and events of the die: one constructor per row of spec/opcode_table.json.
A row that dispatches a packet or issues a slot of a bundle finds its parameters in the State (the decoded packet of
queue `q`, the bundle of logical tile `t`); a row that comes from outside carries what the outside decides.
-/

namespace Sys2Proof

/-- The fields of a received flit's header, Table LNK-1, and the physical port it came in on (8 is the shaft port). -/
structure FlitHdr where
  port : Fin 9
  seq : Byte
  ackSeq : Byte
  ackV : Bool
  nak : Bool
  crvc : BitVec 2
  crtot : BitVec 11
  src : Half
  dst : Half
  ctx : BitVec 4
  xid : BitVec 10
  segno : BitVec 15
  deriving DecidableEq, Repr

/-- The payload of HELLO and HELLO_ACK, Table TOP-3. -/
structure Hello where
  dieId : Half
  port : Byte
  role : Byte
  tier : BitVec 2
  orient : BitVec 3
  mapv : Bool
  hubDist : Byte
  variant : Word
  deriving DecidableEq, Repr

/-- What the self-test march found in one bank: the failing addressed rows and the failing free spares (R128). -/
structure BankFail where
  tract : Fin 64
  bank : Fin 16
  rows : List (Fin 512)
  spares : List (Fin 32)
  deriving DecidableEq, Repr

/-- The 248 rows of the opcode table. -/
inductive Instr where
  /-- NOP (R263): A NOP packet has no effect and writes a completion only when NOTIFY is set. -/
  | nop (q : Fin 512)
  /-- FENCE (R263): A FENCE packet holds its queue until every earlier command of its queue or context has completed. -/
  | fence (q : Fin 512)
  /-- FENCE_COMPLETE (R272): A pending FENCE completes once the commands it waits for have completed, releasing its queue. -/
  | fenceComplete (k : Fin 1024)
  /-- SEM_WAIT (R266): SEM_WAIT in mode WAIT holds its queue until the die semaphore reaches THRESHOLD. -/
  | semWait (q : Fin 512)
  /-- SEM_WAIT_TAKE (R266): SEM_WAIT in mode TAKE waits for THRESHOLD, then subtracts it in the same wave. -/
  | semWaitTake (q : Fin 512)
  /-- SEM_WAIT_SATISFIED (R270): A waiting SEM_WAIT finds its semaphore at or above THRESHOLD, applies any TAKE in ascending queue order and completes. -/
  | semWaitSatisfied (k : Fin 1024)
  /-- SEM_SIGNAL (R266): A local SEM_SIGNAL adds VALUE to a die semaphore of the context's range, saturating. -/
  | semSignal (q : Fin 512)
  /-- SEM_SIGNAL_REMOTE (R271): A remote SEM_SIGNAL sends SEM_SIG on the CTRL channel and completes when the partner acknowledges it. -/
  | semSignalRemote (q : Fin 512)
  /-- COND (R267): COND compares a semaphore with VALUE at dispatch and writes the queue's condition bit and predictor. -/
  | cond (q : Fin 512)
  /-- COPY (R265): A local COPY checks both ranges and moves lines between handles with fresh check bits. -/
  | copy (q : Fin 512)
  /-- COPY_DREMOTE (R441): A COPY to a remote destination sends one WR_SEG and its DATA flits per 32 KiB segment. -/
  | copyDremote (q : Fin 512)
  /-- COPY_SREMOTE (R442): A COPY from a remote source sends one RD_SEG per segment and writes the returned data locally. -/
  | copySremote (q : Fin 512)
  /-- FILL (R264): FILL writes the 8-byte PATTERN over a checked range of a handle. -/
  | fill (q : Fin 512)
  /-- RUN (R243): RUN is checked at dispatch and then waits for its tile set to be idle before launching a tile program. -/
  | run (q : Fin 512)
  /-- FATTN (R305): FATTN checks its parameters and ranges, pins its pages and computes attention units on its tile set. -/
  | fattn (q : Fin 512)
  /-- MERGE_LSE (R323): MERGE_LSE combines partial attention outputs and statistics of several inputs per query row. -/
  | mergeLse (q : Fin 512)
  /-- KV_APPEND (R338): KV_APPEND classifies touched blocks, allocates or copies pages and writes keys and values for the given positions. -/
  | kvAppend (q : Fin 512)
  /-- KV_ROLLBACK (R340): KV_ROLLBACK waits while its request is in a running step, then sets its length and optionally trims its directory. -/
  | kvRollback (q : Fin 512)
  /-- KV_TRIM_TAIL (R341): KV_TRIM in TAIL mode drops references and clears entries of blocks from the given position onward. -/
  | kvTrimTail (q : Fin 512)
  /-- KV_TRIM_FRONT (R341): KV_TRIM in FRONT mode drops references and clears entries of blocks before the given position. -/
  | kvTrimFront (q : Fin 512)
  /-- PAGE_ALLOC_LIST (R342): PAGE_ALLOC in list mode allocates COUNT pages all or nothing and writes their ids for the runtime. -/
  | pageAllocList (q : Fin 512)
  /-- PAGE_ALLOC_DIRECTORY (R342): PAGE_ALLOC in directory mode fills every empty local entry of the named blocks with new pages. -/
  | pageAllocDirectory (q : Fin 512)
  /-- PAGE_FREE (R343): PAGE_FREE drops one reference for each listed page, moving pages to FREE or RECLAIM. -/
  | pageFree (q : Fin 512)
  /-- PREFIX_LOOKUP (R348): PREFIX_LOOKUP matches token blocks against the salted prefix index and copies matched pages into the directory with references. -/
  | prefixLookup (q : Fin 512)
  /-- PREFIX_INSERT (R349): PREFIX_INSERT in INSERT mode creates index nodes for unmatched blocks and takes references on their pages. -/
  | prefixInsert (q : Fin 512)
  /-- PREFIX_REMOVE (R350): PREFIX_INSERT in REMOVE mode unlinks a childless node, drops its page references and frees it. -/
  | prefixRemove (q : Fin 512)
  /-- REQ_ADMIT (R359): REQ_ADMIT runs the admission checks and fills the lowest free Starling entry, reserving pages. -/
  | reqAdmit (q : Fin 512)
  /-- REQ_CANCEL (R380): REQ_CANCEL in mode CANCEL retires a live request at once or marks an in-step request DRAINING. -/
  | reqCancel (q : Fin 512)
  /-- REQ_RELEASE (R380): REQ_CANCEL in mode RELEASE turns a DONE entry FREE. -/
  | reqRelease (q : Fin 512)
  /-- STEP (R365): STEP checks its caps and batch range and, as one action, builds the step's row list with budget and page reservations. -/
  | step (q : Fin 512)
  /-- SCRIPT_PACKET_DISPATCH (R371): The next packet of the context's step script dispatches in order as part of the STEP. -/
  | scriptPacketDispatch (c : Fin 16)
  /-- STEP_SCRIPT_END (R374): The step script ends, either completely or aborted by a failing packet, and the STEP moves on to sampling or bookkeeping. -/
  | stepScriptEnd (c : Fin 16)
  /-- STEP_BOOKKEEPING (R376): Bookkeeping advances lengths, charges and refunds tokens, counts penalties, marks deadlines and emits records per row. -/
  | stepBookkeeping (c : Fin 16)
  /-- OUTPUT_RECORD_WRITE (R378): A pending output record is written to the context's output ring once it has room, completing the STEP after its last record. -/
  | outputRecordWrite (c : Fin 16)
  /-- BUDGET_ADD (R363): BUDGET_ADD in mode 0 adds AMOUNT to a customer's budget, saturating. -/
  | budgetAdd (q : Fin 512)
  /-- BUDGET_SET (R363): BUDGET_ADD in mode 1 sets a customer's budget to AMOUNT. -/
  | budgetSet (q : Fin 512)
  /-- SAMPLE (R398): SAMPLE draws one token per row from its logits under a sampling slot and writes it to the row descriptor. -/
  | sample (q : Fin 512)
  /-- CFG_WRITE (R290): CFG_WRITE applies inline words to a copy of the shadow set and keeps it only if every touched item passes its checks. -/
  | cfgWrite (q : Fin 512)
  /-- CFG_SWAP (R292): CFG_SWAP makes a swap pending, freezing the shadow set and computing the affected contexts. -/
  | cfgSwap (q : Fin 512)
  /-- SWAP_POINT (R296): At the swap point the shadow set becomes active in one wave and the required zero walks start. -/
  | swapPoint
  /-- SWAP_TIMEOUT (R297): A pending swap whose timeout elapses fails whole, leaving both sets unchanged. -/
  | swapTimeout
  /-- CTX_OPEN (R299): CTX_OPEN makes a closed context OPEN with empty pool and index, zero budgets and its prefix salt. -/
  | ctxOpen (q : Fin 512)
  /-- CTX_CLOSE (R300): CTX_CLOSE makes a context CLOSING and runs the close sequence through to its zero walks. -/
  | ctxClose (q : Fin 512)
  /-- TRACT_POWER_ON (R106): TRACT_POWER with target ON moves each named OFF tract to WAKING, then CLEARING, then ON. -/
  | tractPowerOn (q : Fin 512)
  /-- TRACT_POWER_OFF (R105): TRACT_POWER with target OFF powers down named tracts unless a valid active descriptor spans one. -/
  | tractPowerOff (q : Fin 512)
  /-- TRACT_WAKE_END (R106): A waking tract's 1 us (or 1,600 w) wait ends and its zero walk starts. -/
  | tractWakeEnd (tr : Fin 64)
  /-- REPAIR_ROW_LIVE (R132): REPAIR_ROW LIVE picks a usable spare and moves the row's contents to it over two reserved slots. -/
  | repairRowLive (q : Fin 512)
  /-- REPAIR_ROW_RESTORE (R133): REPAIR_ROW RESTORE reinstates a field repair, zeroing the spare or copying the row in a tract in use. -/
  | repairRowRestore (q : Fin 512)
  /-- LARK_DECODE (R412): LARK_DECODE checks tools and syntax block and queues a decode frame on its stream, taking REFCNTs. -/
  | larkDecode (q : Fin 512)
  /-- LARK_ENCODE (R416): LARK_ENCODE checks its input and queues an HEVC encode frame on its stream. -/
  | larkEncode (q : Fin 512)
  /-- LARK_PREFORM (R423): LARK_PREFORM queues a picture-to-tensor conversion, on a stream's queue or ready at once without one. -/
  | larkPreform (q : Fin 512)
  /-- LARK_STREAM_OPEN (R406): LARK_STREAM OPEN checks the frame-buffer pool and opens a stream with every buffer UNUSED. -/
  | larkStreamOpen (q : Fin 512)
  /-- LARK_STREAM_MARK (R408): LARK_STREAM MARK sets the mark of every buffer in BUFMASK in one action. -/
  | larkStreamMark (q : Fin 512)
  /-- LARK_STREAM_CLOSE (R411): LARK_STREAM CLOSE waits for the stream's frames, then marks every buffer UNUSED and closes the stream. -/
  | larkStreamClose (q : Fin 512)
  /-- TELEMETRY (R498): The TELEMETRY command writes one line of PWR block registers to a handle and completes. -/
  | telemetry (q : Fin 512)
  /-- DETACH_ORDERLY (R520): DETACH ORDERLY stops decode and lets in-flight commands finish before reporting and sending LEAVING. -/
  | detachOrderly (q : Fin 512)
  /-- DETACH_ABANDON (R521): DETACH ABANDON stops every unit within 1 us, sends nothing more and enters STANDBY. -/
  | detachAbandon (q : Fin 512)
  /-- DETACH_BOUND_EXPIRE (R520): At BOUND of an orderly detach the die holds all tiles and ends remaining commands with REFUSE_CONTEXT. -/
  | detachBoundExpire
  /-- STANDBY_ENTER (R523): After its LEAVING flits are acknowledged the die enters STANDBY, stopping refresh and masking monitors. -/
  | standbyEnter
  /-- PACKET_DECODE (R262): The decoder picks the next decodable packet by class arbitration, reads it, advances HEAD and runs the header checks. -/
  | packetDecode
  /-- PACKET_SKIP (R268): A COND-flagged packet reaching dispatch with the condition bit 0 is skipped without effect. -/
  | packetSkip (q : Fin 512)
  /-- LOOKAHEAD_PRESTAGE (R279): Lookahead reads headers ahead and prestages parameter blocks and source reads of LOOKAHEAD_OK packets. -/
  | lookaheadPrestage (q : Fin 512)
  /-- COMPLETION_WRITE (R276): A finished command's completion record is written to its context's ring once there is room. -/
  | completionWrite (c : Fin 16)
  /-- QUEUE_DOORBELL (R251): A write of PMH_QTAIL is accepted as a doorbell or ignored with a QUEUE_OVERRUN notice. -/
  | queueDoorbell (q : Fin 512) (tail : Word)
  /-- SWAP_REQUEST (R292): A write of 1 to CFG_SWAPREQ.GO requests a swap with the default timeout. -/
  | swapRequest
  /-- POOL_ARM (R328): A write of 1 to KVP_POOLCFG.ARM checks the pool areas and makes the pool LIVE or sets ARMERR. -/
  | poolArm (c : Fin 16)
  /-- PORT_CONFIRM (R474): A write to TOP_CONFIRM clears a port's mismatch, moves it to ACTIVE and suspends its checks. -/
  | portConfirm (mask : BitVec 9)
  /-- TOP_MAP_WRITE (R473): A write of TOP_MAP sets the module and map state and rechecks every partnered port. -/
  | topMapWrite (w : Word)
  /-- TOP_EXPECT_WRITE (R473): A write of TOP_EXPECT sets a port's expected partner and rechecks every partnered port. -/
  | topExpectWrite (p : Fin 9) (w : Word)
  /-- TILE_HOLD (R282): A write of PMH_TILEHOLD stops or resumes logical tiles as a preemption. -/
  | tileHold (w : Half)
  /-- DRAFT_WRITE (R354): A CTRL write to an entry's NDRAFT or DRAFT takes effect while INSTEP is 0, else is counted in SRV_DRAFTLOST. -/
  | draftWrite (e : Fin 4096) (word : Fin 32) (w : Word)
  /-- SHADOW_REGISTER_WRITE (R288): A CTRL write to an RWS field updates the shadow set under its checks, or is lost while a swap is pending. -/
  | shadowRegisterWrite (off : BitVec 24) (w : Word)
  /-- LINK_ENABLE (R457): A write of LNK_CTRL.EN disables a port or enables it to train, releasing an OFFLINE port. -/
  | linkEnable (p : Fin 9) (w : Word)
  /-- WARM_RESET (R507): A write of 1 to RST_CTRL.WARM answers OK and puts the die into a warm reset. -/
  | warmReset
  /-- ABANDON (R522): A write of 1 to RST_CTRL.ABANDON turns a running orderly detach into ABANDON or acts as DETACH ABANDON. -/
  | abandon
  /-- REG_RD (R541): A REG_RD flit from the hub reads COUNT consecutive control-space words and returns them in REG_RSP. -/
  | regRd (h : FlitHdr) (off : Word) (count : Byte)
  /-- REG_WR (R541): A REG_WR flit from the hub writes COUNT consecutive words to registers without behaviour of their own. -/
  | regWr (h : FlitHdr) (off : Word) (words : List Word)
  /-- TIME (R479): A TIME hub flit sets the base of package time, making it valid. -/
  | timeFlit (h : FlitHdr) (ns : DWord)
  /-- SEM_SIG (R441): A received SEM_SIG adds its value to a die semaphore of the context's range and answers SEM_ACK. -/
  | semSig (h : FlitHdr) (sem : Byte) (value : Word)
  /-- SEM_ACK (R271): A received SEM_ACK completes the originating remote SEM_SIGNAL with its status. -/
  | semAck (h : FlitHdr) (sem : Byte) (value : Word) (status : Half)
  /-- HELLO (R471): A received HELLO is answered with HELLO_ACK and feeds HUBDIST, handshake completion and the port checks. -/
  | hello (h : FlitHdr) (m : Hello)
  /-- HELLO_ACK (R471): A received HELLO_ACK can complete a port's discovery handshake and move it to ACTIVE. -/
  | helloAck (h : FlitHdr) (m : Hello)
  /-- HELLO_RESEND (R471): Every 5 us a CTRLONLY port whose latest HELLO is unacknowledged resends HELLO. -/
  | helloResend (p : Fin 9)
  /-- LEAVING (R457): A received LEAVING completes commands awaiting that partner with PARTNER_LOST and takes the port OFFLINE. -/
  | leaving (h : FlitHdr)
  /-- WR_SEG (R441): A received WR_SEG is checked with XW and opens a segment write, or is relayed toward its destination. -/
  | wrSeg (h : FlitHdr) (handle : Byte) (last semen : Bool) (sem : Byte) (off : DWord) (len semval : Word)
  /-- DATA (R458): A received DATA flit delivers raw or zero-run-compressed bytes of its segment to the Cistern. -/
  | dataFlit (h : FlitHdr) (zrc : Bool) (payload : List Byte) (marks : List Nat)
  /-- RD_SEG (R442): A received RD_SEG is checked with XR and answered with the segment's DATA flits and an RD_END. -/
  | rdSeg (h : FlitHdr) (handle : Byte) (off : DWord) (len : Word)
  /-- WR_ACK (R443): A received WR_ACK adds its bytes to the transfer and completes the command after its last segment. -/
  | wrAck (h : FlitHdr) (status : Half) (reason : Byte) (bytes : Word)
  /-- RD_END (R442): A received RD_END ends a remote-read segment with its status. -/
  | rdEnd (h : FlitHdr) (status : Half) (reason : Byte)
  /-- UNREACH (R454): A received UNREACH completes the originating transfer with PARTNER_LOST. -/
  | unreach (h : FlitHdr)
  /-- IDLE_FLIT (R434): A received idle flit carries acknowledgements and credit returns only. -/
  | idleFlit (h : FlitHdr)
  /-- FLIT_CRC_FAIL (R449): A flit that fails its CRC or arrives out of sequence is dropped and one NAK is sent. -/
  | flitCrcFail (p : Fin 9) (bytes : List Byte)
  /-- KEEPALIVE_IDLE_SEND (R452): A port that has sent nothing for 256 ns sends an idle flit. -/
  | keepaliveIdleSend (p : Fin 9)
  /-- LINK_DOWN (R452): A port receiving no good flit for 2 us goes DOWN, sends LINK_DOWN and fails dependent commands. -/
  | linkDown (p : Fin 9)
  /-- REPLAY_TIMEOUT (R449): With its oldest buffered flit unacknowledged for 1 us, a sender replays its retry buffer. -/
  | replayTimeout (p : Fin 9)
  /-- RETRAIN_ENTER (R450): After 16 replays of one SEQ the port enters RETRAIN and retrains through the sideband. -/
  | retrainEnter (p : Fin 9) (partner : Bool)
  /-- RETRAIN_DONE (R450): A retraining port completes, restarts credits, replays its buffer and may send LINK_DEGRADED. -/
  | retrainDone (p : Fin 9) (rate : BitVec 2) (half : Bool) (repaired : BitVec 4)
  /-- RETRAIN_TIMEOUT (R451): A RETRAIN not reaching ACTIVE within 500 us sends the port DOWN with LINK_RETRY_EXHAUSTED. -/
  | retrainTimeout (p : Fin 9)
  /-- TRAINING_RETRY (R456): A DOWN port retries training every 1 ms until HUBOFF is set. -/
  | trainingRetry (p : Fin 9)
  /-- LINK_TRAINED (R431): A port finishes training at a rate and width and enters CTRLONLY for discovery. -/
  | linkTrained (p : Fin 9) (rate : BitVec 2) (half : Bool) (repaired : BitVec 4)
  /-- E2E_TIMEOUT (R454): A transfer without response progress within LNK_E2ETIMEOUT completes with PARTNER_LOST. -/
  | e2eTimeout (k : Fin 1024)
  /-- THERMAL_SIDEBAND_SEND (R463): Every 1 us the lower die sends one thermal word across the shaft sideband. -/
  | thermalSidebandSend
  /-- THERMAL_SIDEBAND_WORD (R502): The upper die takes a valid sideband word as a report and clears STACKMISS. -/
  | thermalSidebandWord (w : Half)
  /-- STACK_CAP_TICK (R503): Every 10 us the upper die raises, lowers or holds its STACK cap from the latest report. -/
  | stackCapTick
  /-- STACK_REPORT_TIMEOUT (R504): With no report for 5 us the upper die caps STACK at 4/8 and sets STACKMISS. -/
  | stackReportTimeout
  /-- SENSOR_SAMPLE (R500): The thermal sensors are sampled every 1 us and TMAX drives halt, resume and trip thresholds. -/
  | sensorSample (temps : List (BitVec 10))
  /-- THERMAL_CAP_TICK (R500): Every 10 us the THERMAL cap is lowered, held or raised from TMAX against TGOV and HYST. -/
  | thermalCapTick
  /-- SUPPLY_WARNING_ASSERT (R486): VCORE or VCIS falling below its warning level starts a supply hold and sends SUPPLY_HOLD. -/
  | supplyWarningAssert (vcis : Bool) (mv : Half)
  /-- SUPPLY_WARNING_DEASSERT (R487): After the dwell above warning plus 15 mV the hold ends, SUPPLY_RESUME is sent and PWR_HOLDS increments. -/
  | supplyWarningDeassert (vcis : Bool) (mv : Half)
  /-- VLINK_WARNING (R488): A VLINK warning sets VLINKWARN and sends one SUPPLY_LINK notice. -/
  | vlinkWarning (mv : Half)
  /-- BROWNOUT_RESET (R485): VCORE or VCIS below its reset level for 50 ns resets the die, keeping straps. -/
  | brownoutReset (vcis : Bool)
  /-- COLD_RESET (R506): Deassertion of PWRGD_AUX resets the whole die including the VAUX domain. -/
  | coldReset
  /-- PIN_RESET (R506): RST_N low or PWRGD_CORE deasserted with PWRGD_AUX asserted resets the die outside the VAUX domain. -/
  | pinReset (aux core rstN : Bool)
  /-- LEAVE_RESET (R511): The die leaves reset, latches straps where required and starts fuse load and bring-up. -/
  | leaveReset (orient : BitVec 3) (tier : BitVec 2) (site : BitVec 4)
  /-- FUSE_LOAD_DONE (R511): Fuse load ends, loading ID registers and repairs and starting the slot cycles, self-test and link training, or stops on FUSEERR. -/
  | fuseLoadDone
  /-- SELF_TEST_DONE (R128): The Cistern self-test march ends, assigning spares, marking failed tracts and starting zero fill. -/
  | selfTestDone (fails : List BankFail)
  /-- DISCOVERY_WINDOW_END (R511): The 50 us discovery window after the last port's training ends. -/
  | discoveryWindowEnd
  /-- READY (R517): The die becomes READY when zero fill and discovery have both ended, and sends the READY notice. -/
  | ready (us : Half)
  /-- TAP_RESET (R551): TRST_N low or PWRGD_AUX deasserted holds the TAP in Test-Logic-Reset with IDCODE selected. -/
  | tapReset (trst : Option Bool)
  /-- EXTEST (R553): EXTEST drives and captures the 14-cell boundary register while TESTOK is 1. -/
  | extest (din : BitVec 14)
  /-- IDCODE (R555): IDCODE shifts out the 32-bit die IDCODE. -/
  | idcode
  /-- SAMPLE_PRELOAD (R553): SAMPLE/PRELOAD captures and loads the boundary register without disturbing operation. -/
  | samplePreload (din : BitVec 14)
  /-- CLAMP (R552): CLAMP holds outputs from the boundary register with bypass selected while TESTOK is 1. -/
  | clamp (din : Bool)
  /-- HIGHZ (R552): HIGHZ releases THERMTRIP_N with bypass selected while TESTOK is 1. -/
  | highz (din : Bool)
  /-- WRAPSEL (R556): WRAPSEL shifts the 16-bit tile select of the IEEE 1500 wrappers. -/
  | wrapsel (din : Half)
  /-- MARCH (R128): MARCH runs the 10N march on every bank and returns one pass bit per bank. -/
  | march (pass : BitVec 1024)
  /-- FUSEREAD (R551): FUSEREAD shifts out the 4,096-bit fuse image. -/
  | fuseread
  /-- WRAPDR (R556): WRAPDR shifts the 1500 data chains of the selected tiles. -/
  | wrapdr (din : List Bool)
  /-- WRAPIR (R556): WRAPIR shifts the 4-bit 1500 instruction registers of the selected tiles. -/
  | wrapir (din : List (BitVec 4))
  /-- WS_BYPASS (R556): The wrapper instruction WS_BYPASS bypasses a selected tile's wrapper. -/
  | wsBypass (p : Fin 16)
  /-- WS_EXTEST (R556): The wrapper instruction WS_EXTEST tests a tile's external connections. -/
  | wsExtest (p : Fin 16)
  /-- WS_INTEST (R556): The wrapper instruction WS_INTEST tests a tile's internal logic. -/
  | wsIntest (p : Fin 16)
  /-- WS_BIST (R556): The wrapper instruction WS_BIST runs the tile's array, vector and Wren self-test. -/
  | wsBist (p : Fin 16)
  /-- SCRSEL (R557): SCRSEL accesses the IEEE 1838 stacking configuration bit. -/
  | scrsel (din : Bool)
  /-- DWREXT (R557): DWREXT shifts the 128-cell die wrapper register of the shaft port. -/
  | dwrext (din : BitVec 128)
  /-- BYPASS (R552): BYPASS, and any undefined or blocked instruction, selects the 1-bit bypass register. -/
  | bypass (code : Byte) (din : Bool)
  /-- BANK_SLOT (R85): At an unreserved slot a bank grants one waiting port in round-robin order and performs its access with integrity handling. -/
  | bankSlot (tr : Fin 64) (b : Fin 16)
  /-- RESERVED_SLOT (R109): A bank's reserved slot refreshes the pointed row, scrubs one line and advances the refresh pointer. -/
  | reservedSlot (tr : Fin 64) (b : Fin 16)
  /-- SCRUB_PASS_START (R126): At each scrub period a scrub pass starts in every bank of every ON tract. -/
  | scrubPassStart
  /-- ZERO_WALK_END (R97): A tract's zero walk ends after 16,384 w, resuming its refresh pointer and completing what waited on it. -/
  | zeroWalkEnd (tr : Fin 64)
  /-- CISTERN_READ_RETURN (R88): Read data of a Cistern access arrives at its requester. -/
  | cisternReadReturn (id : Nat)
  /-- CISTERN_WRITE_ACK (R88): A Cistern write is acknowledged at its requester, draining any store-buffer entry. -/
  | cisternWriteAck (id : Nat)
  /-- HELD_LOAD_ISSUE (R231): A held narrow load issues to the Cistern when its last overlapping store entry drains. -/
  | heldLoadIssue (t : Fin 16)
  /-- TILE_PROGRAM_LAUNCH (R50): When its tile set is idle a launch rechecks ownership, restarts slot frames and starts every tile at ENTRY. -/
  | tileProgramLaunch (k : Fin 1024)
  /-- LOAD_FILL_END (R244): A RUN's instruction-buffer fill ends and its decode-to-dispatch interval begins. -/
  | loadFillEnd (k : Fin 1024)
  /-- TILE_PROGRAM_END (R70): A tile program ends when its last bundle retires and its writes are acknowledged, and the RUN is done when every tile has ended. -/
  | tileProgramEnd (t : Fin 16)
  /-- ARRAY_INSTR_START (R193): A pending array instruction becomes running once its set is free, starting its operand waves. -/
  | arrayInstrStart (t : Fin 16) (wave : Fin 8)
  /-- ARRAY_INSTR_END (R191): An array instruction's last operand wave ends, starting its drain or dummy ramp-down. -/
  | arrayInstrEnd (t : Fin 16) (empty : Byte)
  /-- DRAIN_END (R560): An accumulator drain ends when its outputs are written or acknowledged, freeing the set. -/
  | drainEnd (t : Fin 16)
  /-- ARRAY_GOES_COLD (R195): After 256 idle waves the array becomes cold, so the next MTILE ramps. -/
  | arrayGoesCold (t : Fin 16)
  /-- GOVERNOR_FRAME (R490): At each 8-wave frame the array reads the effective duty that fixes its operand waves. -/
  | governorFrame (t : Fin 16) (empty : Byte)
  /-- SIGNAL_LEAVE (R239): A held TSIG or DSIG leaves once the tile's earlier writes are acknowledged. -/
  | signalLeave (t : Fin 16)
  /-- TILE_SEM_ARRIVE (R236): A tile semaphore signal reaches its target and adds its value, saturating. -/
  | tileSemArrive (id : Nat)
  /-- DIE_SEM_ARRIVE (R238): A DSIG reaches the Pumphouse and adds its value to the die semaphore. -/
  | dieSemArrive (id : Nat)
  /-- TILE_WAIT_SATISFIED (R237): A held TWAIT or TTAKE finds its semaphore at VALUE and releases the Wren. -/
  | tileWaitSatisfied (t : Fin 16)
  /-- IFILL_LINE_LAND (R240): A line of an instruction fill lands in the buffer, with poison marks where needed. -/
  | ifillLineLand (t : Fin 16)
  /-- SCALAR_NOP (R225): The scalar NOP does nothing. -/
  | scalarNop (t : Fin 16)
  /-- ADD (R224): ADD writes the wrapping sum of two x registers. -/
  | add (t : Fin 16)
  /-- SUB (R224): SUB writes the wrapping difference of two x registers. -/
  | sub (t : Fin 16)
  /-- MUL (R224): MUL writes the low 64 bits of the product of two x registers. -/
  | mul (t : Fin 16)
  /-- AND (R225): AND writes the bitwise AND of two x registers. -/
  | opAnd (t : Fin 16)
  /-- OR (R225): OR writes the bitwise OR of two x registers. -/
  | opOr (t : Fin 16)
  /-- XOR (R225): XOR writes the bitwise XOR of two x registers. -/
  | opXor (t : Fin 16)
  /-- SHL (R224): SHL shifts an x register left by the low 6 bits of another. -/
  | shl (t : Fin 16)
  /-- SHR (R224): SHR shifts an x register logically right. -/
  | shr (t : Fin 16)
  /-- SRA (R224): SRA shifts an x register arithmetically right. -/
  | sra (t : Fin 16)
  /-- ADDI (R225): ADDI adds a signed 12-bit immediate to an x register. -/
  | addi (t : Fin 16)
  /-- LIMM (R225): LIMM shifts x[RD] left by 12 and inserts a 12-bit immediate. -/
  | limm (t : Fin 16)
  /-- CMPEQ (R225): CMPEQ sets a predicate when two x registers are equal. -/
  | cmpeq (t : Fin 16)
  /-- CMPLT (R225): CMPLT sets a predicate on a signed less-than. -/
  | cmplt (t : Fin 16)
  /-- CMPLTU (R225): CMPLTU sets a predicate on an unsigned less-than. -/
  | cmpltu (t : Fin 16)
  /-- PAND (R225): PAND writes the AND of two predicates. -/
  | pand (t : Fin 16)
  /-- POR (R225): POR writes the OR of two predicates. -/
  | por (t : Fin 16)
  /-- PNOT (R225): PNOT writes the inverse of a predicate. -/
  | pnot (t : Fin 16)
  /-- BR (R233): BR resolves from its guard and redirects issue to TARGET with hint-dependent delay. -/
  | br (t : Fin 16)
  /-- END (R70): END finishes the tile program once its writes are acknowledged. -/
  | opEnd (t : Fin 16)
  /-- MNOP (R225): MNOP does nothing in the move slot. -/
  | mnop (t : Fin 16)
  /-- NLD (R231): NLD checks and performs a narrow load, forwarded from, held behind or independent of the store buffer. -/
  | nld (t : Fin 16)
  /-- NST (R230): NST checks and enters a narrow store in the store buffer and presents it to its bank. -/
  | nst (t : Fin 16)
  /-- TSIG (R236): TSIG signals a tile semaphore of a tile in the set once earlier writes are acknowledged. -/
  | tsig (t : Fin 16)
  /-- TWAIT (R237): TWAIT holds the Wren until a tile semaphore reaches VALUE. -/
  | twait (t : Fin 16)
  /-- TTAKE (R237): TTAKE waits like TWAIT and then subtracts VALUE in the same wave. -/
  | ttake (t : Fin 16)
  /-- DSIG (R238): DSIG adds VALUE to a die semaphore of the context's range. -/
  | dsig (t : Fin 16)
  /-- IFILL (R240): IFILL loads lines into the instruction buffer at bundle DEST. -/
  | ifill (t : Fin 16)
  /-- TNOP (R183): TNOP does nothing in the tensor slot. -/
  | tnop (t : Fin 16)
  /-- MTILE (R191): MTILE checks its blocks and queues a 128 x 128 dot-product tile into an accumulator set, with optional drain. -/
  | mtile (t : Fin 16)
  /-- MTILE_S2 (R175): MTILE.S2 runs three split-precision BF16 passes over FP32 operands. -/
  | mtileS2 (t : Fin 16)
  /-- MTILE_S3 (R176): MTILE.S3 runs six split-precision BF16 passes over FP32 operands. -/
  | mtileS3 (t : Fin 16)
  /-- DTILE (R177): DTILE runs a 16 x 16 binary64 FMA tile on the long corner. -/
  | dtile (t : Fin 16)
  /-- VNOP (R202): VNOP does nothing in the vector slot. -/
  | vnop (t : Fin 16)
  /-- VADD (R206): VADD adds two registers element-wise. -/
  | vadd (t : Fin 16)
  /-- VSUB (R206): VSUB subtracts two registers element-wise. -/
  | vsub (t : Fin 16)
  /-- VMUL (R206): VMUL multiplies two registers element-wise. -/
  | vmul (t : Fin 16)
  /-- VFMA (R206): VFMA computes a times b plus c with one rounding. -/
  | vfma (t : Fin 16)
  /-- VMIN (R207): VMIN takes the element-wise minimum. -/
  | vmin (t : Fin 16)
  /-- VMAX (R207): VMAX takes the element-wise maximum. -/
  | vmax (t : Fin 16)
  /-- VABS (R206): VABS takes the floating-point absolute value. -/
  | vabs (t : Fin 16)
  /-- VNEG (R206): VNEG negates floating-point elements. -/
  | vneg (t : Fin 16)
  /-- VCMP (R207): VCMP writes a mask from an element-wise comparison. -/
  | vcmp (t : Fin 16)
  /-- VSEL (R202): VSEL selects elements from two registers by a mask. -/
  | vsel (t : Fin 16)
  /-- VAND (R202): VAND computes the bitwise AND. -/
  | vand (t : Fin 16)
  /-- VOR (R202): VOR computes the bitwise OR. -/
  | vor (t : Fin 16)
  /-- VXOR (R202): VXOR computes the bitwise XOR. -/
  | vxor (t : Fin 16)
  /-- VNOT (R202): VNOT computes the bitwise inverse. -/
  | vnot (t : Fin 16)
  /-- VSHL (R206): VSHL shifts lanes left logically. -/
  | vshl (t : Fin 16)
  /-- VSHR (R206): VSHR shifts lanes right logically. -/
  | vshr (t : Fin 16)
  /-- VSRA (R206): VSRA shifts lanes right arithmetically. -/
  | vsra (t : Fin 16)
  /-- VIADD (R206): VIADD adds INT32 lanes with saturation. -/
  | viadd (t : Fin 16)
  /-- VISUB (R206): VISUB subtracts INT32 lanes with saturation. -/
  | visub (t : Fin 16)
  /-- VIMUL (R206): VIMUL multiplies INT32 lanes with saturation. -/
  | vimul (t : Fin 16)
  /-- VCVT (R208): VCVT converts elements between formats and updates VEC_AMAX. -/
  | vcvt (t : Fin 16)
  /-- VBCAST (R202): VBCAST copies row 0 of a source to every row. -/
  | vbcast (t : Fin 16)
  /-- VSPLAT (R202): VSPLAT fills every element from an x register. -/
  | vsplat (t : Fin 16)
  /-- MAND (R202): MAND writes the AND of two masks. -/
  | mand (t : Fin 16)
  /-- MOR (R202): MOR writes the OR of two masks. -/
  | mor (t : Fin 16)
  /-- MXOR (R202): MXOR writes the XOR of two masks. -/
  | mxor (t : Fin 16)
  /-- MNOT (R202): MNOT writes the inverse of a mask. -/
  | mnot (t : Fin 16)
  /-- VLUT (R215): VLUT interpolates each element in a 257-entry table register. -/
  | vlut (t : Fin 16)
  /-- VEXP2 (R216): VEXP2 computes 2 to the power of each element. -/
  | vexp2 (t : Fin 16)
  /-- VRCP (R216): VRCP computes the reciprocal with one Newton step. -/
  | vrcp (t : Fin 16)
  /-- VRSQ (R216): VRSQ computes the reciprocal square root with one Newton step. -/
  | vrsq (t : Fin 16)
  /-- VRSUM (R219): VRSUM sums each row's lanes in a fixed tree. -/
  | vrsum (t : Fin 16)
  /-- VRMAX (R220): VRMAX takes each row's maximum. -/
  | vrmax (t : Fin 16)
  /-- VRMIN (R220): VRMIN takes each row's minimum. -/
  | vrmin (t : Fin 16)
  /-- VRARGMAX (R220): VRARGMAX returns each row's lane index of the maximum. -/
  | vrargmax (t : Fin 16)
  /-- VCSUM (R219): VCSUM sums each lane's rows in a fixed tree into row 0. -/
  | vcsum (t : Fin 16)
  /-- VCMAX (R220): VCMAX takes each lane's maximum over rows. -/
  | vcmax (t : Fin 16)
  /-- VCMIN (R220): VCMIN takes each lane's minimum over rows. -/
  | vcmin (t : Fin 16)
  /-- VCARGMAX (R220): VCARGMAX returns each lane's row index of the maximum. -/
  | vcargmax (t : Fin 16)
  /-- VCOMP (R221): VCOMP compresses active elements of each row to the low lanes and writes the count. -/
  | vcomp (t : Fin 16)
  /-- VEXPD (R221): VEXPD expands the low lanes of each row onto its active lanes. -/
  | vexpd (t : Fin 16)
  /-- VLD (R212): VLD checks and loads a block into a tile register, converting and scaling elements. -/
  | vld (t : Fin 16)
  /-- VST (R213): VST checks and stores a tile register, converting or block-scaling as needed. -/
  | vst (t : Fin 16)
  /-- VTLD (R214): VTLD loads 257 FP32 entries into a table register. -/
  | vtld (t : Fin 16)
  /-- MLD (R214): MLD loads a mask register from memory. -/
  | mld (t : Fin 16)
  /-- MST (R214): MST stores a mask register to memory. -/
  | mst (t : Fin 16)
  /-- LARK_FRAME_START (R427): A pipeline starts the ready frame of lowest class on its lowest free engine, or suspends a frame for a class-0 one. -/
  | larkFrameStart (pl : Fin 3)
  /-- LARK_FRAME_SUSPEND (R427): A frame chosen for suspension stops at its next CTU-row boundary, freeing its engine for a class-0 frame. -/
  | larkFrameSuspend (e : Fin 6)
  /-- LARK_FRAME_RESUME (R427): A suspended frame resumes on the same engine when no class-0 frame waits for it. -/
  | larkFrameResume (e : Fin 6)
  /-- LARK_FRAME_END (R415): A Lark frame completes, marking its target, releasing REFCNTs and reporting concealment status. -/
  | larkFrameEnd (e : Fin 6)
  /-- LARK_ENGINE_STOP (R428): Under a supply hold or THERMAL_HALT an engine stops at its next CTU-row boundary. -/
  | larkEngineStop (e : Fin 6)
  /-- BUDGET_REFILL (R362): Each whole millisecond of package time refills every customer with RATE up to CAP. -/
  | budgetRefill
  /-- POWER_WINDOW_END (R492): At the end of each 1 us window the estimate updates and the POWER cap moves or OVERLIMIT is judged. -/
  | powerWindowEnd (mv : Half)
  /-- TELEMETRY_PERIOD (R497): Every 100 us the die sends one TELEMETRY notice to the hub. -/
  | telemetryPeriod (pace : Half)
  /-- TIME_LOST (R481): After 10 us without a TIME flit the die sends one TIME_LOST notice and keeps interpolating. -/
  | timeLost
  /-- VLINK_WARNING_DEASSERT (R484): The VLINK warning comparator deasserts after its rail has stayed above the warning level plus 15 mV for the dwell, clearing PWR_STATUS.VLINKWARN. -/
  | vlinkWarningDeassert (mv : Half)
  /-- TRAINING_TIMEOUT (R512): A port that fails to finish training within 500 us goes DOWN and from then on retries training under R456. -/
  | trainingTimeout (p : Fin 9)
  /-- VECTOR_ROWS_ISSUED (R204): The Vector Engine finishes issuing the rows of its current instruction and accepts the next vector-slot instruction, releasing a Wren held at that slot. -/
  | vectorRowsIssued (t : Fin 16)
  deriving DecidableEq, Repr

end Sys2Proof
end

