-- ==== Sys2Proof/Decode.lean ====
section
/-!
DEFINITION. No row of spec/opcode_table.json carries bits: the commands of this block are not words. The packets,
flits and bundles that do have encodings in the spec are read where the block reads them (Machine/Packet.lean,
Machine/Link.lean, Machine/Bundle.lean).
-/

namespace Sys2Proof

/-- No word of any length spells a command. -/
def decodeTableWord (_nbits _w : Nat) : Option Instr := none

end Sys2Proof
end

