-- ==== Sys2Proof/Machine/Sparse.lean ====
section
/-!
DEFINITION. Sparse maps: lists of (key, value) pairs in one canonical form, keys strictly rising and no value equal to
the default `d` an unlisted key reads as. Memory, register files and tables are all held this way, so equal contents
are equal data.
-/

namespace Sys2Proof.Machine

abbrev Sparse (α : Type) := List (Nat × α)

variable {α : Type}

/-- The value at key `i`; `d` where the map lists none. It does not lean on the canonical form. -/
def spGet (d : α) : Sparse α → Nat → α
  | [], _ => d
  | (k, v) :: m, i => if i = k then v else spGet d m i

/-- Every key of `m` is above `b`. -/
def spAbove (b : Nat) : Sparse α → Bool
  | [] => true
  | (k, _) :: m => decide (b < k) && spAbove k m

variable [DecidableEq α]

/-- Canonical form. -/
def spWf (d : α) : Sparse α → Bool
  | [] => true
  | (k, v) :: m => decide (v ≠ d) && spAbove k m && spWf d m

/-- Put a value at key `i` that is not the default. -/
def spIns : Sparse α → Nat → α → Sparse α
  | [], i, v => [(i, v)]
  | (k, w) :: m, i, v =>
    if i < k then (i, v) :: (k, w) :: m else if i = k then (i, v) :: m else (k, w) :: spIns m i v

/-- Put `v` at key `i`; the default removes the entry. -/
def spSet (d : α) (m : Sparse α) (i : Nat) (v : α) : Sparse α :=
  if v = d then m.filter (fun e => decide (e.1 ≠ i)) else spIns m i v

/-- The entries of keys `base` to `base + n - 1` whose value `f` gives and that differ from the default. -/
def spSpan (d : α) (base : Nat) (f : Nat → α) : Nat → Sparse α → Sparse α
  | 0, m => m
  | n + 1, m => spSpan d base f n (if f n = d then m else (base + n, f n) :: m)

/-- Put `f 0`, …, `f (n - 1)` at keys `base` to `base + n - 1` in one action. -/
def spSetRange (d : α) (m : Sparse α) (base n : Nat) (f : Nat → α) : Sparse α :=
  m.filter (fun e => decide (e.1 < base)) ++ spSpan d base f n (m.filter (fun e => decide (base + n ≤ e.1)))

/-- The entries of a list of values from key `base` on that differ from the default. -/
def spEntries (d : α) : Nat → List α → Sparse α
  | _, [] => []
  | base, v :: vs => if v = d then spEntries d (base + 1) vs else (base, v) :: spEntries d (base + 1) vs

/-- Put a list of values at keys `base`, `base + 1`, … in one action. -/
def spSetList (d : α) (m : Sparse α) (base : Nat) (vs : List α) : Sparse α :=
  m.filter (fun e => decide (e.1 < base)) ++ (spEntries d base vs
    ++ m.filter (fun e => decide (base + vs.length ≤ e.1)))

/-- Apply `f` at key `i`. -/
def spModify (d : α) (m : Sparse α) (i : Nat) (f : α → α) : Sparse α :=
  spSet d m i (f (spGet d m i))

end Sys2Proof.Machine
end

