-- ==== Sys2Proof/Machine/State.lean ====
section
/-!
DEFINITION. The state of the die: plain data, every unit the spec names, and the queue of waiting commands. A table of
like units (queues, tiles, banks, ports, streams) is a canonical sparse map from the unit's number to its contents,
whose default is the unit at reset. A register table with reset values other than zero is kept as its difference (XOR)
from them.
-/

namespace Sys2Proof.Machine

/-- No command of this model ends in a fault: every failure the spec describes is a status, a halt or a notice. -/
inductive Fault where
  /-- Never raised. -/
  | none
  deriving DecidableEq, Repr

/-- Reasons to refuse a command. -/
inductive Refusal where
  /-- Raised only by an arm of exec whose meaning is not written; safe. -/
  | notModelled (mnemonic : String)
  deriving DecidableEq, Repr

/-! ## Identification, pins and reset -/

/-- What the fuses of the part hold (01 R21, R31; 05 R128; 23 R543). -/
structure Fuse where
  /-- 0 G, 1 M, 2 S. -/
  series : BitVec 2
  grade12 : Bool
  /-- P bonding. -/
  planar : Bool
  stepping : BitVec 4
  /-- Physical tiles present. -/
  present : Half
  serial : DWord
  /-- The integrity check of the fuse load passes (R514). -/
  imageOk : Bool
  /-- (logical tract, bank, row, spare) of the repairs made at test. -/
  testRepairs : List (Fin 64 × Fin 16 × Fin 512 × Fin 32)
  deriving DecidableEq, Repr

/-- Levels on the sideband pins (Table PHY-3), and the THERMTRIP_N latch (R501, R508). -/
structure Pins where
  pwrgdAux : Bool
  pwrgdCore : Bool
  rstN : Bool
  trstN : Bool
  orient : BitVec 3
  tier : BitVec 2
  site : BitVec 4
  /-- The comparators assert THERMTRIP_N. -/
  thermtrip : Bool
  deriving DecidableEq, Repr

/-- The four kinds of Table RST-1. -/
inductive ResetKind where
  | cold | pin | brownout | warm
  deriving DecidableEq, Repr

/-- A notice (R539): class, code and data bytes 8 to 15. -/
structure Notice where
  cls : Half
  code : Half
  data : DWord
  deriving DecidableEq, Repr

/-- The running DETACH ORDERLY (Table RST-4). -/
structure Detach where
  /-- In-flight slot of the DETACH. -/
  slot : Nat
  /-- BOUND in microseconds, counted from dispatch (R519). -/
  bound : Nat
  /-- Commands finished in step 2. -/
  finished : Nat
  /-- Commands ended in step 3. -/
  ended : Nat
  /-- 2 finishing, 3 ending, 4 the completion waits for its ring, 5 LEAVING is out. -/
  stage : Nat
  deriving DecidableEq, Repr

/-- Reset, bring-up and the RST registers (Table RST-6). -/
structure Rst where
  /-- The reset that holds the die, or none (R506). -/
  held : Option ResetKind
  kind : ResetKind
  phase : BitVec 3
  fuseErr : Bool
  cause : BitVec 5
  count : Word
  readyUs : Half
  detachBound : BitVec 24
  noticeLost : Word
  /-- The ID registers show the fuses (R28). -/
  idLoaded : Bool
  /-- Phases of Table RST-2 ended: fuse load, self-test, zero fill, discovery window. -/
  fuseDone : Bool
  testDone : Bool
  zeroDone : Bool
  windowDone : Bool
  ready : Bool
  readySent : Bool
  /-- HUB_FOUND has been sent (R472). -/
  hubFound : Bool
  /-- The STRAP_CONFLICT of R465 or R25 has been sent. -/
  strapTold : Bool
  /-- At most 32 notices, oldest first (R516). -/
  noticeBuf : List Notice
  detach : Option Detach
  standby : Bool
  deriving DecidableEq, Repr

/-- Package time (19 R479 to R481) and the model's count of waves. -/
structure Time where
  wave : Nat
  valid : Bool
  base : DWord
  /-- Nanoseconds interpolated since the base. -/
  interp : Nat
  /-- The last time reported. -/
  last : DWord
  /-- Hundredths of a nanosecond not yet counted, when no wellhead counts (R480). -/
  frac : Nat
  /-- TIME_LOST has been sent since the last TIME. -/
  lostSent : Bool
  adj : Half
  pace : Half
  deriving DecidableEq, Repr

/-! ## Topology and links -/

/-- The TOP registers (Table TOP-6) that are not computed. -/
structure Top where
  orient : BitVec 3
  tier : BitVec 2
  site : BitVec 4
  module : BitVec 12
  mapv : Bool
  hubPort : BitVec 4
  /-- HUBDIST as the latest HELLO carried it (R471). -/
  lastDist : Byte
  /-- ROUTE of each site, as its difference from 0xF. -/
  route : Sparse (BitVec 4)
  /-- LEARN of each site, as its difference from 0xF. -/
  learn : Sparse (BitVec 4)
  /-- TOP_EXPECT by logical port. -/
  expect : Sparse Word
  mismatch : BitVec 9
  /-- Ports whose checks a TOP_CONFIRM suspends (R474). -/
  suspended : BitVec 9
  unroutable : Word
  deriving DecidableEq, Repr

/-- A flit without its per-link fields (R447). -/
structure Flit where
  vc : BitVec 2
  typ : BitVec 6
  src : Half
  dst : Half
  ctx : BitVec 4
  xid : BitVec 10
  segno : BitVec 15
  zrc : Bool
  payload : List Byte
  /-- Poisoned code words of the segment that the bytes of a DATA flit touch, by number (R265, log 79). -/
  marks : List Nat := []
  deriving DecidableEq, Repr

/-- A flit as it leaves a port, with its per-link fields (Table LNK-1). -/
structure WireFlit where
  flit : Flit
  seq : Byte
  ackSeq : Byte
  ackV : Bool
  nak : Bool
  crvc : BitVec 2
  crtot : BitVec 11
  deriving DecidableEq, Repr

/-- Table LNK-4. -/
inductive PortState where
  | disabled | training | ctrlOnly | active | retrain | down | offline
  deriving DecidableEq, Repr

/-- One wellhead or the shaft port (18). -/
structure Port where
  en : Bool
  maxRate : BitVec 2
  zrcEn : Bool
  hubOff : Bool
  e2e : Half
  state : PortState
  rate : BitVec 2
  half : Bool
  repaired : BitVec 4
  /-- The fields of the partner's latest HELLO or HELLO_ACK (R471). -/
  partner : Option Hello
  /-- A HELLO or HELLO_ACK has come since training. -/
  heard : Bool
  /-- HELLOs sent since training and not yet answered by a HELLO_ACK. -/
  unacked : Nat
  /-- Training ended, in success or in DOWN, in this bring-up (R511). -/
  trained : Bool
  /-- Sequence number of the next non-idle flit. -/
  txSeq : Byte
  /-- Sequence number expected next. -/
  rxSeq : Byte
  /-- A flit has been taken in order since training: ACKV. -/
  rxAny : Bool
  /-- Unacknowledged flits with their SEQ, oldest first, at most 64 (R448). -/
  retry : List (Byte × Flit)
  /-- Times each buffered SEQ has been replayed without acknowledgement (R450). -/
  replayed : Sparse Nat
  /-- SEQs taken before the last RETRAIN whose replay, which the sender pays for anew, has not come (R437, log 79). -/
  again : List Byte
  /-- The shaft port's own good idle flit has left, and its partner's has come, in this training (R462). -/
  idleSent : Bool
  idleHeard : Bool
  /-- A NAK has been sent and its SEQ has not arrived (R449). -/
  nakOpen : Bool
  /-- LEAVING has been sent and awaits its acknowledgement (R520). -/
  leaving : Bool
  /-- Flits waiting to be sent, in order. -/
  egress : List Flit
  /-- Everything the port has put on the wire (the model's record, log 10). -/
  wire : List WireFlit
  /-- Credits used since training, by channel (R436). -/
  sent : Sparse Nat
  /-- Latest CRTOT received, by channel. -/
  gotTot : Sparse (BitVec 11)
  /-- Credits returned since training, by channel. -/
  retTot : Sparse (BitVec 11)
  /-- Channel whose total the next flit carries. -/
  crvc : BitVec 2
  txFlits : Word
  rxFlits : Word
  crcErr : Word
  replays : Word
  retrains : Word
  downs : Word
  protErr : Word
  zrcFlits : Word
  deriving DecidableEq, Repr

/-- An open segment that is being received (18 R440, R441). -/
structure RxSeg where
  src : Half
  xid : BitVec 10
  segno : BitVec 15
  ctx : BitVec 4
  handle : BitVec 6
  last : Bool
  semen : Bool
  sem : Byte
  off : Nat
  len : Nat
  semval : Word
  /-- Port it arrives on. -/
  port : Fin 9
  /-- Bytes received so far, and those of them that wait for the rest of their line. -/
  pos : Nat
  buf : List Byte
  /-- Poisoned words announced with its bytes, by number (R265, log 79). -/
  marks : List Nat
  /-- The segment has been answered with a failure: the rest of its DATA is discarded (R441, R459). -/
  dead : Bool
  /-- Worst data status of its writes. -/
  status : Half
  deriving DecidableEq, Repr

/-! ## Power and heat -/

/-- The PWR registers (Table PWR-6) and what the governor and telemetry count. -/
structure Pwr where
  limit : Half
  /-- A PWR_LIMIT write that takes effect at the end of the window (R495). -/
  limitNext : Option Half
  estimate : Half
  /-- Events counted by the end of the last window (R489). -/
  counted : Sparse Word
  capPower : BitVec 4
  capThermal : BitVec 4
  capStack : BitVec 4
  /-- Consecutive windows at or below 7/8 of the limit (R492). -/
  lowWindows : Nat
  /-- Consecutive windows above the limit at cap 1/8, during stops as well (R493). -/
  highWindows : Nat
  overlimit : Bool
  overlimits : Word
  vcoreWarn : Bool
  vcisWarn : Bool
  vlinkWarn : Bool
  /-- A rail has reset the die and has not recovered: VCORE, VCIS (R485, R506). -/
  coreBrown : Bool
  cisBrown : Bool
  holds : Word
  halt : Bool
  halts : Word
  /-- Valid sensors and their readings (R499). -/
  temp : Sparse (Option (BitVec 10))
  /-- Latest sideband word (R502). -/
  lower : Half
  stackMiss : Bool
  /-- A report has arrived since reset. -/
  reported : Bool
  vcore : Half
  vcis : Half
  vlink : Half
  vaux : Half
  /-- What the telemetry period saw (Table PWR-2). -/
  telGov : Bool
  telStack : Bool
  telHold : Bool
  telHalt : Bool
  telTmax : BitVec 10
  telSum : Nat
  telCount : Nat
  telVcore : Half
  /-- Sequence number of the next thermal word sent (R463). -/
  sbSeq : BitVec 4
  /-- Thermal words put on the sideband (the model's record, log 10). -/
  sbWire : List Half
  deriving DecidableEq, Repr

/-! ## Cistern -/

/-- A remap entry (Table INT-5). -/
structure Remap where
  row : BitVec 9
  valid : Bool
  source : BitVec 2
  bad : Bool
  deriving DecidableEq, Repr

/-- A row repair whose row has been sensed (R132). -/
structure Repair where
  /-- In-flight slot of the REPAIR_ROW. -/
  slot : Nat
  row : Fin 512
  spare : Nat
  deriving DecidableEq, Repr

/-- One bank (04 R82 to R86; 05 R109, R125, R132). -/
structure Bank where
  refresh : BitVec 9
  /-- Index of the next slot in its frame. -/
  slot : BitVec 4
  /-- The next slot is the reserved slot of a restart (R83). -/
  restart : Bool
  /-- Port granted last: 0 L, 1 W, 2 X. -/
  last : Fin 3
  /-- Requester of port L granted last: 0 A feeder, 1 B feeder, 2 Vector Engine. -/
  lastL : Fin 3
  /-- Lines scrubbed by the pass under way. -/
  scrub : Option Nat
  /-- A repair has installed an entry in this refresh round. -/
  repaired : Bool
  repair : Option Repair
  remap : Sparse Remap
  deriving DecidableEq, Repr

/-- A zero walk in progress (R97). -/
structure Walk where
  /-- Every line is cleared (R99). -/
  all : Bool
  /-- Granules of the tract to clear (R100, R101). -/
  granules : List Nat
  /-- The tract becomes ON when the walk ends. -/
  power : Bool
  deriving DecidableEq, Repr

/-- Who sends a tile's Cistern access (R85, R86). -/
inductive Requester where
  | feederA | feederB | vec | wren | drain
  deriving DecidableEq, Repr

/-- What an access does: read a line or some bytes, or write a line under an 8-byte word mask, or some bytes. -/
inductive AccessKind where
  | readLine
  | writeLine (data : List Byte) (mask : Word) (poison : Byte)
  | readNarrow (size : Nat)
  | writeNarrow (data : List Byte) (poison : Bool)
  deriving DecidableEq, Repr

/-- An access waiting at a bank port, in order of arrival. -/
structure CisReq where
  id : Nat
  tile : Fin 16
  who : Requester
  addr : Nat
  kind : AccessKind
  ctx : Nat
  handle : Nat
  label : Word
  /-- Wave in which it arrives at the tract when nothing contends (R87). -/
  arrive : Nat
  deriving DecidableEq, Repr

/-- A response under way to its requester (R87). A poisoned word's data bits are zero (R122). -/
structure CisResp where
  id : Nat
  tile : Fin 16
  write : Bool
  data : List Byte
  /-- Poison mark of each code word returned. -/
  marks : List Bool
  /-- Which of them were uncorrectable. -/
  ue : List Bool
  status : Half
  deriving DecidableEq, Repr

/-- The Cistern and the CIS registers (Tables CIS-6 to CIS-9, INT-5 to INT-7). -/
structure Cis where
  mem : List Host.Cell
  /-- Stored check bits XOR the right ones, by 32-byte word (R117). -/
  synd : Sparse (BitVec 10)
  /-- Power state of each tract, code of Table CIS-5. -/
  tract : Sparse (BitVec 2)
  walk : Sparse (Option Walk)
  zeroWalks : Word
  tractFail : BitVec 64
  banks : Sparse Bank
  /-- Bank slots used (R489). -/
  slots : Word
  reqs : List CisReq
  resps : List CisResp
  elog : Sparse (BitVec 256)
  elogHead : BitVec 7
  elogTail : BitVec 7
  elogLost : Word
  ce : Word
  ue : Word
  poisonReads : Word
  scrubPasses : Word
  scrubbing : Bool
  scrubRate : BitVec 14
  ceNotify : Half
  deriving DecidableEq, Repr

/-! ## Configuration and contexts -/

/-- One configuration set (Table CTX-1): every RWS register word, by control-space offset over 4, as its difference
from its reset value. -/
abbrev CfgSet := Sparse Word

/-- A pending swap (R292). -/
structure Swap where
  /-- Slot of the CFG_SWAP; none for a GO write. -/
  slot : Option Nat
  affected : Half
  micros : Nat
  deriving DecidableEq, Repr

/-- An activated swap whose walks run (R296). -/
structure Walking where
  slot : Option Nat
  affected : Half
  /-- Tracts still walking, and how many walks began. -/
  tracts : List Nat
  walks : Nat
  deriving DecidableEq, Repr

/-- The CFG registers (Table CTX-5). -/
structure Cfg where
  view : Bool
  swap : Option Swap
  walking : Option Walking
  wlost : Bool
  timedOut : Bool
  affected : Half
  timeout : BitVec 24
  swaps : Word
  deriving DecidableEq, Repr

/-- R283. -/
inductive CtxState where
  | closed | opened | closing
  deriving DecidableEq, Repr

/-- A ring: PMH_CRING or SRV_ORING. `told`: the FULL notice has been sent since the ring last had room. -/
structure Ring where
  handle : BitVec 6
  size : BitVec 4
  first : BitVec 18
  head : Word
  tail : Word
  told : Bool
  deriving DecidableEq, Repr

/-- One tenant context (12). -/
structure Ctx where
  state : CtxState
  salt : DWord
  /-- Granules (tract × 4,096 + granule) still owned by the closing context (R101). -/
  closing : List Nat
  cring : Ring
  oring : Ring
  deriving DecidableEq, Repr

/-! ## Pumphouse -/

/-- Where a command comes from: a queue, or the step script of a context (R371). -/
inductive Origin where
  | queue (q : Nat)
  | script (c : Nat)
  deriving DecidableEq, Repr

/-- A decoded packet (Table CMD-2): all its bytes, its effective class (R256) and its place in the decode order. -/
structure Pkt where
  bytes : List Byte
  ctx : Nat
  cls : Nat
  order : Nat
  deriving DecidableEq, Repr

/-- One segment of a transfer that this die originated (R440). -/
structure Seg where
  /-- Bytes received of a read segment, and those of them that wait for the rest of their line. -/
  pos : Nat
  buf : List Byte
  /-- Poisoned words announced with its bytes, by number (R265, log 79). -/
  marks : List Nat
  ended : Bool
  status : Half
  reason : Byte
  /-- Bytes acknowledged. -/
  bytes : Nat
  deriving DecidableEq, Repr

/-- A transfer that this die originated: COPY to or from another die, FATTN with PEER. -/
structure Xfer where
  port : Nat
  peer : Half
  /-- Local handle and offset of a read's destination. -/
  handle : BitVec 6
  off : Nat
  len : Nat
  isRead : Bool
  semen : Bool
  sem : Byte
  semval : Word
  segs : List Seg
  /-- Status when every segment reports OK (the data status of the local reads). -/
  okStatus : Half
  /-- Completion data of a FATTN; none for a COPY, whose data is the byte count. -/
  data : Option (List Byte)
  deriving DecidableEq, Repr

/-- A RUN, from dispatch to the end of its last tile (R242 to R247). -/
structure RunJob where
  tiles : Half
  phandle : BitVec 6
  poff : Nat
  load : Bool
  plines : Nat
  entry : Nat
  args : List DWord
  /-- The fill of a LOAD has ended. -/
  filled : Bool
  started : Bool
  /-- Tiles that have ended or halted. -/
  ended : Half
  /-- Halted tiles with status, bundle and REASON. -/
  halts : Sparse (Option (Half × Nat × Byte))
  /-- Flags raised by the engines of tiles that have ended. -/
  flags : BitVec 4
  /-- Worst data status under R123. -/
  data : Half
  deriving DecidableEq, Repr

/-- Progress of a CTX_CLOSE (Table CTX-3). -/
structure CloseJob where
  target : Nat
  /-- 1 waiting under R302, 2 rows 1 to 4, 7 walking. -/
  row : Nat
  ended : Nat
  retired : Nat
  tracts : List Nat
  walks : Nat
  deriving DecidableEq, Repr

/-- What an in-flight command waits for. -/
inductive Job where
  /-- Its completion stands in `compl`. -/
  | ended
  | fence (ctxScope : Bool)
  | semWait (sem : Nat) (take : Bool) (thr : Word)
  | remoteSig (port : Nat) (peer : Half) (sem : Nat)
  | xfer (x : Xfer)
  | run (r : RunJob)
  | rollback (req newLen : Nat) (trim : Bool)
  | cancel (req : Nat)
  /-- TRACT_POWER ON waiting until the tracts are ON (R106). -/
  | tractOn (tracts : List Nat)
  /-- TRACT_POWER waiting for tracts of an earlier one (R106). -/
  | tractWait (on : Bool) (tracts : List Nat)
  /-- REPAIR_ROW waiting for its bank; `restore` writes a zeroed spare (R132 to R134). -/
  | repair (restore : Bool) (tract bank row : Nat)
  | swap
  | close (j : CloseJob)
  | detach
  | lark (frame : Nat)
  /-- FATTN or MERGE_LSE waiting for its tiles (R304), with its packet's bytes. -/
  | attend (bytes : List Byte)
  /-- REQ_CANCEL whose output record waits (R377, R378), with its status and completion data. -/
  | record (st : Half) (data : List Byte)
  | step
  deriving DecidableEq, Repr

/-- An in-flight command (R273). -/
structure Cmd where
  origin : Origin
  tag : Half
  notify : Bool
  ctx : Nat
  cls : Nat
  /-- Decode order; of a script's command, its index in the script. -/
  order : Nat
  /-- Dispatch order. -/
  serial : Nat
  /-- Wave of dispatch. -/
  wave : Nat
  opcode : Byte
  flags : BitVec 4
  /-- Data status of the reads made at its dispatch (R123). -/
  data : Half
  /-- Pages it has pinned (R332), once per pin. -/
  pins : List Nat
  job : Job
  deriving DecidableEq, Repr

/-- A completion waiting to be written (Table CMD-6). -/
structure Compl where
  /-- Its in-flight slot; none for a packet that failed a header check. -/
  slot : Option Nat
  ctx : Nat
  queue : Nat
  tag : Half
  notify : Bool
  status : Half
  reason : Byte
  flags : BitVec 4
  late : Bool
  wave : Nat
  data : List Byte
  deriving DecidableEq, Repr

/-- One queue (11 R249 to R255). -/
structure Queue where
  head : Word
  tail : Word
  faulted : Bool
  fstatus : Half
  cond : Bool
  pred : BitVec 2
  /-- Packets decoded and not yet dispatched, in ring order. -/
  decoded : List Pkt
  /-- Slot of the dispatched command that holds the queue (R272). -/
  hold : Option Nat
  /-- Packets ahead of dispatch whose headers lookahead has read. -/
  looked : Nat
  deriving DecidableEq, Repr

/-- A semaphore signal under way: to a tile semaphore, or to a die semaphore (`tile` none). -/
structure Signal where
  id : Nat
  /-- Tile that sends it. -/
  source : Fin 16
  tile : Option (Fin 16)
  sem : Nat
  value : Word
  deriving DecidableEq, Repr

/-- The Pumphouse (11). -/
structure Pmh where
  sem : Sparse Word
  tileHold : Half
  qerrors : Word
  qdiscard : Word
  laPrestage : Word
  laMispred : Word
  /-- Last queue served in each class, plus one; 0 for none (R257). -/
  lastQ : Sparse Nat
  /-- Class of the round under way, and its decodes so far (R258). -/
  roundCls : Nat
  roundUsed : Nat
  order : Nat
  serial : Nat
  /-- In-flight commands by slot. -/
  cmds : Sparse (Option Cmd)
  /-- Completions waiting, oldest first. -/
  compl : List Compl
  sigs : List Signal
  deriving DecidableEq, Repr

/-! ## Tiles -/

/-- The running tile program (R50, R245). -/
structure Prog where
  slot : Nat
  ctx : Nat
  tiles : Half
  rank : Nat
  deriving DecidableEq, Repr

/-- A store-buffer entry (R230). -/
structure StoreEntry where
  id : Nat
  addr : Nat
  bytes : List Byte
  poison : Bool
  deriving DecidableEq, Repr

/-- A narrow load under way, or held (R231). -/
structure NarrowLoad where
  id : Nat
  rd : Nat
  addr : Nat
  size : Nat
  sx : Bool
  handle : Nat
  label : Word
  deriving DecidableEq, Repr

/-- A TWAIT or TTAKE in force (R237). -/
structure TileWait where
  sem : Nat
  value : Word
  take : Bool
  deriving DecidableEq, Repr

/-- A TSIG (`tile`) or DSIG held until earlier writes are acknowledged (R239). -/
structure HeldSignal where
  tile : Option (Fin 16)
  sem : Nat
  value : Word
  deriving DecidableEq, Repr

/-- A line of an instruction-buffer fill under way: access and first bundle. -/
structure FillLine where
  id : Nat
  dest : Nat
  deriving DecidableEq, Repr

/-- A Wren (10). -/
structure Wren where
  x : Sparse DWord
  xMark : Sparse Bool
  /-- Predicates p0 to p7. -/
  p : BitVec 8
  pc : Nat
  /-- The registers as the bundle being issued reads them (R225). -/
  snapX : Sparse DWord
  snapMark : Sparse Bool
  snapP : BitVec 8
  /-- Slots of that bundle already issued: scalar, move, tensor, vector. -/
  issued : BitVec 4
  /-- Target of a taken branch of that bundle. -/
  target : Option Nat
  prog : Option Prog
  /-- The launch that holds the tile while its buffer fills (R244). -/
  claim : Option Nat
  ibuf : Sparse (BitVec 128)
  /-- Status of each poisoned bundle (R240). -/
  ibMark : Sparse Half
  owner : Option Nat
  /-- Context of the last program (Table CTX-3 row 6). -/
  lastCtx : Option Nat
  fills : List FillLine
  stores : List StoreEntry
  loads : List NarrowLoad
  held : Option NarrowLoad
  /-- Wave in which the held load was held (R232). -/
  heldAt : Nat
  wait : Option TileWait
  sig : Option HeldSignal
  tsem : Sparse Word
  halted : Bool
  haltStatus : Half
  haltPc : Nat
  /-- Order of the check in Table CIS-4 that halted it (Table CMD-6). -/
  haltReason : Byte
  /-- END has issued. -/
  ended : Bool
  /-- Status to halt with before the next bundle (Table CTX-3 row 3; R520). -/
  kill : Option Half
  /-- Worst data status of the program's accesses, and the flags its engines have raised. -/
  data : Half
  raised : BitVec 4
  /-- Writes of VST and MST not yet acknowledged. -/
  vstores : List Nat
  bundles : Word
  stalls : Word
  mispred : Word
  loadHolds : Word
  deriving DecidableEq, Repr

/-- Operand kinds of an array instruction. -/
inductive OpPart where
  | a | b | sa | sb | bias
  deriving DecidableEq, Repr

/-- One operand line of an array instruction, and its data once it has arrived. -/
structure OpLine where
  id : Nat
  part : OpPart
  idx : Nat
  data : List Byte
  marks : List Bool
  arrived : Bool
  deriving DecidableEq, Repr

/-- An issued array instruction (Table ARR-1) with its descriptors. -/
structure ArrInstr where
  op : Nat
  fa : Nat
  fb : Nat
  sa : Bool
  sb : Bool
  acc : Nat
  init : Bool
  drain : Bool
  /-- Feed descriptors x[XA], x[XB], and the three drain descriptor registers. -/
  xa : DWord
  xb : DWord
  xd0 : DWord
  xd1 : DWord
  xd2 : DWord
  ctx : Nat
  lines : List OpLine
  deriving DecidableEq, Repr

/-- A drain under way (R560): its outputs, the writes not yet acknowledged, what it does to registers and flags. -/
structure Drain where
  long : Bool
  acc : Nat
  /-- The instruction, while its bias line has not come: no output is formed yet (R560). -/
  wait : Option ArrInstr
  /-- Accesses not yet acknowledged. -/
  ids : List Nat
  /-- First tile register, for a drain into the Vector Engine. -/
  vreg : Option Nat
  values : List Word
  rowMarks : List Bool
  flags : BitVec 4
  deriving DecidableEq, Repr

/-- A Tensor Array (08). -/
structure Arr where
  run : Option ArrInstr
  pend : Option ArrInstr
  drains : List Drain
  /-- FP32 or INT32 bits of cell (i, j) of set s at s × 16,384 + 128 i + j. -/
  acc : Sparse Word
  /-- Binary64 bits of cell (i, j) of long-corner set s at s × 256 + 16 i + j. -/
  dacc : Sparse DWord
  /-- Poison marks of rows and columns: set s (2 and 3 the long corner's), index i at s × 128 + i (R198). -/
  rowMark : Sparse Bool
  colMark : Sparse Bool
  /-- Kind of each set, 0 empty, 1 FP32, 2 INT32, 3 FP64; sets 2 and 3 are the long corner's (R192). -/
  kind : Sparse Nat
  cold : Bool
  /-- Effective duty of the frame (R490), and the wave of the frame that is next, 0 to 8. -/
  duty : BitVec 4
  place : Nat
  /-- Operand waves that the running instruction has fired. -/
  fired : Nat
  /-- Waves of its ramp that have passed, from the first in which its queues held its entry on; 64: no ramp (R195). -/
  ramp : Nat
  /-- Operand waves by operand formats, 16 FA + FB (R489). -/
  pairWaves : Sparse Word
  flags : BitVec 4
  opWaves : Word
  bubbles : Word
  govIdle : Word
  coldStarts : Word
  deriving DecidableEq, Repr

/-- What a vector load fills. -/
inductive VLoadDest where
  | reg (vd : Nat)
  | mask (md : Nat)
  | table (td : Nat)
  deriving DecidableEq, Repr

/-- A vector load under way (R212, R214): its lines, its block and scale lines in order, its format and its mask. -/
structure VecLoad where
  dest : VLoadDest
  fmt : Nat
  signed : Bool
  scaled : Bool
  /-- Active elements, when MEN is 1; MZ. -/
  mask : Option (Sparse Bool)
  mz : Bool
  maskMarks : Sparse Bool
  /-- No write of VEC_AMAX has come since it issued (R157). -/
  counts : Bool
  /-- The largest source value of the conversions that issued behind it, which VEC_AMAX takes after its own (R157). -/
  later : Word
  lines : List OpLine
  deriving DecidableEq, Repr

/-- A Vector Engine slice (09). -/
structure Vec where
  /-- Element (r, j) of register n at 4,096 n + 128 r + j. -/
  v : Sparse Word
  /-- Mark of row r of register n at 32 n + r. -/
  vMark : Sparse Bool
  m : Sparse Bool
  mMark : Sparse Bool
  /-- Entry k of table n at 257 n + k. -/
  t : Sparse Word
  tMark : Sparse Bool
  busy : Bool
  loads : List VecLoad
  flags : BitVec 4
  amax : Word
  qscale : Word
  rows : Word
  stalls : Word
  deriving DecidableEq, Repr

structure Tile where
  wren : Wren
  arr : Arr
  vec : Vec
  deriving DecidableEq, Repr

/-! ## Serving, pages, sampling, attention -/

/-- Table SRV-2. -/
inductive ReqState where
  | free | admitted | prefill | decode | pageWait | budgetWait | draining | done
  deriving DecidableEq, Repr

/-- A request entry (Table SRV-1), its context and its state before the build (R374). -/
structure Entry where
  state : ReqState
  before : ReqState
  ctx : Nat
  late : Bool
  cancel : Bool
  keepKv : Bool
  inStep : Bool
  reason : Half
  length : Nat
  promptLeft : Nat
  newLeft : Nat
  deadline : DWord
  customer : Nat
  priority : Nat
  slot : Nat
  dhandle : BitVec 6
  phandle : BitVec 6
  penhandle : BitVec 6
  nstop : Nat
  ndraft : Nat
  diroff : DWord
  promptoff : DWord
  penoff : DWord
  seed : DWord
  counter : Word
  reserve : Nat
  seq : Word
  lastTok : Word
  stop : List Word
  draft : List Word
  deriving DecidableEq, Repr

/-- A customer's budget and ledger (R361, R533). -/
structure Customer where
  budget : Word
  reserved : Word
  refilled : Word
  added : Word
  charged : Word
  deriving DecidableEq, Repr

/-- A row selected by a build (Table SRV-5). -/
structure StepRow where
  req : Nat
  /-- 0 decode, 1 prompt chunk, 2 final chunk. -/
  kind : Nat
  ntok : Nat
  tokBase : Nat
  pos : Nat
  deriving DecidableEq, Repr

/-- What the sampler reports for a row (R375). -/
inductive Sample where
  /-- Not sampled: a chunk, or a cancelled row. -/
  | skipped
  | noCandidate
  /-- Accepted drafts and the new token. -/
  | picked (accepted : Nat) (token : Word)
  deriving DecidableEq, Repr

/-- Phase of a STEP (R366). -/
inductive StepPhase where
  | script | sampled | records
  deriving DecidableEq, Repr

/-- The STEP in flight of a context. -/
structure StepJob where
  slot : Nat
  phase : StepPhase
  bhandle : BitVec 6
  boff : Nat
  rows : List StepRow
  tokens : Nat
  stepSeq : Word
  /-- Deferral counts of R379 in order. -/
  counts : List Nat
  /-- Unit of the script's next packet, its index, and the row its KV_APPEND expands next. -/
  unit : Nat
  index : Nat
  row : Nat
  /-- Slot of the script command that holds the script (R272). -/
  hold : Option Nat
  /-- Status, REASON and FAILIDX of the failure that ends the script or the sampling. -/
  fail : Option (Half × Byte × Nat)
  /-- The sampling slot of each row as the build read it (R384). -/
  slots : List (List Word)
  samples : List Sample
  /-- Uniforms that each row used (R391). -/
  draws : List Nat
  data : Half
  flags : BitVec 4
  late : Bool
  deriving DecidableEq, Repr

/-- An output record that waits for its ring (R378), with the slots of the commands that complete after it. -/
structure OutRec where
  bytes : List Byte
  slots : List Nat
  deriving DecidableEq, Repr

structure Srv where
  entries : Sparse Entry
  seq : Word
  steps : Word
  refusals : Word
  late : Word
  draftLost : Word
  cust : Sparse Customer
  jobs : Sparse (Option StepJob)
  /-- Output records waiting, by context, oldest first. -/
  recs : Sparse (List OutRec)
  deriving DecidableEq, Repr

/-- A context's page pool and prefix index (Table KVP-8). Page records and nodes are in the Cistern. -/
structure Pool where
  phandle : BitVec 6
  fmt : BitVec 2
  headdim : BitVec 2
  live : Bool
  armErr : BitVec 2
  pages : BitVec 20
  dataOff : BitVec 30
  metaOff : BitVec 30
  xhandle : BitVec 6
  bucketBits : BitVec 5
  nodes : BitVec 20
  pxOff : BitVec 30
  bucketOff : BitVec 30
  layers : Half
  heads : Half
  free : Nat
  reserved : Nat
  held : Nat
  reclaim : Nat
  fresh : Nat
  nodesLive : Nat
  cows : Word
  /-- Free stack, top first (R330). -/
  stack : List Nat
  nodeStack : List Nat
  nodeFresh : Nat
  deriving DecidableEq, Repr

structure Smp where
  /-- SMP_SLOT word w of slot n at 16 n + w, as its difference from its reset value. -/
  slots : Sparse Word
  draws : Word
  accepted : Word
  rejected : Word
  noCand : Word
  penOvf : Word
  badSlot : Word
  deriving DecidableEq, Repr

structure Att where
  emptyRows : Word
  lenFail : Word
  nanRows : Word
  deriving DecidableEq, Repr

/-! ## Lark -/

/-- A reference-pool buffer (R407): MARK code of R408, VALID, REFCNT. -/
structure Buf where
  mark : BitVec 2
  valid : Bool
  refcnt : Nat
  deriving DecidableEq, Repr

/-- A Lark stream (Table LRK-3), its rate history (R418) and whether its candidate field holds an inter frame (R419). -/
structure Stream where
  opened : Bool
  mode : Nat
  bufs : Nat
  width : Nat
  height : Nat
  depth : Nat
  grain : Bool
  handle : BitVec 6
  poolOff : Nat
  bufBytes : Nat
  baseQp : Int
  qpOff : List Int
  qpMin : Int
  qpMax : Int
  qpStep : Int
  winFrames : Nat
  winBits : Nat
  /-- Bits of the latest frames, newest first, at most 64. -/
  hist : List Nat
  /-- An inter frame has been coded, and so a candidate field exists; its vectors in quarter samples, block by block (R419). -/
  interSeen : Bool
  field : List (Int × Int)
  buf : Sparse Buf
  deriving DecidableEq, Repr

/-- Kind of a Lark frame. -/
inductive FrameKind where
  | decode | encode | preform
  deriving DecidableEq, Repr

/-- A dispatched, uncompleted frame (R412), with its packet's bytes. -/
structure Frame where
  id : Nat
  slot : Nat
  ctx : Nat
  cls : Nat
  kind : FrameKind
  /-- Its stream, or none. -/
  stream : Option Nat
  /-- Buffers it counts (R407). -/
  bufs : List Nat
  target : Option Nat
  missing : Half
  bytes : List Byte
  /-- Data status of the syntax block's read. -/
  data : Half
  started : Bool
  deriving DecidableEq, Repr

/-- An engine: 0 to 3 decode, 4 encode, 5 Preform (R399). -/
structure Engine where
  /-- The frame it runs. -/
  frame : Option Nat
  /-- The frame it has suspended (R427). -/
  suspended : Option Nat
  /-- Its frame has been chosen for suspension at its next CTU-row boundary. -/
  toSuspend : Bool
  /-- Stopped under R428. -/
  stopped : Bool
  deriving DecidableEq, Repr

structure Lrk where
  streams : Sparse Stream
  frames : List Frame
  nextFrame : Nat
  engines : Sparse Engine
  /-- LRK_LAMBDA and LRK_TAPS, as differences from their reset values. -/
  lambda : Sparse Word
  taps : Sparse Word
  /-- Luma samples decoded. -/
  decPix : Nat
  /-- Luma samples that engines have decoded, encoded or converted (R489). -/
  samples : Word
  concealed : Word
  preempts : Word
  deriving DecidableEq, Repr

/-! ## Test access -/

/-- The test access port (23 R551 to R557). -/
structure Tap where
  ir : Byte
  bsr : BitVec 14
  wrapSel : Half
  /-- Wrapper instruction registers, by physical tile. -/
  wrapIr : Sparse (BitVec 4)
  /-- Wrapper data chains, by physical tile. -/
  wrapDr : Sparse (List Bool)
  scr : Bool
  dwr : BitVec 128
  bypass : Bool
  /-- Pass bits of the last MARCH. -/
  marchPass : BitVec 1024
  /-- What the last scan shifted out of TDO, first bit first. -/
  tdo : List Bool
  deriving DecidableEq, Repr

/-! ## The whole die -/

structure State where
  /-- The model's queue of waiting commands, first in, first out (log 1). -/
  pending : List Instr
  /-- The model's counter of free values (log 2). -/
  free : Nat
  /-- The model's number of the next Cistern access or signal (log 9). -/
  nextId : Nat
  time : Time
  fuse : Fuse
  pins : Pins
  idScratch : Word
  idStrapErr : Bool
  rst : Rst
  pwr : Pwr
  top : Top
  ports : Sparse Port
  rxSegs : List RxSeg
  cis : Cis
  /-- Active and shadow configuration sets (R288). -/
  act : CfgSet
  shd : CfgSet
  cfg : Cfg
  ctxs : Sparse Ctx
  ctxCloses : Word
  queues : Sparse Queue
  pmh : Pmh
  tiles : Sparse Tile
  srv : Srv
  kvp : Sparse Pool
  smp : Smp
  att : Att
  lrk : Lrk
  tap : Tap
  deriving DecidableEq, Repr

/-! ## Reset values -/

/-- DESIGN CHOICE (log 4): an LXJ-G16T of stepping 0, every tile present, no test repair. -/
def Fuse.reset : Fuse :=
  { series := 0, grade12 := false, planar := false, stepping := 0, present := 0xFFFF, serial := 1, imageOk := true,
    testRepairs := [] }

/-- DESIGN CHOICE (log 5): RST_N holds the die in a cold reset, every strap reads 0. -/
def Pins.reset : Pins :=
  { pwrgdAux := true, pwrgdCore := true, rstN := false, trstN := true, orient := 0, tier := 0, site := 0, thermtrip := false }

def Rst.reset : Rst :=
  { held := some .cold, kind := .cold, phase := 0, fuseErr := false, cause := 1, count := 0, readyUs := 0,
    detachBound := 1000, noticeLost := 0, idLoaded := false, fuseDone := false, testDone := false, zeroDone := false,
    windowDone := false, ready := false, readySent := false, hubFound := false, strapTold := false, noticeBuf := [],
    detach := none, standby := false }

def Time.reset : Time :=
  { wave := 0, valid := false, base := 0, interp := 0, last := 0, frac := 0, lostSent := false, adj := 0, pace := 160 }

def Top.reset : Top :=
  { orient := 0, tier := 0, site := 0, module := 0, mapv := false, hubPort := 0xF, lastDist := 0xFF, route := [],
    learn := [], expect := [], mismatch := 0, suspended := 0, unroutable := 0 }

def Port.reset : Port :=
  { en := true, maxRate := 2, zrcEn := true, hubOff := false, e2e := 100, state := .disabled, rate := 0, half := false,
    repaired := 0, partner := none, heard := false, unacked := 0, trained := false, txSeq := 0, rxSeq := 0,
    rxAny := false, retry := [], replayed := [], again := [], idleSent := false, idleHeard := false, nakOpen := false, leaving := false, egress := [], wire := [], sent := [],
    gotTot := [], retTot := [], crvc := 0, txFlits := 0, rxFlits := 0, crcErr := 0, replays := 0, retrains := 0,
    downs := 0, protErr := 0, zrcFlits := 0 }

def Pwr.reset : Pwr :=
  { limit := 720, limitNext := none, estimate := 0, counted := [], capPower := 8, capThermal := 8, capStack := 8, lowWindows := 0,
    highWindows := 0, overlimit := false, overlimits := 0, vcoreWarn := false, vcisWarn := false, vlinkWarn := false,
    coreBrown := false, cisBrown := false, holds := 0, halt := false, halts := 0, temp := [], lower := 0, stackMiss := false, reported := false, vcore := 0,
    vcis := 0, vlink := 0, vaux := 0, telGov := false, telStack := false, telHold := false, telHalt := false,
    telTmax := 0, telSum := 0, telCount := 0, telVcore := 0, sbSeq := 0, sbWire := [] }

def Remap.reset : Remap := { row := 0, valid := false, source := 0, bad := false }

/-- After reset the search starts at L, and at the A feeder within L (R85). -/
def Bank.reset : Bank :=
  { refresh := 0, slot := 0, restart := false, last := 2, lastL := 2, scrub := none, repaired := false, repair := none,
    remap := [] }

/-- What an unlisted byte of the Cistern reads as: zero, since bring-up zero fills every tract (R526). -/
def Memory.default : Byte := 0

/-- Canonical form of the Cistern's contents: strictly rising addresses, no entry that an unlisted address reads. -/
def Memory.wf (m : List Host.Cell) : Bool := spWf Memory.default m

def Cis.reset : Cis :=
  { mem := [], synd := [], tract := [], walk := [], zeroWalks := 0, tractFail := 0, banks := [], slots := 0, reqs := [], resps := [],
    elog := [], elogHead := 0, elogTail := 0, elogLost := 0, ce := 0, ue := 0, poisonReads := 0, scrubPasses := 0,
    scrubbing := false, scrubRate := 1000, ceNotify := 0 }

def Cfg.reset : Cfg :=
  { view := false, swap := none, walking := none, wlost := false, timedOut := false, affected := 0, timeout := 10000,
    swaps := 0 }

def Ring.reset : Ring := { handle := 0, size := 0, first := 0, head := 0, tail := 0, told := false }

def Ctx.reset : Ctx := { state := .closed, salt := 0, closing := [], cring := Ring.reset, oring := Ring.reset }

def Queue.reset : Queue :=
  { head := 0, tail := 0, faulted := false, fstatus := 0, cond := true, pred := 1, decoded := [], hold := none,
    looked := 0 }

def Pmh.reset : Pmh :=
  { sem := [], tileHold := 0, qerrors := 0, qdiscard := 0, laPrestage := 0, laMispred := 0, lastQ := [], roundCls := 1,
    roundUsed := 0, order := 0, serial := 0, cmds := [], compl := [], sigs := [] }

def Wren.reset : Wren :=
  { x := [], xMark := [], p := 1, pc := 0, snapX := [], snapMark := [], snapP := 1, issued := 0, target := none,
    prog := none, claim := none, ibuf := [], ibMark := [], owner := none, lastCtx := none, fills := [], stores := [],
    loads := [], held := none, heldAt := 0, wait := none, sig := none, tsem := [], halted := false, haltStatus := 0, haltPc := 0,
    haltReason := 0, ended := false, kill := none, data := 0, raised := 0, vstores := [], bundles := 0, stalls := 0, mispred := 0, loadHolds := 0 }

def Arr.reset : Arr :=
  { run := none, pend := none, drains := [], acc := [], dacc := [], rowMark := [], colMark := [], kind := [],
    cold := true, duty := 8, place := 0, fired := 0, ramp := 64, pairWaves := [], flags := 0, opWaves := 0, bubbles := 0,
    govIdle := 0, coldStarts := 0 }

def Vec.reset : Vec :=
  { v := [], vMark := [], m := [], mMark := [], t := [], tMark := [], busy := false, loads := [], flags := 0, amax := 0,
    qscale := 0x3F800000, rows := 0, stalls := 0 }

def Tile.reset : Tile := { wren := Wren.reset, arr := Arr.reset, vec := Vec.reset }

def Entry.reset : Entry :=
  { state := .free, before := .free, ctx := 0, late := false, cancel := false, keepKv := false, inStep := false,
    reason := 0, length := 0, promptLeft := 0, newLeft := 0, deadline := 0, customer := 0, priority := 0, slot := 0,
    dhandle := 0, phandle := 0, penhandle := 0, nstop := 0, ndraft := 0, diroff := 0, promptoff := 0, penoff := 0,
    seed := 0, counter := 0, reserve := 0, seq := 0, lastTok := 0, stop := [], draft := [] }

def Customer.reset : Customer := { budget := 0, reserved := 0, refilled := 0, added := 0, charged := 0 }

def Srv.reset : Srv :=
  { entries := [], seq := 0, steps := 0, refusals := 0, late := 0, draftLost := 0, cust := [], jobs := [], recs := [] }

def Pool.reset : Pool :=
  { phandle := 0, fmt := 0, headdim := 0, live := false, armErr := 0, pages := 0, dataOff := 0, metaOff := 0,
    xhandle := 0, bucketBits := 0, nodes := 0, pxOff := 0, bucketOff := 0, layers := 0, heads := 0, free := 0,
    reserved := 0, held := 0, reclaim := 0, fresh := 0, nodesLive := 0, cows := 0, stack := [], nodeStack := [],
    nodeFresh := 0 }

def Smp.reset : Smp :=
  { slots := [], draws := 0, accepted := 0, rejected := 0, noCand := 0, penOvf := 0, badSlot := 0 }

def Att.reset : Att := { emptyRows := 0, lenFail := 0, nanRows := 0 }

def Buf.reset : Buf := { mark := 0, valid := false, refcnt := 0 }

def Stream.reset : Stream :=
  { opened := false, mode := 0, bufs := 0, width := 0, height := 0, depth := 0, grain := false, handle := 0,
    poolOff := 0, bufBytes := 0, baseQp := 0, qpOff := [], qpMin := 0, qpMax := 0, qpStep := 0, winFrames := 0,
    winBits := 0, hist := [], interSeen := false, field := [], buf := [] }

def Engine.reset : Engine := { frame := none, suspended := none, toSuspend := false, stopped := false }

def Lrk.reset : Lrk :=
  { streams := [], frames := [], nextFrame := 0, engines := [], lambda := [], taps := [], decPix := 0, samples := 0, concealed := 0,
    preempts := 0 }

/-- IDCODE is selected (R551); the other test registers read 0 (DESIGN CHOICE, log 6). -/
def Tap.reset : Tap :=
  { ir := 1, bsr := 0, wrapSel := 0, wrapIr := [], wrapDr := [], scr := false, dwr := 0, bypass := false,
    marchPass := 0, tdo := [] }

/-- The die held in a cold reset (R506, R518), with no command waiting. -/
def State.reset : State :=
  { pending := [], free := 0, nextId := 0, time := Time.reset, fuse := Fuse.reset, pins := Pins.reset, idScratch := 0,
    idStrapErr := false, rst := Rst.reset, pwr := Pwr.reset, top := Top.reset, ports := [], rxSegs := [],
    cis := Cis.reset, act := [], shd := [], cfg := Cfg.reset, ctxs := [], ctxCloses := 0, queues := [],
    pmh := Pmh.reset, tiles := [], srv := Srv.reset, kvp := [], smp := Smp.reset, att := Att.reset, lrk := Lrk.reset,
    tap := Tap.reset }

end Sys2Proof.Machine
end

