-- ==== Sys2Proof/Machine/Bits.lean ====
section
/-!
DEFINITION. Bytes and bit fields (00 R12, R13): little-endian, bit 0 least significant.
-/

namespace Sys2Proof.Machine

/-- The number that little-endian bytes spell. -/
def leNat : List Byte → Nat
  | [] => 0
  | b :: bs => b.toNat + 256 * leNat bs

/-- The `n` little-endian bytes of a number. -/
def leBytes : Nat → Nat → List Byte
  | 0, _ => []
  | n + 1, v => BitVec.ofNat 8 v :: leBytes n (v / 256)

/-- Byte `i` of a packet, flit or block; 0 past its end. -/
def byteAt (bs : List Byte) (i : Nat) : Byte := bs.getD i 0

/-- The `n`-byte field at byte `i`. -/
def fieldAt (bs : List Byte) (i n : Nat) : Nat := leNat ((List.range n).map (fun k => byteAt bs (i + k)))

def halfAt (bs : List Byte) (i : Nat) : Half := BitVec.ofNat 16 (fieldAt bs i 2)
def wordAt (bs : List Byte) (i : Nat) : Word := BitVec.ofNat 32 (fieldAt bs i 4)
def dwordAt (bs : List Byte) (i : Nat) : DWord := BitVec.ofNat 64 (fieldAt bs i 8)

/-- Bits [lo + n - 1 : lo] of a number. -/
def bits (v lo n : Nat) : Nat := v / 2 ^ lo % 2 ^ n

/-- Bit `i` of a number. -/
def bit (v i : Nat) : Bool := decide (v / 2 ^ i % 2 = 1)

def b2n (b : Bool) : Nat := if b then 1 else 0

/-- `v` placed at bit `lo`. -/
def at_ (v lo : Nat) : Nat := v * 2 ^ lo

/-- `bs` cut or padded with zero bytes to length `n`. -/
def padTo (n : Nat) (bs : List Byte) : List Byte := (List.range n).map (byteAt bs)

/-- The signed value of the low `n` bits. -/
def signed (v n : Nat) : Int := let u := v % 2 ^ n; if u < 2 ^ (n - 1) then (u : Int) else (u : Int) - (2 ^ n : Nat)

/-- A + B, saturating at 2^32 - 1. -/
def satAdd32 (a b : Word) : Word :=
  if a.toNat + b.toNat < 2 ^ 32 then a + b else 0xFFFFFFFF

/-- Bit `i` of a mask, set or cleared. -/
def setBit {w : Nat} (m : BitVec w) (i : Nat) (b : Bool) : BitVec w :=
  if b then m ||| BitVec.ofNat w (2 ^ i) else m &&& ~~~ BitVec.ofNat w (2 ^ i)

/-- The numbers of the set bits of a mask, ascending. -/
def maskList (v n : Nat) : List Nat := (List.range n).filter (bit v)

/-- The least element of `l` that satisfies `p`, in list order. -/
def firstThat {α : Type} (p : α → Bool) (l : List α) : Option α := l.find? p

/-- Insertion by key. -/
def insertBy (key : Nat → Nat) (x : Nat) : List Nat → List Nat
  | [] => [x]
  | y :: ys => if key x ≤ key y then x :: y :: ys else y :: insertBy key x ys

def sortBy (key : Nat → Nat) (l : List Nat) : List Nat := l.foldr (insertBy key) []

/-- The element of a list that comes before every other, the first of equals. -/
def firstBy {α : Type} (before : α → α → Bool) : List α → Option α
  | [] => none
  | x :: l => match firstBy before l with
    | none => some x
    | some y => if before y x then some y else some x

/-- The list with its element at `i` replaced. -/
def setAt {α : Type} : List α → Nat → α → List α
  | [], _, _ => []
  | _ :: l, 0, a => a :: l
  | b :: l, i + 1, a => b :: setAt l i a

end Sys2Proof.Machine
end

