-- ==== Sys2Proof/Machine/Flags.lean ====
section
/-! DEFINITION. The sticky numeric flags (06 R158, Tables NUM-5, NUM-7, NUM-8): OF, UF, NX and NV in bits 0 to 3. -/

namespace Sys2Proof.Machine

abbrev Flags := BitVec 4

def flOF : Flags := 1
def flUF : Flags := 2
def flNX : Flags := 4
def flNV : Flags := 8

def flagIf (b : Bool) (f : Flags) : Flags := if b then f else 0

/-- A result and the flags it raises. -/
structure Res (α : Type) where
  out : α
  fl : Flags

/-- Compute `f 0`, …, `f (n - 1)` and gather their flags. -/
def resTable {α : Type} (f : Nat → Res α) (n : Nat) : Res (List α) :=
  let xs := (List.range n).map f
  ⟨xs.map (fun x => x.out), xs.foldl (fun a x => a ||| x.fl) 0⟩

end Sys2Proof.Machine
end

