-- ==== Sys2Proof/Machine/Ops.lean ====
section
/-!
DEFINITION. Exact values and their one rounding (06 R139, R142 to R150). Every finite value the die computes is a dyadic
number: a natural significand times a power of two.
-/

namespace Sys2Proof.Machine

/-- An exact value. A NaN remembers whether storing it raises NV: a signalling operand or an invalid operation made it
(R148). -/
inductive Val where
  | nan (nv : Bool)
  | inf (neg : Bool)
  /-- (−1)^neg × m × 2^e; m = 0 is a signed zero. -/
  | num (neg : Bool) (m : Nat) (e : Int)
  deriving DecidableEq, Repr

def Val.zero (neg : Bool) : Val := .num neg 0 0

def Val.ofInt (i : Int) : Val := .num (decide (i < 0)) i.natAbs 0

def Val.one : Val := .num false 1 0

def Val.isNan : Val → Bool
  | .nan _ => true
  | _ => false

def Val.isInf : Val → Bool
  | .inf _ => true
  | _ => false

def Val.isZero : Val → Bool
  | .num _ m _ => decide (m = 0)
  | _ => false

/-- The value makes NV rise when it is stored. -/
def Val.nv : Val → Bool
  | .nan b => b
  | _ => false

def Val.sign : Val → Bool
  | .nan _ => false
  | .inf n => n
  | .num n _ _ => n

def Val.neg : Val → Val
  | .nan b => .nan b
  | .inf n => .inf (!n)
  | .num n m e => .num (!n) m e

def Val.abs : Val → Val
  | .nan b => .nan b
  | .inf _ => .inf false
  | .num _ m e => .num false m e

/-- Times 2^k. -/
def Val.scale (v : Val) (k : Int) : Val :=
  match v with
  | .num n m e => .num n m (e + k)
  | v => v

/-- The exact product; 0 × ∞ is invalid (R148). -/
def Val.mul : Val → Val → Val
  | .nan a, .nan b => .nan (a || b)
  | .nan a, _ => .nan a
  | _, .nan b => .nan b
  | .inf a, .inf b => .inf (a != b)
  | .inf a, .num b m _ => if m = 0 then .nan true else .inf (a != b)
  | .num a m _, .inf b => if m = 0 then .nan true else .inf (a != b)
  | .num a m e, .num b n f => .num (a != b) (m * n) (e + f)

/-- m × 2^e as a signed multiple of 2^f, for f at most e. -/
def signedAt (neg : Bool) (m : Nat) (e f : Int) : Int :=
  let k : Int := (m * 2 ^ (e - f).toNat : Nat)
  if neg then -k else k

/-- The exact sum (R148, R149): a zero sum of opposite signs is +0. -/
def Val.add : Val → Val → Val
  | .nan a, .nan b => .nan (a || b)
  | .nan a, _ => .nan a
  | _, .nan b => .nan b
  | .inf a, .inf b => if a = b then .inf a else .nan true
  | .inf a, _ => .inf a
  | _, .inf b => .inf b
  | .num a m e, .num b n f =>
    if m = 0 then (if n = 0 then .num (a && b) 0 0 else .num b n f)
    else if n = 0 then .num a m e
    else
      let g := min e f
      let s := signedAt a m e g + signedAt b n f g
      .num (decide (s < 0)) s.natAbs g

def Val.sub (a b : Val) : Val := a.add b.neg

/-- Order of two values that are no NaN, −0 equal to +0: −1, 0 or 1. -/
def Val.cmp (a b : Val) : Int :=
  match a, b with
  | .inf x, .inf y => if x = y then 0 else if x then -1 else 1
  | .inf x, _ => if x then -1 else 1
  | _, .inf y => if y then 1 else -1
  | a, b =>
    match a.add b.neg with
    | .num n m _ => if m = 0 then 0 else if n then -1 else 1
    | _ => 0

/-- floor(log2 |v|) of a finite value that is not zero. -/
def floorLog (m : Nat) (e : Int) : Int := (Nat.log2 m : Int) + e

/-- `v` divided by 2^k, rounded to the nearest integer, ties to even. -/
def rneShift (v k : Nat) : Nat :=
  let q := v / 2 ^ k
  let r := v % 2 ^ k
  if 2 * r < 2 ^ k then q else if 2 ^ k < 2 * r then q + 1 else q + q % 2

/-- `n / d` rounded to the nearest integer, ties to even. -/
def rneDiv (n d : Nat) : Nat :=
  let q := n / d
  let r := n % d
  if 2 * r < d then q else if d < 2 * r then q + 1 else q + q % 2

/-- A floating-point format of Table NUM-1. -/
structure FloatFmt where
  width : Nat
  frac : Nat
  bias : Nat
  /-- Exponent of the largest finite value. -/
  emax : Int
  /-- Its significand, `frac + 1` bits. -/
  maxSig : Nat
  /-- Canonical NaN (Table NUM-2). -/
  nan : Nat
  hasInf : Bool
  /-- A finite overflow gives the largest finite value, not an infinity (Table NUM-2). -/
  saturates : Bool
  deriving DecidableEq, Repr

def fmtE4M3 : FloatFmt :=
  { width := 8, frac := 3, bias := 7, emax := 8, maxSig := 14, nan := 0x7F, hasInf := false, saturates := true }
def fmtE5M2 : FloatFmt :=
  { width := 8, frac := 2, bias := 15, emax := 15, maxSig := 7, nan := 0x7E, hasInf := true, saturates := true }
def fmtBF16 : FloatFmt :=
  { width := 16, frac := 7, bias := 127, emax := 127, maxSig := 255, nan := 0x7FC0, hasInf := true, saturates := false }
def fmtFP16 : FloatFmt :=
  { width := 16, frac := 10, bias := 15, emax := 15, maxSig := 2047, nan := 0x7E00, hasInf := true, saturates := false }
def fmtFP32 : FloatFmt :=
  { width := 32, frac := 23, bias := 127, emax := 127, maxSig := 2 ^ 24 - 1, nan := 0x7FC00000, hasInf := true,
    saturates := false }
def fmtFP64 : FloatFmt :=
  { width := 64, frac := 52, bias := 1023, emax := 1023, maxSig := 2 ^ 53 - 1, nan := 0x7FF8000000000000, hasInf := true,
    saturates := false }

/-- The value that a format's bits mean; a subnormal reads as signed zero (R139, R145). -/
def FloatFmt.decode (f : FloatFmt) (v : Nat) : Val :=
  let neg := bit v (f.width - 1)
  let e := bits v f.frac (f.width - 1 - f.frac)
  let m := bits v 0 f.frac
  let top := 2 ^ (f.width - 1 - f.frac) - 1
  if e = 0 then .zero neg
  else if f.hasInf && decide (e = top) then
    if m = 0 then .inf neg else .nan (!bit v (f.frac - 1))
  else if !f.hasInf && decide (e = top) && decide (m = 2 ^ f.frac - 1) then .nan false
  else .num neg (2 ^ f.frac + m) ((e : Int) - f.bias - f.frac)

def FloatFmt.signBit (f : FloatFmt) (neg : Bool) : Nat := if neg then 2 ^ (f.width - 1) else 0

/-- Bits of the largest finite value. -/
def FloatFmt.maxBits (f : FloatFmt) : Nat :=
  (f.emax + f.bias).toNat * 2 ^ f.frac + (f.maxSig - 2 ^ f.frac)

/-- Bits of +∞ of a format that has one. -/
def FloatFmt.infBits (f : FloatFmt) : Nat := (2 ^ (f.width - 1 - f.frac) - 1) * 2 ^ f.frac

/-- An infinite value stored (Table NUM-2). -/
def FloatFmt.infResult (f : FloatFmt) (neg : Bool) : Res Nat :=
  if f.hasInf then ⟨f.signBit neg + f.infBits, 0⟩ else ⟨f.signBit neg + f.maxBits, flOF ||| flNX⟩

/-- A finite overflow stored (Table NUM-2). -/
def FloatFmt.overflow (f : FloatFmt) (neg : Bool) : Res Nat :=
  ⟨f.signBit neg + (if f.saturates then f.maxBits else f.infBits), flOF ||| flNX⟩

/-- `round_to` of R146. -/
def FloatFmt.roundTo (f : FloatFmt) : Val → Res Nat
  | .nan nv => ⟨f.nan, flagIf nv flNV⟩
  | .inf neg => f.infResult neg
  | .num neg m e =>
    if m = 0 then ⟨f.signBit neg, 0⟩
    else
      let len := Nat.log2 m + 1
      let k := len - (f.frac + 1)
      let q := rneShift m k
      let sig0 := q * 2 ^ ((f.frac + 1) - len)
      let up := decide (2 ^ (f.frac + 1) ≤ sig0)
      let sig := if up then sig0 / 2 else sig0
      let exp := floorLog m e + (if up then 1 else 0)
      if exp < 1 - (f.bias : Int) then ⟨f.signBit neg, flUF ||| flNX⟩
      else if f.emax < exp || (decide (exp = f.emax) && decide (f.maxSig < sig)) then f.overflow neg
      else ⟨f.signBit neg + (exp + f.bias).toNat * 2 ^ f.frac + (sig - 2 ^ f.frac), flagIf (decide (q * 2 ^ k ≠ m)) flNX⟩

/-- The value of a value stored and read back. -/
def FloatFmt.round (f : FloatFmt) (v : Val) : Val := f.decode (f.roundTo v).out

/-- FP32 bits of an operation's result. -/
def round32 (v : Val) : Res Nat := fmtFP32.roundTo v

def val32 (w : Word) : Val := fmtFP32.decode w.toNat
def val64 (w : DWord) : Val := fmtFP64.decode w.toNat

/-- A finite value rounded to an integer, ties to even (Table NUM-3). -/
def rneInt (neg : Bool) (m : Nat) (e : Int) : Int :=
  let k := if 0 ≤ e then m * 2 ^ e.toNat else rneShift m (-e).toNat
  if neg then -(k : Int) else k

/-- A value stored as an integer between `lo` and `hi` (Tables NUM-2, NUM-3). -/
def roundInt (lo hi : Int) : Val → Res Int
  | .nan _ => ⟨0, flNV⟩
  | .inf neg => ⟨if neg then lo else hi, flNV⟩
  | .num neg m e =>
    -- A value of 2^40 or more in magnitude is outside every integer format.
    if m ≠ 0 ∧ 40 < floorLog m e then ⟨if neg then lo else hi, flNV⟩
    else
      let i := rneInt neg m e
      if i < lo then ⟨lo, flNV⟩
      else if hi < i then ⟨hi, flNV⟩
      else ⟨i, flagIf (decide (e < 0) && decide (m % 2 ^ (-e).toNat ≠ 0)) flNX⟩

/-- The exact value clamped to an integer range: an end, and whether it was clamped. -/
def clampInt (lo hi i : Int) : Int × Bool := if i < lo then (lo, true) else if hi < i then (hi, true) else (i, false)

def intMin32 : Int := -2147483648
def intMax32 : Int := 2147483647

/-- Two's complement bits of an integer. -/
def intBits (w : Nat) (i : Int) : Nat := (i % (2 ^ w : Nat)).toNat

end Sys2Proof.Machine
end

