-- ==== Sys2Proof/Machine/Operands.lean ====
section
/-!
DEFINITION. The formats of elements by code (08 Table ARR-2), how elements stand in memory and in registers (06 R140,
09 R200), and the conversions between them (06 R150 to R156).
-/

namespace Sys2Proof.Machine

def fInt4 : Nat := 0
def fInt8 : Nat := 1
def fE4M3 : Nat := 2
def fE5M2 : Nat := 3
def fBF16 : Nat := 4
def fFP16 : Nat := 5
def fFP32 : Nat := 6
def fFP64 : Nat := 7
def fInt32 : Nat := 8

/-- Width in bits. -/
def fmtBits (f : Nat) : Nat := [4, 8, 8, 8, 16, 16, 32, 64, 32].getD f 8

def fmtIsInt (f : Nat) : Bool := decide (f = fInt4) || decide (f = fInt8) || decide (f = fInt32)

/-- A format that may carry fine scales (R152). -/
def fmtScalable (f : Nat) : Bool := decide (f ≤ fE5M2)

/-- The layout of a floating-point code. -/
def fmtFloat (f : Nat) : FloatFmt :=
  if f = fE4M3 then fmtE4M3
  else if f = fE5M2 then fmtE5M2
  else if f = fBF16 then fmtBF16
  else if f = fFP16 then fmtFP16
  else if f = fFP64 then fmtFP64
  else fmtFP32

/-- Smallest and largest value of an integer code; INT32 is always signed (R141). -/
def intRange (f : Nat) (sgn : Bool) : Int × Int :=
  if f = fInt4 then (if sgn then (-8, 7) else (0, 15))
  else if f = fInt8 then (if sgn then (-128, 127) else (0, 255))
  else (intMin32, intMax32)

/-- The value of an element's bits (R139, R141, R145). -/
def elemVal (f : Nat) (sgn : Bool) (v : Nat) : Val :=
  if fmtIsInt f then
    Val.ofInt (if sgn || decide (f = fInt32) then signed v (fmtBits f) else ((v % 2 ^ fmtBits f : Nat) : Int))
  else (fmtFloat f).decode (v % 2 ^ fmtBits f)

/-- A value stored in a format under Table NUM-3. -/
def elemStore (f : Nat) (sgn : Bool) (v : Val) : Res Nat :=
  if fmtIsInt f then
    let r := roundInt (intRange f sgn).1 (intRange f sgn).2 v
    ⟨intBits (fmtBits f) r.out, r.fl⟩
  else (fmtFloat f).roundTo v

/-- Bits of element `i` of a packed run of elements (R140). -/
def elemAt (f : Nat) (bs : List Byte) (i : Nat) : Nat :=
  if f = fInt4 then bits (byteAt bs (i / 2)).toNat (4 * (i % 2)) 4
  else fieldAt bs (i * (fmtBits f / 8)) (fmtBits f / 8)

/-- Bytes of elements, packed (R140). -/
def packElems (f : Nat) : List Nat → List Byte
  | [] => []
  | [a] => if f = fInt4 then [BitVec.ofNat 8 a] else leBytes (fmtBits f / 8) a
  | a :: b :: l =>
    if f = fInt4 then BitVec.ofNat 8 (a + 16 * b) :: packElems f l
    else leBytes (fmtBits f / 8) a ++ packElems f (b :: l)

/-- Bytes of `n` elements. -/
def elemBytes (f n : Nat) : Nat := n * fmtBits f / 8

/-- The factor of a scale byte: 2^(e − 127), or a NaN that raises NV (R142). -/
def scaleVal (e : Nat) : Val := if e = 0xFF then .nan true else .num false 1 ((e : Int) - 127)

/-! ## The running maximum -/

/-- FP32 magnitude that a source value gives VEC_AMAX; none where it does not count (R156). -/
def amaxBits (v : Val) : Nat :=
  match v with
  | .num _ m e =>
    let r := fmtFP32.roundTo (.num false m e)
    if r.out = fmtFP32.infBits then fmtFP32.maxBits else r.out
  | _ => 0

/-! ## Block scales -/

/-- Table NUM-4. -/
def elemEmax (f : Nat) (sgn : Bool) : Int :=
  if f = fE4M3 then 8
  else if f = fE5M2 then 15
  else if f = fInt8 then (if sgn then 6 else 7)
  else (if sgn then 2 else 3)

/-- A block's element stored: a finite one that lands beyond the range is clipped and raises NX alone (R155). -/
def blockStore (f : Nat) (sgn : Bool) (v : Val) : Res Nat :=
  let r := elemStore f sgn v
  match v with
  | .num neg _ _ =>
    if fmtIsInt f then (if r.fl = flNV then ⟨r.out, flNX⟩ else r)
    else if r.fl &&& flOF ≠ 0 then ⟨(fmtFloat f).signBit neg + (fmtFloat f).maxBits, flNX⟩
    else r
  | _ => r

/-- The largest floor(log2 |v|) over the finite values that are not zero. -/
def topLog : List Val → Option Int
  | [] => none
  | .num _ m e :: l =>
    if m = 0 then topLog l
    else match topLog l with
      | none => some (floorLog m e)
      | some t => some (max t (floorLog m e))
  | _ :: l => topLog l

/-- The scale exponent *s* and the scale byte of a block of exact products (R154). -/
def blockScale (f : Nat) (sgn : Bool) (vs : List Val) : Int × Nat :=
  if vs.any Val.isNan then (0, 0xFF)
  else match topLog vs with
    | none => (0, 0x7F)
    | some t =>
      let s := (clampInt (-127) 127 (t - elemEmax f sgn)).1
      (s, (s + 127).toNat)

/-- `block_convert` of R154: the scale byte and the elements. -/
def blockConvert (f : Nat) (sgn : Bool) (q : Val) (xs : List Val) : Nat × Res (List Nat) :=
  let vs := xs.map (fun x => x.mul q)
  let sc := blockScale f sgn vs
  (sc.2, resTable (fun i => blockStore f sgn ((vs.getD i (.zero false)).scale (-sc.1))) vs.length)

end Sys2Proof.Machine
end

