-- ==== Sys2Proof/Config.lean ====
section
/-!
DEFINITION. What the manual leaves open, as constants without a body (free values). Nothing can be proved about what
they answer. A fresh value is one of these applied to `State.free`, a counter the step advances.
Each is named in a log entry of notes/assumptions.
-/

namespace Sys2Proof

/-- Contents the manual calls undefined (R265, R338, R417, R453, R521): byte `i` of the `n`-th undefined range. Log 2. -/
opaque Config.freeByte : Nat → Nat → Byte

/-- R327: NEXT of a page pushed on an empty free stack, and of a page that leaves the stack. Log 56. -/
opaque Config.freeNext : Nat → BitVec 20

/-- R377: STEP field of a final record that a REQ_CANCEL outside a step writes. Log 61. -/
opaque Config.freeStep : Nat → BitVec 16

/-- Nanoseconds the PHY counter of R480 counts in wave `n`: pace is not fixed (R53, R56). Log 3. -/
opaque Config.phyNs : Nat → Nat

/-- Table VEC-6: waves in which a row of the `n`-th vector instruction waited under R54. Log 3. -/
opaque Config.rowStalls : Nat → Word

/-- R489: the static term at a VCORE in mV and a hottest sensor, and the fused energy of an event, in 2^-20 of a unit of
PWR_ESTIMATE. Events: 16 FA + FB an operand wave, 256 a vector row, 257 a bank slot, 258 a link flit, 259 a Lark sample.
Log 78. -/
opaque Config.staticPower : Nat → Nat → Nat
opaque Config.eventEnergy : Nat → Nat

/-- The 4,096-bit fuse image of FUSEREAD (Table PHY-7); its layout is not given. Log 29. -/
opaque Config.fuseImage : BitVec 4096

/-! ## Lark: what the HEVC and AV1 standards compute, by the content it is computed from (R73; log 26, 27) -/

/-- Syntax elements of parts 1 and 2 that Table LRK-1 and the layout of a picture look at, by the standards' names. -/
inductive LarkElem where
  | profileIdc | chromaFormatIdc | bitDepthLumaMinus8 | bitDepthChromaMinus8 | fieldSeqFlag
  | spsRangeExtension | spsMultilayerExtension | sps3dExtension | spsSccExtension
  | ppsRangeExtension | ppsMultilayerExtension | pps3dExtension | ppsSccExtension
  | log2MinCbMinus3 | log2DiffMaxMinCb
  | seqProfile | twelveBit | monoChrome | subsamplingX | subsamplingY | allowScreenContentTools | use128Superblock
  deriving DecidableEq, Repr

/-- R403: index of an element among the values of parts 1 and 2. -/
opaque Config.elemPlace : LarkElem → List Word → Nat

/-- R403: bytes of the syntax block that begins with this prefix. -/
opaque Config.syntaxLength : List Byte → Nat

/-- R403: values that the standard (0 HEVC, 1 AV1) gives part 1 or 2, from the values that stand there. -/
opaque Config.partWords : Nat → Nat → List Word → Nat

/-- R403: header elements of a segment's record, from parts 1 and 2 and the words of part 3 from the record on; its entry
points or tile sizes, from parts 1 and 2 and its header elements. -/
opaque Config.headerWords : List Word → List Word → Nat
opaque Config.entryWords : List Word → List Word → Nat

/-- R410: the reference slots that a syntax block needs, one bit each. -/
opaque Config.slotsNeeded : List Byte → BitVec 16

/-- What the entropy decoding of a frame reads: its syntax block, its payload (zero where poisoned, R122), and the side areas
of its reference slots. -/
structure DecodeIn where
  sx : List Byte
  payload : List Byte
  sides : List (List Byte)

/-- R402: does a decode with this syntax block read line `i` of the side area of reference slot `r`? -/
opaque Config.readsSide : List Byte → Nat → Nat → Bool

/-- R413: the CTUs of segment `i` of a syntax block, by raster number, in decoding order. -/
opaque Config.segmentCtus : List Byte → Nat → List Nat

/-- R413: the place in segment `i` at which its decoding meets a syntax error, poison apart. -/
opaque Config.erringCtu : DecodeIn → Nat → Option Nat

/-- R413: the place in segment `i` of the CTU that reads byte `j` of the payload. -/
opaque Config.ctuAtByte : DecodeIn → Nat → Nat → Nat

/-- R414: the reference slots from which the block at a luma sample is predicted, given the concealed CTUs. -/
opaque Config.blockSlots : DecodeIn → List Nat → Nat → Nat → BitVec 16

/-- R415: does the prediction of CTU `i`, given the concealed CTUs, read word `w` of the picture in reference slot `r`? -/
opaque Config.ctuReads : DecodeIn → List Nat → Nat → Nat → Nat → Bool

/-- R402: byte `i` of a decoded picture with its side area before the loop filters, given the concealed CTUs and the pictures
of the reference slots. -/
opaque Config.reconByte : DecodeIn → List Nat → List (List Byte) → Nat → Byte

/-- R402, R414: byte `i` of a picture after the loop filters, from the picture before them. -/
opaque Config.filterByte : DecodeIn → List Byte → Nat → Byte

/-- R412: byte `i` of the grained picture, from the syntax block and the picture without grain. -/
opaque Config.grainByte : List Byte → List Byte → Nat → Byte

/-- What an encode works from: the frame type (0 I, 1 P, 2 B), the input on the stream's grid plane by plane, the pictures of
its references and the vectors that the search found for each, block by block in quarter samples. -/
structure EncodeIn where
  ftype : Nat
  width : Nat
  height : Nat
  depth : Nat
  planes : List (List (List Nat))
  refs : List (List Byte)
  vectors : List (List (Int × Int))

/-- A mode of R420; `inter` names a reference by its place in the frame's list. -/
inductive EncodeMode where
  | skip
  | merge (i : Nat)
  | inter (ref : Nat)
  | intra (m : Nat)
  deriving DecidableEq, Repr

/-- R420: coding blocks of CTB `i`, after the choices made so far in the frame, each with its QP. -/
opaque Config.codingBlocks : EncodeIn → List (Nat × EncodeMode) → Nat → Nat

/-- R420: SSE and bits of a mode for the next coding block, at a QP, after the choices made so far. -/
opaque Config.modeCost : EncodeIn → List (Nat × EncodeMode) → Nat → EncodeMode → Nat × Nat

/-- R418: bits of a CTU row beside those of its blocks' modes, after the choices made up to its end. -/
opaque Config.rowBits : EncodeIn → List (Nat × EncodeMode) → Nat

/-- R417: byte `i` of the payload, and of the reconstruction with its side area. -/
opaque Config.encodeByte : EncodeIn → List (Nat × EncodeMode) → Nat → Byte
opaque Config.encodePicture : EncodeIn → List (Nat × EncodeMode) → Nat → Byte

/-- R415, R419: does CTB `i` read word `w` of the picture of reference `r`, beside the words where it lies itself? -/
opaque Config.ctbReads : EncodeIn → Nat → Nat → Nat → Bool

/-- R419: the vector, in quarter samples, of the 16 bytes of a motion field's block; none for an intra block. -/
opaque Config.fieldVector : List Byte → Option (Int × Int)

/-- R421: first sample and length, in chroma samples, of a crop of `w` luma samples from `x` on that is not even. Log 70. -/
opaque Config.oddCrop : Nat → Nat → Nat × Nat

/-- R556: bit `i` captured by a tile's 1500 data chain in the `n`-th scan. Log 29. -/
opaque Config.wrapBit : Nat → Nat → Bool

/-- R557: the shaft port senses a bonded partner: a fact of the package. Log 41. -/
opaque Config.shaftBonded : Bool

/-- R557: what the upper die's whole TAP path shifts out in the `n`-th scan through it. Log 41. -/
opaque Config.upperTap : Nat → List Bool

/-- R557: the cells the die wrapper register captures from the shaft port in the `n`-th scan. Log 29. -/
opaque Config.shaftCells : Nat → BitVec 128

end Sys2Proof
end

