-- ==== Sys2Proof/Machine/Status.lean ====
section
/-! DEFINITION. Status codes (22 Table BKS-4) and notices (Table BKS-5). -/

namespace Sys2Proof.Machine

def stOK : Half := 0x0000
def stDeferStepFull : Half := 0x1001
def stDeferBudget : Half := 0x1002
def stDeferPageWait : Half := 0x1003
def stDeferPriority : Half := 0x1004
def stDeferSwap : Half := 0x1005
def stTableFull : Half := 0x2001
def stRefusePages : Half := 0x2002
def stRefuseLength : Half := 0x2003
def stRefuseContext : Half := 0x2004
def stRefuseVariant : Half := 0x2005
def stPoison : Half := 0x3001
def stUncorrectable : Half := 0x3002
def stPageExhausted : Half := 0x4001
def stLengthLimit : Half := 0x4002
def stNoCandidate : Half := 0x4003
def stBadOpcode : Half := 0x5001
def stBadHandle : Half := 0x5002
def stBounds : Half := 0x5003
def stPermission : Half := 0x5004
def stAlign : Half := 0x5005
def stPartnerLost : Half := 0x6001
def stRetryExhausted : Half := 0x6002
def stSupplyHold : Half := 0x7001
def stThermalHalt : Half := 0x7002
def stSwapTimeout : Half := 0x8001
def stSyntaxConcealed : Half := 0x9001
def stRefMissing : Half := 0x9002
def stUnsupportedTool : Half := 0x9003
def stCancelled : Half := 0xA001

/-- R123: DATA_UNCORRECTABLE over DATA_POISON over OK. -/
def worstData (a b : Half) : Half :=
  if a = stUncorrectable || b = stUncorrectable then stUncorrectable
  else if a = stPoison || b = stPoison then stPoison else a

/-- A notice from its data bytes 8 to 15. -/
def mkNotice (cls code : Nat) (data : List Byte) : Notice :=
  { cls := BitVec.ofNat 16 cls, code := BitVec.ofNat 16 code, data := BitVec.ofNat 64 (leNat (padTo 8 data)) }

def ntCmdNotify (ctx : Nat) (tag : Half) : Notice := mkNotice 1 1 (leBytes 2 ctx ++ leBytes 2 tag.toNat)
def ntQueueOverrun (q : Nat) : Notice := mkNotice 1 2 (leBytes 2 q)
def ntQueueFault (q : Nat) (st : Half) : Notice := mkNotice 1 3 (leBytes 2 q ++ leBytes 2 st.toNat)
def ntCringFull (ctx : Nat) : Notice := mkNotice 1 4 (leBytes 1 ctx)
def ntOringFull (ctx : Nat) : Notice := mkNotice 1 5 (leBytes 1 ctx)
def ntIntegrityUe (addr : Nat) : Notice := mkNotice 2 1 (leBytes 4 addr)
def ntIntegrityCe (count : Word) : Notice := mkNotice 2 2 (leBytes 4 count.toNat)
def ntTractFailed (tr : Nat) : Notice := mkNotice 2 3 (leBytes 1 tr)
def ntLinkDown (lp : Nat) : Notice := mkNotice 3 1 (leBytes 1 lp)
def ntLinkDegraded (lp : Nat) (half : Bool) (repaired : Nat) : Notice :=
  mkNotice 3 2 (leBytes 1 lp ++ leBytes 1 (b2n half) ++ leBytes 1 repaired)
def ntTopoMismatch (lp : Nat) (die : Half) : Notice := mkNotice 3 3 (leBytes 2 lp ++ leBytes 2 die.toNat)
def ntStrapConflict (straps : Nat) : Notice := mkNotice 3 4 (leBytes 2 straps)
def ntHubFound (port dist : Nat) : Notice := mkNotice 3 5 (leBytes 1 port ++ leBytes 1 dist)
def ntTimeLost (t : DWord) : Notice := mkNotice 3 6 (leBytes 8 t.toNat)
def ntSupplyHold (vcore vcis : Bool) : Notice :=
  mkNotice 4 1 (leBytes 4 (b2n vcore + 2 * b2n vcis) ++ leBytes 2 stSupplyHold.toNat)
def ntSupplyResume (holds : Word) : Notice := mkNotice 4 2 (leBytes 4 holds.toNat)
def ntSupplyLink (mv : Half) : Notice := mkNotice 4 3 (leBytes 2 mv.toNat)
def ntThermalHalt (tmax : Nat) : Notice := mkNotice 4 4 (leBytes 4 tmax ++ leBytes 2 stThermalHalt.toNat)
def ntThermalResume (halts : Word) : Notice := mkNotice 4 5 (leBytes 4 halts.toNat)
def ntOverlimit (est limit : Half) : Notice := mkNotice 4 6 (leBytes 2 est.toNat ++ leBytes 2 limit.toNat)
def ntTelemetry (data : List Byte) : Notice := mkNotice 4 7 data
def ntReady (cause : BitVec 5) (failed : Nat) (us : Half) : Notice :=
  mkNotice 5 1 (leBytes 2 cause.toNat ++ leBytes 2 failed ++ leBytes 2 us.toNat)
def ntDetachDone (st : Half) (finished ended : Nat) : Notice :=
  mkNotice 5 2 (leBytes 2 st.toNat ++ leBytes 2 finished ++ leBytes 2 ended)

end Sys2Proof.Machine
end

