-- ==== Sys2Proof/Machine/Ident.lean ====
section
/-! DEFINITION. What the fuses and straps make of the die: units present, logical numbers, ids (01, 02, 19, 23). -/

namespace Sys2Proof.Machine

/-- R22: the FP64 feature is present in the G and S series. -/
def Fuse.fp64 (f : Fuse) : Bool := f.series = 0 || f.series = 2

/-- R23: the Lark feature is present in the G and M series. -/
def Fuse.lark (f : Fuse) : Bool := f.series = 0 || f.series = 1

def Fuse.tileCount (f : Fuse) : Nat := if f.grade12 then 12 else 16
def Fuse.tractCount (f : Fuse) : Nat := if f.grade12 then 48 else 64
def Fuse.wellheads (f : Fuse) : Nat := if f.grade12 then 6 else 8

/-- R37: the port is bonded. Port 8 is the shaft port. -/
def Fuse.portPresent (f : Fuse) (p : Nat) : Bool :=
  if p = 8 then !f.planar else decide (p < f.wellheads)

/-- Physical tiles in the order of their logical numbers (R31). -/
def Fuse.tileOrder (f : Fuse) : List Nat := if f.grade12 then (maskList f.present.toNat 16).take 12 else List.range 16

/-- Physical tile of a logical tile (R31, R32). -/
def Fuse.physTile (f : Fuse) (l : Nat) : Nat := f.tileOrder.getD l 0

/-- Manhattan distance of two physical tiles (R44). -/
def tileDist (p q : Nat) : Nat :=
  ((p % 4 : Int) - (q % 4 : Int)).natAbs + ((p / 4 : Int) - (q / 4 : Int)).natAbs

/-- Logical tile that owns a logical tract (R33). -/
def tractTile (tr : Nat) : Nat := tr / 4

/-- Hops between two logical tiles on the 4 × 4 grid of physical tiles (R43, R87). -/
def Fuse.hops (f : Fuse) (a b : Nat) : Nat :=
  let p := f.physTile a
  let q := f.physTile b
  (max (p % 4) (q % 4) - min (p % 4) (q % 4)) + (max (p / 4) (q / 4) - min (p / 4) (q / 4))

/-- ID_VARIANT (Table FAM-5). -/
def Fuse.variant (f : Fuse) : Word :=
  BitVec.ofNat 32 (f.series.toNat + at_ (b2n f.grade12) 2 + at_ (b2n f.planar) 3 + at_ (b2n f.fp64) 4
    + at_ (b2n f.lark) 5 + at_ (b2n (!f.planar)) 6 + at_ (2 ^ f.wellheads - 1) 8 + at_ f.tileCount 16
    + at_ f.tractCount 21 + at_ f.stepping.toNat 28)

/-- ID_TILEMAP_LO and ID_TILEMAP_HI (Table FAM-7). -/
def Fuse.tileMap (f : Fuse) : Nat :=
  (List.range 16).foldl (fun a l => a + at_ (if l < f.tileCount then f.physTile l else 0) (4 * l)) 0

/-- IDCODE (R555). -/
def Fuse.idcode (f : Fuse) : Word :=
  BitVec.ofNat 32 (at_ f.stepping.toNat 28
    + at_ (0x4A60 + 4 * f.series.toNat + 2 * b2n f.grade12 + b2n f.planar) 12 + at_ 0x5E3 1 + 1)

/-- The shaft port is absent, or the die is strapped single, or TIER is reserved (R25, R465): its effective tier. -/
def State.effTier (s : State) : BitVec 2 :=
  if s.fuse.planar || s.top.tier = 3 then 0 else s.top.tier

/-- TOP_STRAPS (Table TOP-6). -/
def State.straps (s : State) : Nat := s.top.orient.toNat + at_ s.top.tier.toNat 4 + at_ s.top.site.toNat 8

/-- The die id (R468). -/
def State.dieId (s : State) : Half := BitVec.ofNat 16 (s.top.module.toNat * 16 + s.top.site.toNat)

/-- Logical port of physical port `n` (R466); 8 is the shaft port. -/
def logicalPort (orient : BitVec 3) (n : Nat) : Nat :=
  if n = 8 then 8
  else
    let k := orient.toNat % 4
    if orient.toNat < 4 then (n + 2 * k) % 8 else (9 + 2 * k - n) % 8

/-- Physical port of logical port `lp`. -/
def physPort (orient : BitVec 3) (lp : Nat) : Nat :=
  ((List.range 9).find? (fun n => decide (logicalPort orient n = lp))).getD 8

/-- The tile of a port on the die's floor plan (Table WAV-5). -/
def attachTile (p : Nat) : Nat := [1, 2, 7, 11, 14, 13, 8, 4, 5].getD p 5

end Sys2Proof.Machine
end

