-- ==== Sys2Proof/Machine/Link.lean ====
section
/-!
DEFINITION. Ports (18, 19): credits, sending, the retry buffer, routing, notices and hub flits. A port's `egress` holds
what waits to be sent, its `wire` everything it has put on the wire (log 10); `pump` moves flits from one to the other
as the port's state, credits and holds allow.
-/

namespace Sys2Proof.Machine

def State.port (s : State) (p : Nat) : Port := spGet Port.reset s.ports p

def State.setPort (s : State) (p : Nat) (x : Port) : State := { s with ports := spSet Port.reset s.ports p x }

def vcCtrl : BitVec 2 := 0
def vcReq : BitVec 2 := 1
def vcRsp : BitVec 2 := 2
def vcBulk : BitVec 2 := 3

/-- Credits of each channel (Table LNK-2). -/
def fullCredits (vc : BitVec 2) : Nat := [32, 128, 256, 1024].getD vc.toNat 0

/-- Credits a flit consumes (R435). -/
def flitCredits (f : Flit) : Nat := (16 + f.payload.length + 63) / 64

/-- Credits the sender holds: full count, less those sent, plus the latest CRTOT, modulo 2,048 (R436). -/
def Port.credits (p : Port) (vc : BitVec 2) : Nat :=
  (fullCredits vc + 2048 + (spGet 0 p.gotTot vc.toNat).toNat - spGet 0 p.sent vc.toNat % 2048) % 2048

/-- A supply hold is in force (R486). -/
def State.supplyHold (s : State) : Bool := s.pwr.vcoreWarn || s.pwr.vcisWarn

/-- Arrays, engines, Wrens and Lark stop (R486, R500, R501). -/
def State.stopped (s : State) : Bool := s.supplyHold || s.pwr.halt || s.pins.thermtrip

/-- The die puts nothing on its ports but what idle flits carry: STANDBY, a reset, the thermal trip (R501, R506, R523). -/
def State.silent (s : State) : Bool := s.rst.standby || s.rst.held.isSome

/-- The channel may be sent now in the port's state (Table LNK-4, R438, R501). -/
def State.vcOpen (s : State) (p : Port) (vc : BitVec 2) : Bool :=
  !s.silent && !s.pins.thermtrip
    && (decide (p.state = .active) || (decide (p.state = .ctrlOnly) && decide (vc = vcCtrl)))
    && !(decide (vc = vcBulk) && s.supplyHold)

/-! ## The 256 bytes of a flit (R433) -/

/-- One bit of CRC-32C, reflected: polynomial 0x1EDC_6F41. -/
def crcBit (c : Word) : Word := if c.toNat % 2 = 1 then (c >>> 1) ^^^ 0x82F63B78 else c >>> 1

/-- Eight bits of it. -/
def crcByte (c : Word) (b : Byte) : Word := crcBit (crcBit (crcBit (crcBit (crcBit (crcBit (crcBit (crcBit (c ^^^ b.setWidth 32))))))))

/-- CRC-32C of bytes (R433). -/
def crc32c (bs : List Byte) : Word := ~~~ (bs.foldl crcByte 0xFFFFFFFF)

/-- Table LNK-1. -/
def WireFlit.header (w : WireFlit) : List Byte :=
  let f := w.flit
  leBytes 1 (f.vc.toNat + at_ f.typ.toNat 2) ++ [w.seq, w.ackSeq]
    ++ leBytes 1 (b2n w.ackV + at_ (b2n w.nak) 1 + at_ (b2n f.zrc) 2 + at_ w.crvc.toNat 3)
    ++ leBytes 2 w.crtot.toNat ++ leBytes 2 f.src.toNat ++ leBytes 2 f.dst.toNat ++ leBytes 1 f.ctx.toNat
    ++ leBytes 1 f.payload.length ++ leBytes 4 (f.xid.toNat + at_ f.segno.toNat 10)

/-- The 256 bytes on the wire: header, payload, zeros, CRC (R433). -/
def WireFlit.bytes (w : WireFlit) : List Byte :=
  let body := padTo 252 (w.header ++ w.flit.payload)
  body ++ leBytes 4 (crc32c body).toNat

/-- The 256 bytes carry their own CRC (R433). -/
def crcGood (bs : List Byte) : Bool :=
  decide (bs.length = 256) && decide (bs.drop 252 = leBytes 4 (crc32c (bs.take 252)).toNat)

/-! ## Sending -/

/-- The per-link fields of the next flit (Table LNK-1). -/
def Port.stamp (p : Port) (f : Flit) (seq : Byte) (nak : Bool) : WireFlit :=
  { flit := f, seq := seq, ackSeq := p.rxSeq - 1, ackV := p.rxAny, nak := nak, crvc := p.crvc,
    crtot := spGet 0 p.retTot p.crvc.toNat }

/-- Put a flit on the wire and rotate CRVC (R436). -/
def Port.emit (p : Port) (w : WireFlit) : Port := { p with wire := p.wire ++ [w], crvc := p.crvc + 1 }

/-- Send one non-idle flit (R434, R435, R448). -/
def Port.send (p : Port) (f : Flit) : Port :=
  let p := p.emit (p.stamp f p.txSeq false)
  { p with
    txSeq := p.txSeq + 1
    retry := p.retry ++ [(p.txSeq, f)]
    sent := spModify 0 p.sent f.vc.toNat (fun n => n + flitCredits f)
    txFlits := p.txFlits + 1
    zrcFlits := if f.zrc then p.zrcFlits + 1 else p.zrcFlits }

/-- The flit with neither sequence number nor payload (R434). -/
def idleFlit : Flit :=
  { vc := 0, typ := 0, src := 0, dst := 0, ctx := 0, xid := 0, segno := 0, zrc := false, payload := [] }

/-- Send an idle flit, with or without NAK. -/
def Port.sendIdle (p : Port) (nak : Bool) : Port := p.emit (p.stamp idleFlit 0 nak)

/-- The DATA of a segment follows its WR_SEG, and its RD_END follows its DATA (R446). -/
def Flit.leads (g f : Flit) : Bool :=
  ((decide (g.vc = vcReq) && decide (g.typ = 1) && decide (f.vc = vcBulk))
    || (decide (g.vc = vcBulk) && decide (f.vc = vcRsp) && decide (f.typ = 2)))
  && decide (g.xid = f.xid) && decide (g.segno = f.segno)

/-- A flit stays behind one that is kept: behind what leads its segment, and a relayed flit behind any of its channel
between the same dies (R445, R446; log 79). -/
def Flit.behind (f : Flit) (me : Half) (kept : List Flit) : Bool :=
  kept.any (fun g => decide (g.src = f.src) && decide (g.dst = f.dst)
    && (g.leads f || (decide (f.src ≠ me) && decide (g.vc = f.vc))))

/-- Send what may be sent of `fs`, in order within each channel and segment; `blocked` are the channels that wait. -/
def pumpList (s : State) : List Flit → Port → List (BitVec 2) → List Flit → Port
  | [], p, _, kept => { p with egress := kept }
  | f :: fs, p, blocked, kept =>
    if !blocked.contains f.vc && s.vcOpen p f.vc && decide (p.retry.length < 64)
        && decide (flitCredits f ≤ p.credits f.vc) then
      (if f.behind s.dieId kept then pumpList s fs p blocked (kept ++ [f]) else pumpList s fs (p.send f) blocked kept)
    else pumpList s fs p (f.vc :: blocked) (kept ++ [f])

/-- Send what the port may send now. -/
def State.pump (s : State) (p : Nat) : State :=
  s.setPort p (pumpList s (s.port p).egress (s.port p) [] [])

def State.pumpAll (s : State) : State := (List.range 9).foldl State.pump s

/-- Queue a flit at a port and send what may be sent. -/
def State.portSend (s : State) (p : Nat) (f : Flit) : State :=
  (s.setPort p { s.port p with egress := (s.port p).egress ++ [f] }).pump p

/-! ## Hub distance and routing -/

/-- The port exchanges HELLOs: CTRLONLY or ACTIVE. -/
def Port.alive (p : Port) : Bool := decide (p.state = .ctrlOnly) || decide (p.state = .active)

/-- HUBDIST received on a logical port, 0xFF for none (R472). -/
def State.distOn (s : State) (lp : Nat) : Nat :=
  let p := s.port (physPort s.top.orient lp)
  if p.alive then (match p.partner with | some h => h.hubDist.toNat | none => 0xFF) else 0xFF

/-- Smallest HUBDIST received and the lowest logical port that gives it (R472). -/
def State.nearest (s : State) : Nat × Nat :=
  (List.range 9).foldl (fun m lp => if s.distOn lp < m.1 then (s.distOn lp, lp) else m) (0xFF, 0xF)

/-- HUBDIST (R472). -/
def State.hubDist (s : State) : Nat := let d := s.nearest.1; if d + 1 ≤ 0xFE then d + 1 else 0xFF

/-- The learned hub port: the lowest logical port that gives the smallest HUBDIST, 0xF for none (R472). -/
def State.learnedHub (s : State) : Nat := s.nearest.2

/-- The hub port, logical (R472). -/
def State.hubPort (s : State) : Nat :=
  if s.top.hubPort = 0xF then s.learnedHub else s.top.hubPort.toNat

/-- TOP_ROUTE and TOP_LEARN entries, kept as their difference from 0xF. -/
def State.routeOf (s : State) (site : Nat) : Nat := ((spGet 0 s.top.route site) ^^^ 0xF).toNat
def State.learnOf (s : State) (site : Nat) : Nat := ((spGet 0 s.top.learn site) ^^^ 0xF).toNat

/-- R475. -/
def State.siteRoute (s : State) (site : Nat) (hub : Bool) : Nat :=
  if s.routeOf site = 0xF && hub then s.learnOf site else s.routeOf site

/-- What a flit's route is. -/
inductive Route where
  | deliver
  | out (lp : Nat)
  deriving DecidableEq, Repr

/-- R475. `ingress` is the logical port it came in on, none for the die's own flits. -/
def State.routeFlit (s : State) (f : Flit) (ingress : Option Nat) : Route :=
  if f.src = f.dst then
    if f.dst = s.dieId then (if ingress.isSome then .deliver else .out s.hubPort)
    else if ingress = some s.hubPort then .out (s.siteRoute (f.dst.toNat % 16) true)
    else .out s.hubPort
  else if f.dst.toNat / 16 ≠ s.dieId.toNat / 16 then .out s.hubPort
  else if f.dst = s.dieId then .deliver
  else .out (s.siteRoute (f.dst.toNat % 16) false)

/-- A relayed hub flit that does not come from the hub teaches the way back (R475). -/
def State.learnFlit (s : State) (f : Flit) (ingress : Nat) : State :=
  let site := f.dst.toNat % 16
  if f.src = f.dst && f.dst ≠ s.dieId && decide (ingress ≠ s.hubPort) && decide (s.routeOf site = 0xF) then
    { s with top := { s.top with learn := spSet 0 s.top.learn site (BitVec.ofNat 4 ingress ^^^ 0xF) } }
  else s

/-- The port names no way out (R476). -/
def State.sendFails (s : State) (lp : Nat) (ingress : Option Nat) : Bool :=
  let p := physPort s.top.orient lp
  decide (lp > 8) || !s.fuse.portPresent p || decide (ingress = some lp)
    || decide ((s.port p).state = .disabled) || decide ((s.port p).state = .down)
    || decide ((s.port p).state = .offline)

/-- Send a flit on a logical port, or drop it; a dropped REQ is answered with UNREACH (R454, R476). -/
def State.sendOn (s : State) (f : Flit) (lp : Nat) (ingress : Option Nat) : State :=
  if s.sendFails lp ingress then
    let s := { s with top := { s.top with unroutable := s.top.unroutable + 1 } }
    match ingress with
    | none => s
    | some _ =>
      if f.vc = vcReq then
        let u : Flit := { vc := vcRsp, typ := 3, src := s.dieId, dst := f.src, ctx := f.ctx, xid := f.xid,
                          segno := f.segno, zrc := false, payload := [] }
        match s.routeFlit u none with
        | .deliver => s
        | .out q =>
          if s.sendFails q none then { s with top := { s.top with unroutable := s.top.unroutable + 1 } }
          else s.portSend (physPort s.top.orient q) u
      else s
  else s.portSend (physPort s.top.orient lp) f

/-- Send a flit of the die's own. -/
def State.sendOwn (s : State) (f : Flit) : State :=
  match s.routeFlit f none with
  | .deliver => s
  | .out lp => s.sendOn f lp none

/-- The physical port by which a command's first flit to `peer` leaves; none where that send fails (R453, R476). -/
def State.egressPort (s : State) (peer : Half) : Option Nat :=
  let f := { idleFlit with src := s.dieId, dst := peer }
  match s.routeFlit f none with
  | .deliver => none
  | .out lp => if s.sendFails lp none then none else some (physPort s.top.orient lp)

/-! ## Notices -/

/-- A CTRL flit between the die and its hub (R469). -/
def State.hubFlit (s : State) (typ : BitVec 6) (payload : List Byte) : Flit :=
  { vc := vcCtrl, typ := typ, src := s.dieId, dst := s.dieId, ctx := 0, xid := 0, segno := 0, zrc := false,
    payload := payload }

/-- The NOTICE flit of R539. -/
def State.noticeFlit (s : State) (n : Notice) : Flit :=
  s.hubFlit 4 (leBytes 2 n.cls.toNat ++ leBytes 2 n.code.toNat ++ leBytes 4 0 ++ leBytes 8 n.data.toNat)

/-- Notices may leave: HUB_FOUND has been sent and there is a hub port (R516). -/
def State.noticesOpen (s : State) : Bool := s.rst.hubFound && decide (s.hubPort ≠ 0xF)

/-- Keep a notice in the 32-entry buffer; the oldest is dropped and counted when it is full (R516). -/
def State.bufferNotice (s : State) (n : Notice) : State :=
  if s.rst.noticeBuf.length < 32 then { s with rst := { s.rst with noticeBuf := s.rst.noticeBuf ++ [n] } }
  else { s with rst := { s.rst with noticeBuf := s.rst.noticeBuf.drop 1 ++ [n], noticeLost := s.rst.noticeLost + 1 } }

/-- Send a notice, or keep it until notices may leave. None leaves a die that is in reset or in STANDBY. -/
def State.notify (s : State) (n : Notice) : State :=
  if s.silent then s
  else if s.noticesOpen then s.sendOwn (s.noticeFlit n) else s.bufferNotice n

/-- Let the kept notices leave in order. -/
def State.flushNotices (s : State) : State :=
  if s.noticesOpen then
    s.rst.noticeBuf.foldl (fun s n => s.sendOwn (s.noticeFlit n)) { s with rst := { s.rst with noticeBuf := [] } }
  else s

/-- Package time, zero while it is invalid (R479, R481). -/
def State.now (s : State) : DWord := if s.time.valid then s.time.last else 0

end Sys2Proof.Machine
end

