-- ==== Sys2Proof/Machine/ConfigSet.lean ====
section
/-!
DEFINITION. The configuration set (12 R288, Table CTX-1): its register words, what each holds, and the checks a write of
the shadow set must pass (R91, R92, R101, R107, R286 and each register's own rule).
-/

namespace Sys2Proof.Machine

def offPwrStatic : Nat := 0x020004
def offPwrStatic2 : Nat := 0x020008
def offPwrGroup : Nat := 0x080010
def offHnd : Nat := 0x0C0000
def offQmap : Nat := 0x100000
def offWeight : Nat := 0x103000
def offRange : Nat := 0x180200
def offLimits : Nat := 0x280000
def offCust : Nat := 0x290000
def offPlace : Nat := 0x380000

/-- The items of Table CTX-1 that a word of the control space belongs to. -/
inductive CfgItem where
  | pwrStatic | pwrStatic2
  | pwrGroup (m : Nat)
  | desc (ctx handle word : Nat)
  | qmap (q word : Nat)
  | weight (w : Nat)
  | range (ctx word : Nat)
  | limits (ctx word : Nat)
  | model (ctx : Nat)
  | scriptOff (ctx : Nat)
  | rate (cust : Nat)
  | cap (cust : Nat)
  | place (ctx word : Nat)
  deriving DecidableEq, Repr

/-- The RWS item at a control-space offset (a multiple of 4). -/
def cfgItem (off : Nat) : Option CfgItem :=
  if off = offPwrStatic then some .pwrStatic
  else if off = offPwrStatic2 then some .pwrStatic2
  else if offPwrGroup ≤ off ∧ off < offPwrGroup + 32 then some (.pwrGroup ((off - offPwrGroup) / 4))
  else if offHnd ≤ off ∧ off < offHnd + 0x8000 then
    some (.desc ((off - offHnd) / 0x800) ((off - offHnd) / 0x20 % 64) ((off - offHnd) / 4 % 8))
  else if offQmap ≤ off ∧ off < offQmap + 0x1000 then some (.qmap ((off - offQmap) / 8) ((off - offQmap) / 4 % 2))
  else if off = offWeight then some (.weight 0)
  else if off = offWeight + 4 then some (.weight 1)
  else if offRange ≤ off ∧ off < offRange + 0x100 then some (.range ((off - offRange) / 16) ((off - offRange) / 4 % 4))
  else if offLimits ≤ off ∧ off < offLimits + 0x200 then
    match (off - offLimits) % 0x20 with
    | 0 => some (.limits ((off - offLimits) / 0x20) 0)
    | 4 => some (.limits ((off - offLimits) / 0x20) 1)
    | 8 => some (.model ((off - offLimits) / 0x20))
    | 16 => some (.scriptOff ((off - offLimits) / 0x20))
    | _ => none
  else if offCust ≤ off ∧ off < offCust + 0x4000 then
    match (off - offCust) % 16 with
    | 8 => some (.rate ((off - offCust) / 16))
    | 12 => some (.cap ((off - offCust) / 16))
    | _ => none
  else if offPlace ≤ off ∧ off < offPlace + 0x80 then some (.place ((off - offPlace) / 8) ((off - offPlace) / 4 % 2))
  else none

/-- The bits of a word that are not reserved (R17; Tables CIS-3, CIS-7, CMD-7, CTX-5, SRV-6, ATT-7). -/
def CfgItem.mask : CfgItem → Word
  | .pwrStatic => 0xFFFFFFFF
  | .pwrStatic2 => 0xF
  | .pwrGroup _ => 0xFFFFFFFF
  | .desc _ _ 0 => 0x0F3F077F
  | .desc _ _ 1 => 0x00000FFF
  | .desc _ _ 2 => 0x0007FFFF
  | .desc _ _ 3 => 0xFFFFFFFF
  | .desc _ _ _ => 0
  | .qmap _ 0 => 0x001FFFFF
  | .qmap _ _ => 0x0003FFFF
  | .weight 0 => 0xFFFFFFFF
  | .weight _ => 0x00FFFFFF
  | .range _ 0 => 0x0001FFFF
  | .range _ 1 => 0x001FFFFF
  | .range _ 2 => 0x00001FFF
  | .range _ _ => 0
  | .limits _ 0 => 0x0FFF03FF
  | .limits _ _ => 0x1FFF3FFF
  | .model _ => 0x1FFF003F
  | .scriptOff _ => 0x3FFFFFFF
  | .rate _ => 0xFFFFFFFF
  | .cap _ => 0xFFFFFFFF
  | .place _ 0 => 1
  | .place _ _ => 0xFFFFFFFF

/-- The reset values of the register tables. -/
def CfgItem.resetWord : CfgItem → Word
  | .pwrStatic => 0x5F640AF0
  | .pwrStatic2 => 3
  | .weight 0 => 0x01010101
  | .weight _ => 0x00010101
  | .limits _ 0 => 0x08000200
  | .limits _ _ => 0x00002000
  | .place _ 1 => 0x00000001
  | _ => 0

/-- The word at a control-space offset of a set. -/
def CfgSet.word (c : CfgSet) (off : Nat) : Word :=
  match cfgItem off with
  | none => 0
  | some i => spGet 0 c (off / 4) ^^^ i.resetWord

/-- The set with its word at an offset written; reserved bits are ignored. -/
def CfgSet.put (c : CfgSet) (off : Nat) (w : Word) : CfgSet :=
  match cfgItem off with
  | none => c
  | some i => spSet 0 c (off / 4) ((w &&& i.mask) ^^^ i.resetWord)

/-- A run of words as one number, word 0 lowest. -/
def CfgSet.wide (c : CfgSet) (off n : Nat) : Nat :=
  (List.range n).foldl (fun a k => a + (c.word (off + 4 * k)).toNat * 2 ^ (32 * k)) 0

/-! ## Items -/

/-- A handle descriptor (Table CIS-3). -/
structure Desc where
  valid : Bool
  wr : Bool
  ww : Bool
  nr : Bool
  nw : Bool
  xr : Bool
  xw : Bool
  ilv : Nat
  first : Nat
  pgroup : Nat
  base : Nat
  length : Nat
  label : Word
  deriving DecidableEq, Repr

def descOfNat (v : Nat) : Desc :=
  { valid := bit v 0, wr := bit v 1, ww := bit v 2, nr := bit v 3, nw := bit v 4, xr := bit v 5, xw := bit v 6,
    ilv := bits v 8 3, first := bits v 16 6, pgroup := bits v 24 4, base := bits v 32 12, length := bits v 64 19,
    label := BitVec.ofNat 32 (bits v 96 32) }

/-- The descriptor of handle `h` of a context. A number above 63 names no handle: its descriptor is all zero, with VALID
clear (R20). -/
def CfgSet.desc (c : CfgSet) (ctx h : Nat) : Desc :=
  descOfNat (if h < 64 then c.wide (offHnd + 0x800 * ctx + 0x20 * h) 4 else 0)

/-- The interleave *n*; 0 for a reserved code. -/
def Desc.n (d : Desc) : Nat := [1, 2, 4, 8, 16, 64].getD d.ilv 0

/-- Bytes of the buffer. -/
def Desc.bytes (d : Desc) : Nat := d.length * 4096

/-- Granules per tract. -/
def Desc.span (d : Desc) : Nat := d.length / d.n

def Desc.tracts (d : Desc) : List Nat := (List.range d.n).map (fun k => d.first + k)

/-- Granules it owns, as tract × 4,096 + granule (R92). -/
def Desc.granules (d : Desc) : List Nat :=
  d.tracts.flatMap (fun t => (List.range d.span).map (fun g => t * 4096 + d.base + g))

/-- R93. -/
def Desc.translate (d : Desc) (o : Nat) : Nat :=
  let l := o / 256
  (d.first + l % d.n) * 2 ^ 24 + (d.base * 16 + l / d.n) * 2 ^ 8 + o % 256

/-- Two descriptors own a granule in common. -/
def Desc.overlaps (d e : Desc) : Bool :=
  decide (d.first < e.first + e.n) && decide (e.first < d.first + d.n)
    && decide (d.base < e.base + e.span) && decide (e.base < d.base + d.span)

/-- A queue map entry (Table CMD-7). -/
structure QMap where
  en : Bool
  ctx : Nat
  cls : Nat
  floor : Nat
  handle : Nat
  size : Nat
  first : Nat
  deriving DecidableEq, Repr

def CfgSet.qmap (c : CfgSet) (q : Nat) : QMap :=
  let v := c.wide (offQmap + 8 * q) 2
  { en := bit v 0, ctx := bits v 1 4, cls := bits v 5 3, floor := bits v 8 3, handle := bits v 11 6,
    size := bits v 17 4, first := bits v 32 18 }

/-- Ring size in 64-byte units. -/
def QMap.units (m : QMap) : Nat := 2 ^ (m.size + 12) / 64

/-- Effective weight of a class 1 to 7 (R258). -/
def CfgSet.weight (c : CfgSet) (cls : Nat) : Nat :=
  let b := if cls ≤ 4 then bits (c.word offWeight).toNat (8 * (cls - 1)) 8
    else bits (c.word (offWeight + 4)).toNat (8 * (cls - 5)) 8
  if b = 0 then 1 else if b ≤ 4 then b else 4

/-- CTX_RANGE (Table CTX-5). -/
structure CtxRange where
  semBase : Nat
  semCount : Nat
  custBase : Nat
  custCount : Nat
  strmBase : Nat
  strmCount : Nat
  deriving DecidableEq, Repr

def CfgSet.range (c : CfgSet) (ctx : Nat) : CtxRange :=
  let v := c.wide (offRange + 16 * ctx) 3
  { semBase := bits v 0 8, semCount := bits v 8 9, custBase := bits v 32 10, custCount := bits v 42 11,
    strmBase := bits v 64 6, strmCount := bits v 70 7 }

def CtxRange.hasSem (r : CtxRange) (n : Nat) : Bool := decide (r.semBase ≤ n) && decide (n < r.semBase + r.semCount)
def CtxRange.hasCust (r : CtxRange) (n : Nat) : Bool := decide (r.custBase ≤ n) && decide (n < r.custBase + r.custCount)
def CtxRange.hasStream (r : CtxRange) (n : Nat) : Bool := decide (r.strmBase ≤ n) && decide (n < r.strmBase + r.strmCount)

/-- Power group of a tract (R107). -/
def CfgSet.group (c : CfgSet) (tr : Nat) : Nat := bits (c.word (offPwrGroup + 4 * (tr / 8))).toNat (4 * (tr % 8)) 4

def CfgSet.rowCap (c : CfgSet) (ctx : Nat) : Nat := bits (c.word (offLimits + 0x20 * ctx)).toNat 0 10
def CfgSet.chunkMax (c : CfgSet) (ctx : Nat) : Nat := bits (c.word (offLimits + 0x20 * ctx)).toNat 16 12
def CfgSet.tokCap (c : CfgSet) (ctx : Nat) : Nat := bits (c.word (offLimits + 0x20 * ctx + 4)).toNat 0 14
def CfgSet.maxReq (c : CfgSet) (ctx : Nat) : Nat := bits (c.word (offLimits + 0x20 * ctx + 4)).toNat 16 13
def CfgSet.scriptHandle (c : CfgSet) (ctx : Nat) : Nat := bits (c.word (offLimits + 0x20 * ctx + 8)).toNat 0 6
def CfgSet.scriptUnits (c : CfgSet) (ctx : Nat) : Nat := bits (c.word (offLimits + 0x20 * ctx + 8)).toNat 16 13
def CfgSet.scriptOff (c : CfgSet) (ctx : Nat) : Nat := (c.word (offLimits + 0x20 * ctx + 16)).toNat
def CfgSet.rate (c : CfgSet) (cust : Nat) : Nat := (c.word (offCust + 16 * cust + 8)).toNat
def CfgSet.cap (c : CfgSet) (cust : Nat) : Nat := (c.word (offCust + 16 * cust + 12)).toNat
def CfgSet.limitMax (c : CfgSet) : Nat := bits (c.word offPwrStatic).toNat 0 16
def CfgSet.tgov (c : CfgSet) : Nat := bits (c.word offPwrStatic).toNat 16 8
def CfgSet.tstack (c : CfgSet) : Nat := bits (c.word offPwrStatic).toNat 24 8
def CfgSet.hyst (c : CfgSet) : Nat := let h := bits (c.word offPwrStatic2).toNat 0 4; if h = 0 then 1 else h

/-- ATT_PLACE (13 R321, Table ATT-7): MODE, STRIPES (0 is read as 1), INDEX. -/
def CfgSet.placeMode (c : CfgSet) (ctx : Nat) : Nat := bits (c.word (offPlace + 8 * ctx)).toNat 0 1
def CfgSet.placeStripes (c : CfgSet) (ctx : Nat) : Nat :=
  let n := bits (c.word (offPlace + 8 * ctx + 4)).toNat 0 16; if n = 0 then 1 else n
def CfgSet.placeIndex (c : CfgSet) (ctx : Nat) : Nat := bits (c.word (offPlace + 8 * ctx + 4)).toNat 16 16

/-- Every handle of every context. -/
def allHandles : List (Nat × Nat) := (List.range 16).flatMap (fun c => (List.range 64).map (fun h => (c, h)))

/-- A valid descriptor of any context spans the tract (R105, R133). -/
def CfgSet.spanned (c : CfgSet) (tr : Nat) : Bool :=
  allHandles.any (fun (x, h) => let d := c.desc x h; d.valid && decide (d.first ≤ tr) && decide (tr < d.first + d.n))

/-! ## Checks -/

/-- R91: status of the first check that a valid descriptor fails. `groups` is the set that holds the tract power map. -/
def Desc.malformed (d : Desc) (groups : CfgSet) (tractCount : Nat) : Option Half :=
  if 6 ≤ d.ilv then some stBadHandle
  else if d.first % d.n ≠ 0 then some stBadHandle
  else if 64 < d.first + d.n then some stBadHandle
  else if d.length = 0 ∨ d.length % d.n ≠ 0 then some stBadHandle
  else if 4096 < d.base + d.length / d.n then some stBadHandle
  else if d.tracts.any (fun t => decide (t < tractCount) && decide (groups.group t ≠ d.pgroup)) then some stBadHandle
  else if tractCount < d.first + d.n then some stRefuseVariant
  else none

/-- R92, R101: the granules of a valid descriptor are owned by another context, or by a closing one. -/
def State.ownedElsewhere (s : State) (c : CfgSet) (ctx : Nat) (d : Desc) : Bool :=
  allHandles.any (fun (x, h) => decide (x ≠ ctx) && (c.desc x h).valid && d.overlaps (c.desc x h))
    || (List.range 16).any (fun x => (spGet Ctx.reset s.ctxs x).closing.any (fun g =>
      decide (d.first ≤ g / 4096) && decide (g / 4096 < d.first + d.n)
        && decide (d.base ≤ g % 4096) && decide (g % 4096 < d.base + d.span)))

/-- Two ranges of numbers meet. -/
def rangesMeet (b n b' n' : Nat) : Bool := decide (0 < n) && decide (0 < n') && decide (b < b' + n') && decide (b' < b + n)

/-- One range of a context, which word `word` of its CTX_RANGE holds: base and count. -/
def CtxRange.part (r : CtxRange) (word : Nat) : Nat × Nat :=
  if word = 0 then (r.semBase, r.semCount) else if word = 1 then (r.custBase, r.custCount) else (r.strmBase, r.strmCount)

/-- Numbers that the range of a word may name. -/
def rangeLimit (word : Nat) : Nat := [256, 1024, 64].getD word 0

/-- R286 for the range that word 0, 1 or 2 holds: its limit first, then overlap with another context. -/
def CfgSet.partFault (c : CfgSet) (ctx word : Nat) : Option Half :=
  let r := (c.range ctx).part word
  if rangeLimit word < r.1 + r.2 then some stBounds
  else if (List.range 16).any (fun x => decide (x ≠ ctx) &&
      (let o := (c.range x).part word; rangesMeet r.1 r.2 o.1 o.2)) then some stPermission
  else none

/-- R107: a valid descriptor of the set spans a tract of word `m` that stands in a group other than its own. -/
def CfgSet.groupFault (c : CfgSet) (m tractCount : Nat) : Option Half :=
  if allHandles.any (fun (x, h) => let d := c.desc x h
      d.valid && d.tracts.any (fun t => decide (t / 8 = m) && decide (t < tractCount) && decide (c.group t ≠ d.pgroup)))
  then some stBadHandle else none

/-- The rule of the item at an offset, for a set `c` that a write would make the shadow set (R290). A range that the
table gives with no status of its own fails with BOUNDS (log 12). -/
def State.itemFault (s : State) (c : CfgSet) : CfgItem → Option Half
  | .pwrStatic =>
    if c.tgov < 60 ∨ 105 < c.tgov ∨ c.tstack < 60 ∨ 105 < c.tstack then some stBounds else none
  | .pwrStatic2 => none
  | .pwrGroup m => c.groupFault m s.fuse.tractCount
  | .desc x h _ =>
    let d := c.desc x h
    if d.valid then
      match d.malformed c s.fuse.tractCount with
      | some st => some st
      | none => if s.ownedElsewhere c x d then some stPermission else none
    else none
  | .qmap q _ => if 8 < (c.qmap q).size then some stBounds else none
  | .weight _ => none
  | .range x w => if w < 3 then c.partFault x w else none
  | .limits x _ =>
    if c.rowCap x = 0 ∨ 512 < c.rowCap x ∨ c.chunkMax x = 0 ∨ 2048 < c.chunkMax x ∨ c.chunkMax x % 64 ≠ 0
      ∨ c.tokCap x = 0 ∨ 8192 < c.tokCap x ∨ 4096 < c.maxReq x then some stBounds else none
  | .model x => if 4096 < c.scriptUnits x then some stBounds else none
  | .scriptOff x => if c.scriptOff x % 64 ≠ 0 then some stBounds else none
  | .rate _ => none
  | .cap _ => none
  | .place x _ => if c.placeStripes x ≤ c.placeIndex x then some stBounds else none

/-- Status of the first rule that fails over the words at `offs`, in that order. -/
def State.cfgFault (s : State) (c : CfgSet) : List Nat → Option Half
  | [] => none
  | off :: rest =>
    match cfgItem off with
    | none => s.cfgFault c rest
    | some i =>
      match s.itemFault c i with
      | some st => some st
      | none => s.cfgFault c rest

/-- Write words at consecutive offsets. -/
def CfgSet.putAll (c : CfgSet) (off : Nat) : List Word → CfgSet
  | [] => c
  | w :: ws => CfgSet.putAll (c.put off w) (off + 4) ws

/-- Absent tracts have no power group and the S series no stream count (Table CIS-7, Table CTX-5). -/
def State.cfgAbsent (s : State) : CfgItem → Word
  | .pwrGroup m => if s.fuse.tractCount ≤ 8 * m then 0 else 0xFFFFFFFF
  | .range _ 2 => if s.fuse.lark then 0xFFFFFFFF else 0x3F
  | _ => 0xFFFFFFFF

/-- One CTRL write to an RWS word (R288, R293, Table CIS-10): under the checks of CFG_WRITE, lost while a swap is
pending. A write to a word that is reserved or absent throughout is ignored (R17, R38). -/
def State.rwsWrite (s : State) (off : Nat) (w : Word) : State :=
  match cfgItem off with
  | none => s
  | some i =>
    if i.mask &&& s.cfgAbsent i = 0 then s
    else if s.cfg.swap.isSome || s.cfg.walking.isSome then { s with cfg := { s.cfg with wlost := true } }
    else
      let c := s.shd.put off (w &&& s.cfgAbsent i)
      match s.itemFault c i with
      | some _ => s
      | none => { s with shd := c }

end Sys2Proof.Machine
end

