-- ==== Sys2Proof/Machine/Integrity.lean ====
section
/-!
DEFINITION. The integrity code and what each access does to a word (05 R115 to R124, R137, R138).
-/

namespace Sys2Proof.Machine

/-! ## The code -/

def popcount : Nat → Nat → Nat
  | 0, _ => 0
  | n + 1, v => v % 2 + popcount n (v / 2)

/-- Column of each data bit (R116). -/
def columns : List Nat :=
  (((List.range 1024).filter (fun v => decide (popcount 10 v = 3)))
    ++ (List.range 1024).filter (fun v => decide (popcount 10 v = 5))).take 256

/-- XOR of the columns of the set bits of one byte, and what is left of the columns. -/
def xorByte : Nat → Nat → List Nat → Nat → Nat × List Nat
  | 0, _, cols, acc => (acc, cols)
  | _, _, [], acc => (acc, [])
  | n + 1, v, c :: cols, acc => xorByte n (v / 2) cols (if v % 2 = 1 then acc ^^^ c else acc)

def xorBytes : List Byte → List Nat → Nat → Nat
  | [], _, acc => acc
  | b :: bs, cols, acc => let r := xorByte 8 b.toNat cols acc; xorBytes bs r.2 r.1

/-- Check bits of a 32-byte word (R117). -/
def checkBits (data : List Byte) : BitVec 10 := BitVec.ofNat 10 (xorBytes data columns 0)

/-- State of a word by its syndrome (Table INT-1). -/
inductive WordState where
  | clean
  /-- Check bit or data bit in error; the data bit, if one is. -/
  | correctable (bit : Option Nat)
  | poisoned
  | uncorrectable
  deriving DecidableEq, Repr

/-- The syndrome of poison (R118). -/
def synPoison : BitVec 10 := 0x3FF

/-- Table INT-1. -/
def wordState (syn : BitVec 10) : WordState :=
  if syn = 0 then .clean
  else if syn = synPoison then .poisoned
  else if popcount 10 syn.toNat = 1 then .correctable none
  else
    match columns.findIdx? (fun c => decide (c = syn.toNat)) with
    | some i => .correctable (some i)
    | none => .uncorrectable

/-- Invert data bit `i` of a word. -/
def flipBit (data : List Byte) (i : Nat) : List Byte :=
  setAt data (i / 8) (byteAt data (i / 8) ^^^ BitVec.ofNat 8 (2 ^ (i % 8)))

/-! ## The error log -/

/-- What an error-log entry says of the access that met the word: SRC of Table INT-6, and the handle, if one. -/
structure AccessInfo where
  src : Nat
  ctx : Option Nat
  handle : Nat
  label : Word
  deriving DecidableEq, Repr

def infoScrub : AccessInfo := { src := 0, ctx := none, handle := 0, label := 0 }
def infoWalk : AccessInfo := { src := 1, ctx := none, handle := 0, label := 0 }
def infoRepair : AccessInfo := { src := 5, ctx := none, handle := 0, label := 0 }
def infoUnit (ctx handle : Nat) (label : Word) : AccessInfo :=
  { src := 4, ctx := some ctx, handle := handle, label := label }

def kindCe : Nat := 1
def kindUe : Nat := 2
def kindRepair : Nat := 3

/-- An entry of Table INT-6. -/
def elogEntry (time : DWord) (addr kind : Nat) (syn : BitVec 10) (i : AccessInfo) : BitVec 256 :=
  BitVec.ofNat 256 (time.toNat + at_ addr 64 + at_ kind 96 + at_ i.src 104 + at_ syn.toNat 112
    + (match i.ctx with | none => 0 | some c => at_ c 128 + at_ 1 135 + at_ i.handle 136 + at_ i.label.toNat 160))

/-- Append to the error log, or drop and count the entry when 64 are unread (R137). -/
def State.logError (s : State) (addr kind : Nat) (syn : BitVec 10) (i : AccessInfo) : State :=
  let c := s.cis
  if (c.elogHead - c.elogTail).toNat < 64 then
    { s with cis := { c with elog := spSet 0 c.elog (c.elogHead.toNat % 64) (elogEntry s.now addr kind syn i)
                             elogHead := c.elogHead + 1 } }
  else { s with cis := { c with elogLost := c.elogLost + 1 } }

/-- Log and count a CE; notify at each multiple of CIS_CENOTIFY.COUNT (R138). -/
def State.logCe (s : State) (addr : Nat) (syn : BitVec 10) (i : AccessInfo) : State :=
  let s := s.logError addr kindCe syn i
  let s := { s with cis := { s.cis with ce := s.cis.ce + 1 } }
  if s.cis.ceNotify ≠ 0 ∧ s.cis.ce.toNat % s.cis.ceNotify.toNat = 0 then s.notify (ntIntegrityCe s.cis.ce) else s

/-- Log, count and notify a UE (R137, R138). -/
def State.logUe (s : State) (addr : Nat) (syn : BitVec 10) (i : AccessInfo) : State :=
  let s := s.logError addr kindUe syn i
  ({ s with cis := { s.cis with ue := s.cis.ue + 1 } }).notify (ntIntegrityUe addr)

/-! ## Banks -/

def bankKey (tr b : Nat) : Nat := tr * 16 + b

def State.bank (s : State) (tr b : Nat) : Bank := spGet Bank.reset s.cis.banks (bankKey tr b)

def State.setBank (s : State) (tr b : Nat) (x : Bank) : State :=
  { s with cis := { s.cis with banks := spSet Bank.reset s.cis.banks (bankKey tr b) x } }

/-- The tract a physical address lies in (Table CIS-1). -/
def addrTract (a : Nat) : Nat := a / 2 ^ 24
def addrBank (a : Nat) : Nat := a / 2 ^ 8 % 16
def addrRow (a : Nat) : Nat := a / 2 ^ 15 % 512

/-! ## Words -/

/-- The 32 stored bytes of word `w` (byte address over 32). -/
def State.stored (s : State) (w : Nat) : List Byte := (List.range 32).map (fun k => spGet Memory.default s.cis.mem (32 * w + k))

def State.syndrome (s : State) (w : Nat) : BitVec 10 := spGet 0 s.cis.synd w

/-- Store a word's bytes with check bits that give syndrome `syn`. -/
def State.putWord (s : State) (w : Nat) (data : List Byte) (syn : BitVec 10) : State :=
  { s with cis := { s.cis with mem := spSetRange Memory.default s.cis.mem (32 * w) 32 (byteAt data)
                               synd := spSet 0 s.cis.synd w syn } }

/-- What an access gives of a word, or of several: bytes, a poison mark a word, its status (R122, R123). -/
structure Got where
  bytes : List Byte
  marks : List Bool
  status : Half
  state : State

def zeroWord : List Byte := List.replicate 32 0

/-- Table INT-2, Read. -/
def State.readWord (s : State) (i : AccessInfo) (w : Nat) : Got :=
  match wordState (s.syndrome w) with
  | .clean => { bytes := s.stored w, marks := [false], status := stOK, state := s }
  | .correctable b =>
    let data := match b with | none => s.stored w | some k => flipBit (s.stored w) k
    { bytes := data, marks := [false], status := stOK
      state := (s.putWord w data 0).logCe (32 * w) (s.syndrome w) i }
  | .poisoned => { bytes := zeroWord, marks := [true], status := stPoison, state := s }
  | .uncorrectable =>
    { bytes := zeroWord, marks := [true], status := stUncorrectable
      state := (s.putWord w (s.stored w) synPoison).logUe (32 * w) (s.syndrome w) i }

/-- The word `old` with the bytes that `f` gives. -/
def merge (old : List Byte) (f : Nat → Option Byte) : List Byte :=
  (List.range 32).map (fun k => (f k).getD (byteAt old k))

/-- Table INT-2, Partial write. A write of marked data leaves the word poisoned (R229). -/
def State.mergeWord (s : State) (i : AccessInfo) (w : Nat) (f : Nat → Option Byte) (poison : Bool) : Half × State :=
  let syn := if poison then synPoison else 0
  match wordState (s.syndrome w) with
  | .clean => (stOK, s.putWord w (merge (s.stored w) f) syn)
  | .correctable b =>
    let data := match b with | none => s.stored w | some k => flipBit (s.stored w) k
    (stOK, (s.putWord w (merge data f) syn).logCe (32 * w) (s.syndrome w) i)
  | .poisoned => (stPoison, s.putWord w (merge (s.stored w) f) synPoison)
  | .uncorrectable =>
    (stUncorrectable, (s.putWord w (merge (s.stored w) f) synPoison).logUe (32 * w) (s.syndrome w) i)

/-- Write to a word the bytes that `f` gives: untouched, full-word or partial (R120). -/
def State.writeWord (s : State) (i : AccessInfo) (w : Nat) (f : Nat → Option Byte) (poison : Bool) : Half × State :=
  if (List.range 32).all (fun k => (f k).isNone) then (stOK, s)
  else if (List.range 32).all (fun k => (f k).isSome) then
    (stOK, s.putWord w (merge zeroWord f) (if poison then synPoison else 0))
  else s.mergeWord i w f poison

/-- Table INT-2, Scrub or walk read-back. -/
def State.scrubWord (s : State) (i : AccessInfo) (w : Nat) : State :=
  match wordState (s.syndrome w) with
  | .clean => s
  | .correctable b =>
    let data := match b with | none => s.stored w | some k => flipBit (s.stored w) k
    (s.putWord w data 0).logCe (32 * w) (s.syndrome w) i
  | .poisoned => s
  | .uncorrectable => (s.putWord w (s.stored w) synPoison).logUe (32 * w) (s.syndrome w) i

/-! ## Accesses -/

/-- Read `n` words from word `w` on. -/
def State.readWords (s : State) (i : AccessInfo) (w : Nat) : Nat → Got
  | 0 => { bytes := [], marks := [], status := stOK, state := s }
  | n + 1 =>
    let g := s.readWord i w
    let r := g.state.readWords i (w + 1) n
    { bytes := g.bytes ++ r.bytes, marks := g.marks ++ r.marks, status := worstData g.status r.status, state := r.state }

/-- CIS_POISONREADS counts an access that reports DATA_POISON (R123). -/
def State.countPoison (s : State) (st : Half) : State :=
  if st = stPoison then { s with cis := { s.cis with poisonReads := s.cis.poisonReads + 1 } } else s

/-- A wide read of the line at address `a` (R78, R120). -/
def State.readLine (s : State) (i : AccessInfo) (a : Nat) : Got :=
  let g := s.readWords i (a / 32) 8
  { g with state := g.state.countPoison g.status }

/-- A narrow read of `n` bytes at address `a` (R79, R120). -/
def State.readNarrow (s : State) (i : AccessInfo) (a n : Nat) : Got :=
  let g := s.readWord i (a / 32)
  { g with bytes := (g.bytes.drop (a % 32)).take n, state := g.state.countPoison g.status }

/-- Write to the words from `w` on the bytes that `f` gives by address; `poison` says which words are marked. -/
def State.writeWords (s : State) (i : AccessInfo) (w : Nat) (f : Nat → Option Byte) (poison : Nat → Bool) :
    Nat → Half × State
  | 0 => (stOK, s)
  | n + 1 =>
    let g := s.writeWord i w (fun k => f (32 * w + k)) (poison w)
    let r := g.2.writeWords i (w + 1) f poison n
    (worstData g.1 r.1, r.2)

/-- A write to the line at address `a` of the bytes that `f` gives by address, in one slot (R80). -/
def State.writeLine (s : State) (i : AccessInfo) (a : Nat) (f : Nat → Option Byte) (poison : Nat → Bool) : Half × State :=
  let g := s.writeWords i (a / 256 * 8) f poison 8
  (g.1, g.2.countPoison g.1)

end Sys2Proof.Machine
end

