-- ==== Sys2Proof/Machine/Handle.lean ====
section
/-!
DEFINITION. Accesses through handles (04 R93 to R95, Table CIS-4), and the range accesses of the die-level units, which
this model performs inside their command (log 9).
-/

namespace Sys2Proof.Machine

/-- A failed check: its status and its order in Table CIS-4 (the REASON of Table CMD-6). -/
structure CheckFail where
  status : Half
  order : Byte
  deriving DecidableEq, Repr

/-- The permission bit a check asks for. -/
inductive Perm where
  | wr | ww | nr | nw | xr | xw
  /-- The pool's own areas check no permission (R329). -/
  | own
  deriving DecidableEq, Repr

def Desc.allows (d : Desc) : Perm → Bool
  | .wr => d.wr
  | .ww => d.ww
  | .nr => d.nr
  | .nw => d.nw
  | .xr => d.xr
  | .xw => d.xw
  | .own => true

def State.ctxOf (s : State) (c : Nat) : Ctx := spGet Ctx.reset s.ctxs c
def State.isOpen (s : State) (c : Nat) : Bool := (s.ctxOf c).state = .opened

/-- Power state of a tract (Table CIS-5). -/
def State.tractState (s : State) (tr : Nat) : Nat := (spGet 0 s.cis.tract tr).toNat

def State.tractOn (s : State) (tr : Nat) : Bool := decide (s.tractState tr = 3)

/-- Check 1: the context is open. In-flight work of a closing context runs to its end (Table CTX-3 row 2), so its own
accesses still pass; a request from another die does not (R303). -/
def State.ctxServes (s : State) (c : Nat) (remote : Bool) : Bool :=
  match (s.ctxOf c).state with
  | .opened => true
  | .closing => !remote
  | .closed => false

/-- Table CIS-4 for `size` bytes at offset `off`, aligned to `align`. -/
def State.check (s : State) (c h : Nat) (perm : Perm) (off : Int) (size align : Nat) : Option CheckFail :=
  let d := s.act.desc c h
  if !s.ctxServes c (decide (perm = .xr) || decide (perm = .xw)) then some ⟨stRefuseContext, 1⟩
  else if !d.valid || d.tracts.any (fun t => !s.tractOn t) then some ⟨stBadHandle, 2⟩
  else if !d.allows perm then some ⟨stPermission, 3⟩
  else if off % (align : Int) ≠ 0 then some ⟨stAlign, 4⟩
  else if off < 0 ∨ (d.bytes : Int) < off + size then some ⟨stBounds, 5⟩
  else none

/-- The checks of a die-level range, whose ends need no line alignment of their own. -/
def State.checkRange (s : State) (c h : Nat) (perm : Perm) (off size : Nat) : Option CheckFail :=
  s.check c h perm (off : Int) size 1

/-- The first failure of a list of checks. -/
def firstFail : List (Option CheckFail) → Option CheckFail
  | [] => none
  | some f :: _ => some f
  | none :: rest => firstFail rest

/-- The physical address of offset `o` of a handle of the active set. -/
def State.phys (s : State) (c h o : Nat) : Nat := (s.act.desc c h).translate o

def State.unitInfo (s : State) (c h : Nat) : AccessInfo := infoUnit c h (s.act.desc c h).label

/-- An access of a die-level unit is granted through port X of its bank, whose next search starts at port L (R80, R85;
log 9). -/
def State.grantX (s : State) (a : Nat) : State :=
  let s := s.setBank (addrTract a) (addrBank a) { s.bank (addrTract a) (addrBank a) with last := 2 }
  { s with cis := { s.cis with slots := s.cis.slots + 1 } }

/-- Read the lines of a handle from line offset `o` (a multiple of 256) on. -/
def State.readLines (s : State) (c h o : Nat) : Nat → Got
  | 0 => { bytes := [], marks := [], status := stOK, state := s }
  | n + 1 =>
    let g := (s.grantX (s.phys c h o)).readLine (s.unitInfo c h) (s.phys c h o)
    let r := g.state.readLines c h (o + 256) n
    { bytes := g.bytes ++ r.bytes, marks := g.marks ++ r.marks, status := worstData g.status r.status, state := r.state }

/-- Lines that `n` bytes at offset `o` touch. -/
def lineCount (o n : Nat) : Nat := if n = 0 then 0 else (o + n - 1) / 256 + 1 - o / 256

/-- Read `n` bytes at offset `o` of a handle; `marks` are those of every code word of the lines read. -/
def State.readBytes (s : State) (c h o n : Nat) : Got :=
  let g := s.readLines c h (o / 256 * 256) (lineCount o n)
  { g with bytes := (g.bytes.drop (o % 256)).take n }

/-- Write to the lines of a handle from line offset `o` on the bytes that `f` gives by offset; `poison` marks words by
their offset over 32. -/
def State.writeLines (s : State) (c h o : Nat) (f : Nat → Option Byte) (poison : Nat → Bool) : Nat → Half × State
  | 0 => (stOK, s)
  | n + 1 =>
    let a := s.phys c h o
    let g := (s.grantX a).writeLine (s.unitInfo c h) a (fun x => f (o + (x - a))) (fun w => poison (o / 32 + (w - a / 32)))
    let r := g.2.writeLines c h (o + 256) f poison n
    (worstData g.1 r.1, r.2)

/-- Write bytes at offset `o` of a handle; word `k` from the first touched word is written as poison where marked. -/
def State.writeMarked (s : State) (c h o : Nat) (bytes : List Byte) (marks : List Bool) : Half × State :=
  s.writeLines c h (o / 256 * 256)
    (fun x => if o ≤ x ∧ x < o + bytes.length then some (byteAt bytes (x - o)) else none)
    (fun w => marks.getD (w - o / 32) false)
    (lineCount o bytes.length)

def State.writeBytes (s : State) (c h o : Nat) (bytes : List Byte) : Half × State := s.writeMarked c h o bytes []

/-- The little-endian number of `n` bytes at offset `o` of a handle. -/
def State.readNat (s : State) (c h o n : Nat) : Nat := leNat (s.readBytes c h o n).bytes

/-- Contents the manual calls undefined: the next free bytes at `n` bytes from offset `o` (log 2). -/
def State.havoc (s : State) (c h o n : Nat) : State :=
  let bytes := (List.range n).map (Config.freeByte s.free)
  { (s.writeBytes c h o bytes).2 with free := s.free + 1 }

end Sys2Proof.Machine
end

