-- ==== Sys2Proof/Machine/Books.lean ====
section
/-!
DEFINITION. The accesses of one command of a die-level unit, and the books of a page pool: its geometry, its page records
and what changes them (14 R326 to R332, Table KVP-3).
-/

namespace Sys2Proof.Machine

/-! ## Accesses of a command -/

/-- The state a command has reached, the worst data status of its accesses (R123), and the flags it has raised. -/
structure Io where
  s : State
  st : Half
  fl : Flags

def Io.of (s : State) : Io := { s := s, st := stOK, fl := 0 }

def Io.read (x : Io) (c h off n : Nat) : List Byte × Io :=
  let g := x.s.readBytes c h off n
  (g.bytes, { x with s := g.state, st := worstData x.st g.status })

def Io.readNat (x : Io) (c h off n : Nat) : Nat × Io :=
  let r := x.read c h off n
  (leNat r.1, r.2)

def Io.writeMarked (x : Io) (c h off : Nat) (bytes : List Byte) (marks : List Bool) : Io :=
  let g := x.s.writeMarked c h off bytes marks
  { x with s := g.2, st := worstData x.st g.1 }

def Io.write (x : Io) (c h off : Nat) (bytes : List Byte) : Io := x.writeMarked c h off bytes []

/-- Copy `n` bytes of a handle with the poison of the words they stand in; both offsets lie alike in their lines. -/
def Io.copy (x : Io) (c h src dst n : Nat) : Io :=
  let g := x.s.readBytes c h src n
  ({ x with s := g.state, st := worstData x.st g.status }).writeMarked c h dst g.bytes (g.marks.drop (src % 256 / 32))

def boundsFail : CheckFail := ⟨stBounds, 0⟩

/-- The check of a range that may be empty (R95). -/
def State.chk (s : State) (c h : Nat) (perm : Perm) (off size : Nat) : Option CheckFail :=
  if size = 0 then none else s.checkRange c h perm off size

/-! ## The pool (R326 to R332) -/

def State.pool (s : State) (c : Nat) : Pool := spGet Pool.reset s.kvp c
def State.setPool (s : State) (c : Nat) (p : Pool) : State := { s with kvp := spSet Pool.reset s.kvp c p }

/-- *D*. -/
def Pool.dim (p : Pool) : Nat := [64, 128, 256].getD p.headdim.toNat 64

/-- Element width of the format in bits. -/
def Pool.width (p : Pool) : Nat := [16, 8, 4].getD p.fmt.toNat 16

/-- Scale block; 0 for BF16. -/
def Pool.blk (p : Pool) : Nat := [0, 16, 32].getD p.fmt.toNat 0

/-- *E* and *S* of Table KVP-1. -/
def Pool.elems (p : Pool) : Nat := 64 * p.dim * p.width / 8
def Pool.scales (p : Pool) : Nat := if p.blk = 0 then 0 else 64 * p.dim / p.blk

def Pool.pageSize (p : Pool) : Nat := 2 * p.elems + 2 * p.scales

/-- Offset of page `n` in the pool handle (R327). -/
def Pool.pageOff (p : Pool) (n : Nat) : Nat := p.dataOff.toNat + n * p.pageSize

/-- Offset of the record of page `n` (R327). -/
def Pool.recOff (p : Pool) (n : Nat) : Nat := p.metaOff.toNat + 8 * n

/-- Bytes of a prefix node (R345). -/
def Pool.nodeBytes (p : Pool) : Nat := 512 + 256 * ((p.layers.toNat * p.heads.toNat + 63) / 64)

/-- KVP_FREE − KVP_RESERVED (R331). -/
def Pool.avail (p : Pool) : Nat := p.free - p.reserved

/-- The pool's own areas as (handle, offset, bytes); the index areas last. -/
def Pool.areas (p : Pool) (index : Bool) : List (Nat × Nat × Nat) :=
  [(p.phandle.toNat, p.dataOff.toNat, p.pages.toNat * p.pageSize), (p.phandle.toNat, p.metaOff.toNat, 8 * p.pages.toNat)]
    ++ (if index then
      [(p.xhandle.toNat, p.pxOff.toNat, p.nodes.toNat * p.nodeBytes),
        (p.xhandle.toNat, p.bucketOff.toNat, 4 * 2 ^ p.bucketBits.toNat)] else [])

/-- R328, R329: the pool is LIVE and its areas pass VALID, the ON state and bounds. -/
def State.poolFault (s : State) (c : Nat) (index : Bool) : Option CheckFail :=
  if !(s.pool c).live then some ⟨stRefusePages, 0⟩
  else firstFail (((s.pool c).areas index).map (fun a => s.chk c a.1 .own a.2.1 a.2.2))

/-- REF and PIN of a page's record. -/
def State.pageRef (s : State) (c n : Nat) : Nat := s.readNat c (s.pool c).phandle.toNat ((s.pool c).recOff n) 2
def State.pagePin (s : State) (c n : Nat) : Nat := s.readNat c (s.pool c).phandle.toNat ((s.pool c).recOff n + 2) 2

/-- The page is HELD (R331). -/
def State.pageHeld (s : State) (c n : Nat) : Bool :=
  decide (n < (s.pool c).pages.toNat) && decide (n < (s.pool c).fresh) && decide (1 ≤ s.pageRef c n)

def Io.pool (x : Io) (c : Nat) : Pool := x.s.pool c

/-- The die reads the record of a page (R121, R123; log 56). -/
def Io.touchRec (x : Io) (c n : Nat) : Io := (x.read c (x.pool c).phandle.toNat ((x.pool c).recOff n) 8).2

/-- The die reads the records of the pages of a list that the pool has. -/
def Io.touchRecs (x : Io) (c : Nat) (l : List Nat) : Io :=
  (l.filter (fun n => decide (n < (x.pool c).pages.toNat))).foldl (fun x n => x.touchRec c n) x

def Io.setPool (x : Io) (c : Nat) (p : Pool) : Io := { x with s := x.s.setPool c p }

/-- Write REF and PIN of a page. -/
def Io.setCounts (x : Io) (c n ref pin : Nat) : Io :=
  x.write c (x.pool c).phandle.toNat ((x.pool c).recOff n) (leBytes 2 ref ++ leBytes 2 pin)

/-- The contents of a page that no append has written are undefined (R338; log 2). -/
def Io.havocPage (x : Io) (c n : Nat) : Io :=
  { x with s := x.s.havoc c (x.pool c).phandle.toNat ((x.pool c).pageOff n) (x.pool c).pageSize }

/-- Allocate: the top of the free stack, or the next fresh id (R330; Table KVP-3). -/
def Io.alloc (x : Io) (c : Nat) : Nat × Io :=
  let p := x.pool c
  let p' := { p with free := p.free - 1, held := p.held + 1 }
  match p.stack with
  | n :: rest => (n, (((x.touchRec c n).setPool c { p' with stack := rest }).setCounts c n 1 0).havocPage c n)
  | [] => (p.fresh, ((x.setPool c { p' with fresh := p.fresh + 1 }).setCounts c p.fresh 1 0).havocPage c p.fresh)

/-- A page becomes FREE and goes on top of the stack, NEXT naming the page below it (R327, R330). -/
def Io.push (x : Io) (c n : Nat) : Io :=
  let p := x.pool c
  let x := x.setPool c { p with stack := n :: p.stack, free := p.free + 1 }
  match p.stack with
  | below :: _ => x.write c p.phandle.toNat (p.recOff n) (leBytes 4 0 ++ leBytes 4 below)
  | [] =>
    let x := x.write c p.phandle.toNat (p.recOff n) (leBytes 4 0 ++ leBytes 4 (Config.freeNext x.s.free).toNat)
    { x with s := { x.s with free := x.s.free + 1 } }

/-- Take a reference on a HELD page. -/
def Io.take (x : Io) (c n : Nat) : Io :=
  (x.touchRec c n).setCounts c n (x.s.pageRef c n + 1) (x.s.pagePin c n)

/-- Drop a reference on a HELD page (Table KVP-3). -/
def Io.drop (x : Io) (c n : Nat) : Io :=
  let ref := x.s.pageRef c n
  let pin := x.s.pagePin c n
  let x := x.touchRec c n
  if 1 < ref then x.setCounts c n (ref - 1) pin
  else
    let p := x.pool c
    let x := x.setPool c { p with held := p.held - 1 }
    if pin = 0 then x.push c n
    else
      let p := x.pool c
      (x.setPool c { p with reclaim := p.reclaim + 1 }).setCounts c n 0 pin

/-- Pin a HELD page (R332). -/
def Io.pin (x : Io) (c n : Nat) : Io :=
  (x.touchRec c n).setCounts c n (x.s.pageRef c n) (x.s.pagePin c n + 1)

/-- Drop a pin (Table KVP-3). -/
def Io.unpin (x : Io) (c n : Nat) : Io :=
  let ref := x.s.pageRef c n
  let pin := x.s.pagePin c n
  let x := x.touchRec c n
  if ref = 0 ∧ pin = 1 then
    let p := x.pool c
    (x.setPool c { p with reclaim := p.reclaim - 1 }).push c n
  else x.setCounts c n ref (pin - 1)

/-- Times `n` stands in a list. -/
def timesIn (n : Nat) (l : List Nat) : Nat := (l.filter (fun k => decide (k = n))).length

/-- Every page of the list is HELD and its REF covers the times it is listed (R343). -/
def State.refsCover (s : State) (c : Nat) (l : List Nat) : Bool :=
  l.all (fun n => s.pageHeld c n && decide (timesIn n l ≤ s.pageRef c n))

/-- One more reference for each listing keeps every page at 65,535 or below (R332). -/
def State.refsFit (s : State) (c : Nat) (l : List Nat) : Bool :=
  l.all (fun n => decide (s.pageRef c n + timesIn n l ≤ 65535))

/-- Drop the pins of a command (R332). -/
def State.unpinAll (s : State) (c : Nat) (pins : List Nat) : State :=
  (pins.foldl (fun x n => x.unpin c n) (Io.of s)).s

end Sys2Proof.Machine
end

