-- ==== Sys2Proof/Machine/Topology.lean ====
section
/-! DEFINITION. Discovery and the checks of partners (19 R471 to R474). -/

namespace Sys2Proof.Machine

/-- The HELLO or HELLO_ACK payload of Table TOP-3. -/
def helloBytes (m : Hello) : List Byte :=
  leBytes 2 m.dieId.toNat ++ [m.port, m.role]
    ++ leBytes 1 (m.tier.toNat + at_ m.orient.toNat 4 + at_ (b2n m.mapv) 7) ++ [m.hubDist] ++ leBytes 2 0
    ++ leBytes 4 m.variant.toNat ++ leBytes 4 0

/-- This die's own fields, as it sends them on physical port `p`. -/
def State.ownHello (s : State) (p : Nat) : Hello :=
  { dieId := s.dieId, port := BitVec.ofNat 8 (logicalPort s.top.orient p), role := 0, tier := s.effTier,
    orient := s.top.orient, mapv := s.top.mapv, hubDist := BitVec.ofNat 8 s.hubDist,
    variant := if s.rst.idLoaded then s.fuse.variant else 0 }

/-- A discovery flit travels on its own link; it is no hub flit and is not routed. -/
def State.linkFlit (s : State) (typ : BitVec 6) (payload : List Byte) : Flit :=
  { vc := vcCtrl, typ := typ, src := s.dieId, dst := s.dieId, ctx := 0, xid := 0, segno := 0, zrc := false,
    payload := payload }

/-- Send HELLO on a port (R471). -/
def State.sendHello (s : State) (p : Nat) : State :=
  let s := s.setPort p { s.port p with unacked := (s.port p).unacked + 1 }
  s.portSend p (s.linkFlit 8 (helloBytes (s.ownHello p)))

/-- Answer a HELLO (R471). -/
def State.sendHelloAck (s : State) (p : Nat) : State := s.portSend p (s.linkFlit 9 (helloBytes (s.ownHello p)))

/-- A HELLO field has changed: send HELLO on every port that exchanges them. -/
def State.sendHellos (s : State) : State :=
  (List.range 9).foldl (fun s p => if (s.port p).alive then s.sendHello p else s) s

/-- The check of R473 that a partner fails. -/
def State.partnerFails (s : State) (p : Nat) (m : Hello) : Bool :=
  let e := spGet 0 s.top.expect (logicalPort s.top.orient p)
  (decide (m.role = 0) && decide (m.dieId = s.dieId))
    || (decide (p = 8) && !(decide (m.role = 0)
        && ((decide (m.tier = 1) && decide (s.effTier = 2)) || (decide (m.tier = 2) && decide (s.effTier = 1)))))
    || (s.top.mapv && bit e.toNat 31
        && !(decide (bits e.toNat 24 1 = m.role.toNat) && decide (bits e.toNat 0 16 = m.dieId.toNat)
              && decide (bits e.toNat 16 4 = m.port.toNat)))

/-- The handshake is complete (R471). -/
def Port.handshaken (p : Port) : Bool := p.heard && decide (p.unacked = 0)

/-- Check one port that has a partner (R473): on a failure the port's mismatch is set and told, and the port is held in
CTRLONLY, which an ACTIVE one enters with a HELLO. Without one, a port whose handshake is complete and that no mismatch holds
goes ACTIVE (R471). A port in RETRAIN is checked where it stands, and its end of RETRAIN heeds the mismatch. -/
def State.checkPort (s : State) (p : Nat) : State :=
  let lp := logicalPort s.top.orient p
  let x := s.port p
  match x.partner with
  | none => s
  | some m =>
    if !x.alive && decide (x.state ≠ .retrain) then s
    else if s.partnerFails p m && !bit s.top.suspended.toNat lp then
      let told := bit s.top.mismatch.toNat lp
      let s := { s with top := { s.top with mismatch := setBit s.top.mismatch lp true } }
      let s := if x.state = .active then (s.setPort p { x with state := .ctrlOnly }).sendHello p else s
      if told then s else s.notify (ntTopoMismatch lp m.dieId)
    else if bit s.top.mismatch.toNat lp || !x.handshaken || decide (x.state ≠ .ctrlOnly) then s
    else (s.setPort p { x with state := .active }).pump p

def State.checkPorts (s : State) : State := (List.range 9).foldl State.checkPort s

/-- HUB_FOUND when HUBDIST is first finite (R472), and the kept notices once there is a hub port (R516). -/
def State.findHub (s : State) : State :=
  if s.rst.hubFound || decide (s.hubDist = 0xFF) then s.flushNotices
  else
    let s := { s with rst := { s.rst with hubFound := true } }
    let s := s.sendOwn (s.noticeFlit (ntHubFound s.hubPort s.hubDist))
    s.flushNotices

/-- READY leaves once the die is READY and HUB_FOUND has been sent (R517). -/
def State.tellReady (s : State) : State :=
  if s.rst.ready && s.rst.hubFound && !s.rst.readySent then
    ({ s with rst := { s.rst with readySent := true } }).notify
      (ntReady s.rst.cause (popcount64 s.cis.tractFail) s.rst.readyUs)
  else s
where
  popcount64 (m : BitVec 64) : Nat := (maskList m.toNat 64).length

/-- HUBDIST may have changed: resend HELLO if it has, and let notices leave (R471, R472). -/
def State.afterTopology (s : State) : State :=
  let d := BitVec.ofNat 8 s.hubDist
  let s := if d = s.top.lastDist then s
    else ({ s with top := { s.top with lastDist := d } }).sendHellos
  s.findHub.tellReady

end Sys2Proof.Machine
end

