-- ==== Sys2Proof/Machine/Commands.lean ====
section
/-!
DEFINITION. Commands in flight (11 R262, R268, R272 to R276): the packet header, dispatch, and how a command ends. A
command is in flight from dispatch until its completion record is written; a command of a step script (R371) until it
ends.
-/

namespace Sys2Proof.Machine

/-! ## The packet header (Table CMD-2) -/

def Pkt.opcode (p : Pkt) : Nat := (byteAt p.bytes 0).toNat
def Pkt.units (p : Pkt) : Nat := bits (byteAt p.bytes 1).toNat 0 4 + 1
def Pkt.fence (p : Pkt) : Bool := bit (byteAt p.bytes 1).toNat 4
def Pkt.notify (p : Pkt) : Bool := bit (byteAt p.bytes 1).toNat 5
def Pkt.condFlag (p : Pkt) : Bool := bit (byteAt p.bytes 1).toNat 6
def Pkt.lookahead (p : Pkt) : Bool := bit (byteAt p.bytes 1).toNat 7
def Pkt.tag (p : Pkt) : Half := halfAt p.bytes 2
def Pkt.byte (p : Pkt) (i : Nat) : Nat := (byteAt p.bytes i).toNat
def Pkt.u16 (p : Pkt) (i : Nat) : Nat := fieldAt p.bytes i 2
def Pkt.u32 (p : Pkt) (i : Nat) : Nat := fieldAt p.bytes i 4
def Pkt.u64 (p : Pkt) (i : Nat) : Nat := fieldAt p.bytes i 8
/-- A handle field: bits [5:0] of a byte. -/
def Pkt.handle (p : Pkt) (i : Nat) : Nat := p.byte i % 64

/-! ## The in-flight table -/

def State.cmd (s : State) (k : Nat) : Option Cmd := spGet none s.pmh.cmds k

def State.setCmd (s : State) (k : Nat) (c : Option Cmd) : State :=
  { s with pmh := { s.pmh with cmds := spSet none s.pmh.cmds k c } }

def State.setJob (s : State) (k : Nat) (j : Job) : State :=
  match s.cmd k with
  | none => s
  | some c => s.setCmd k (some { c with job := j })

/-- Commands in flight, with their slots, in slot order. -/
def State.flying (s : State) : List (Nat × Cmd) :=
  s.pmh.cmds.filterMap (fun e => e.2.map (fun c => (e.1, c)))

/-- Commands in flight in dispatch order. -/
def State.inOrder (s : State) : List (Nat × Cmd) :=
  (sortBy (fun k => match s.cmd k with | some c => c.serial | none => 0) (s.flying.map (fun e => e.1))).filterMap
    (fun k => (s.cmd k).map (fun c => (k, c)))

/-- PMH_INFLIGHT. -/
def State.inFlight (s : State) : Nat := s.flying.length

/-- The lowest free in-flight slot (R273, R440; log 13). -/
def State.freeSlot (s : State) : Option Nat := (List.range 1024).find? (fun k => (s.cmd k).isNone)

def State.queue (s : State) (q : Nat) : Queue := spGet Queue.reset s.queues q

def State.setQueue (s : State) (q : Nat) (x : Queue) : State := { s with queues := spSet Queue.reset s.queues q x }

def State.setCtx (s : State) (c : Nat) (x : Ctx) : State := { s with ctxs := spSet Ctx.reset s.ctxs c x }

def State.tile (s : State) (t : Nat) : Tile := spGet Tile.reset s.tiles t

def State.setTile (s : State) (t : Nat) (x : Tile) : State := { s with tiles := spSet Tile.reset s.tiles t x }

def State.setWren (s : State) (t : Nat) (f : Wren → Wren) : State :=
  s.setTile t { s.tile t with wren := f (s.tile t).wren }

def State.stepJob (s : State) (c : Nat) : Option StepJob := spGet none s.srv.jobs c

def State.setStepJob (s : State) (c : Nat) (j : Option StepJob) : State :=
  { s with srv := { s.srv with jobs := spSet none s.srv.jobs c j } }

/-- Queue number that a completion record names; a script's commands write none. -/
def Origin.queueNo : Origin → Nat
  | .queue q => q
  | .script _ => 0

/-- A script command ends: its pins are dropped, its slot is free, its flags and its failure go to the STEP (R371, R374). -/
def State.scriptEnds (s : State) (k c idx : Nat) (st : Half) (flags : BitVec 4) : State :=
  let s := match s.cmd k with
    | none => s
    | some x => (s.unpinAll x.ctx x.pins).setCmd k none
  match s.stepJob c with
  | none => s
  | some j =>
    s.setStepJob c (some { j with
      flags := j.flags ||| flags
      hold := if j.hold = some k then none else j.hold
      data := if st = stPoison ∨ st = stUncorrectable then worstData j.data st else j.data
      fail := if st = stOK ∨ j.fail.isSome then j.fail else some (st, 1, idx) })

/-- The status of a command whose dispatch read data with status `data` (R123): that status comes before LENGTH_LIMIT (R325),
and not before a failure. -/
def withData (data st : Half) : Half :=
  if data = stOK then st
  else if [stOK, stPoison, stUncorrectable, stLengthLimit].contains st then worstData data st else st

/-- A command has taken its effects: its completion waits to be written, or its script goes on (R274, R276). -/
def State.finishLate (s : State) (k : Nat) (st : Half) (reason : Byte) (flags : BitVec 4) (late : Bool)
    (data : List Byte) : State :=
  match s.cmd k with
  | none => s
  | some c =>
    let st := withData c.data st
    match c.origin with
    | .script x => s.scriptEnds k x c.order st (c.flags ||| flags)
    | .queue q =>
      let s := s.setCmd k (some { c with job := .ended, flags := c.flags ||| flags })
      { s with pmh := { s.pmh with compl := s.pmh.compl ++ [
          { slot := some k, ctx := c.ctx, queue := q, tag := c.tag, notify := c.notify, status := st,
            reason := reason, flags := c.flags ||| flags, late := late, wave := c.wave, data := data }] } }

def State.finish (s : State) (k : Nat) (st : Half) (reason : Byte) (flags : BitVec 4) (data : List Byte) : State :=
  s.finishLate k st reason flags false data

/-! ## Dispatch -/

/-- What dispatching a command comes to: it must wait, it ends at once, or it goes on in flight. -/
inductive DispOut where
  | wait
  | fin (s : State) (st : Half) (reason : Byte) (flags : BitVec 4) (data : List Byte)
  | run (s : State) (j : Job)

def DispOut.fail (s : State) (st : Half) : DispOut := .fin s st 0 0 []
def DispOut.failCheck (s : State) (f : CheckFail) : DispOut := .fin s f.status f.order 0 []
def DispOut.ok (s : State) (data : List Byte) : DispOut := .fin s stOK 0 0 data

/-- The Pumphouse runs: the die is READY, in no reset, and neither ending a detach nor in STANDBY. -/
def State.dispatchOpen (s : State) : Bool :=
  s.rst.ready && s.rst.held.isNone && !s.rst.standby
    && (match s.rst.detach with | none => true | some d => decide (d.stage ≤ 2))

/-- A command of the queue is in flight, or its completion is not yet written (R272). -/
def State.queueBusy (s : State) (q : Nat) : Bool :=
  s.flying.any (fun e => decide (e.2.origin = .queue q))
    || s.pmh.compl.any (fun c => decide (c.queue = q) && c.slot.isNone)

/-- The head packet of a queue may dispatch under R272: no command holds the queue, and FENCE waits for the earlier
ones. -/
def State.mayDispatch (s : State) (q : Nat) (p : Pkt) : Bool :=
  s.dispatchOpen && (s.queue q).hold.isNone && !(p.fence && s.queueBusy q)

/-- The executing unit of an opcode that its commands wait for (Table CMD-4): 1 page allocator, 2 prefix index, 3 Starling
table, 4 sampler, 5 Cistern. 0: the Pumphouse, which many commands may use in one wave (R270); the tiles, which commands wait
for in flight (`State.yields`); Lark, whose frames R427 orders. -/
def unitOf (opcode : Nat) : Nat :=
  if 0x28 ≤ opcode ∧ opcode ≤ 0x2C then 1
  else if opcode = 0x2D ∨ opcode = 0x2E then 2
  else if 0x30 ≤ opcode ∧ opcode ≤ 0x33 then 3
  else if opcode = 0x34 then 4
  else if opcode = 0x3C ∨ opcode = 0x3D then 5
  else 0

/-- A STEP of the context other than the one in slot `k` is in flight (R273, R365). -/
def State.stepFlying (s : State) (k c : Nat) : Bool :=
  s.flying.any (fun e => decide (e.1 ≠ k) && decide (e.2.ctx = c) && decide (e.2.opcode = 0x32)
    && (match e.2.origin with | .queue _ => true | .script _ => false))

/-- The head packet of another queue waits for the same unit and goes first: it is of a lower class, or of the same class and
decoded earlier (R260). A packet that its queue holds, that will be skipped, or a STEP behind another does not wait for it. -/
def State.outranked (s : State) (q : Nat) (p : Pkt) : Bool :=
  decide (unitOf p.opcode ≠ 0) && s.queues.any (fun e => match e.2.decoded with
    | [] => false
    | x :: _ => decide (e.1 ≠ q) && decide (unitOf x.opcode = unitOf p.opcode) && s.mayDispatch e.1 x
        && !(x.condFlag && !e.2.cond) && !(decide (x.opcode = 0x32) && s.stepFlying 1024 x.ctx)
        && (decide (x.cls < p.cls) || (decide (x.cls = p.cls) && decide (x.order < p.order))))

/-- Opcodes that hold their queue until they complete: FENCE, SEM_WAIT, COND (R272). -/
def holdsQueue (opcode : Nat) : Bool := decide (opcode = 0x01) || decide (opcode = 0x02) || decide (opcode = 0x04)

/-- Privileged opcodes (R287). -/
def privileged (opcode : Nat) : Bool :=
  (decide (0x38 ≤ opcode) && decide (opcode ≤ 0x3D)) || decide (opcode = 0x48) || decide (opcode = 0x4A)

/-- The in-flight entry of a packet. -/
def mkCmd (o : Origin) (p : Pkt) (serial wave : Nat) : Cmd :=
  { origin := o, tag := p.tag, notify := p.notify, ctx := p.ctx, cls := p.cls, order := p.order, serial := serial,
    wave := wave, opcode := BitVec.ofNat 8 p.opcode, flags := 0, data := stOK, pins := [], job := .ended }

/-- Put a packet in flight in slot `k`. -/
def State.enter (s : State) (k : Nat) (o : Origin) (p : Pkt) : State :=
  let s := s.setCmd k (some (mkCmd o p s.pmh.serial s.time.wave))
  { s with pmh := { s.pmh with serial := s.pmh.serial + 1 } }

/-- Apply the outcome of a dispatch that put a packet in flight in slot `k`; `old` is the state before. -/
def DispOut.apply (old : State) (k : Nat) : DispOut → State
  | .wait => old
  | .fin s st reason flags data => s.finish k st reason flags data
  | .run s j => s.setJob k j

/-- Take the head packet off a queue, which a holding opcode then holds. -/
def State.takeHead (s : State) (q k : Nat) (p : Pkt) : State :=
  let x := s.queue q
  s.setQueue q { x with decoded := x.decoded.drop 1, looked := x.looked - 1
                        hold := if holdsQueue p.opcode then some k else x.hold }

/-- Dispatch the head packet of queue `q`, if it is one that `row` names and may dispatch now (R260, R268, R272, R273, R287):
`act` is what its opcode does. A packet that its context's close finds decoded ends as Table CTX-3 row 3 says (log 37). -/
def State.dispatch (s : State) (q : Nat) (row : Pkt → Bool) (act : State → Nat → Pkt → DispOut) : State :=
  match (s.queue q).decoded with
  | [] => s
  | p :: _ =>
    if !row p || !s.mayDispatch q p || (p.condFlag && !(s.queue q).cond) || s.outranked q p then s
    else
      match s.freeSlot with
      | none => s
      | some k =>
        let s' := (s.takeHead q k p).enter k (.queue q) p
        (if privileged p.opcode && decide (p.ctx ≠ 0) then DispOut.fail s' stPermission
         else if (s.ctxOf p.ctx).state = .closing then DispOut.fail s' stRefuseContext
         else act s' k p).apply s k

/-! ## Loss of a partner -/

/-- A command awaits a flit over port `p` (R453). -/
def Job.awaits (p : Nat) : Job → Bool
  | .xfer x => decide (x.port = p)
  | .remoteSig q _ _ => decide (q = p)
  | _ => false

/-- A segment of which nothing has come. -/
def Seg.empty : Seg := { pos := 0, buf := [], marks := [], ended := false, status := stOK, reason := 0, bytes := 0 }

/-- Bytes acknowledged so far (R443). -/
def Xfer.acked (x : Xfer) : Nat :=
  x.segs.foldl (fun n g => n + g.bytes) 0

/-- Completion data of a transfer: a FATTN's own, or the bytes acknowledged (R265). -/
def Xfer.complData (x : Xfer) : List Byte := match x.data with | some d => d | none => leBytes 8 x.acked

/-- The undefined part of the range that a failed read transfer was writing on this die (R453; log 2). -/
def State.havocXfer (s : State) (ctx : Nat) (x : Xfer) : State :=
  if x.isRead then
    (List.range x.segs.length).foldl (fun s n =>
      let g := x.segs.getD n Seg.empty
      let len := min 32768 (x.len - 32768 * n)
      s.havoc ctx x.handle.toNat (x.off + 32768 * n + g.bytes) (len - g.bytes)) s
  else s

/-- End command `k`, which awaits a partner that is lost. -/
def State.loseCmd (s : State) (k : Nat) (st : Half) : State :=
  match s.cmd k with
  | none => s
  | some c =>
    match c.job with
    | .xfer x => (s.havocXfer c.ctx x).finish k st 0 0 x.complData
    | .remoteSig _ _ _ => s.finish k st 0 0 []
    | _ => s

/-- End the commands that await what `who` says. -/
def State.loseJobs (s : State) (who : Job → Bool) (st : Half) : State :=
  (s.flying.filter (fun e => who e.2.job)).foldl (fun s e => s.loseCmd e.1 st) s

/-- A command awaits die `d`, over whatever port (R457). -/
def Job.awaitsDie (d : Half) : Job → Bool
  | .xfer x => decide (x.peer = d)
  | .remoteSig _ q _ => decide (q = d)
  | _ => false

/-- End every command that awaits a flit over port `p`, and forget the transfers it was bringing (R453, R455). -/
def State.loseCommands (s : State) (p : Nat) (st : Half) : State :=
  ({ s with rxSegs := s.rxSegs.filter (fun r => decide (r.port.val ≠ p)) } : State).loseJobs (Job.awaits p) st

end Sys2Proof.Machine
end

