-- ==== Sys2Proof/Machine/Cistern.lean ====
section
/-!
DEFINITION. The banks (04 R82 to R89, R97; 05 R109, R121, R125 to R134): slots, arbitration, refresh, scrub, row repair,
zero walks, and the events that drive them.
-/

namespace Sys2Proof.Machine

/-- Address of line `rl` of row `row` of a bank. -/
def lineAddr (tr b row rl : Nat) : Nat := tr * 2 ^ 24 + row * 2 ^ 15 + rl * 2 ^ 12 + b * 2 ^ 8

def State.walkOf (s : State) (tr : Nat) : Option Walk := spGet none s.cis.walk tr

def State.setTract (s : State) (tr code : Nat) : State :=
  { s with cis := { s.cis with tract := spSet 0 s.cis.tract tr (BitVec.ofNat 2 code) } }

def State.setWalk (s : State) (tr : Nat) (w : Option Walk) : State :=
  { s with cis := { s.cis with walk := spSet none s.cis.walk tr w } }

def State.tractFailed (s : State) (tr : Nat) : Bool := bit s.cis.tractFail.toNat tr

/-- The tract exists on this grade (R31). -/
def State.tractPresent (s : State) (tr : Nat) : Bool := decide (tr < s.fuse.tractCount)

def State.presentTracts (s : State) : List Nat := List.range s.fuse.tractCount

/-- The banks run: slot cycles begin at the end of fuse load and stop in reset and STANDBY (R82, R523). -/
def State.banksRun (s : State) : Bool := !s.silent && s.rst.fuseDone && !s.rst.fuseErr

/-! ## Remap tables (Table INT-5) -/

def Bank.remapOf (b : Bank) (sp : Nat) : Remap := spGet Remap.reset b.remap sp
def Bank.setRemap (b : Bank) (sp : Nat) (r : Remap) : Bank := { b with remap := spSet Remap.reset b.remap sp r }

/-- The spare that a VALID entry names for a row (R127). -/
def Bank.spareOf (b : Bank) (row : Nat) : Option Nat :=
  (List.range 32).find? (fun k => (b.remapOf k).valid && decide ((b.remapOf k).row.toNat = row))

def Bank.usable (b : Bank) (k : Nat) : Bool := !(b.remapOf k).valid && !(b.remapOf k).bad

/-- The lowest-numbered usable spare. -/
def Bank.freeSpare (b : Bank) : Option Nat := (List.range 32).find? b.usable

def Bank.freeCount (b : Bank) : Nat := ((List.range 32).filter b.usable).length

/-- Mark a spare BAD and clear its entry. -/
def Bank.spoil (b : Bank) (k : Nat) : Bank := b.setRemap k { Remap.reset with bad := true }

/-- Give a row to a spare; the spare it had becomes BAD (R132). -/
def Bank.install (b : Bank) (row sp source : Nat) : Bank :=
  let b := match b.spareOf row with | some k => b.spoil k | none => b
  b.setRemap sp { row := BitVec.ofNat 9 row, valid := true, source := BitVec.ofNat 2 source, bad := false }

/-- Fuse load clears the entries of SOURCE 0; a reset with self-test those of SOURCE 1 and 2 and the BAD marks too
(R128, R130). -/
def Bank.fuseClear (warm : Bool) (b : Bank) : Bank :=
  { b with remap := if warm then b.remap.filter (fun e => e.2.bad || (e.2.valid && decide (e.2.source ≠ 0))) else [] }

/-- A repair made at test is installed unless it collides (R128). -/
def Bank.testRepair (b : Bank) (row sp : Nat) : Bank :=
  if b.usable sp && (b.spareOf row).isNone then
    b.setRemap sp { row := BitVec.ofNat 9 row, valid := true, source := 0, bad := false }
  else b

/-! ## Bank slots -/

/-- The port of a request: 0 L, 1 W, 2 X (R85). -/
def CisReq.port (r : CisReq) : Nat :=
  if r.tile.val ≠ tractTile (addrTract r.addr) then 2
  else match r.who with
    | .wren => 1
    | _ => 0

/-- Place within port L (R86). R86 names the A feeder, the B feeder and the Vector Engine; the output lines and the bias
read of a drain, which R560 sends to port L too, share the Vector Engine's place (DEDUCED, log 39). -/
def CisReq.sub (r : CisReq) : Nat :=
  match r.who with
  | .feederA => 0
  | .feederB => 1
  | _ => 2

/-- A request of this bank that may be granted now: its row is not under repair (R132). -/
def State.waits (s : State) (tr b : Nat) (r : CisReq) : Bool :=
  decide (addrTract r.addr = tr) && decide (addrBank r.addr = b)
    && (match (s.bank tr b).repair with | none => true | some x => decide (x.row.val ≠ addrRow r.addr))

/-- The first of `n` round-robin places after `last` for which `p` holds. -/
def rotate (n last : Nat) (p : Nat → Bool) : Option Nat :=
  ((List.range n).map (fun i => (last + 1 + i) % n)).find? p

/-- `r` has arrived before `q` at a tract: in an earlier wave, or in the same wave from a lower physical tile (R86). -/
def State.arrives (s : State) (r q : CisReq) : Bool :=
  decide (r.arrive < q.arrive)
    || (decide (r.arrive = q.arrive) && decide (s.fuse.physTile r.tile.val < s.fuse.physTile q.tile.val))

/-- Bytes of two accesses meet. -/
def meets (a n b m : Nat) : Bool := decide (a < b + m) && decide (b < a + n)

/-- Store entries that a load overlaps. -/
def Wren.overlaps (w : Wren) (l : NarrowLoad) : List StoreEntry :=
  w.stores.filter (fun e => meets l.addr l.size e.addr e.bytes.length)

/-- From the third wave of a hold on, the bank of an entry that the held load overlaps grants port W first, while the
entry waits there (R232). -/
def State.wrenFirst (s : State) (tr b : Nat) : Bool :=
  let w := (s.tile (tractTile tr)).wren
  match w.held with
  | none => false
  | some l => decide (w.heldAt + 3 ≤ s.time.wave) && (w.overlaps l).any (fun e =>
      decide (addrTract e.addr = tr) && decide (addrBank e.addr = b) && s.cis.reqs.any (fun r => decide (r.id = e.id)))

/-- The port that a bank grants among the requests `rs` that wait there (R85, R232). -/
def State.grantPort (s : State) (tr b : Nat) (rs : List CisReq) : Option Nat :=
  if s.wrenFirst tr b && rs.any (fun r => decide (r.port = 1)) then some 1
  else rotate 3 (s.bank tr b).last.val (fun p => rs.any (fun r => decide (r.port = p)))

/-- The request that a bank grants (R85, R86, R232). -/
def State.grant (s : State) (tr b : Nat) : Option CisReq :=
  let rs := s.cis.reqs.filter (s.waits tr b)
  let x := s.bank tr b
  match s.grantPort tr b rs with
  | none => none
  | some 0 =>
    match rotate 3 x.lastL.val (fun k => rs.any (fun r => decide (r.port = 0) && decide (r.sub = k))) with
    | none => none
    | some k => rs.find? (fun r => decide (r.port = 0) && decide (r.sub = k))
  | some 2 => firstBy s.arrives (rs.filter (fun r => decide (r.port = 2)))
  | some p => rs.find? (fun r => decide (r.port = p))

/-- SRC of an error-log entry for a request (Table INT-6). -/
def CisReq.info (r : CisReq) : AccessInfo :=
  { src := 2 + r.port, ctx := some r.ctx, handle := r.handle, label := r.label }

/-- Perform an access in its slot (R77 to R80, R120 to R124). -/
def State.perform (s : State) (r : CisReq) : State × CisResp :=
  let ue := (List.range 8).map (fun k => decide (wordState (s.syndrome (r.addr / 256 * 8 + k)) = .uncorrectable))
  match r.kind with
  | .readLine =>
    let g := s.readLine r.info r.addr
    (g.state, { id := r.id, tile := r.tile, write := false, data := g.bytes, marks := g.marks, ue := ue, status := g.status })
  | .readNarrow n =>
    let g := s.readNarrow r.info r.addr n
    (g.state, { id := r.id, tile := r.tile, write := false, data := g.bytes, marks := g.marks, ue := ue, status := g.status })
  | .writeLine data mask poison =>
    let g := s.writeLine r.info r.addr
      (fun a => if bit mask.toNat ((a - r.addr) / 8) then some (byteAt data (a - r.addr)) else none)
      (fun w => bit poison.toNat (w - r.addr / 32))
    (g.2, { id := r.id, tile := r.tile, write := true, data := [], marks := [], ue := [], status := g.1 })
  | .writeNarrow data poison =>
    let g := s.mergeWord r.info (r.addr / 32)
      (fun k => if r.addr % 32 ≤ k ∧ k < r.addr % 32 + data.length then some (byteAt data (k - r.addr % 32)) else none)
      poison
    (g.2.countPoison g.1, { id := r.id, tile := r.tile, write := true, data := [], marks := [], ue := [], status := g.1 })

/-- The next slot of a bank is its reserved one (R82, R83). -/
def Bank.atReserved (x : Bank) (b : Nat) : Bool := x.restart || decide (x.slot.toNat = b)

/-- An unreserved slot: one waiting port is granted (R85). In a zero walk, the walk takes the slot (R98). -/
def bankSlot (tr b : Nat) (s : State) : State :=
  if !s.banksRun || (s.bank tr b).atReserved b || (s.walkOf tr).isSome then s
  else
    let x := { s.bank tr b with slot := (s.bank tr b).slot + 1 }
    match (if s.tractOn tr then s.grant tr b else none) with
    | none => s.setBank tr b x
    | some r =>
      let x := { x with last := Fin.ofNat 3 r.port, lastL := if r.port = 0 then Fin.ofNat 3 r.sub else x.lastL }
      let g := (s.setBank tr b x).perform r
      { g.1 with cis := { g.1.cis with slots := g.1.cis.slots + 1
                                       reqs := g.1.cis.reqs.filter (fun q => decide (q.id ≠ r.id))
                                       resps := g.1.cis.resps ++ [g.2] } }

/-- BANK_SLOT (R85). -/
def execBankSlot (tr : Fin 64) (b : Fin 16) (s : State) : Host.Outcome State Fault Refusal := .next (bankSlot tr.val b.val s)

/-! ## Scrub -/

/-- Treat every word of a line as a scrub does (R121, R125). -/
def State.scrubLine (s : State) (i : AccessInfo) (a : Nat) : State :=
  (List.range 8).foldl (fun s k => s.scrubWord i (a / 32 + k)) s

/-- The die-wide pass ends with its last bank pass (R126). -/
def State.scrubEnds (s : State) : State :=
  if s.cis.scrubbing && !s.cis.banks.any (fun e => e.2.scrub.isSome) then
    { s with cis := { s.cis with scrubbing := false, scrubPasses := s.cis.scrubPasses + 1 } }
  else s

/-- A scrub pass starts in every bank of every ON tract (R126). The manual does not say what a start does to a pass that
still runs, which its periods rule out: the model starts every bank anew, and the earlier die-wide pass is never counted
(DESIGN CHOICE, log 75). -/
def scrubPassStart (s : State) : State :=
  if !s.banksRun then s
  else
    let ks := (s.presentTracts.filter s.tractOn).flatMap (fun t => (List.range 16).map (fun b => (t, b)))
    let s' := ks.foldl (fun s k => s.setBank k.1 k.2 { s.bank k.1 k.2 with scrub := some 0 }) s
    if ks.isEmpty then s else { s' with cis := { s'.cis with scrubbing := true } }

/-- SCRUB_PASS_START (R126). -/
def execScrubPassStart (s : State) : Host.Outcome State Fault Refusal := .next (scrubPassStart s)

/-- Refresh the pointed row, scrub one line of it, advance the pointer (R109, R125). -/
def State.refreshSlot (s : State) (tr b : Nat) : State :=
  let x := s.bank tr b
  let s := match x.scrub with
    | none => s
    | some n => s.scrubLine infoScrub (lineAddr tr b x.refresh.toNat (n / 512))
  let y := s.bank tr b
  let scrub := match x.scrub with
    | none => none
    | some n => if n + 1 < 4096 then some (n + 1) else none
  (s.setBank tr b { y with refresh := x.refresh + 1, scrub := scrub
                           repaired := decide (x.refresh ≠ 511) && y.repaired }).scrubEnds

/-! ## Row repair -/

/-- Completion data of REPAIR_ROW (Table INT-3). -/
def Bank.repairData (x : Bank) (row result : Nat) : List Byte :=
  leBytes 1 result ++ leBytes 1 ((x.spareOf row).getD 0xFF) ++ leBytes 1 x.freeCount

/-- A repair that installs nothing: RESULT 1 or 2 at once (R132, R133). -/
def Bank.repairRefusal (x : Bank) (restore : Bool) (row : Nat) : Option Nat :=
  if restore && (x.spareOf row).isSome then some 1
  else if x.freeSpare.isNone then some 2
  else none

/-- Repair commands that wait for a bank, in dispatch order: slot, RESTORE, row. -/
def State.repairsAt (s : State) (tr b : Nat) : List (Nat × Bool × Nat) :=
  s.inOrder.filterMap (fun e => match e.2.job with
    | .repair r t k row => if t = tr ∧ k = b then some (e.1, r, row) else none
    | _ => none)

/-- A waiting LIVE or RESTORE of a bank that installs nothing does not wait (R132). -/
def State.refuseRepairs (s : State) (tr b : Nat) : State :=
  (s.repairsAt tr b).foldl (fun s e =>
    match (s.bank tr b).repairRefusal e.2.1 e.2.2 with
    | some r => s.finish e.1 stOK 0 0 ((s.bank tr b).repairData e.2.2 r)
    | none => s) s

/-- Install an entry, log it and complete the command with RESULT 0; other commands of the bank that now install nothing
complete too (R132, R137). The manual gives a KIND 3 entry no word: ADDR is that of word 0 of line 0 of the row and SYND is
0 (DESIGN CHOICE, log 75). -/
def State.installRepair (s : State) (k tr b row sp : Nat) (live : Bool) : State :=
  let x := { (s.bank tr b).install row sp 2 with repair := none, repaired := live || (s.bank tr b).repaired }
  let s := (s.setBank tr b x).logError (lineAddr tr b row 0) kindRepair 0 infoRepair
  (s.finish k stOK 0 0 (x.repairData row 0)).refuseRepairs tr b

/-- Sense a row and decode its 64 words (R132). The sense reports no status to any requester, so CIS_POISONREADS, which
counts accesses that report DATA_POISON, does not count it (DEDUCED, log 75). -/
def State.senseRow (s : State) (tr b row : Nat) : State :=
  (List.range 8).foldl (fun s rl => s.scrubLine infoRepair (lineAddr tr b row rl)) s

/-- Write a row to zero with fresh check bits (R133). -/
def State.zeroRow (s : State) (tr b row : Nat) : State :=
  (List.range 8).foldl (fun s rl =>
    (List.range 8).foldl (fun s k => s.putWord (lineAddr tr b row rl / 32 + k) zeroWord 0) s) s

/-- The earliest repair command that waits for a bank. -/
def State.waitingRepair (s : State) (tr b : Nat) : Option (Nat × Bool × Nat) := (s.repairsAt tr b).head?

/-- What a reserved slot does for a waiting repair: complete it without effect, restore a row as zero, or sense it.
None where it has no repair work and refreshes. -/
def State.beginRepair (s : State) (tr b : Nat) : Option State :=
  match s.waitingRepair tr b with
  | none => none
  | some (k, restore, row) =>
    let x := s.bank tr b
    match x.repairRefusal restore row, x.freeSpare with
    | some r, _ => some ((s.finish k stOK 0 0 (x.repairData row r)).refreshSlot tr b)
    | none, none => none
    | none, some sp =>
      if x.repaired then none
      else if restore && !s.act.spanned tr then some ((s.zeroRow tr b row).installRepair k tr b row sp true)
      else
        let s := s.senseRow tr b row
        some (s.setBank tr b { s.bank tr b with repair := some { slot := k, row := Fin.ofNat 512 row, spare := sp } })

/-- The repair work of a reserved slot of an ON tract. -/
def State.repairSlot (s : State) (tr b : Nat) : Option State :=
  match (s.bank tr b).repair with
  | some r => some (s.installRepair r.slot tr b r.row.val r.spare true)
  | none => s.beginRepair tr b

/-- The reserved slot: refresh, scrub or repair; the frame goes on, from index 0 after a restart (R82, R83). -/
def reservedSlot (tr b : Nat) (s : State) : State :=
  let x := s.bank tr b
  if !s.banksRun || !x.atReserved b || (s.walkOf tr).isSome then s
  else
    let s := s.setBank tr b { x with restart := false, slot := if x.restart then 0 else x.slot + 1 }
    if s.tractOn tr then (s.repairSlot tr b).getD (s.refreshSlot tr b) else s

/-- RESERVED_SLOT (R109). -/
def execReservedSlot (tr : Fin 64) (b : Fin 16) (s : State) : Host.Outcome State Fault Refusal :=
  .next (reservedSlot tr.val b.val s)

/-! ## Zero walks (R97) -/

/-- Where the walk of a tract meets a word: step of its bank, then bank, then word in the line. -/
def State.walkOrder (s : State) (w : Nat) : Nat :=
  let a := 32 * w
  let step := ((addrRow a + 512 - (s.bank (addrTract a) (addrBank a)).refresh.toNat) % 512) * 8 + a / 2 ^ 12 % 8
  (step * 16 + addrBank a) * 8 + w % 8

/-- The walk clears the granule of a byte address. -/
def Walk.clears (w : Walk) (a : Nat) : Bool := w.all || w.granules.contains (a / 4096 % 4096)

/-- What a walk does to its tract: its granules become zero with fresh check bits, every other line is read back (R97,
R121). Other requests to the tract wait until the walk is over (R98), so the model lets the walk take its whole effect as it
starts: what a die-level unit reads or writes in the tract meanwhile is what it would read or write after the walk (DEDUCED,
log 75). -/
def State.walkEffect (s : State) (tr : Nat) (w : Walk) : State :=
  let inTract := fun (a : Nat) => decide (a / 2 ^ 24 = tr)
  let s := { s with cis := { s.cis with
    mem := s.cis.mem.filter (fun e => !(inTract e.1 && w.clears e.1))
    synd := s.cis.synd.filter (fun e => !(inTract (32 * e.1) && w.clears (32 * e.1))) } }
  let bad := (s.cis.synd.map (fun e => e.1)).filter (fun k => inTract (32 * k))
  (sortBy s.walkOrder bad).foldl (fun s k => s.scrubWord infoWalk k) s

/-- The walk that runs after another one is asked of its tract: the manual has no rule for this, and the model lets the
walk that runs take the new granules, so that one ZERO_WALK_END and one count in CIS_ZEROWALKS stand for both (DESIGN
CHOICE, log 75). -/
def Walk.join (v w : Walk) : Walk :=
  { all := v.all || w.all, granules := v.granules ++ w.granules, power := v.power || w.power }

/-- Start a walk of a tract (R97). -/
def State.startWalk (s : State) (tr : Nat) (w : Walk) : State :=
  (s.walkEffect tr w).setWalk tr (some (match s.walkOf tr with | none => w | some v => v.join w))

/-- A tract that is not ON holds no data (R103). -/
def State.emptyTract (s : State) (tr : Nat) : State :=
  { s with cis := { s.cis with
    mem := s.cis.mem.filter (fun e => decide (e.1 / 2 ^ 24 ≠ tr))
    synd := s.cis.synd.filter (fun e => decide (e.1 / 2 ^ 19 ≠ tr)) } }

/-- A tract goes to CLEARING and its every line is cleared (R99). -/
def State.clearTract (s : State) (tr : Nat) : State :=
  (s.setTract tr 2).startWalk tr { all := true, granules := [], power := true }

/-- The 1 us of WAKING is over: the zero walk starts (R106). -/
def tractWakeEnd (tr : Nat) (s : State) : State :=
  if !s.silent && decide (s.tractState tr = 1) then s.clearTract tr else s

/-- TRACT_WAKE_END (R106). -/
def execTractWakeEnd (tr : Fin 64) (s : State) : Host.Outcome State Fault Refusal := .next (tractWakeEnd tr.val s)

end Sys2Proof.Machine
end

