-- ==== Sys2Proof/Machine/Ending.lean ====
section
/-!
DEFINITION. How a command is ended from outside (12 Table CTX-3 row 3; 21 Table RST-4 step 3; 17 R428), and how a queue is
emptied (11 R255; 12 Table CTX-3 row 1).
-/

namespace Sys2Proof.Machine

/-! ## Lark frames -/

def State.frame (s : State) (f : Nat) : Option Frame := s.lrk.frames.find? (fun x => decide (x.id = f))

def State.stream (s : State) (n : Nat) : Stream := spGet Stream.reset s.lrk.streams n

def State.setStream (s : State) (n : Nat) (x : Stream) : State :=
  { s with lrk := { s.lrk with streams := spSet Stream.reset s.lrk.streams n x } }

def State.engine (s : State) (e : Nat) : Engine := spGet Engine.reset s.lrk.engines e

def State.setEngine (s : State) (e : Nat) (x : Engine) : State :=
  { s with lrk := { s.lrk with engines := spSet Engine.reset s.lrk.engines e x } }

/-- A stream after CLOSE: CLOSED, with every buffer UNUSED (R411). -/
def Stream.closed (x : Stream) : Stream := { x with opened := false, buf := [] }

/-- The frame's references are given back (R407, R530). -/
def Stream.release (x : Stream) (bufs : List Nat) : Stream :=
  { x with buf := bufs.foldl (fun m b => spModify Buf.reset m b (fun y => { y with refcnt := y.refcnt - 1 })) x.buf }

/-- A frame leaves its stream's queue and its engine. -/
def State.dropFrame (s : State) (f : Nat) : State :=
  match s.frame f with
  | none => s
  | some x =>
    let s := { s with lrk := { s.lrk with frames := s.lrk.frames.filter (fun y => decide (y.id ≠ f)) } }
    let s := match x.stream with
      | none => s
      | some n => s.setStream n ((s.stream n).release x.bufs)
    (List.range 6).foldl (fun s e =>
      let g := s.engine e
      s.setEngine e { g with frame := if g.frame = some f then none else g.frame
                             toSuspend := g.toSuspend && decide (g.frame ≠ some f)
                             suspended := if g.suspended = some f then none else g.suspended }) s

/-! ## Tile programs -/

/-- Every tile of a set that still runs halts before its next bundle (Table CTX-3 row 3, R246). -/
def State.killTiles (s : State) (tiles : List Nat) (st : Half) : State :=
  tiles.foldl (fun s t => s.setWren t (fun w => { w with kill := some st })) s

/-- A launch that has not started gives its tiles back. -/
def State.unclaim (s : State) (k : Nat) (tiles : List Nat) : State :=
  tiles.foldl (fun s t => if (s.tile t).wren.claim = some k then
    s.setWren t (fun w => { w with claim := none, fills := [] }) else s) s

/-! ## Ending a command -/

/-- The row under repair in a bank is left as it is. -/
def State.dropRepair (s : State) (k tr b : Nat) : State :=
  match (s.bank tr b).repair with
  | some r => if r.slot = k then s.setBank tr b { s.bank tr b with repair := none } else s
  | none => s

/-- No output record completes command `k` any more; the records stay (R378). -/
def State.forgetRecords (s : State) (c k : Nat) : State :=
  let l := (spGet [] s.srv.recs c).map (fun r => { r with slots := r.slots.filter (fun x => decide (x ≠ k)) })
  { s with srv := { s.srv with recs := spSet [] s.srv.recs c l } }

/-- End command `k`, which is no STEP, with a status: a running tile program halts first, anything else ends at once. -/
def State.endPlain (s : State) (st : Half) (k : Nat) : State :=
  match s.cmd k with
  | none => s
  | some c =>
    match c.job with
    | .ended => s
    | .detach => s
    | .run r =>
      if r.started then s.killTiles ((maskList r.tiles.toNat 16).filter (fun t => !bit r.ended.toNat t)) st
      else (s.unclaim k (maskList r.tiles.toNat 16)).finish k st 0 0 []
    | .xfer x => (s.havocXfer c.ctx x).finish k st 0 0 x.complData
    | .repair _ tr b _ => (s.dropRepair k tr b).finish k st 0 0 []
    | .swap =>
      let w := match s.cfg.walking with
        | some w => if w.slot = some k then some { w with slot := none } else some w
        | none => none
      let p := match s.cfg.swap with
        | some p => if p.slot = some k then none else some p
        | none => none
      ({ s with cfg := { s.cfg with swap := p, walking := w } }).finish k st 0 0 []
    | .lark f => (s.dropFrame f).finish k st 0 0 []
    | .record _ _ => (s.forgetRecords c.ctx k).finish k st 0 0 []
    | _ => s.finish k st 0 0 []

/-- Slots in flight, in slot order, whose command satisfies `p`. -/
def State.slotsThat (s : State) (p : Cmd → Bool) : List Nat := (s.flying.filter (fun e => p e.2)).map (fun e => e.1)

/-- End command `k` with a status; a STEP ends with the commands of its script. -/
def State.endCommand (s : State) (st : Half) (k : Nat) : State :=
  match s.cmd k with
  | none => s
  | some c =>
    if c.job = .step then
      let s := (s.setStepJob c.ctx none).forgetRecords c.ctx k
      ((s.slotsThat (fun e => decide (e.origin = .script c.ctx))).foldl (fun s k => s.endPlain st k) s).finish k st 0 0 []
    else s.endPlain st k

/-- Commands not yet ended, other than those of step scripts, which end with their STEP. -/
def Cmd.lives (c : Cmd) : Bool := decide (c.job ≠ .ended) && (match c.origin with | .queue _ => true | .script _ => false)

/-- End the given commands; a step's script commands leave with it. -/
def State.endAll (s : State) (st : Half) (ks : List Nat) : State := ks.foldl (fun s k => s.endCommand st k) s

/-! ## Emptying queues -/

/-- Byte offset of ring unit `k` (R250). -/
def QMap.unitOff (m : QMap) (k : Nat) : Nat := m.first * 4096 + k % m.units * 64

/-- Packets between HEAD and TAIL of a ring, an unreadable rest counting as one (log 37). -/
def State.ringPackets (s : State) (m : QMap) : Nat → Word → Word → Nat
  | 0, _, _ => 0
  | fuel + 1, head, tail =>
    if head = tail then 0
    else
      let off := m.unitOff head.toNat
      match s.checkRange m.ctx m.handle .wr off 64 with
      | some _ => 1
      | none =>
        let units := s.readNat m.ctx m.handle (off + 1) 1 % 16 + 1
        if (tail - head).toNat ≤ units then 1 else s.ringPackets m fuel (head + BitVec.ofNat 32 units) tail + 1

/-- Discard the packets that queue `q` has not decoded, and count them (R255). Lookahead has read no header beyond those
decoded any more. -/
def State.discardQueue (s : State) (q : Nat) (m : QMap) : State :=
  let x := s.queue q
  let n := s.ringPackets m (m.units + 1) x.head x.tail
  let s := { s with pmh := { s.pmh with qdiscard := s.pmh.qdiscard + BitVec.ofNat 32 n } }
  s.setQueue q { x with looked := min x.looked (x.decoded.length - 1), head := x.tail }

/-- The queue at its reset values, its undecoded packets discarded (R254, R255). What it has decoded stays to be
dispatched, and a command that holds it goes on holding it. -/
def State.resetQueue (s : State) (q : Nat) (m : QMap) : State :=
  let s := s.discardQueue q m
  let x := s.queue q
  s.setQueue q { Queue.reset with decoded := x.decoded, looked := x.looked, hold := x.hold }

/-- Queues of a context in the active set. -/
def State.queuesOf (s : State) (c : Nat) : List Nat := (List.range 512).filter (fun q => decide ((s.act.qmap q).ctx = c))

end Sys2Proof.Machine
end

