-- ==== Sys2Proof/Machine/Transfer.lean ====
section
/-!
DEFINITION. Transfers over the links (18 R440 to R446, R458 to R460): the flits a transfer sends, the bytes it receives,
and zero-run compression.
-/

namespace Sys2Proof.Machine

def segBytes : Nat := 32768

/-! ## Die semaphores -/

def State.semOf (s : State) (n : Nat) : Word := spGet 0 s.pmh.sem n

def State.setSem (s : State) (n : Nat) (v : Word) : State := { s with pmh := { s.pmh with sem := spSet 0 s.pmh.sem n v } }

/-- Add to a die semaphore, saturating (R266). -/
def State.addSem (s : State) (n : Nat) (v : Word) : State := s.setSem n (satAdd32 (s.semOf n) v)

/-! ## Zero-run compression -/

/-- Leading words of `ws` that satisfy `p`, at most `n`. -/
def runOf (p : List Byte → Bool) : Nat → List (List Byte) → Nat
  | 0, _ => 0
  | _, [] => 0
  | n + 1, w :: ws => if p w then runOf p n ws + 1 else 0

def isZeroWord (w : List Byte) : Bool := w.all (fun b => decide (b = 0))

/-- `encode_flit` of R460 over the whole 8-byte words that are left; gives the tokens and the words consumed. -/
def encodeTokens : Nat → List (List Byte) → List Byte → Nat → List Byte × Nat
  | 0, _, out, used => (out, used)
  | _, [], out, used => (out, used)
  | fuel + 1, w :: ws, out, used =>
    if 256 ≤ used then (out, used)
    else if isZeroWord w then
      let n := runOf isZeroWord (min 128 (256 - used)) (w :: ws)
      if out.length + 1 > 236 then (out, used)
      else encodeTokens fuel ((w :: ws).drop n) (out ++ [BitVec.ofNat 8 (0x7F + n)]) (used + n)
    else
      let n := min (runOf (fun x => !isZeroWord x) (min 29 (256 - used)) (w :: ws)) ((236 - out.length - 1) / 8)
      if n = 0 then (out, used)
      else encodeTokens fuel ((w :: ws).drop n)
        (out ++ [BitVec.ofNat 8 (n - 1)] ++ ((w :: ws).take n).flatten) (used + n)

/-- Whole 8-byte words of a list of bytes, at most `n`. -/
def words8 : Nat → List Byte → List (List Byte)
  | 0, _ => []
  | n + 1, bs => if bs.length < 8 then [] else bs.take 8 :: words8 n (bs.drop 8)

/-- The next DATA payload for the bytes left of a segment: compressed or raw, and the bytes it carries (R460). -/
def nextPayload (zrc : Bool) (bs : List Byte) : Bool × List Byte × Nat :=
  let raw := min 236 bs.length
  let enc := encodeTokens 512 (words8 256 bs) [] 0
  if zrc && decide (8 * enc.2 > raw) then (true, enc.1, 8 * enc.2) else (false, bs.take raw, raw)

/-- Decode a token stream (R458); none when it is malformed in itself (R459). -/
def decodeTokens : Nat → List Byte → Option (List Byte)
  | 0, _ => some []
  | _, [] => some []
  | fuel + 1, c :: bs =>
    if c.toNat ≤ 0x1C then
      let n := 8 * (c.toNat + 1)
      if bs.length < n then none
      else (decodeTokens fuel (bs.drop n)).map (fun r => bs.take n ++ r)
    else if c.toNat < 0x80 then none
    else (decodeTokens fuel bs).map (fun r => List.replicate (8 * (c.toNat - 0x7F)) 0 ++ r)

/-- The bytes a DATA flit delivers into what is left of its segment; none when the flit is malformed (R459). -/
def dataBytes (zrc : Bool) (payload : List Byte) (left : Nat) : Option (List Byte) :=
  let r := if zrc then decodeTokens 256 payload else some payload
  match r with
  | none => none
  | some bs => if (zrc && decide (2048 < bs.length)) || decide (left < bs.length) then none else some bs

/-! ## Flits of a transfer -/

/-- Those of the marked words that bytes `pos` to `pos + n` of a segment touch. -/
def marksIn (marks : List Nat) (pos n : Nat) : List Nat :=
  marks.filter (fun w => decide (32 * w < pos + n) && decide (pos < 32 * w + 32))

/-- Numbers of the marked words of a list of marks. -/
def markedWords (marks : List Bool) : List Nat := (List.range marks.length).filter (fun w => marks.getD w false)

/-- The marks of `n` words from word `w` on. -/
def marksFrom (marks : List Nat) (w n : Nat) : List Bool := (List.range n).map (fun k => marks.contains (w + k))

/-- The DATA flits that carry a segment's bytes from `pos` on, with the marks of its poisoned words (log 79). -/
def dataFlits (src dst : Half) (ctx : BitVec 4) (xid : BitVec 10) (seg : BitVec 15) (zrc : Bool) (marks : List Nat) :
    Nat → Nat → List Byte → List Flit
  | 0, _, _ => []
  | _, _, [] => []
  | fuel + 1, pos, b :: bs =>
    let n := nextPayload zrc (b :: bs)
    { vc := vcBulk, typ := 1, src := src, dst := dst, ctx := ctx, xid := xid, segno := seg, zrc := n.1,
      payload := n.2.1, marks := marksIn marks pos n.2.2 }
      :: dataFlits src dst ctx xid seg zrc marks fuel (pos + n.2.2) ((b :: bs).drop n.2.2)

/-- A WR_SEG (Table LNK-3). -/
def wrSegFlit (src dst : Half) (ctx : BitVec 4) (xid : BitVec 10) (seg handle : Nat) (last semen : Bool) (sem : Byte)
    (off len : Nat) (semval : Word) : Flit :=
  { vc := vcReq, typ := 1, src := src, dst := dst, ctx := ctx, xid := xid, segno := BitVec.ofNat 15 seg, zrc := false,
    payload := leBytes 1 handle ++ leBytes 1 (b2n last + 2 * b2n semen) ++ [sem] ++ leBytes 5 0 ++ leBytes 8 off
      ++ leBytes 4 len ++ leBytes 4 semval.toNat }

/-- An RD_SEG (Table LNK-3). -/
def rdSegFlit (src dst : Half) (ctx : BitVec 4) (xid : BitVec 10) (seg handle off len : Nat) : Flit :=
  { vc := vcReq, typ := 2, src := src, dst := dst, ctx := ctx, xid := xid, segno := BitVec.ofNat 15 seg, zrc := false,
    payload := leBytes 1 handle ++ leBytes 7 0 ++ leBytes 8 off ++ leBytes 4 len }

/-- Segments of a transfer of `len` bytes (R440). -/
def segCount (len : Nat) : Nat := (len + segBytes - 1) / segBytes

/-- The bytes of segment `n`. -/
def segLen (len n : Nat) : Nat := min segBytes (len - segBytes * n)

/-- Send every segment of a write transfer: its WR_SEG, then its DATA (R441). -/
def State.sendWrite (s : State) (ctx k : Nat) (peer : Half) (handle off : Nat) (zrc semen : Bool) (sem : Byte)
    (semval : Word) (bytes : List Byte) (marks : List Bool) : State :=
  let n := segCount bytes.length
  (List.range n).foldl (fun s i =>
    let part := (bytes.drop (segBytes * i)).take segBytes
    let bad := markedWords ((marks.drop (segBytes / 32 * i)).take (segBytes / 32))
    let s := s.sendOwn (wrSegFlit s.dieId peer (BitVec.ofNat 4 ctx) (BitVec.ofNat 10 k) i handle (decide (i + 1 = n))
      semen sem (off + segBytes * i) part.length semval)
    (dataFlits s.dieId peer (BitVec.ofNat 4 ctx) (BitVec.ofNat 10 k) (BitVec.ofNat 15 i) zrc bad (part.length + 1) 0 part).foldl
      State.sendOwn s) s

/-- Send every RD_SEG of a read transfer (R442). -/
def State.sendRead (s : State) (ctx k : Nat) (peer : Half) (handle off len : Nat) : State :=
  (List.range (segCount len)).foldl (fun s i =>
    s.sendOwn (rdSegFlit s.dieId peer (BitVec.ofNat 4 ctx) (BitVec.ofNat 10 k) i handle (off + segBytes * i)
      (segLen len i))) s

/-! ## Progress of the die's own transfers -/

/-- Status and REASON of a transfer whose segments have all ended (R443). -/
def Xfer.outcome (x : Xfer) : Half × Byte :=
  match x.segs.find? (fun g => decide (g.status ≠ stOK)) with
  | some g => (g.status, g.reason)
  | none => (x.okStatus, 0)

/-- Local semaphore addition of a remote read whose COPY sets SEMEN: this die is the destination (R265). -/
def State.readSignal (s : State) (ctx : Nat) (x : Xfer) : State :=
  if x.isRead && x.semen && decide (x.outcome.1 = stOK ∨ x.outcome.1 = stPoison ∨ x.outcome.1 = stUncorrectable)
      && (s.act.range ctx).hasSem x.sem.toNat then s.addSem x.sem.toNat x.semval
  else s

/-- Keep a transfer's progress, or complete its command once every segment has ended (R443). -/
def State.xferProgress (s : State) (k : Nat) (c : Cmd) (x : Xfer) : State :=
  if x.segs.all (fun g => g.ended) then
    (s.readSignal c.ctx x).finish k x.outcome.1 x.outcome.2 0 x.complData
  else s.setCmd k (some { c with job := .xfer x })

/-- The segment `n` of a transfer changed by `f`. -/
def Xfer.onSeg (x : Xfer) (n : Nat) (f : Seg → Seg) : Xfer :=
  { x with segs := setAt x.segs n (f (x.segs.getD n Seg.empty)) }

/-- Whole lines at the front of bytes that begin on a line; all of them when the segment is complete. -/
def wholeLines (complete : Bool) (bs : List Byte) : Nat := if complete then bs.length else bs.length / 256 * 256

/-- Bytes of a read segment arrive (R442): whole lines are written locally and counted. -/
def State.readArrives (s : State) (k : Nat) (c : Cmd) (x : Xfer) (n : Nat) (bs : List Byte) (marks : List Nat) : State :=
  let g := x.segs.getD n Seg.empty
  let buf := g.buf ++ bs
  let bad := g.marks ++ marks
  let m := wholeLines (decide (g.pos + bs.length = segLen x.len n)) buf
  let w := s.writeMarked c.ctx x.handle.toNat (x.off + segBytes * n + g.bytes) (buf.take m)
    (marksFrom bad (g.bytes / 32) ((m + 31) / 32))
  w.2.setCmd k (some { c with job := .xfer (x.onSeg n (fun g =>
    { g with pos := g.pos + bs.length, buf := buf.drop m, bytes := g.bytes + m, marks := bad })) })

/-- An RSP flit (Table LNK-3). -/
def rspFlit (src dst : Half) (typ : BitVec 6) (ctx : BitVec 4) (xid : BitVec 10) (seg : BitVec 15)
    (payload : List Byte) : Flit :=
  { vc := vcRsp, typ := typ, src := src, dst := dst, ctx := ctx, xid := xid, segno := seg, zrc := false,
    payload := payload }

/-- The WR_ACK payload. -/
def wrAckBytes (st : Half) (reason : Byte) (n : Nat) : List Byte := leBytes 2 st.toNat ++ [reason, 0] ++ leBytes 4 n

/-- The RD_END payload. -/
def rdEndBytes (st : Half) (reason : Byte) : List Byte := leBytes 2 st.toNat ++ [reason]

/-! ## Segments that other dies send -/

def RxSeg.isKey (r : RxSeg) (src : Half) (xid : BitVec 10) (segno : BitVec 15) : Bool :=
  decide (r.src = src) && decide (r.xid = xid) && decide (r.segno = segno)

/-- The open segment a DATA flit belongs to. -/
def RxSeg.isOf (r : RxSeg) (f : Flit) : Bool := r.isKey f.src f.xid f.segno

def State.dropSeg (s : State) (src : Half) (xid : BitVec 10) (segno : BitVec 15) : State :=
  { s with rxSegs := s.rxSegs.filter (fun r => !r.isKey src xid segno) }

def State.putSeg (s : State) (r : RxSeg) : State :=
  { s with rxSegs := (s.dropSeg r.src r.xid r.segno).rxSegs ++ [r] }

/-- Bytes of the segment written so far. -/
def RxSeg.written (r : RxSeg) : Nat := r.pos - r.buf.length

/-- A segment has failed: its WR_ACK leaves, and the rest of its DATA will be discarded (R441, R459). -/
def State.failSeg (s : State) (r : RxSeg) (st : Half) (reason : Byte) : State :=
  (s.putSeg { r with dead := true, buf := [], marks := [] }).sendOwn
    (rspFlit s.dieId r.src 1 r.ctx r.xid r.segno (wrAckBytes st reason r.written))

/-- What this die was to discard of `peer`'s transfer in slot `k` is forgotten: a read of its own begins there (log 79). -/
def State.forgetDead (s : State) (peer : Half) (k : Nat) : State :=
  { s with rxSegs := s.rxSegs.filter (fun r => !(r.dead && decide (r.src = peer) && decide (r.xid.toNat = k))) }

end Sys2Proof.Machine
end

