-- ==== Sys2Proof/Machine/Contexts.lean ====
section
/-!
DEFINITION. The configuration sets and the contexts (12): CFG_WRITE, the swap of the sets, CTX_OPEN and CTX_CLOSE.
-/

namespace Sys2Proof.Machine

/-! ## CFG_WRITE -/

/-- A swap is pending: the shadow set is frozen (R293). -/
def State.frozen (s : State) : Bool := s.cfg.swap.isSome || s.cfg.walking.isSome

/-- The data words of a CFG_WRITE. -/
def Pkt.words (p : Pkt) (off n : Nat) : List Word := (List.range n).map (fun i => wordAt p.bytes (off + 4 * i))

/-- CFG_WRITE applies its words to a copy of the shadow set and keeps it when every touched item passes (R290, R291). -/
def cfgWriteAct (s : State) (_k : Nat) (p : Pkt) : DispOut :=
  let off := p.u32 8
  let count := p.u16 12
  let offs := (List.range count).map (fun i => off + 4 * i)
  if s.frozen then .wait
  else if off % 4 ≠ 0 then .fail s stAlign
  else if count = 0 ∨ 252 < count ∨ 64 * p.units < 16 + 4 * count then .fail s stBounds
  else if offs.any (fun o => (cfgItem o).isNone || decide (cfgItem o = some (.range ((o - offRange) / 16) 3))) then
    .fail s stBounds
  else
    let masked := offs.zip (p.words 16 count) |>.map (fun (o, w) =>
      match cfgItem o with | some i => w &&& s.cfgAbsent i | none => w)
    let c := s.shd.putAll off masked
    match s.cfgFault c offs with
    | some st => .fail s st
    | none => .ok { s with shd := c } []

def cfgWrite (q : Nat) (s : State) : State := s.dispatch q (fun p => decide (p.opcode = 0x38)) cfgWriteAct

/-- CFG_WRITE (R290). -/
def execCfgWrite (q : Fin 512) (s : State) : Host.Outcome State Fault Refusal := .next (cfgWrite q.val s)

/-! ## What a swap changes (Table CTX-1) -/

/-- Control-space offsets at which the two sets differ. -/
def State.changedWords (s : State) : List Nat :=
  ((s.act.map (fun e => e.1) ++ s.shd.map (fun e => e.1)).filter (fun k => decide (spGet 0 s.act k ≠ spGet 0 s.shd k))).map
    (fun k => 4 * k)

/-- Contexts with a valid descriptor that spans a tract. -/
def CfgSet.spanners (c : CfgSet) (tr : Nat) : List Nat :=
  (List.range 16).filter (fun x => (List.range 64).any (fun h =>
    let d := c.desc x h
    d.valid && decide (d.first ≤ tr) && decide (tr < d.first + d.n)))

/-- Contexts that a changed word affects (Table CTX-1). -/
def State.affectedBy (s : State) (off : Nat) : List Nat :=
  match cfgItem off with
  | none => []
  | some i =>
    match i with
    | .pwrStatic => []
    | .pwrStatic2 => []
    | .pwrGroup m =>
      ((List.range 8).map (fun k => 8 * m + k)).flatMap (fun t =>
        if s.act.group t ≠ s.shd.group t ∧ t < s.fuse.tractCount then s.act.spanners t ++ s.shd.spanners t else [])
    | .desc x _ _ => [x]
    | .qmap q _ => [(s.act.qmap q).ctx, (s.shd.qmap q).ctx]
    | .weight _ => []
    | .range x _ => [x]
    | .limits x _ => [x]
    | .model x => [x]
    | .scriptOff x => [x]
    | .rate c => (List.range 16).filter (fun x => (s.act.range x).hasCust c || (s.shd.range x).hasCust c)
    | .cap c => (List.range 16).filter (fun x => (s.act.range x).hasCust c || (s.shd.range x).hasCust c)
    | .place x _ => [x]

/-- The mask of a list of contexts. -/
def ctxMask (l : List Nat) : Half := l.foldl (fun m c => setBit m c true) 0

/-- The affected contexts (R294). -/
def State.affected (s : State) : Half := ctxMask (s.changedWords.flatMap s.affectedBy)

/-- A swap becomes pending (R292, R294). A timeout of 0 is read as 1 (Table CTX-5). -/
def State.requestSwap (s : State) (slot : Option Nat) (micros : Nat) : State :=
  let a := s.affected
  let t := if micros = 0 then (if s.cfg.timeout = 0 then 1 else s.cfg.timeout.toNat) else micros
  { s with cfg := { s.cfg with swap := some { slot := slot, affected := a, micros := t }, affected := a,
                               timedOut := false } }

/-- CFG_SWAP (R292): while a swap is pending a further one holds its queue. -/
def cfgSwapAct (s : State) (k : Nat) (p : Pkt) : DispOut :=
  if s.frozen then .wait else .run (s.requestSwap (some k) (p.u32 12)) .swap

def cfgSwap (q : Nat) (s : State) : State := s.dispatch q (fun p => decide (p.opcode = 0x39)) cfgSwapAct

/-- CFG_SWAP (R292). -/
def execCfgSwap (q : Fin 512) (s : State) : Host.Outcome State Fault Refusal := .next (cfgSwap q.val s)

/-- A write of 1 to CFG_SWAPREQ.GO; ignored while a swap is pending (R292), and refused before READY as every write to its
block is (R515). -/
def swapRequest (s : State) : State := if s.frozen || s.silent || !s.rst.ready then s else s.requestSwap none 0

/-- SWAP_REQUEST (R292). -/
def execSwapRequest (s : State) : Host.Outcome State Fault Refusal := .next (swapRequest s)

/-! ## The swap point -/

/-- A tile program of the context runs. -/
def State.ctxRuns (s : State) (c : Nat) : Bool :=
  s.tiles.any (fun e => match e.2.wren.prog with | some p => decide (p.ctx = c) | none => false)

/-- Something of an affected context keeps the swap point away (R294). -/
def State.swapHeld (s : State) (p : Swap) : Bool :=
  s.flying.any (fun e => bit p.affected.toNat e.2.ctx && decide (some e.1 ≠ p.slot))
    || (List.range 16).any (fun c => bit p.affected.toNat c && s.ctxRuns c)

/-- Granules that each context's valid descriptors of a set own. -/
def CfgSet.ownedBy (c : CfgSet) (x : Nat) : List Nat :=
  (List.range 64).flatMap (fun h => let d := c.desc x h; if d.valid then d.granules else [])

/-- Granules whose owner in the second set did not own them in the first (R100). -/
def newlyOwned (a b : CfgSet) : List Nat :=
  (List.range 16).flatMap (fun x => let old := a.ownedBy x; (b.ownedBy x).filter (fun g => !old.contains g))

/-- Granules within a tract of a list of tract × 4,096 + granule. -/
def granulesIn (tr : Nat) (l : List Nat) : List Nat := (l.filter (fun g => decide (g / 4096 = tr))).map (fun g => g % 4096)

/-- Tracts of a list of granules that are ON, ascending: only they are walked (log 35). -/
def State.walkTracts (s : State) (l : List Nat) : List Nat :=
  s.presentTracts.filter (fun t => s.tractOn t && l.any (fun g => decide (g / 4096 = t)))

/-- Start the walks that clear the given granules. -/
def State.startWalks (s : State) (l : List Nat) : State :=
  (s.walkTracts l).foldl (fun s t => s.startWalk t { all := false, granules := granulesIn t l, power := false }) s

/-- Set a customer's budget to 0 (R364). -/
def State.zeroBudget (s : State) (c : Nat) : State :=
  { s with srv := { s.srv with cust := spModify Customer.reset s.srv.cust c (fun x => { x with budget := 0 }) } }

/-- Customers in a context's range of the first set and not of the second. -/
def lostCustomers (a b : CfgSet) : List Nat :=
  (List.range 16).flatMap (fun x =>
    ((List.range (a.range x).custCount).map (fun i => (a.range x).custBase + i)).filter (fun c => !(b.range x).hasCust c))

/-- Queues whose PMH_QMAP entry differs. -/
def State.changedQueues (s : State) : List Nat :=
  (List.range 512).filter (fun q => decide (s.changedWords.contains (offQmap + 8 * q))
    || decide (s.changedWords.contains (offQmap + 8 * q + 4)))

/-- Completion data of a CFG_SWAP (R298). -/
def swapData (affected : Half) (walks : Nat) : List Byte := leBytes 2 affected.toNat ++ leBytes 2 walks

/-- A swap has ended: its command completes (R296, R298). -/
def State.finishSwap (s : State) (slot : Option Nat) (affected : Half) (walks : Nat) : State :=
  let s := { s with cfg := { s.cfg with walking := none, swaps := s.cfg.swaps + 1 } }
  match slot with
  | none => s
  | some k => s.finish k stOK 0 0 (swapData affected walks)

/-- The shadow set becomes active in one wave; queues that changed are reset, customers that left lose their budget, and
the walks of R100 begin (R255, R296, R364). -/
def State.activate (s : State) (p : Swap) : State :=
  let old := s.act
  let s := s.changedQueues.foldl (fun s q => s.resetQueue q (s.act.qmap q)) s
  let s := { s with act := s.shd, cfg := { s.cfg with swap := none } }
  let s := (lostCustomers old s.act).foldl State.zeroBudget s
  let gs := newlyOwned old s.act
  let ts := s.walkTracts gs
  if ts.isEmpty then s.finishSwap p.slot p.affected 0
  else
    let s := s.startWalks gs
    { s with cfg := { s.cfg with walking := some { slot := p.slot, affected := p.affected, tracts := ts, walks := ts.length } } }

/-- The first wave in which no affected context is busy (R294, R296). -/
def swapPoint (s : State) : State :=
  match s.cfg.swap with
  | none => s
  | some p => if s.silent || s.swapHeld p then s else s.activate p

/-- SWAP_POINT (R296). -/
def execSwapPoint (s : State) : Host.Outcome State Fault Refusal := .next (swapPoint s)

/-- The timeout of a pending swap elapses: it fails whole (R297). -/
def swapTimeout (s : State) : State :=
  match s.cfg.swap with
  | none => s
  | some p =>
    if s.silent then s
    else
      let s := { s with cfg := { s.cfg with swap := none, timedOut := true } }
      match p.slot with
      | none => s
      | some k => s.finish k stSwapTimeout 0 0 (swapData p.affected 0)

/-- SWAP_TIMEOUT (R297). -/
def execSwapTimeout (s : State) : Host.Outcome State Fault Refusal := .next (swapTimeout s)

/-- Decode is paused for a context: it is CLOSING, or walks of a swap that affects it run (R296, Table CTX-3). -/
def State.decodePaused (s : State) (c : Nat) : Bool :=
  decide ((s.ctxOf c).state = .closing)
    || (match s.cfg.walking with | some w => bit w.affected.toNat c | none => false)

/-! ## Opening a context -/

/-- A pool with no page and no node: UNSET (R299, R328). Its configuration fields keep their values. -/
def Pool.unset (p : Pool) : Pool :=
  { p with live := false, free := 0, reserved := 0, held := 0, reclaim := 0, fresh := 0, nodesLive := 0, stack := [],
           nodeStack := [], nodeFresh := 0 }

/-- Customers of a context. -/
def State.customersOf (s : State) (c : Nat) : List Nat :=
  (List.range (s.act.range c).custCount).map (fun i => (s.act.range c).custBase + i)

/-- CTX_OPEN (R299). -/
def ctxOpenAct (s : State) (_k : Nat) (p : Pkt) : DispOut :=
  let c := p.byte 8
  if c = 0 ∨ 15 < c then .fail s stBounds
  else if (s.ctxOf c).state ≠ .closed then .fail s stPermission
  else
    let x := s.ctxOf c
    let s := s.setCtx c { x with state := .opened, salt := dwordAt p.bytes 16, cring := { x.cring with tail := 0, told := false } }
    let s := s.setPool c (s.pool c).unset
    .ok ((s.customersOf c).foldl State.zeroBudget s) []

def ctxOpen (q : Nat) (s : State) : State := s.dispatch q (fun p => decide (p.opcode = 0x3A)) ctxOpenAct

/-- CTX_OPEN (R299). -/
def execCtxOpen (q : Fin 512) (s : State) : Host.Outcome State Fault Refusal := .next (ctxOpen q.val s)

/-! ## Closing a context (Table CTX-3) -/

/-- Commands that row 2 lets run to their end: STEP, COPY, FILL, FATTN, MERGE_LSE and Lark frames that run (R428). -/
def State.longCmd (s : State) (c : Cmd) : Bool :=
  match c.job with
  | .ended => false
  | .lark f => match s.frame f with | some x => x.started | none => false
  | _ => [0x08, 0x09, 0x20, 0x21, 0x32].contains c.opcode.toNat

/-- Entries of a context that are not FREE. -/
def State.entriesOf (s : State) (c : Nat) : List Nat :=
  (s.srv.entries.filter (fun e => decide (e.2.state ≠ .free) && decide (e.2.ctx = c))).map (fun e => e.1)

/-- Row 5: entries, pages and nodes, budgets, semaphores and Lark streams are released. Output records that still wait are
dropped, and the segments that other dies were sending the context fail (R285, R303). -/
def State.releaseContext (s : State) (c : Nat) : State :=
  let r := s.act.range c
  let s := (s.entriesOf c).foldl (fun s e =>
    { s with srv := { s.srv with entries := spSet Entry.reset s.srv.entries e Entry.reset } }) s
  let s := s.setStepJob c none
  let s := { s with srv := { s.srv with recs := spSet [] s.srv.recs c [] } }
  let s := (s.rxSegs.filter (fun r => decide (r.ctx.toNat = c) && !r.dead)).foldl
    (fun s r => s.failSeg r stRefuseContext 1) s
  let s := s.setPool c (s.pool c).unset
  let s := (s.customersOf c).foldl State.zeroBudget s
  let s := { s with pmh := { s.pmh with sem := spSetRange 0 s.pmh.sem r.semBase r.semCount (fun _ => 0) } }
  let m := spSetRange Stream.reset s.lrk.streams r.strmBase r.strmCount (fun i => (s.stream (r.strmBase + i)).closed)
  { s with lrk := { s.lrk with streams := m } }

/-- The set without a context's descriptors and queue entries. -/
def CfgSet.without (c : CfgSet) (x : Nat) : CfgSet :=
  c.filter (fun e =>
    match cfgItem (4 * e.1) with
    | some (.desc y _ _) => decide (y ≠ x)
    | some (.qmap q _) => decide ((c.qmap q).ctx ≠ x)
    | _ => true)

/-- A tile whose last program was the context's: every register, mask, table, accumulator, x register and tile semaphore is
zero. Its counters stand. -/
def Tile.wiped (t : Tile) : Tile :=
  { wren := { t.wren with x := [], xMark := [], p := 1, lastCtx := none, tsem := [], snapX := [], snapMark := [], snapP := 1 }
    arr := { t.arr with acc := [], dacc := [], rowMark := [], colMark := [], kind := [] }
    vec := { t.vec with v := [], vMark := [], m := [], mMark := [], t := [], tMark := [], amax := 0,
                        qscale := 0x3F800000 } }

/-- A tile whose instruction buffer the context filled last, cleared and without owner (R241). -/
def Tile.emptied (t : Tile) : Tile := { t with wren := { t.wren with ibuf := [], ibMark := [], owner := none } }

/-- Row 6 at one tile. -/
def Tile.left (t : Tile) (c : Nat) : Tile :=
  let t := if t.wren.lastCtx = some c then t.wiped else t
  if t.wren.owner = some c then t.emptied else t

/-- Row 6: descriptors and queue entries leave both sets, the context's tiles are zeroed. -/
def State.removeContext (s : State) (c : Nat) : State :=
  let s := (s.queuesOf c).foldl (fun s q => s.resetQueue q (s.act.qmap q)) s
  let s := { s with act := s.act.without c, shd := s.shd.without c }
  (List.range 16).foldl (fun s t => s.setTile t ((s.tile t).left c)) s

/-- The context is CLOSED and the CTX_CLOSE completes (R302). -/
def State.contextClosed (s : State) (k : Nat) (j : CloseJob) : State :=
  let s := s.setCtx j.target { s.ctxOf j.target with state := .closed, salt := 0, closing := [] }
  let s := { s with ctxCloses := s.ctxCloses + 1 }
  s.finish k stOK 0 0 (leBytes 2 j.ended ++ leBytes 2 j.retired ++ leBytes 2 j.walks)

/-- Rows 5 to 7. -/
def State.closeRows (s : State) (k : Nat) (j : CloseJob) : State :=
  let c := j.target
  let retired := (s.entriesOf c).length
  let gs := s.act.ownedBy c
  let ts := s.walkTracts gs
  let s := (s.releaseContext c).removeContext c
  let j := { j with row := 7, retired := retired, tracts := ts, walks := ts.length }
  if ts.isEmpty then s.contextClosed k j
  else
    let s := s.setCtx c { s.ctxOf c with closing := gs.filter (fun g => ts.contains (g / 4096)) }
    (s.startWalks gs).setJob k (.close j)

/-- Row 4 is done: no command of the context is in flight, no program of it runs, no record of it waits, and no packet of it
that was decoded waits for dispatch. -/
def State.ctxQuiet (s : State) (c : Nat) : Bool :=
  !s.flying.any (fun e => decide (e.2.ctx = c)) && !s.ctxRuns c && !s.pmh.compl.any (fun x => decide (x.ctx = c))
    && s.queues.all (fun e => e.2.decoded.all (fun p => decide (p.ctx ≠ c)))

/-- Take the rows of a close that may be taken now. -/
def State.closeStep (s : State) (k : Nat) : State :=
  match s.cmd k with
  | none => s
  | some x =>
    match x.job with
    | .close j =>
      let c := j.target
      let r2 := if j.row = 2 && !s.flying.any (fun e => decide (e.2.ctx = c) && s.longCmd e.2) then
          let ks := s.slotsThat (fun e => decide (e.ctx = c) && e.lives)
          ((s.endAll stRefuseContext ks).setJob k (.close { j with row := 4, ended := ks.length }), { j with row := 4, ended := ks.length })
        else (s, j)
      if r2.2.row = 4 && r2.1.ctxQuiet c then r2.1.closeRows k r2.2 else r2.1
    | _ => s

/-- Take what may be taken of every close under way. -/
def State.closesGoOn (s : State) : State :=
  (s.slotsThat (fun c => decide (c.opcode = 0x3B) && c.lives)).foldl State.closeStep s

/-- CTX_CLOSE (R300, R302): row 1, then the rows that need not wait. -/
def ctxCloseAct (s : State) (_k : Nat) (p : Pkt) : DispOut :=
  let c := p.byte 8
  if s.frozen then .wait
  else if c = 0 ∨ 15 < c then .fail s stBounds
  else if (s.ctxOf c).state ≠ .opened then .fail s stPermission
  else
    let s := s.setCtx c { s.ctxOf c with state := .closing }
    let s := (s.queuesOf c).foldl (fun s q => s.discardQueue q (s.act.qmap q)) s
    .run s (.close { target := c, row := 2, ended := 0, retired := 0, tracts := [], walks := 0 })

/-- A CTX_CLOSE packet dispatches, and every close goes on as far as it can. -/
def ctxClose (q : Nat) (s : State) : State :=
  (s.dispatch q (fun p => decide (p.opcode = 0x3B)) ctxCloseAct).closesGoOn

/-- CTX_CLOSE (R300). -/
def execCtxClose (q : Fin 512) (s : State) : Host.Outcome State Fault Refusal := .next (ctxClose q.val s)

end Sys2Proof.Machine
end

