-- ==== Sys2Proof/Machine/Pumphouse.lean ====
section
/-!
DEFINITION. The Pumphouse (11): decode, skipped packets, lookahead, fences, semaphores and conditions.
-/

namespace Sys2Proof.Machine

/-! ## Opcodes (Table CMD-4) -/

/-- Minimum units of an opcode; none for a reserved one. -/
def minUnits (op : Nat) : Option Nat :=
  if [0x00, 0x01, 0x02, 0x03, 0x04, 0x08, 0x09, 0x10, 0x20, 0x28, 0x29, 0x2A, 0x2B, 0x2C, 0x2D, 0x2E, 0x31, 0x32, 0x33,
      0x34, 0x38, 0x39, 0x3A, 0x3B, 0x3C, 0x3D, 0x48, 0x4A].contains op then some 1
  else if [0x21, 0x30, 0x40, 0x41, 0x42, 0x43].contains op then some 2
  else none

/-- Opcodes of Lark. -/
def larkOp (op : Nat) : Bool := decide (0x40 ≤ op) && decide (op ≤ 0x43)

/-- Table CMD-3: status of the first check that fails. -/
def State.headerFault (s : State) (m : QMap) (p : Pkt) : Option Half :=
  match minUnits p.opcode with
  | none => some stBadOpcode
  | some n =>
    if p.byte 4 % 16 ≠ m.ctx then some stPermission
    else if !s.isOpen m.ctx then some stRefuseContext
    else if 8 ≤ p.byte 5 ∧ p.byte 5 ≠ 0xFF then some stBounds
    else if p.units < n then some stBounds
    else if larkOp p.opcode && !s.fuse.lark then some stRefuseVariant
    else none

/-! ## Rings -/

/-- Checks 2 to 5 of Table CIS-4, for the rings the die itself reads and writes (log 43). A completion is written to the ring
of a context that closes as well (Table CTX-3 row 4). -/
def State.checkRing (s : State) (c h : Nat) (perm : Perm) (off size : Nat) : Option CheckFail :=
  let d := s.act.desc c h
  if !d.valid || d.tracts.any (fun t => !s.tractOn t) then some ⟨stBadHandle, 2⟩
  else if !d.allows perm then some ⟨stPermission, 3⟩
  else if d.bytes < off + size then some ⟨stBounds, 5⟩
  else none

/-- Table CIS-4 for a ring unit that the decoder reads (R254). -/
def State.checkUnit (s : State) (m : QMap) (head : Word) : Option CheckFail :=
  if !s.isOpen m.ctx then some ⟨stRefuseContext, 1⟩ else s.checkRing m.ctx m.handle .wr (m.unitOff head.toNat) 64

/-- The first failing check of `n` ring units from `head` on (R254). -/
def State.unitsFault (s : State) (m : QMap) (head : Word) (n : Nat) : Option Half :=
  ((List.range n).findSome? (fun i => s.checkUnit m (head + BitVec.ofNat 32 i))).map (fun f => f.status)

/-- Read `n` ring units from `head` on (R250); a poisoned word reads as zero bytes (R122). -/
def State.readUnits (s : State) (m : QMap) (head : Word) : Nat → Got
  | 0 => { bytes := [], marks := [], status := stOK, state := s }
  | n + 1 =>
    let g := s.readBytes m.ctx m.handle (m.unitOff head.toNat) 64
    let r := g.state.readUnits m (head + 1) n
    { bytes := g.bytes ++ r.bytes, marks := [], status := stOK, state := r.state }

/-! ## Decode -/

/-- A queue that the decoder may take a packet from: its class, and the units of its packet, none where the ring read
fails. -/
structure Cand where
  q : Nat
  cls : Nat
  units : Option Nat
  deriving DecidableEq, Repr

/-- A packet of the queue holds it: dispatched, or decoded and not yet dispatched (R259, R272; log 44). -/
def Queue.held (x : Queue) : Bool := x.hold.isSome || x.decoded.any (fun p => holdsQueue p.opcode)

/-- The effective class of a header byte 5 (R256); an invalid override is arbitrated at the queue's class. -/
def QMap.classOf (m : QMap) (byte5 : Nat) : Nat := if byte5 ≤ 7 then max byte5 m.floor else m.cls

/-- The queue's decodable packet (R252, R259). -/
def State.candidate (s : State) (q : Nat) : Option Cand :=
  let m := s.act.qmap q
  let x := s.queue q
  let covered := (x.tail - x.head).toNat
  if !m.en || x.faulted || covered = 0 || x.held || s.decodePaused m.ctx then none
  else
    match s.unitsFault m x.head 1 with
    | some _ => some { q := q, cls := m.cls, units := none }
    | none =>
      let off := m.unitOff x.head.toNat
      let n := s.readNat m.ctx m.handle (off + 1) 1 % 16 + 1
      if covered < n then none
      else some { q := q, cls := m.classOf (s.readNat m.ctx m.handle (off + 5) 1), units := some n }

/-- Round robin within a class, from the queue after the last served (R257, R258). -/
def State.roundRobin (s : State) (cls : Nat) (cs : List Cand) : Option Cand :=
  let mine := cs.filter (fun c => decide (c.cls = cls))
  let last := spGet 0 s.pmh.lastQ cls
  match mine.find? (fun c => decide (last ≤ c.q)) with
  | some c => some c
  | none => mine.head?

/-- The class after `c` in a round. -/
def nextClass (c : Nat) : Nat := if c < 7 then c + 1 else 1

/-- Where the rounds of R258 stop: class and decodes used, after the choice. -/
def State.roundPick (s : State) (cs : List Cand) : Nat → Nat → Nat → Option (Cand × Nat × Nat)
  | 0, _, _ => none
  | fuel + 1, cls, used =>
    match (if used < s.act.weight cls then s.roundRobin cls cs else none) with
    | some c => some (c, cls, used + 1)
    | none => s.roundPick cs fuel (nextClass cls) 0

/-- The arbiter: class 0 first, else the rounds (R257, R258). -/
def State.pick (s : State) (cs : List Cand) : Option (Cand × Nat × Nat) :=
  match s.roundRobin 0 cs with
  | some c => some (c, s.pmh.roundCls, s.pmh.roundUsed)
  | none => s.roundPick cs 9 s.pmh.roundCls s.pmh.roundUsed

/-- The queue goes FAULTED (R254). -/
def State.faultQueue (s : State) (q : Nat) (st : Half) : State :=
  (s.setQueue q { s.queue q with faulted := true, fstatus := st }).notify (ntQueueFault q st)

/-- Read the packet, advance HEAD and check its header (R253, R256, R262). -/
def State.decodeFrom (s : State) (q units : Nat) : State :=
  let m := s.act.qmap q
  let x := s.queue q
  match s.unitsFault m x.head units with
  | some st => s.faultQueue q st
  | none =>
    let g := s.readUnits m x.head units
    let s := g.state
    let p : Pkt := { bytes := g.bytes, ctx := m.ctx, cls := m.classOf (byteAt g.bytes 5).toNat, order := s.pmh.order }
    let s := { s with pmh := { s.pmh with order := s.pmh.order + 1 } }
    let x := { x with head := x.head + BitVec.ofNat 32 units }
    match s.headerFault m p with
    | none => s.setQueue q { x with decoded := x.decoded ++ [p] }
    | some st =>
      let s := s.setQueue q x
      { s with pmh := { s.pmh with compl := s.pmh.compl ++ [
          { slot := none, ctx := m.ctx, queue := q, tag := p.tag, notify := p.notify, status := st, reason := 0, flags := 0,
            late := false, wave := s.time.wave, data := [] }] } }

/-- Decode runs: the die is READY and no detach has begun (R515, R520). -/
def State.decodeOpen (s : State) : Bool := s.rst.ready && !s.silent && s.rst.detach.isNone

/-- One decode (R257 to R262). -/
def packetDecode (s : State) : State :=
  if !s.decodeOpen then s
  else
    match s.pick ((List.range 512).filterMap s.candidate) with
    | none => s
    | some (c, cls, used) =>
      let s := { s with pmh := { s.pmh with lastQ := spSet 0 s.pmh.lastQ c.cls (c.q + 1), roundCls := cls, roundUsed := used } }
      match c.units with
      | none => s.faultQueue c.q ((s.unitsFault (s.act.qmap c.q) (s.queue c.q).head 1).getD stBounds)
      | some n => s.decodeFrom c.q n

/-- PACKET_DECODE (R262). -/
def execPacketDecode (s : State) : Host.Outcome State Fault Refusal := .next (packetDecode s)

/-- A COND-flagged packet reaches dispatch while the condition bit is 0 (R268). -/
def packetSkip (q : Nat) (s : State) : State :=
  let x := s.queue q
  match x.decoded with
  | [] => s
  | p :: rest =>
    if s.mayDispatch q p && p.condFlag && !x.cond then s.setQueue q { x with decoded := rest, looked := x.looked - 1 } else s

/-- PACKET_SKIP (R268). -/
def execPacketSkip (q : Fin 512) (s : State) : Host.Outcome State Fault Refusal := .next (packetSkip q.val s)

/-- Lines of `n` at an offset of a handle whose prestaged read passes; a read that fails is dropped (R96, R281). -/
def State.linesRead (s : State) (c h off n : Nat) : Nat :=
  ((List.range n).filter (fun i => (s.check c h .wr (off + 256 * i : Nat) 256 256).isNone)).length

/-- Lines that lookahead prestages for a packet: a local COPY's source, a RUN's program. R279 lets it prestage any command's
source reads and obliges it to none (DESIGN CHOICE, log 42). -/
def State.prestageLines (s : State) (p : Pkt) : Nat :=
  if p.opcode = 0x08 ∧ bit (p.byte 12) 0 = false then
    if p.u64 32 = 0 ∨ 2 ^ 30 < p.u64 32 ∨ p.u64 32 % 256 ≠ 0 then 0
    else s.linesRead p.ctx (p.handle 10) (p.u64 16) (p.u64 32 / 256)
  else if p.opcode = 0x10 ∧ bit (p.byte 11) 0 then
    if p.byte 16 = 0 ∨ 64 < p.byte 16 then 0 else s.linesRead p.ctx (p.handle 10) (p.u32 12) (p.byte 16)
  else 0

/-- HEAD and units of undecoded packet `n` of a ring, where TAIL covers it and its header may be read. -/
def State.ringPacket (s : State) (m : QMap) (tail : Word) : Nat → Word → Option (Word × Nat)
  | n, head =>
    if head = tail ∨ (s.checkUnit m head).isSome then none
    else
      let units := s.readNat m.ctx m.handle (m.unitOff head.toNat + 1) 1 % 16 + 1
      if (tail - head).toNat < units then none
      else match n with
        | 0 => some (head, units)
        | n + 1 => s.ringPacket m tail n (head + BitVec.ofNat 32 units)

/-- Packet `n` beyond the oldest not yet dispatched: decoded, or still in the ring, whatever stands before it (R279). -/
def State.packetAhead (s : State) (q n : Nat) : Option Pkt :=
  let x := s.queue q
  match x.decoded[n]? with
  | some p => some p
  | none =>
    let m := s.act.qmap q
    (s.ringPacket m x.tail (n - x.decoded.length) x.head).map (fun r =>
      { bytes := (s.readUnits m r.1 r.2).bytes, ctx := m.ctx, cls := m.cls, order := 0 })

/-- Lookahead reads one more header, of 16 beyond the oldest packet not yet dispatched (R279, R280); its reads change nothing
but the count. -/
def lookaheadPrestage (q : Nat) (s : State) : State :=
  let x := s.queue q
  match s.packetAhead q (x.looked + 1) with
  | none => s
  | some p =>
    if !s.dispatchOpen || !(s.act.qmap q).en || 16 ≤ x.looked then s
    else
      let n := if p.lookahead && (!p.condFlag || decide (2 ≤ x.pred.toNat)) then s.prestageLines p else 0
      let s := s.setQueue q { x with looked := x.looked + 1 }
      { s with pmh := { s.pmh with laPrestage := s.pmh.laPrestage + BitVec.ofNat 32 n } }

/-- LOOKAHEAD_PRESTAGE (R279). -/
def execLookaheadPrestage (q : Fin 512) (s : State) : Host.Outcome State Fault Refusal :=
  .next (lookaheadPrestage q.val s)

/-! ## NOP and FENCE (R263) -/

/-- A NOP without NOTIFY writes no completion and is never in flight. -/
def nopAct (s : State) (k : Nat) (p : Pkt) : DispOut :=
  if p.notify then .ok s [] else .run (s.setCmd k none) .ended

def nop (q : Nat) (s : State) : State := s.dispatch q (fun p => decide (p.opcode = 0x00)) nopAct

/-- NOP (R263). -/
def execNop (q : Fin 512) (s : State) : Host.Outcome State Fault Refusal := .next (nop q.val s)

/-- A command that a FENCE in slot `k` waits for is in flight. -/
def State.fenceWaits (s : State) (k : Nat) (ctxScope : Bool) : Bool :=
  match s.cmd k with
  | none => false
  | some f => s.flying.any (fun e => decide (e.1 ≠ k) && decide (e.2.serial < f.serial)
      && (if ctxScope then decide (e.2.ctx = f.ctx) else decide (e.2.origin = f.origin)))

def fenceAct (s : State) (k : Nat) (p : Pkt) : DispOut :=
  if 1 < p.byte 8 then .fail s stBounds
  else
    let scope := decide (p.byte 8 = 1)
    if s.fenceWaits k scope then .run s (.fence scope) else .ok s []

def fence (q : Nat) (s : State) : State := s.dispatch q (fun p => decide (p.opcode = 0x01)) fenceAct

/-- FENCE (R263). -/
def execFence (q : Fin 512) (s : State) : Host.Outcome State Fault Refusal := .next (fence q.val s)

/-- A pending FENCE has nothing left to wait for (R263, R272). -/
def fenceComplete (k : Nat) (s : State) : State :=
  match s.cmd k with
  | none => s
  | some c =>
    match c.job with
    | .fence scope => if s.silent || s.fenceWaits k scope then s else s.finish k stOK 0 0 []
    | _ => s

/-- FENCE_COMPLETE (R272). -/
def execFenceComplete (k : Fin 1024) (s : State) : Host.Outcome State Fault Refusal := .next (fenceComplete k.val s)

/-! ## Semaphores (R266 to R271) -/

/-- The die semaphore lies in the context's range (R269). -/
def State.semOk (s : State) (c n : Nat) : Bool := (s.act.range c).hasSem n

def semWaitAct (s : State) (_k : Nat) (p : Pkt) : DispOut :=
  if !s.semOk p.ctx (p.byte 8) then .fail s stPermission
  else if 1 < p.byte 9 then .fail s stBounds
  else .run s (.semWait (p.byte 8) (decide (p.byte 9 = 1)) (wordAt p.bytes 12))

def semWait (q : Nat) (s : State) : State :=
  s.dispatch q (fun p => decide (p.opcode = 0x02) && decide (p.byte 9 ≠ 1)) semWaitAct

/-- SEM_WAIT in mode WAIT (R266). -/
def execSemWait (q : Fin 512) (s : State) : Host.Outcome State Fault Refusal := .next (semWait q.val s)

def semWaitTake (q : Nat) (s : State) : State :=
  s.dispatch q (fun p => decide (p.opcode = 0x02) && decide (p.byte 9 = 1)) semWaitAct

/-- SEM_WAIT in mode TAKE (R266). -/
def execSemWaitTake (q : Fin 512) (s : State) : Host.Outcome State Fault Refusal := .next (semWaitTake q.val s)

/-- A waiting SEM_WAIT of this semaphore that is satisfied comes from a lower queue (R270). -/
def State.earlierWait (s : State) (q sem : Nat) : Bool :=
  s.flying.any (fun e => match e.2.job with
    | .semWait n _ thr => decide (n = sem) && decide (thr.toNat ≤ (s.semOf n).toNat) && decide (e.2.origin.queueNo < q)
    | _ => false)

/-- A waiting SEM_WAIT finds its semaphore at THRESHOLD or above (R266, R270). -/
def semWaitSatisfied (k : Nat) (s : State) : State :=
  match s.cmd k with
  | none => s
  | some c =>
    match c.job with
    | .semWait sem take thr =>
      if s.silent || decide ((s.semOf sem).toNat < thr.toNat) || s.earlierWait c.origin.queueNo sem then s
      else
        let s := if take then s.setSem sem (s.semOf sem - thr) else s
        s.finish k stOK 0 0 (leBytes 4 (s.semOf sem).toNat)
    | _ => s

/-- SEM_WAIT_SATISFIED (R270). -/
def execSemWaitSatisfied (k : Fin 1024) (s : State) : Host.Outcome State Fault Refusal := .next (semWaitSatisfied k.val s)

def semSignalAct (s : State) (_k : Nat) (p : Pkt) : DispOut :=
  let sem := p.byte 8
  if !s.semOk p.ctx sem then .fail s stPermission
  else
    let s := s.addSem sem (wordAt p.bytes 12)
    .ok s (leBytes 4 (s.semOf sem).toNat)

def semSignal (q : Nat) (s : State) : State :=
  s.dispatch q (fun p => decide (p.opcode = 0x03) && !bit (p.byte 9) 0) semSignalAct

/-- SEM_SIGNAL on this die (R266). -/
def execSemSignal (q : Fin 512) (s : State) : Host.Outcome State Fault Refusal := .next (semSignal q.val s)

/-- A SEM_SIG flit (Table LNK-3). -/
def State.semSigFlit (s : State) (ctx : Nat) (peer : Half) (sem : Nat) (value : Word) : Flit :=
  { vc := vcCtrl, typ := 6, src := s.dieId, dst := peer, ctx := BitVec.ofNat 4 ctx, xid := 0, segno := 0, zrc := false,
    payload := leBytes 1 sem ++ leBytes 3 0 ++ leBytes 4 value.toNat }

/-- A remote signal leaves at dispatch, or fails where no port leads to the peer (R271, R453). -/
def semSignalRemoteAct (s : State) (_k : Nat) (p : Pkt) : DispOut :=
  let peer := halfAt p.bytes 10
  match s.egressPort peer with
  | none => .fail s stPartnerLost
  | some port =>
    .run (s.sendOwn (s.semSigFlit p.ctx peer (p.byte 8) (wordAt p.bytes 12))) (.remoteSig port peer (p.byte 8))

def semSignalRemote (q : Nat) (s : State) : State :=
  s.dispatch q (fun p => decide (p.opcode = 0x03) && bit (p.byte 9) 0) semSignalRemoteAct

/-- SEM_SIGNAL with REMOTE (R271). -/
def execSemSignalRemote (q : Fin 512) (s : State) : Host.Outcome State Fault Refusal := .next (semSignalRemote q.val s)

/-! ## COND (R267, R280) -/

/-- Result of TEST. -/
def condTest (test : Nat) (a b : Word) : Bool :=
  if test = 0 then decide (b.toNat ≤ a.toNat)
  else if test = 1 then decide (a.toNat < b.toNat)
  else if test = 2 then decide (a = b)
  else decide (a ≠ b)

/-- The predictor moves one step towards the outcome. -/
def stepPred (p : BitVec 2) (out : Bool) : BitVec 2 :=
  if out then (if p = 3 then 3 else p + 1) else (if p = 0 then 0 else p - 1)

/-- A COND writes its queue's condition bit and moves its predictor. -/
def State.setCond (s : State) (q : Nat) (out : Bool) : State :=
  let x := s.queue q
  let s := s.setQueue q { x with cond := out, pred := stepPred x.pred out }
  if decide (2 ≤ x.pred.toNat) = out then s
  else { s with pmh := { s.pmh with laMispred := s.pmh.laMispred + 1 } }

/-- A COND is evaluated after the SEM_WAITs of lower queues that its wave satisfies (R270). -/
def condAct (q : Nat) (s : State) (_k : Nat) (p : Pkt) : DispOut :=
  let sem := p.byte 8
  if !s.semOk p.ctx sem then .fail s stPermission
  else if 3 < p.byte 9 then .fail s stBounds
  else if s.earlierWait q sem then .wait
  else .ok (s.setCond q (condTest (p.byte 9) (s.semOf sem) (wordAt p.bytes 12))) []

def cond (q : Nat) (s : State) : State := s.dispatch q (fun p => decide (p.opcode = 0x04)) (condAct q)

/-- COND (R267). -/
def execCond (q : Fin 512) (s : State) : Host.Outcome State Fault Refusal := .next (cond q.val s)

/-! ## COPY and FILL (R264, R265) -/

/-- Checks of the length and offsets of COPY and FILL (R264). -/
def lengthFault (len : Nat) : Bool := decide (len = 0) || decide (len % 256 ≠ 0) || decide (2 ^ 30 < len)

/-- Physical lines of a range. -/
def State.physLines (s : State) (c h off len : Nat) : List Nat :=
  (List.range (len / 256)).map (fun i => s.phys c h (off + 256 * i))

/-- Status of a COPY's own parameters. -/
def copyFault (p : Pkt) : Option Half :=
  if bit (p.byte 12) 0 && bit (p.byte 12) 1 then some stBounds
  else if p.u64 16 % 256 ≠ 0 ∨ p.u64 24 % 256 ≠ 0 then some stAlign
  else if lengthFault (p.u64 32) then some stBounds
  else none

/-- A COPY between two handles of this die (R265). -/
def copyAct (s : State) (_k : Nat) (p : Pkt) : DispOut :=
  let len := p.u64 32
  let semen := bit (p.byte 12) 3
  match copyFault p with
  | some st => .fail s st
  | none =>
    match firstFail [s.checkRange p.ctx (p.handle 10) .wr (p.u64 16) len, s.checkRange p.ctx (p.handle 11) .ww (p.u64 24) len] with
    | some f => .failCheck s f
    | none =>
      let dst := s.physLines p.ctx (p.handle 11) (p.u64 24) len
      if (s.physLines p.ctx (p.handle 10) (p.u64 16) len).any (fun a => dst.contains a) then .fail s stBounds
      else if semen && !s.semOk p.ctx (p.byte 13) then .fail s stPermission
      else
        let g := s.readBytes p.ctx (p.handle 10) (p.u64 16) len
        let w := g.state.writeMarked p.ctx (p.handle 11) (p.u64 24) g.bytes g.marks
        let s := if semen then w.2.addSem (p.byte 13) (wordAt p.bytes 40) else w.2
        .fin s (worstData g.status w.1) 0 0 (leBytes 8 len)

def copyRow (p : Pkt) : Bool :=
  decide (p.opcode = 0x08) && (decide (bit (p.byte 12) 0 = bit (p.byte 12) 1))

def copy (q : Nat) (s : State) : State := s.dispatch q copyRow copyAct

/-- COPY on this die; also a COPY that sets both remote bits, which fails (R264). -/
def execCopy (q : Fin 512) (s : State) : Host.Outcome State Fault Refusal := .next (copy q.val s)

/-- A transfer at its start. -/
def mkXfer (p : Pkt) (port : Nat) (isRead : Bool) (okStatus : Half) : Xfer :=
  { port := port, peer := halfAt p.bytes 8, handle := BitVec.ofNat 6 (p.handle 11), off := p.u64 24, len := p.u64 32,
    isRead := isRead, semen := bit (p.byte 12) 3, sem := byteAt p.bytes 13, semval := wordAt p.bytes 40,
    segs := List.replicate (segCount (p.u64 32)) Seg.empty, okStatus := okStatus, data := none }

/-- A COPY to another die (R441, R453). -/
def copyDremoteAct (s : State) (k : Nat) (p : Pkt) : DispOut :=
  match copyFault p with
  | some st => .fail s st
  | none =>
    match s.checkRange p.ctx (p.handle 10) .wr (p.u64 16) (p.u64 32) with
    | some f => .failCheck s f
    | none =>
      let peer := halfAt p.bytes 8
      match s.egressPort peer with
      | none => .fin s stPartnerLost 0 0 (leBytes 8 0)
      | some port =>
        let g := s.readBytes p.ctx (p.handle 10) (p.u64 16) (p.u64 32)
        let s := g.state.sendWrite p.ctx k peer (p.handle 11) (p.u64 24) (bit (p.byte 12) 2 && (s.port port).zrcEn)
          (bit (p.byte 12) 3) (byteAt p.bytes 13) (wordAt p.bytes 40) g.bytes g.marks
        .run s (.xfer (mkXfer p port false g.status))

def copyDremote (q : Nat) (s : State) : State :=
  s.dispatch q (fun p => decide (p.opcode = 0x08) && bit (p.byte 12) 1 && !bit (p.byte 12) 0) copyDremoteAct

/-- COPY with DREMOTE (R441). -/
def execCopyDremote (q : Fin 512) (s : State) : Host.Outcome State Fault Refusal := .next (copyDremote q.val s)

/-- A COPY from another die (R442, R453). -/
def copySremoteAct (s : State) (k : Nat) (p : Pkt) : DispOut :=
  match copyFault p with
  | some st => .fail s st
  | none =>
    match s.checkRange p.ctx (p.handle 11) .ww (p.u64 24) (p.u64 32) with
    | some f => .failCheck s f
    | none =>
      if bit (p.byte 12) 3 && !s.semOk p.ctx (p.byte 13) then .fail s stPermission
      else
        let peer := halfAt p.bytes 8
        match s.egressPort peer with
        | none => .fin s stPartnerLost 0 0 (leBytes 8 0)
        | some port =>
          .run ((s.forgetDead peer k).sendRead p.ctx k peer (p.handle 10) (p.u64 16) (p.u64 32)) (.xfer (mkXfer p port true stOK))

def copySremote (q : Nat) (s : State) : State :=
  s.dispatch q (fun p => decide (p.opcode = 0x08) && bit (p.byte 12) 0 && !bit (p.byte 12) 1) copySremoteAct

/-- COPY with SREMOTE (R442). -/
def execCopySremote (q : Fin 512) (s : State) : Host.Outcome State Fault Refusal := .next (copySremote q.val s)

/-- FILL (R264, R265). -/
def fillAct (s : State) (_k : Nat) (p : Pkt) : DispOut :=
  let off := p.u64 16
  let len := p.u64 24
  if off % 256 ≠ 0 then .fail s stAlign
  else if lengthFault len then .fail s stBounds
  else
    match s.checkRange p.ctx (p.handle 10) .ww off len with
    | some f => .failCheck s f
    | none =>
      let w := s.writeLines p.ctx (p.handle 10) off (fun o => some (byteAt p.bytes (32 + o % 8))) (fun _ => false) (len / 256)
      .fin w.2 w.1 0 0 (leBytes 8 len)

def fill (q : Nat) (s : State) : State := s.dispatch q (fun p => decide (p.opcode = 0x09)) fillAct

/-- FILL (R264). -/
def execFill (q : Fin 512) (s : State) : Host.Outcome State Fault Refusal := .next (fill q.val s)

end Sys2Proof.Machine
end

