-- ==== Sys2Proof/Machine/Pages.lean ====
section
/-!
DEFINITION. Key-value pages (14 R326 to R343): the pool, the page records, page directories, append, rollback, trim,
allocation and release.
-/

namespace Sys2Proof.Machine

/-- The outcome of a command that has run: its status is OK or a data status. -/
def Io.done (x : Io) (data : List Byte) : DispOut := .fin x.s x.st 0 x.fl data

def Io.fail (x : Io) (f : CheckFail) : DispOut := .failCheck x.s f

/-! ## Directories (R333 to R336, R351) -/

/-- A directory's place and header. -/
structure Dir where
  h : Nat
  off : Nat
  layers : Nat
  heads : Nat
  head0 : Nat
  blocks : Nat

/-- Offset of the entry of layer `l`, head `hh`, block `b`. -/
def Dir.entryOff (d : Dir) (l hh b : Nat) : Nat := d.off + 64 + 4 * ((l * d.heads + (hh - d.head0)) * d.blocks + b)

/-- Heads of the directory. -/
def Dir.headList (d : Dir) : List Nat := (List.range d.heads).map (fun k => d.head0 + k)

/-- V and PAGE of an entry. -/
def entryV (e : Nat) : Bool := bit e 31
def entryPage (e : Nat) : Nat := bits e 0 20
def mkEntry (n : Nat) : Nat := at_ 1 31 + n

/-- Check and read a directory's header, and check its entries; `write` asks for WW as well (log 57). -/
def Io.dir (x : Io) (c h off : Nat) (write : Bool) : Except CheckFail Dir × Io :=
  match x.s.chk c h .wr off 64 with
  | some f => (.error f, x)
  | none =>
    let r := x.read c h off 64
    let d : Dir := { h := h, off := off, layers := fieldAt r.1 0 2, heads := fieldAt r.1 2 2, head0 := fieldAt r.1 4 2,
                     blocks := fieldAt r.1 8 4 }
    let size := 64 + 4 * (d.layers * d.heads * d.blocks)
    if d.blocks = 0 ∨ 2048 < d.blocks then (.error boundsFail, r.2)
    else
      match firstFail ([x.s.chk c h .wr off size] ++ (if write then [x.s.chk c h .ww off size] else [])) with
      | some f => (.error f, r.2)
      | none => (.ok d, r.2)

/-- Block `b` is local (R351). -/
def State.localBlock (s : State) (c b : Nat) : Bool :=
  decide (s.act.placeMode c = 0) || decide (b % s.act.placeStripes c = s.act.placeIndex c)

/-- An entry of a directory: layer, head, block, value. -/
structure Ent where
  l : Nat
  hh : Nat
  b : Nat
  v : Nat

/-- Read the entries of the given layers, heads and blocks, in that order of nesting. -/
def Io.ents (x : Io) (c : Nat) (d : Dir) (layers heads blocks : List Nat) : List Ent × Io :=
  (layers.flatMap (fun l => heads.flatMap (fun hh => blocks.map (fun b => (l, hh, b))))).foldl
    (fun a k =>
      let r := a.2.readNat c d.h (d.entryOff k.1 k.2.1 k.2.2) 4
      (a.1 ++ [⟨k.1, k.2.1, k.2.2, r.1⟩], r.2)) ([], x)

def Io.putEnt (x : Io) (c : Nat) (d : Dir) (l hh b v : Nat) : Io := x.write c d.h (d.entryOff l hh b) (leBytes 4 v)

/-- Local blocks that positions `pos` to `pos + n - 1` touch (R351). -/
def State.touched (s : State) (c pos n : Nat) : List Nat :=
  ((List.range ((pos + n - 1) / 64 + 1 - pos / 64)).map (fun k => pos / 64 + k)).filter (s.localBlock c)

/-- Every V entry of the list names a HELD page (R334). -/
def State.entsHeld (s : State) (c : Nat) (es : List Ent) : Bool :=
  es.all (fun e => !entryV e.v || s.pageHeld c (entryPage e.v))

/-- The die reads the records of the pages that the V entries of a list name. -/
def Io.touchEnts (x : Io) (c : Nat) (es : List Ent) : Io :=
  x.touchRecs c ((es.filter (fun e => entryV e.v)).map (fun e => entryPage e.v))

/-- New or shared (R337). -/
def State.entNeeds (s : State) (c : Nat) (e : Ent) : Bool :=
  !entryV e.v || decide (1 < s.pageRef c (entryPage e.v))

/-- R337: how many pages an append or a step's preparation needs. -/
def State.pagesFor (s : State) (c : Nat) (es : List Ent) : Nat := (es.filter (s.entNeeds c)).length

/-! ## Append (R337, R338) -/

/-- Pages taken so far by an append or a step's preparation. -/
structure Prep where
  x : Io
  news : Nat
  copies : Nat
  /-- Taken from the request's RESERVE (R368). -/
  used : Nat

/-- Copy the first `f` positions of page `n` to page `m` (R338). -/
def Io.copyPositions (x : Io) (c n m f : Nat) : Io :=
  let p := x.pool c
  let h := p.phandle.toNat
  let ew := f * (p.elems / 64)
  let sw := f * (p.scales / 64)
  [(0, ew), (p.elems, ew), (2 * p.elems, sw), (2 * p.elems + p.scales, sw)].foldl
    (fun x r => if r.2 = 0 then x else x.copy c h (p.pageOff n + r.1) (p.pageOff m + r.1) r.2) x

/-- Prepare one entry: a new one takes a page, a shared one is copied, an own one stays (R338; log 57). Reserved pages
are drawn first. -/
def Prep.entry (c : Nat) (d : Dir) (pos reserve : Nat) (a : Prep) (e : Ent) : Prep :=
  if !a.x.s.entNeeds c e then a
  else
    let fromReserve := decide (a.used < reserve)
    let p := a.x.pool c
    let x := if fromReserve then a.x.setPool c { p with reserved := p.reserved - 1 } else a.x
    let r := x.alloc c
    let used := a.used + b2n fromReserve
    if entryV e.v then
      let n := entryPage e.v
      let x := (r.2.copyPositions c n r.1 (pos - 64 * e.b)).putEnt c d e.l e.hh e.b (mkEntry r.1)
      let x := x.drop c n
      { x := x.setPool c { x.pool c with cows := (x.pool c).cows + 1 }, news := a.news, copies := a.copies + 1, used := used }
    else
      { x := r.2.putEnt c d e.l e.hh e.b (mkEntry r.1), news := a.news + 1, copies := a.copies, used := used }

/-- Prepare every entry of a list, in order. -/
def Io.prepare (x : Io) (c : Nat) (d : Dir) (es : List Ent) (pos reserve : Nat) : Prep :=
  es.foldl (Prep.entry c d pos reserve) { x := x, news := 0, copies := 0, used := 0 }

/-- The element bytes and scale bytes of one key or value vector (R338, R318). -/
def Pool.encode (p : Pool) (q : Val) (xs : List Val) : List Byte × List Byte × Flags :=
  if p.blk = 0 then
    let r := resTable (fun i => fmtBF16.roundTo (xs.getD i (.zero false))) xs.length
    (packElems fBF16 r.out, [], r.fl)
  else
    let f := if p.fmt = 1 then fE4M3 else fInt4
    let bs := (List.range (p.dim / p.blk)).map (fun i => blockConvert f true q ((xs.drop (i * p.blk)).take p.blk))
    (packElems f (bs.flatMap (fun b => b.2.out)), bs.map (fun b => BitVec.ofNat 8 b.1),
      bs.foldl (fun a b => a ||| b.2.fl) 0)

/-- What a KV_APPEND does once it is expanded (Table KVP-4; R372). -/
structure Append where
  dh : Nat
  doff : Nat
  sh : Nat
  fp32 : Bool
  layer : Nat
  npos : Nat
  headA : Nat
  nhead : Nat
  pos : Nat
  qk : Word
  qv : Word
  koff : Nat
  voff : Nat

def Append.elemSize (a : Append) : Nat := if a.fp32 then 4 else 2

/-- Write one vector: `part` 0 keys, 1 values; `hi` counts heads, `j` positions of the command. -/
def Io.putVector (x : Io) (c : Nat) (d : Dir) (a : Append) (part hi j : Nat) : Io :=
  let ps := a.pos + j
  if !x.s.localBlock c (ps / 64) then x
  else
    let p := x.pool c
    let e := x.readNat c d.h (d.entryOff a.layer (a.headA + hi) (ps / 64)) 4
    let n := entryPage e.1
    let size := a.elemSize
    let base := if part = 0 then a.koff else a.voff
    let r := e.2.read c a.sh (base + (hi * a.npos + j) * p.dim * size) (p.dim * size)
    let f := if a.fp32 then fFP32 else fBF16
    let v := p.encode (val32 (if part = 0 then a.qk else a.qv))
      ((List.range p.dim).map (fun i => elemVal f false (elemAt f r.1 i)))
    let h := p.phandle.toNat
    let k := ps % 64
    let x := r.2.write c h (p.pageOff n + part * p.elems + k * v.1.length) v.1
    let x := if v.2.1.isEmpty then x
      else x.write c h (p.pageOff n + 2 * p.elems + part * p.scales + k * v.2.1.length) v.2.1
    { x with fl := x.fl ||| v.2.2 }

/-- Write keys, then values, of every head and position (R338). -/
def Io.putVectors (x : Io) (c : Nat) (d : Dir) (a : Append) : Io :=
  ([0, 1].flatMap (fun part => (List.range a.nhead).flatMap (fun hi => (List.range a.npos).map (fun j => (part, hi, j))))).foldl
    (fun x k => x.putVector c d a k.1 k.2.1 k.2.2) x

/-- R334 for an append: layer, heads and blocks lie in the directory. -/
def Append.inDir (a : Append) (d : Dir) : Bool :=
  decide (a.layer < d.layers) && decide (d.head0 ≤ a.headA) && decide (a.headA + a.nhead ≤ d.head0 + d.heads)
    && decide ((a.pos + a.npos - 1) / 64 < d.blocks)

/-- KV_APPEND (R337, R338) as one allocator action. -/
def appendAct (s : State) (c : Nat) (a : Append) : DispOut :=
  match s.poolFault c false with
  | some f => .failCheck s f
  | none =>
    if a.npos = 0 ∨ 2048 < a.npos then .fail s stBounds
    else
      match (Io.of s).dir c a.dh a.doff true with
      | (.error f, x) => x.fail f
      | (.ok d, x) =>
        if !a.inDir d then x.fail boundsFail
        else
          let size := a.nhead * a.npos * (s.pool c).dim * a.elemSize
          match firstFail [s.chk c a.sh .wr a.koff size, s.chk c a.sh .wr a.voff size] with
          | some f => x.fail f
          | none =>
            let es := x.ents c d [a.layer] ((List.range a.nhead).map (fun k => a.headA + k)) (s.touched c a.pos a.npos)
            let es := (es.1, es.2.touchEnts c es.1)
            if !es.2.s.entsHeld c es.1 then es.2.fail boundsFail
            else if (s.pool c).avail < es.2.s.pagesFor c es.1 then es.2.fail ⟨stPageExhausted, 0⟩
            else
              let r := es.2.prepare c d es.1 a.pos 0
              (r.x.putVectors c d a).done (leBytes 2 r.news ++ leBytes 2 r.copies)

/-- The parameters of Table KVP-4. -/
def Pkt.append (p : Pkt) : Append :=
  { dh := p.handle 8, doff := p.u64 16, sh := p.handle 9, fp32 := decide (p.byte 10 = 1), layer := p.byte 11,
    npos := p.u16 12, headA := p.byte 14, nhead := p.byte 15, pos := p.u32 24, qk := wordAt p.bytes 28,
    qv := wordAt p.bytes 32, koff := p.u64 40, voff := p.u64 48 }

/-- A reserved SFMT fails with BOUNDS once the pool stands (log 45). -/
def kvAppendAct (s : State) (_k : Nat) (p : Pkt) : DispOut :=
  if 1 < p.byte 10 ∧ s.poolFault p.ctx false = none then .fail s stBounds else appendAct s p.ctx p.append

def kvAppend (q : Nat) (s : State) : State := s.dispatch q (fun p => decide (p.opcode = 0x28)) kvAppendAct

/-- KV_APPEND (R337). -/
def execKvAppend (q : Fin 512) (s : State) : Host.Outcome State Fault Refusal := .next (kvAppend q.val s)

/-! ## Trim (R341) and rollback (R340) -/

/-- The blocks that KV_TRIM covers. -/
def trimBlocks (front : Bool) (pos blocks : Nat) : List Nat :=
  (List.range blocks).filter (fun b => if front then decide (b < pos / 64) else decide ((pos + 63) / 64 ≤ b))

/-- Drop the references of the given entries and clear them. -/
def Io.clearEnts (x : Io) (c : Nat) (d : Dir) (es : List Ent) : Io :=
  es.foldl (fun x e => (x.drop c (entryPage e.v)).putEnt c d e.l e.hh e.b 0) x

/-- KV_TRIM on a directory: the references dropped, or the check that failed. -/
def trimDir (s : State) (c dh doff : Nat) (front : Bool) (pos : Nat) : Except CheckFail Nat × Io :=
  match s.poolFault c false with
  | some f => (.error f, Io.of s)
  | none =>
    match (Io.of s).dir c dh doff true with
    | (.error f, x) => (.error f, x)
    | (.ok d, x) =>
      let r := x.ents c d (List.range d.layers) d.headList ((trimBlocks front pos d.blocks).filter (s.localBlock c))
      let es := r.1.filter (fun e => entryV e.v)
      let r := (r.1, r.2.touchEnts c r.1)
      if !r.2.s.refsCover c (es.map (fun e => entryPage e.v)) then (.error boundsFail, r.2)
      else (.ok es.length, r.2.clearEnts c d es)

/-- KV_TRIM; the two rows differ in MODE. -/
def kvTrimAct (s : State) (_k : Nat) (p : Pkt) : DispOut :=
  match s.poolFault p.ctx false with
  | some f => .failCheck s f
  | none =>
    if 1 < p.byte 9 then .fail s stBounds
    else
      match trimDir s p.ctx (p.handle 8) (p.u64 16) (decide (p.byte 9 = 1)) (p.u32 12) with
      | (.error f, x) => x.fail f
      | (.ok n, x) => x.done (leBytes 4 n)

def kvTrimTail (q : Nat) (s : State) : State :=
  s.dispatch q (fun p => decide (p.opcode = 0x2A) && decide (p.byte 9 ≠ 1)) kvTrimAct

/-- KV_TRIM TAIL (R341). -/
def execKvTrimTail (q : Fin 512) (s : State) : Host.Outcome State Fault Refusal := .next (kvTrimTail q.val s)

def kvTrimFront (q : Nat) (s : State) : State :=
  s.dispatch q (fun p => decide (p.opcode = 0x2A) && decide (p.byte 9 = 1)) kvTrimAct

/-- KV_TRIM FRONT (R341). -/
def execKvTrimFront (q : Fin 512) (s : State) : Host.Outcome State Fault Refusal := .next (kvTrimFront q.val s)

def State.entry (s : State) (r : Nat) : Entry := spGet Entry.reset s.srv.entries r

def State.setEntry (s : State) (r : Nat) (e : Entry) : State :=
  { s with srv := { s.srv with entries := spSet Entry.reset s.srv.entries r e } }

/-- KV_ROLLBACK on a request that is in no running step: its checks, or, where it waited for the step, its checks again (R340;
log 57). -/
def rollbackNow (s : State) (c req newLen : Nat) (trim : Bool) : DispOut :=
  let e := s.entry req
  if e.state = .free ∨ e.state = .done then .fail s stBounds
  else if e.length < newLen then .fail s stBounds
  else if trim then
    match trimDir s c e.dhandle.toNat e.diroff.toNat false newLen with
    | (.error f, x) => x.fail f
    | (.ok _, x) => Io.done { x with s := x.s.setEntry req { e with length := newLen } } []
  else .ok (s.setEntry req { e with length := newLen }) []

/-- KV_ROLLBACK at dispatch (R329, R340): the pool's areas where it trims, the request, its length; then it waits for a running
step, or acts. -/
def kvRollbackAct (s : State) (_k : Nat) (p : Pkt) : DispOut :=
  let req := p.u16 8
  let e := s.entry req
  let trim := bit (p.byte 10) 0
  match (if trim then s.poolFault p.ctx false else none) with
  | some f => .failCheck s f
  | none =>
    if !(s.pool p.ctx).live then .fail s stRefusePages
    else if 4095 < req ∨ e.state = .free then .fail s stBounds
    else if e.ctx ≠ p.ctx then .fail s stPermission
    else if e.state = .done ∨ e.length < p.u32 12 then .fail s stBounds
    else if e.inStep then .run s (.rollback req (p.u32 12) trim)
    else rollbackNow s p.ctx req (p.u32 12) trim

def kvRollback (q : Nat) (s : State) : State := s.dispatch q (fun p => decide (p.opcode = 0x29)) kvRollbackAct

/-- KV_ROLLBACK (R340). -/
def execKvRollback (q : Fin 512) (s : State) : Host.Outcome State Fault Refusal := .next (kvRollback q.val s)

/-! ## Allocation and release (R342, R343) -/

/-- Allocate `n` pages. -/
def Io.allocMany (x : Io) (c n : Nat) : List Nat × Io :=
  (List.range n).foldl (fun a _ => let r := a.2.alloc c; (a.1 ++ [r.1], r.2)) ([], x)

/-- PAGE_ALLOC in list mode. -/
def allocList (s : State) (p : Pkt) : DispOut :=
  let c := p.ctx
  let n := p.u16 10
  if n = 0 ∨ 1024 < n then .fail s stBounds
  else
    match s.chk c (p.handle 8) .ww (p.u64 16) (4 * n) with
    | some f => .failCheck s f
    | none =>
      if (s.pool c).avail < n then .fail s stPageExhausted
      else
        let r := (Io.of s).allocMany c n
        (r.2.write c (p.handle 8) (p.u64 16) (r.1.flatMap (leBytes 4))).done []

/-- Fill entries without V. -/
def Io.fillEnts (x : Io) (c : Nat) (d : Dir) (es : List Ent) : Io :=
  es.foldl (fun x e => let r := x.alloc c; r.2.putEnt c d e.l e.hh e.b (mkEntry r.1)) x

/-- PAGE_ALLOC in directory mode. -/
def allocDirectory (s : State) (p : Pkt) : DispOut :=
  let c := p.ctx
  match (Io.of s).dir c (p.handle 8) (p.u64 16) true with
  | (.error f, x) => x.fail f
  | (.ok d, x) =>
    let from_ := p.u32 12
    let n := p.u16 10
    if 0 < n ∧ d.blocks < from_ + n then x.fail boundsFail
    else
      let blocks := ((List.range n).map (fun k => from_ + k)).filter (s.localBlock c)
      let r := x.ents c d (List.range d.layers) d.headList blocks
      let es := r.1.filter (fun e => !entryV e.v)
      if (s.pool c).avail < es.length then r.2.fail ⟨stPageExhausted, 0⟩
      else (r.2.fillEnts c d es).done []

def pageAllocAct (s : State) (_k : Nat) (p : Pkt) : DispOut :=
  match s.poolFault p.ctx false with
  | some f => .failCheck s f
  | none =>
    if p.byte 9 = 0 then allocList s p else if p.byte 9 = 1 then allocDirectory s p else .fail s stBounds

def pageAllocList (q : Nat) (s : State) : State :=
  s.dispatch q (fun p => decide (p.opcode = 0x2B) && decide (p.byte 9 ≠ 1)) pageAllocAct

/-- PAGE_ALLOC in list mode (R342). -/
def execPageAllocList (q : Fin 512) (s : State) : Host.Outcome State Fault Refusal := .next (pageAllocList q.val s)

def pageAllocDirectory (q : Nat) (s : State) : State :=
  s.dispatch q (fun p => decide (p.opcode = 0x2B) && decide (p.byte 9 = 1)) pageAllocAct

/-- PAGE_ALLOC in directory mode (R342). -/
def execPageAllocDirectory (q : Fin 512) (s : State) : Host.Outcome State Fault Refusal :=
  .next (pageAllocDirectory q.val s)

/-- The page ids of a list of `n` u32 values. -/
def listIds (bs : List Byte) (n : Nat) : List Nat := (List.range n).map (fun i => fieldAt bs (4 * i) 4)

/-- PAGE_FREE (R343). -/
def pageFreeAct (s : State) (_k : Nat) (p : Pkt) : DispOut :=
  let c := p.ctx
  let n := p.u16 10
  match s.poolFault c false with
  | some f => .failCheck s f
  | none =>
    if n = 0 ∨ 1024 < n then .fail s stBounds
    else
      match s.chk c (p.handle 8) .wr (p.u64 16) (4 * n) with
      | some f => .failCheck s f
      | none =>
        let r := (Io.of s).read c (p.handle 8) (p.u64 16) (4 * n)
        let ids := listIds r.1 n
        let r := (r.1, r.2.touchRecs c ids)
        if !r.2.s.refsCover c ids then r.2.fail boundsFail
        else (ids.foldl (fun x i => x.drop c i) r.2).done []

def pageFree (q : Nat) (s : State) : State := s.dispatch q (fun p => decide (p.opcode = 0x2C)) pageFreeAct

/-- PAGE_FREE (R343). -/
def execPageFree (q : Fin 512) (s : State) : Host.Outcome State Fault Refusal := .next (pageFree q.val s)

/-! ## Arming (R328) -/

/-- A reserved encoding in the pool's configuration (log 58). -/
def Pool.reserved_ (p : Pool) : Bool :=
  decide (p.fmt = 3) || decide (p.headdim = 3) || decide (20 < p.bucketBits.toNat) || decide (p.dataOff.toNat % 256 ≠ 0)
    || decide (p.metaOff.toNat % 256 ≠ 0)

/-- The index starts empty: every bucket holds 0xFFFF_FFFF (R345; log 58). -/
def State.clearBuckets (s : State) (c : Nat) : State :=
  let p := s.pool c
  let size := 4 * 2 ^ p.bucketBits.toNat
  if (s.checkRange c p.xhandle.toNat .own p.bucketOff.toNat size).isSome then s
  else (s.writeBytes c p.xhandle.toNat p.bucketOff.toNat (List.replicate size 0xFF)).2

/-- A write of 1 to KVP_POOLCFG.ARM (R328): the pool goes LIVE, or ARMERR says why not. -/
def State.armPool (s : State) (c : Nat) : State :=
  let p := s.pool c
  if p.reserved_ then s.setPool c { p with armErr := 2 }
  else if (p.areas true).any (fun a => decide ((s.act.desc c a.1).bytes < a.2.1 + a.2.2)) then
    s.setPool c { p with armErr := 1 }
  else
    (s.setPool c { p.unset with live := true, armErr := 0, free := p.pages.toNat }).clearBuckets c

end Sys2Proof.Machine
end

