-- ==== Sys2Proof/Machine/Dot.lean ====
section
/-!
DEFINITION. The dot product of one cell, bit for bit (07 R163 to R177): groups, accumulation, split precision, binary64
and the drain.
-/

namespace Sys2Proof.Machine

/-! ## The group sum (R166 to R169) -/

/-- A term truncated toward zero to a multiple of 2^u, and whether bits were lost. -/
def truncTerm (u : Int) (v : Val) : Val × Bool :=
  match v with
  | .num neg m e =>
    if u ≤ e then (v, false)
    else
      let k := (u - e).toNat
      (.num neg (m / 2 ^ k) u, decide (m % 2 ^ k ≠ 0))
  | v => (v, false)

/-- The sum of the finite products of a group, +0 where it is zero (R167). -/
def groupFinite (ps : List Val) : Res Val :=
  match topLog ps with
  | none => ⟨.zero false, 0⟩
  | some t =>
    let ts := ps.map (truncTerm (t - 63))
    let s := ts.foldl (fun a x => a.add x.1) (.zero false)
    ⟨if s.isZero then .zero false else s, flagIf (ts.any (fun x => x.2)) flNX⟩

/-- `group_sum` of R169 over the operand values and the scale bytes. Its NaN raises nothing more when it is stored. -/
def groupSum (as bs : List Val) (sa sb : Nat) : Res Val :=
  let ps := as.zipWith Val.mul bs
  let nv := as.any Val.nv || bs.any Val.nv || ps.any Val.nv
  let pos := ps.any (fun p => decide (p = .inf false))
  let neg := ps.any (fun p => decide (p = .inf true))
  if sa = 0xFF ∨ sb = 0xFF then ⟨.nan false, flNV⟩
  else if ps.any Val.isNan then ⟨.nan false, flagIf nv flNV⟩
  else if pos && neg then ⟨.nan false, flNV⟩
  else if pos then ⟨.inf false, 0⟩
  else if neg then ⟨.inf true, 0⟩
  else
    let r := groupFinite ps
    ⟨r.out.scale ((sa : Int) - 127 + ((sb : Int) - 127)), r.fl⟩

/-! ## Accumulation -/

/-- Accumulator kinds (R192). -/
def kindEmpty : Nat := 0
def kindFp32 : Nat := 1
def kindInt32 : Nat := 2
def kindFp64 : Nat := 3

/-- An FP32 accumulator takes a group (R171). -/
def accFp32 (acc : Word) (s : Res Val) : Res Word :=
  let r := round32 ((val32 acc).add s.out)
  ⟨BitVec.ofNat 32 r.out, r.fl ||| s.fl⟩

/-- The integer a dyadic value is; the products of integer formats are integers. -/
def Val.toInt : Val → Int
  | .num neg m e => rneInt neg m e
  | _ => 0

/-- An INT32 accumulator takes a group; one that saturates differs from the exact sum (R172, Table NUM-5). -/
def accInt32 (acc : Word) (s : Res Val) : Res Word :=
  let r := clampInt intMin32 intMax32 (acc.toInt + s.out.toInt)
  ⟨BitVec.ofInt 32 r.1, flagIf r.2 (flOF ||| flNX) ||| s.fl⟩

/-- Apply groups 0 to n − 1 in ascending K (R170). -/
def accGroups (kind : Nat) (group : Nat → Res Val) (n : Nat) (acc : Res Word) : Res Word :=
  (List.range n).foldl (fun a g =>
    let r := if kind = kindInt32 then accInt32 a.out (group g) else accFp32 a.out (group g)
    ⟨r.out, a.fl ||| r.fl⟩) acc

/-- K and G of an operand pair (Table DOT-1). -/
def pairK (fa fb : Nat) : Nat :=
  let w := max (fmtBits fa) (fmtBits fb)
  if w = 4 then 256 else if w = 8 then 128 else 64

def pairG (fa fb : Nat) : Nat := if max (fmtBits fa) (fmtBits fb) ≤ 8 then 32 else 16

/-- Elements `i` to `i + n - 1` of a cell's row or column of operand values. -/
def sliceVals (f : Nat → Val) (i n : Nat) : List Val := (List.range n).map (fun k => f (i + k))

/-- The MTILE body of a cell: `a`, `b` give operand values by K index, `sa`, `sb` scale bytes by block (R163 to R172). -/
def mtileCell (fa fb kind : Nat) (a b : Nat → Val) (sa sb : Nat → Nat) (acc : Word) : Res Word :=
  let g := pairG fa fb
  accGroups kind (fun i => groupSum (sliceVals a (i * g) g) (sliceVals b (i * g) g) (sa (i * g / 32)) (sb (i * g / 32)))
    (pairK fa fb / g) ⟨acc, 0⟩

/-! ## Split precision (R175, R176) -/

/-- The BF16 piece of an exact value; a finite overflow stays finite. -/
def splitPiece (v : Val) : Val :=
  match v with
  | .num neg _ _ =>
    let r := fmtBF16.roundTo v
    if r.fl &&& flOF ≠ 0 then fmtBF16.decode (fmtBF16.signBit neg + fmtBF16.maxBits) else fmtBF16.decode r.out
  | v => v

/-- hi, lo and lo2 of an operand. A signalling NaN raises NV where it is split. -/
def splitVal (x : Val) : Val × Val × Val :=
  match x with
  | .num _ _ _ =>
    let hi := splitPiece x
    let lo := splitPiece (x.sub hi)
    (hi, lo, splitPiece ((x.sub hi).sub lo))
  | .nan _ => (.nan false, .zero false, .zero false)
  | .inf n => (.inf n, .zero false, .zero false)

/-- A piece by number: 0 hi, 1 lo, 2 lo2. -/
def splitPart (x : Val) (k : Nat) : Val :=
  let s := splitVal x
  if k = 0 then s.1 else if k = 1 then s.2.1 else s.2.2

/-- Table DOT-2: the pieces of A and B in each pass. -/
def splitPasses (s3 : Bool) : List (Nat × Nat) :=
  if s3 then [(2, 0), (1, 1), (0, 2), (1, 0), (0, 1), (0, 0)] else [(1, 0), (0, 1), (0, 0)]

/-- The body of MTILE.S2 and MTILE.S3 for a cell. -/
def splitCell (s3 : Bool) (a b : Nat → Val) (acc : Word) : Res Word :=
  let nv := (sliceVals a 0 64).any Val.nv || (sliceVals b 0 64).any Val.nv
  (splitPasses s3).foldl (fun r p =>
    accGroups kindFp32 (fun i => groupSum ((sliceVals a (i * 16) 16).map (fun x => splitPart x p.1))
      ((sliceVals b (i * 16) 16).map (fun x => splitPart x p.2)) 0x7F 0x7F) 4 r) ⟨acc, flagIf nv flNV⟩

/-! ## Binary64 (R177) -/

/-- The DTILE body of a cell. -/
def dtileCell (a b : Nat → Val) (acc : DWord) : Res DWord :=
  (List.range 128).foldl (fun r k =>
    let x := fmtFP64.roundTo (((a k).mul (b k)).add (val64 r.out))
    ⟨BitVec.ofNat 64 x.out, r.fl ||| x.fl⟩) ⟨acc, 0⟩

/-! ## The drain (R174) -/

/-- A cell drained: coarse scales, bias if there is one, destination format. -/
def drainCell (f : Nat) (sgn : Bool) (ca cb : Val) (bias : Option Val) (acc : Val) : Res Nat :=
  let v := (ca.mul cb).mul acc
  elemStore f sgn (match bias with | none => v | some b => v.add b)

end Sys2Proof.Machine
end

