-- ==== Sys2Proof/Machine/Bundle.lean ====
section
/-!
DEFINITION. The bundle (10 R224 to R226, Table WRN-1; 08 Tables ARR-1, ARR-3, ARR-4; 09 Table VEC-1): the fields of its
four slots, when a slot is invalid, and what it reads.
-/

namespace Sys2Proof.Machine

/-! ## Scalar and move slots (Tables WRN-2, WRN-3) -/

def slOp (w : Nat) : Nat := w % 64
def slRd (w : Nat) : Nat := bits w 10 5
def slRa (w : Nat) : Nat := bits w 15 5
def slRb (w : Nat) : Nat := bits w 20 5
def slPd (w : Nat) : Nat := bits w 10 3
def slPa (w : Nat) : Nat := bits w 15 3
def slPb (w : Nat) : Nat := bits w 20 3
def slSize (w : Nat) : Nat := 2 ^ bits w 20 2

def opNLD : Nat := 1
def opNST : Nat := 2
def opTSIG : Nat := 3
def opDSIG : Nat := 6
def opIFILL : Nat := 7

/-- Bits that the operation of a scalar slot uses; none for an operation outside Table WRN-2. -/
def scalarUsed (op : Nat) : Option Nat :=
  if op = 0 ∨ op = 0x21 then some 0x3FF
  else if 1 ≤ op ∧ op ≤ 9 then some 0x01FFFFFF
  else if op = 0x0A then some 0xFFFFFFFF
  else if op = 0x0B then some 0xFFF07FFF
  else if 0x10 ≤ op ∧ op ≤ 0x12 then some 0x01FF9FFF
  else if op = 0x13 ∨ op = 0x14 then some 0x00739FFF
  else if op = 0x15 then some 0x00039FFF
  else if op = 0x20 then some 0x001FFFFF
  else none

/-- The same of a move slot (Table WRN-3). -/
def moveUsed (op : Nat) : Option Nat :=
  if op = 0 then some 0x3FF
  else if op = 1 ∨ op = 3 ∨ op = 6 then some 0xFFFFFFFF
  else if op = 2 then some 0xFFBFFFFF
  else if op = 4 ∨ op = 5 then some 0xFFF0FFFF
  else if op = 7 then some 0x3FFFFFFF
  else none

def usedFault (used : Option Nat) (w : Nat) : Bool :=
  match used with
  | none => true
  | some u => decide (w &&& u ≠ w)

/-- R226 for the scalar slot. -/
def scalarInvalid (w : Nat) : Bool := usedFault (scalarUsed (slOp w)) w

/-- R226 for the move slot. -/
def moveInvalid (w : Nat) : Bool :=
  usedFault (moveUsed (slOp w)) w
    || (decide (slOp w = opIFILL)
      && (decide (bits w 20 10 % 16 ≠ 0) || decide (1024 < bits w 20 10 + 16 * (bits w 10 5 + 1))))

/-! ## Tensor slot (Table ARR-1) -/

def tsOp (w : Nat) : Nat := w % 16
def tsFa (w : Nat) : Nat := bits w 4 4
def tsFb (w : Nat) : Nat := bits w 8 4
def tsAcc (w : Nat) : Nat := bits w 14 1
def tsInit (w : Nat) : Bool := bit w 15
def tsDrain (w : Nat) : Bool := bit w 16
def tsXa (w : Nat) : Nat := bits w 17 5
def tsXb (w : Nat) : Nat := bits w 22 5
def tsXd (w : Nat) : Nat := bits w 27 5

def opDTILE : Nat := 4

/-- Fields of a feed descriptor (Table ARR-3). -/
def fdHandle (d : DWord) : Nat := bits d.toNat 0 6
def fdOff (d : DWord) : Nat := bits d.toNat 8 30
def fdScaled (d : DWord) : Bool := bit d.toNat 38
def fdScale (d : DWord) : Nat := 256 * bits d.toNat 39 22

/-- Fields of x[XD] of a drain descriptor (Table ARR-4). -/
def ddDest (d : DWord) : Bool := bit d.toNat 6
def ddBias (d : DWord) : Bool := bit d.toNat 7
def ddFmt (d : DWord) : Nat := bits d.toNat 38 4
def ddSigned (d : DWord) : Bool := bit d.toNat 42
def ddVreg (d : DWord) : Nat := bits d.toNat 43 5

/-- A format may be an operand of the operation (Table ARR-2). -/
def operandOk (op f : Nat) : Bool :=
  if op = 1 then decide (f ≤ fFP16) else if op = opDTILE then decide (f = fFP64) else decide (f = fFP32)

/-- Kind of an instruction's accumulator (R164, R192). -/
def tensorKind (op fa fb : Nat) (scaled : Bool) : Nat :=
  if op = opDTILE then kindFp64
  else if op = 1 && decide (fa ≤ fInt8) && decide (fb ≤ fInt8) && !scaled then kindInt32
  else kindFp32

/-- The set it names: 0 and 1 of the array, 2 and 3 of the long corner. -/
def tensorSet (op acc : Nat) : Nat := if op = opDTILE then 2 + acc else acc

/-- R184, with the x registers the bundle reads and the kinds of the sets. -/
def tensorInvalid (w : Nat) (x : Nat → DWord) (kind : Nat → Nat) : Bool :=
  let op := tsOp w
  if op = 0 then false
  else if 4 < op then true
  else
    let da := x (tsXa w)
    let db := x (tsXb w)
    let k := kind (tensorSet op (tsAcc w))
    !operandOk op (tsFa w) || !operandOk op (tsFb w)
      || (fdScaled da && !fmtScalable (tsFa w)) || (fdScaled db && !fmtScalable (tsFb w))
      || (tsInit w && decide (k ≠ kindEmpty)
          && decide (k ≠ tensorKind op (tsFa w) (tsFb w) (fdScaled da || fdScaled db)))
      || (tsDrain w && (decide (29 < tsXd w)
          || (let d := x (tsXd w)
              decide (ddFmt d = fInt4) || decide (fInt32 < ddFmt d)
                || (ddDest d && (decide (op = opDTILE) || (decide (ddFmt d ≠ fFP32) && decide (ddFmt d ≠ fInt32))
                  || decide (ddVreg d % 4 ≠ 0))))))

/-! ## Vector slot (Table VEC-1) -/

def vsOp (w : Nat) : Nat := w % 64
def vsVd (w : Nat) : Nat := bits w 6 5
def vsVa (w : Nat) : Nat := bits w 11 5
def vsVb (w : Nat) : Nat := bits w 16 5
def vsVc (w : Nat) : Nat := bits w 21 5
def vsMk (w : Nat) : Nat := bits w 26 3
def vsMen (w : Nat) : Bool := bit w 29
def vsMz (w : Nat) : Bool := bit w 30
def vsD (w : Nat) : Bool := bit w 31

/-- Opcodes of Table VEC-2. -/
def vectorKnown (op : Nat) : Bool :=
  decide (op ≤ 0x1B) || (decide (0x20 ≤ op) && decide (op ≤ 0x23)) || (decide (0x28 ≤ op) && decide (op ≤ 0x31))
    || (decide (0x38 ≤ op) && decide (op ≤ 0x3C))

/-- Operations that D = 1 is allowed on (R203). -/
def vectorPairs (op : Nat) : Bool := (decide (1 ≤ op) && decide (op ≤ 0x0A))

/-- Memory operations of the vector slot. -/
def vectorMem (op : Nat) : Bool := decide (0x38 ≤ op)

/-- Tile registers that hold binary64 operands, by their first register. -/
def vectorFp64 (w : Nat) : List Nat :=
  let op := vsOp w
  if vsD w then
    if op = 4 then [vsVd w, vsVa w, vsVb w, vsVc w]
    else if op = 7 ∨ op = 8 then [vsVd w, vsVa w]
    else if op = 9 then [vsVa w, vsVb w]
    else [vsVd w, vsVa w, vsVb w]
  else if op = 0x15 then
    (if vsVc w % 16 = fFP64 then [vsVd w] else []) ++ (if vsVb w % 16 = fFP64 then [vsVa w] else [])
  else if op = 0x38 then (if vsVc w % 16 = fFP64 then [vsVd w] else [])
  else if op = 0x39 then (if vsVc w % 16 = fFP64 then [vsVb w] else [])
  else []

/-- R203. -/
def vectorInvalid (w : Nat) (x : Nat → DWord) : Bool :=
  let op := vsOp w
  !vectorKnown op
    || (decide (op = 0x15) && (decide (fInt32 < vsVb w % 16) || decide (fInt32 < vsVc w % 16)))
    || ((decide (op = 0x38) || decide (op = 0x39)) && (decide (fInt32 < vsVc w % 16)
        || (fdScaled (x (vsVa w)) && !fmtScalable (vsVc w % 16))))
    || (vsD w && !vectorPairs op)
    || (vectorFp64 w).any (fun r => decide (r % 2 = 1))
    || (vsMen w && (decide (op = 0x39) || decide (op = 0x3A) || decide (op = 0x3C)))
    || (!vsMen w && (decide (op = 0x30) || decide (op = 0x31)))
    || (decide (op = 9) && decide (vsVc w % 8 = 7))

/-- Binary64 work: D = 1, or FP64 named by VCVT, VLD or VST (R203). -/
def vectorWide (w : Nat) : Bool :=
  let op := vsOp w
  vsD w || (decide (op = 0x15) && (decide (vsVb w % 16 = fFP64) || decide (vsVc w % 16 = fFP64)))
    || ((decide (op = 0x38) || decide (op = 0x39)) && decide (vsVc w % 16 = fFP64))

/-- Registers of the vector slot that an instruction reads or writes: tile registers (0 to 31), masks (32 to 39) and
tables (40 to 43). -/
def vectorRegs (w : Nat) : List Nat :=
  let op := vsOp w
  let p := fun (r : Nat) (wide : Bool) => if wide then [r, r + 1] else [r]
  let d := vsD w
  let vd := p (vsVd w) d
  let va := p (vsVa w) d
  let vb := p (vsVb w) d
  let md := [32 + vsVd w % 8]
  let base :=
    if op = 0 then []
    else if op = 4 then vd ++ va ++ vb ++ p (vsVc w) d
    else if op = 7 ∨ op = 8 ∨ op = 0x0E ∨ op = 0x16 then vd ++ va
    else if op = 9 then md ++ va ++ vb
    else if op = 0x0A then vd ++ va ++ vb ++ [32 + vsVc w % 8]
    else if op = 0x15 then p (vsVd w) (decide (vsVc w % 16 = fFP64)) ++ p (vsVa w) (decide (vsVb w % 16 = fFP64))
    else if op = 0x17 then vd
    else if 0x18 ≤ op ∧ op ≤ 0x1A then md ++ [32 + vsVa w % 8, 32 + vsVb w % 8]
    else if op = 0x1B then md ++ [32 + vsVa w % 8]
    else if op ≤ 0x14 then vd ++ va ++ vb
    else if op = 0x20 then vd ++ va ++ [40 + vsVb w % 4]
    else if op ≤ 0x2F then vd ++ va
    else if op = 0x30 then vd ++ va ++ [vsVc w]
    else if op = 0x31 then vd ++ va
    else if op = 0x38 then p (vsVd w) (decide (vsVc w % 16 = fFP64))
    else if op = 0x39 then p (vsVb w) (decide (vsVc w % 16 = fFP64))
    else if op = 0x3A then [40 + vsVd w % 4]
    else md
  base ++ (if vsMen w && decide (op ≠ 0) then [32 + vsMk w] else [])

/-! ## The bundle of a tile -/

/-- The bundle that the tile issues next; all zero past the end of the buffer. -/
def Wren.bundle (w : Wren) : Nat := if w.pc < 1024 then (spGet 0 w.ibuf w.pc).toNat else 0

def Wren.scalar (w : Wren) : Nat := bits w.bundle 0 32
def Wren.move (w : Wren) : Nat := bits w.bundle 32 32
def Wren.tensor (w : Wren) : Nat := bits w.bundle 64 32
def Wren.vector (w : Wren) : Nat := bits w.bundle 96 32

/-- x registers (R224): x0 reads zero and ignores writes. -/
def readX (x : Sparse DWord) (r : Nat) : DWord := if r = 0 then 0 else spGet 0 x r

def Wren.setX (w : Wren) (r : Nat) (v : DWord) (mark : Bool) : Wren :=
  if r = 0 then w else { w with x := spSet 0 w.x r v, xMark := spSet false w.xMark r mark }

def Wren.marked (w : Wren) (r : Nat) : Bool := decide (r ≠ 0) && spGet false w.xMark r

/-- p0 reads 1 and ignores writes (R224). -/
def readP (p : BitVec 8) (n : Nat) : Bool := decide (n = 0) || bit p.toNat n

def Wren.setP (w : Wren) (n : Nat) (v : Bool) : Wren := if n = 0 then w else { w with p := setBit w.p n v }

/-- The guard of a scalar or move slot holds (R225). -/
def guardOf (p : BitVec 8) (w : Nat) : Bool := readP p (bits w 6 3) != bit w 9

/-- x registers that the scalar slot reads or writes. -/
def scalarRegs (w : Nat) : List Nat :=
  let op := slOp w
  if 1 ≤ op ∧ op ≤ 9 then [slRd w, slRa w, slRb w]
  else if op = 0x0A then [slRd w, slRa w]
  else if op = 0x0B then [slRd w]
  else if 0x10 ≤ op ∧ op ≤ 0x12 then [slRa w, slRb w]
  else []

/-- x registers that the move slot reads or writes. -/
def moveRegs (w : Nat) : List Nat :=
  let op := slOp w
  if op = opNLD ∨ op = opNST then [slRd w, slRa w] else if op = opIFILL then [slRa w] else []

/-- x registers that the tensor slot reads: descriptors. -/
def tensorRegs (w : Nat) : List Nat :=
  if tsOp w = 0 then []
  else [tsXa w, tsXb w] ++ (if tsDrain w then [tsXd w, tsXd w + 1, tsXd w + 2].filter (fun r => decide (r < 32)) else [])

/-- The x register that the vector slot reads. -/
def vectorXRegs (w : Nat) : List Nat := if vsOp w = 0x17 ∨ vectorMem (vsOp w) then [vsVa w] else []

/-- x registers that the bundle reads or writes. -/
def Wren.bundleRegs (w : Wren) : List Nat :=
  (if guardOf w.p w.scalar then scalarRegs w.scalar else [])
    ++ (if guardOf w.p w.move then moveRegs w.move else [])
    ++ tensorRegs w.tensor ++ vectorXRegs w.vector

end Sys2Proof.Machine
end

