-- ==== Sys2Proof/Machine/Issue.lean ====
section
/-!
DEFINITION. How a bundle issues (10 R225, R228 to R231, R235 to R240, R246, R248, R562; 08 R180, R190; 09 R204, R211): what
it waits for, what halts it, and the issue of its slots, each by a command of its own.
-/

namespace Sys2Proof.Machine

/-! ## Accesses of a tile -/

/-- Wave in which an access of a tile that is presented now arrives at its tract: a wave a hop (R87). -/
def State.arrival (s : State) (t addr : Nat) : Nat := s.time.wave + s.fuse.hops t (tractTile (addrTract addr))

/-- Present an access of a tile to the Cistern. -/
def State.post (s : State) (t : Nat) (who : Requester) (ctx h addr : Nat) (kind : AccessKind) : State :=
  { s with
    nextId := s.nextId + 1
    cis := { s.cis with reqs := s.cis.reqs ++ [
      { id := s.nextId, tile := Fin.ofNat 16 t, who := who, addr := addr, kind := kind, ctx := ctx, handle := h,
        label := (s.act.desc ctx h).label, arrive := s.arrival t addr }] } }

/-- Present accesses to the lines of a handle from line offset `o` on, `kind` giving each one's kind. -/
def State.postLines (s : State) (t : Nat) (who : Requester) (ctx h o : Nat) (kind : Nat → AccessKind) (n : Nat) : State :=
  (List.range n).foldl (fun s i => s.post t who ctx h (s.phys ctx h (o + 256 * i)) (kind i)) s

/-- The numbers of the next `n` accesses. -/
def State.nextIds (s : State) (n : Nat) : List Nat := (List.range n).map (fun i => s.nextId + i)

/-- The operand lines that the next `n` read accesses bring. -/
def State.nextLines (s : State) (part : OpPart) (n : Nat) : List OpLine :=
  (List.range n).map (fun i => { id := s.nextId + i, part := part, idx := i, data := [], marks := [], arrived := false })

/-- A range that a slot reads or writes (R190, R211). -/
structure Span where
  handle : Nat
  off : Nat
  bytes : Nat
  write : Bool
  deriving DecidableEq, Repr

def State.checkSpan (s : State) (ctx : Nat) (r : Span) : Option CheckFail :=
  s.check ctx r.handle (if r.write then .ww else .wr) (r.off : Int) r.bytes 256

/-- Bytes in whole lines. -/
def lineUp (n : Nat) : Nat := (n + 255) / 256 * 256

/-! ## Halts -/

/-- A tile halts before its bundle `pc` (R246). Every tile semaphore of the tiles that run the program becomes
0xFFFF_FFFF. -/
def State.halt (s : State) (t : Nat) (st : Half) (reason : Byte) : State :=
  let w := (s.tile t).wren
  let full := fun (w : Wren) => { w with tsem := spSetRange 0 w.tsem 0 64 (fun _ => 0xFFFFFFFF) }
  let s := s.setWren t (fun w =>
    { w with halted := true, haltStatus := st, haltPc := w.pc, haltReason := reason, held := none, wait := none,
             kill := none })
  match w.prog with
  | none => s
  | some p => (List.range 16).foldl (fun s u =>
      if bit p.tiles.toNat u && (match (s.tile u).wren.prog with | some q => decide (q.slot = p.slot) | none => true)
      then s.setWren u full else s) s

/-- The signed address of NLD, NST and IFILL (R227). -/
def moveAddr (m : Nat) (x : DWord) : Int :=
  (fdOff x : Int) + (if slOp m = opIFILL then 0 else signed (bits m 23 9) 9)

/-- Stage 3 of R562 for the move slot. -/
def State.moveHalt (s : State) (t : Nat) (p : Prog) : Option CheckFail :=
  let w := (s.tile t).wren
  let m := w.move
  let op := slOp m
  if !guardOf w.p m then none
  else if op = opNLD ∨ op = opNST ∨ op = opIFILL then
    if w.marked (slRa m) then some ⟨stPoison, 0⟩
    else
      let x := readX w.x (slRa m)
      let a := moveAddr m x
      if op = opIFILL then (s.check p.ctx (fdHandle x) .wr a (256 * (bits m 10 5 + 1)) 256)
      else
        match s.check p.ctx (fdHandle x) (if op = opNLD then .nr else .nw) a (slSize m) (slSize m) with
        | some f => some f
        | none =>
          if op = opNST && decide (tractTile (addrTract (s.phys p.ctx (fdHandle x) a.toNat)) ≠ t) then some ⟨stPermission, 0⟩
          else none
  else if op = opTSIG then (if bit p.tiles.toNat (bits m 16 4) then none else some ⟨stBounds, 0⟩)
  else if op = opDSIG then (if (s.act.range p.ctx).hasSem (bits m 10 8) then none else some ⟨stPermission, 0⟩)
  else none

/-- The spans of a valid tensor slot, in the order of R190. -/
def tensorSpans (w : Nat) (x : Nat → DWord) : List Span :=
  let op := tsOp w
  let da := x (tsXa w)
  let db := x (tsXb w)
  let n := if op = opDTILE then 16 else 128
  let k := if op = opDTILE then 128 else pairK (tsFa w) (tsFb w)
  let blk := fun (d : DWord) (f : Nat) => Span.mk (fdHandle d) (fdOff d) (elemBytes f (n * k)) false
  let scl := fun (d : DWord) => if fdScaled d then [Span.mk (fdHandle d) (fdScale d) (n * k / 32) false] else []
  [blk da (tsFa w), blk db (tsFb w)] ++ scl da ++ scl db
    ++ (if tsDrain w then
          let d := x (tsXd w)
          let b := x (tsXd w + 2)
          (if ddDest d then [] else [Span.mk (fdHandle d) (fdOff d) (elemBytes (ddFmt d) (n * n)) true])
            ++ (if ddBias d then [Span.mk (fdHandle b) (fdOff b) (lineUp (4 * n)) false] else [])
        else [])

/-- Stage 3 for the tensor slot. -/
def State.tensorHalt (s : State) (t : Nat) (p : Prog) : Option CheckFail :=
  let w := (s.tile t).wren
  if tsOp w.tensor = 0 then none
  else if (tensorRegs w.tensor).any w.marked then some ⟨stPoison, 0⟩
  else (firstFail ((tensorSpans w.tensor (readX w.x)).map (s.checkSpan p.ctx)))

/-- The spans of a memory operation of the vector slot (R210, R211, R214). -/
def vectorSpans (w : Nat) (x : Nat → DWord) : List Span :=
  let op := vsOp w
  let d := x (vsVa w)
  let blk := fun (n : Nat) => [Span.mk (fdHandle d) (fdOff d) n (decide (op = 0x39) || decide (op = 0x3C))]
  if op = 0x38 ∨ op = 0x39 then
    blk (elemBytes (vsVc w % 16) 4096) ++ (if fdScaled d then [Span.mk (fdHandle d) (fdScale d) 128 (decide (op = 0x39))] else [])
  else if op = 0x3A then blk 1280
  else if op = 0x3B ∨ op = 0x3C then blk 512
  else []

/-- Stage 3 for the vector slot. -/
def State.vectorHalt (s : State) (t : Nat) (p : Prog) : Option CheckFail :=
  let w := (s.tile t).wren
  if !vectorMem (vsOp w.vector) then none
  else if w.marked (vsVa w.vector) then some ⟨stPoison, 0⟩
  else (firstFail ((vectorSpans w.vector (readX w.x)).map (s.checkSpan p.ctx)))

/-- What halts the tile before its next bundle, by the stages of R562: a status and, for a failed check, its order. -/
def State.bundleHalt (s : State) (t : Nat) (p : Prog) : Option CheckFail :=
  let w := (s.tile t).wren
  let a := (s.tile t).arr
  if 1024 ≤ w.pc then some ⟨stBounds, 0⟩
  else if !s.fuse.fp64 && (decide (tsOp w.tensor = opDTILE) || vectorWide w.vector) then some ⟨stRefuseVariant, 0⟩
  else if scalarInvalid w.scalar || moveInvalid w.move || tensorInvalid w.tensor (readX w.x) (spGet kindEmpty a.kind)
      || vectorInvalid w.vector (readX w.x) then some ⟨stBadOpcode, 0⟩
  else if spGet stOK w.ibMark w.pc ≠ stOK then some ⟨spGet stOK w.ibMark w.pc, 0⟩
  else match s.moveHalt t p with
    | some f => some f
    | none => match s.tensorHalt t p with
      | some f => some f
      | none => s.vectorHalt t p

/-! ## Waits -/

/-- A register of a bundle has a narrow load in flight (R54, R225). -/
def Wren.regsBusy (w : Wren) : Bool := w.loads.any (fun l => decide (l.rd ≠ 0) && w.bundleRegs.contains l.rd)

/-- Tile registers that the drains of issued instructions will still write (R194). -/
def Arr.drainRegs (a : Arr) : List Nat :=
  let of := fun (v : Nat) => (List.range 4).map (fun k => v + k)
  let ins := fun (i : Option ArrInstr) => match i with
    | some i => if i.drain && ddDest i.xd0 then of (ddVreg i.xd0) else []
    | none => []
  ins a.run ++ ins a.pend ++ a.drains.flatMap (fun d => match d.vreg with | some v => of v | none => [])

/-- Registers that a vector load in flight fills, numbered as `vectorRegs` numbers them. -/
def VecLoad.regs (l : VecLoad) : List Nat :=
  match l.dest with
  | .reg vd => if l.fmt = fFP64 then [vd, vd + 1] else [vd]
  | .mask md => [32 + md]
  | .table td => [40 + td]

/-- The vector slot waits: the engine issues rows, or a register it needs has a write in flight (R204). -/
def Tile.vectorWaits (t : Tile) : Bool :=
  let w := t.wren.vector
  decide (vsOp w ≠ 0)
    && (t.vec.busy || (vectorRegs w).any (fun r => t.arr.drainRegs.contains r || t.vec.loads.any (fun l => l.regs.contains r)))

/-- An NST of the bundle waits: the store buffer is full, or it holds an entry of the same bank (R230). -/
def State.storeWaits (s : State) (t : Nat) (p : Prog) : Bool :=
  let w := (s.tile t).wren
  let x := readX w.x (slRa w.move)
  let a := s.phys p.ctx (fdHandle x) (moveAddr w.move x).toNat
  decide (slOp w.move = opNST) && guardOf w.p w.move
    && (decide (8 ≤ w.stores.length)
      || w.stores.any (fun e => decide (addrTract e.addr = addrTract a) && decide (addrBank e.addr = addrBank a)))

/-- The narrow load of a move slot, for the x registers it reads (R227). -/
def State.loadOf (s : State) (p : Prog) (m : Nat) (regs : Sparse DWord) : NarrowLoad :=
  let x := readX regs (slRa m)
  { id := 0, rd := slRd m, addr := s.phys p.ctx (fdHandle x) (moveAddr m x).toNat, size := slSize m, sx := bit m 22,
    handle := fdHandle x, label := (s.act.desc p.ctx (fdHandle x)).label }

/-- The narrow load of the bundle, whose guard holds. -/
def State.bundleLoad (s : State) (t : Nat) (p : Prog) : Option NarrowLoad :=
  let w := (s.tile t).wren
  if slOp w.move = opNLD && guardOf w.p w.move then some (s.loadOf p w.move w.x) else none

/-- The entry a load is forwarded from: it lies wholly inside the youngest entry, which alone overlaps it (R231). -/
def Wren.forward (w : Wren) (l : NarrowLoad) : Option StoreEntry :=
  match w.stores.getLast?, w.overlaps l with
  | some e, [o] =>
    if o.id = e.id ∧ e.addr ≤ l.addr ∧ l.addr + l.size ≤ e.addr + e.bytes.length then some e else none
  | _, _ => none

/-- The load overlaps an entry and cannot be forwarded: it is held (R231). -/
def Wren.holdsLoad (w : Wren) (l : NarrowLoad) : Bool := !(w.overlaps l).isEmpty && (w.forward l).isNone

/-! ## Issue -/

/-- The tile runs a program whose next bundle may be looked at: no stop, no wait, no signal held (R236 to R239,
R248). A program that is to end under R246 halts although it waits: a halt issues no bundle. -/
def State.mayIssue (s : State) (t : Nat) : Bool :=
  let w := (s.tile t).wren
  !s.silent && w.prog.isSome && !w.halted && !w.ended && w.sig.isNone
    && (w.kill.isSome || (!s.stopped && w.wait.isNone))

/-- What the next bundle comes to. -/
inductive BundleFate where
  | waits
  | halts (f : CheckFail)
  | holdsLoad (l : NarrowLoad)
  | issues
  deriving DecidableEq, Repr

def State.fate (s : State) (t : Nat) : BundleFate :=
  let x := s.tile t
  let w := x.wren
  match w.prog with
  | none => .waits
  | some p =>
    match w.kill with
    | some st => .halts ⟨st, 0⟩
    | none =>
      if bit s.pmh.tileHold.toNat t || w.fills.any (fun f => decide (w.pc / 16 = f.dest / 16)) || w.regsBusy then .waits
      else
        match s.bundleHalt t p with
        | some f => .halts f
        | none =>
          if (decide (tsOp w.tensor ≠ 0) && x.arr.pend.isSome) || x.vectorWaits || s.storeWaits t p then .waits
          else
            match s.bundleLoad t p with
            | some l => if w.holdsLoad l then .holdsLoad l else .issues
            | none => .issues

/-- The registers as the bundle reads them (R225). -/
def Wren.snap (w : Wren) : Wren := { w with snapX := w.x, snapMark := w.xMark, snapP := w.p }

/-- After its fourth slot the bundle has issued and the Wren goes on to the next one. -/
def Wren.slotIssued (w : Wren) (k : Nat) : Wren :=
  let i := setBit w.issued k true
  if i = 0xF then
    { w with issued := 0, pc := w.target.getD (w.pc + 1), target := none, bundles := w.bundles + 1 }
  else { w with issued := i }

/-- Issue slot `k` of tile `t` (0 scalar, 1 move, 2 tensor, 3 vector), whose word `row` names, with effect `act` on the
state. The first slot of a bundle halts or holds the tile where the bundle may not issue. -/
def State.issueSlot (s : State) (t k : Nat) (row : Nat → Bool) (act : State → Prog → State) : State :=
  let w := (s.tile t).wren
  let word := bits w.bundle (32 * k) 32
  if s.silent || !row word || bit w.issued.toNat k then s
  else
    match w.prog with
    | none => s
    | some p =>
      if w.issued ≠ 0 then (act s p).setWren t (fun w => w.slotIssued k)
      else if !s.mayIssue t || (w.held.isSome && w.kill.isNone) then s
      else
        match s.fate t with
        | .waits => s
        | .halts f => s.halt t f.status f.order
        | .holdsLoad l => s.setWren t (fun w => { w with held := some l, heldAt := s.time.wave, loadHolds := w.loadHolds + 1 })
        | .issues => (act (s.setWren t Wren.snap) p).setWren t (fun w => w.slotIssued k)

end Sys2Proof.Machine
end

