-- ==== Sys2Proof/Machine/Wren.lean ====
section
/-!
DEFINITION. The Wren's scalar and move slots (10 R224 to R240, Tables WRN-2 and WRN-3) and the events that end its waits.
-/

namespace Sys2Proof.Machine

/-! ## Scalar slot -/

/-- Issue the scalar slot of operation `op`; `f` is its effect where the guard holds, given the slot's word. -/
def State.scalarSlot (s : State) (t op : Nat) (f : Nat → Wren → Wren) : State :=
  s.issueSlot t 0 (fun w => decide (slOp w = op)) (fun s _ =>
    s.setWren t (fun w => if guardOf w.snapP w.scalar then f w.scalar w else w))

/-- A mark of the registers as the bundle reads them. -/
def Wren.snapMarked (w : Wren) (r : Nat) : Bool := decide (r ≠ 0) && spGet false w.snapMark r

/-- x[RD] = x[RA] op x[RB]; a mark of a source marks the result (R229). -/
def State.aluSlot (s : State) (t op : Nat) (f : DWord → DWord → DWord) : State :=
  s.scalarSlot t op (fun x w => w.setX (slRd x) (f (readX w.snapX (slRa x)) (readX w.snapX (slRb x)))
    (w.snapMarked (slRa x) || w.snapMarked (slRb x)))

/-- p[PD] = a comparison of x[RA] and x[RB]; predicates carry no mark (R229). -/
def State.cmpSlot (s : State) (t op : Nat) (f : DWord → DWord → Bool) : State :=
  s.scalarSlot t op (fun x w => w.setP (slPd x) (f (readX w.snapX (slRa x)) (readX w.snapX (slRb x))))

/-- p[PD] = logic of p[PA] and p[PB]. -/
def State.predSlot (s : State) (t op : Nat) (f : Bool → Bool → Bool) : State :=
  s.scalarSlot t op (fun x w => w.setP (slPd x) (f (readP w.snapP (slPa x)) (readP w.snapP (slPb x))))

/-- A scalar NOP, and any operation outside Table WRN-2, whose bundle halts (R226). -/
def scalarNopSlot (t : Nat) (s : State) : State :=
  s.issueSlot t 0 (fun w => decide (slOp w = 0) || (scalarUsed (slOp w)).isNone) (fun s _ => s)

/-- NOP of the scalar slot (R225). -/
def execScalarNop (t : Fin 16) (s : State) : Host.Outcome State Fault Refusal := .next (scalarNopSlot t.val s)

def addSlot (t : Nat) (s : State) : State := s.aluSlot t 1 (fun a b => a + b)

/-- ADD (R224). -/
def execAdd (t : Fin 16) (s : State) : Host.Outcome State Fault Refusal := .next (addSlot t.val s)

def subSlot (t : Nat) (s : State) : State := s.aluSlot t 2 (fun a b => a - b)

/-- SUB (R224). -/
def execSub (t : Fin 16) (s : State) : Host.Outcome State Fault Refusal := .next (subSlot t.val s)

def mulSlot (t : Nat) (s : State) : State := s.aluSlot t 3 (fun a b => a * b)

/-- MUL (R224). -/
def execMul (t : Fin 16) (s : State) : Host.Outcome State Fault Refusal := .next (mulSlot t.val s)

def opAndSlot (t : Nat) (s : State) : State := s.aluSlot t 4 (fun a b => a &&& b)

/-- AND (R225). -/
def execOpAnd (t : Fin 16) (s : State) : Host.Outcome State Fault Refusal := .next (opAndSlot t.val s)

def opOrSlot (t : Nat) (s : State) : State := s.aluSlot t 5 (fun a b => a ||| b)

/-- OR (R225). -/
def execOpOr (t : Fin 16) (s : State) : Host.Outcome State Fault Refusal := .next (opOrSlot t.val s)

def opXorSlot (t : Nat) (s : State) : State := s.aluSlot t 6 (fun a b => a ^^^ b)

/-- XOR (R225). -/
def execOpXor (t : Fin 16) (s : State) : Host.Outcome State Fault Refusal := .next (opXorSlot t.val s)

def shlSlot (t : Nat) (s : State) : State := s.aluSlot t 7 (fun a b => a <<< (b.toNat % 64))

/-- SHL (R224). -/
def execShl (t : Fin 16) (s : State) : Host.Outcome State Fault Refusal := .next (shlSlot t.val s)

def shrSlot (t : Nat) (s : State) : State := s.aluSlot t 8 (fun a b => a >>> (b.toNat % 64))

/-- SHR (R224). -/
def execShr (t : Fin 16) (s : State) : Host.Outcome State Fault Refusal := .next (shrSlot t.val s)

def sraSlot (t : Nat) (s : State) : State := s.aluSlot t 9 (fun a b => a.sshiftRight (b.toNat % 64))

/-- SRA (R224). -/
def execSra (t : Fin 16) (s : State) : Host.Outcome State Fault Refusal := .next (sraSlot t.val s)

/-- The signed immediate of ADDI. -/
def addiImm (x : Nat) : DWord := BitVec.ofInt 64 (signed (bits x 20 12) 12)

def addiSlot (t : Nat) (s : State) : State :=
  s.scalarSlot t 0x0A (fun x w => w.setX (slRd x) (readX w.snapX (slRa x) + addiImm x) (w.snapMarked (slRa x)))

/-- ADDI (R225). -/
def execAddi (t : Fin 16) (s : State) : Host.Outcome State Fault Refusal := .next (addiSlot t.val s)

def limmSlot (t : Nat) (s : State) : State :=
  s.scalarSlot t 0x0B (fun x w =>
    w.setX (slRd x) ((readX w.snapX (slRd x) <<< 12) ||| BitVec.ofNat 64 (bits x 20 12)) (w.snapMarked (slRd x)))

/-- LIMM (R225). -/
def execLimm (t : Fin 16) (s : State) : Host.Outcome State Fault Refusal := .next (limmSlot t.val s)

def cmpeqSlot (t : Nat) (s : State) : State := s.cmpSlot t 0x10 (fun a b => decide (a = b))

/-- CMPEQ (R225). -/
def execCmpeq (t : Fin 16) (s : State) : Host.Outcome State Fault Refusal := .next (cmpeqSlot t.val s)

def cmpltSlot (t : Nat) (s : State) : State := s.cmpSlot t 0x11 (fun a b => a.slt b)

/-- CMPLT (R225). -/
def execCmplt (t : Fin 16) (s : State) : Host.Outcome State Fault Refusal := .next (cmpltSlot t.val s)

def cmpltuSlot (t : Nat) (s : State) : State := s.cmpSlot t 0x12 (fun a b => a.ult b)

/-- CMPLTU (R225). -/
def execCmpltu (t : Fin 16) (s : State) : Host.Outcome State Fault Refusal := .next (cmpltuSlot t.val s)

def pandSlot (t : Nat) (s : State) : State := s.predSlot t 0x13 (fun a b => a && b)

/-- PAND (R225). -/
def execPand (t : Fin 16) (s : State) : Host.Outcome State Fault Refusal := .next (pandSlot t.val s)

def porSlot (t : Nat) (s : State) : State := s.predSlot t 0x14 (fun a b => a || b)

/-- POR (R225). -/
def execPor (t : Fin 16) (s : State) : Host.Outcome State Fault Refusal := .next (porSlot t.val s)

def pnotSlot (t : Nat) (s : State) : State := s.predSlot t 0x15 (fun a _ => !a)

/-- PNOT (R225). -/
def execPnot (t : Fin 16) (s : State) : Host.Outcome State Fault Refusal := .next (pnotSlot t.val s)

/-- BR: a guard that holds continues at TARGET; a hint that disagrees is counted (R233, Table WRN-7). -/
def brSlot (t : Nat) (s : State) : State :=
  s.issueSlot t 0 (fun w => decide (slOp w = 0x20)) (fun s _ => s.setWren t (fun w =>
    let taken := guardOf w.snapP w.scalar
    { w with target := if taken then some (bits w.scalar 11 10) else none
             mispred := if taken = bit w.scalar 10 then w.mispred else w.mispred + 1 }))

/-- BR (R233). -/
def execBr (t : Fin 16) (s : State) : Host.Outcome State Fault Refusal := .next (brSlot t.val s)

/-- END: no bundle follows (R70). -/
def endSlot (t : Nat) (s : State) : State := s.scalarSlot t 0x21 (fun _ w => { w with ended := true })

/-- END (R70). -/
def execOpEnd (t : Fin 16) (s : State) : Host.Outcome State Fault Refusal := .next (endSlot t.val s)

/-! ## Move slot -/

/-- Issue the move slot of operation `op`; `act` is its effect where the guard holds, given the slot's word. -/
def State.moveSlot (s : State) (t op : Nat) (act : Nat → Prog → State → State) : State :=
  s.issueSlot t 1 (fun w => decide (slOp w = op)) (fun s p =>
    let w := (s.tile t).wren
    if guardOf w.snapP w.move then act w.move p s else s)

/-- An MNOP, and any operation outside Table WRN-3, whose bundle halts (R226). -/
def mnopSlot (t : Nat) (s : State) : State :=
  s.issueSlot t 1 (fun w => decide (slOp w = 0) || (moveUsed (slOp w)).isNone) (fun s _ => s)

/-- MNOP (R225). -/
def execMnop (t : Fin 16) (s : State) : Host.Outcome State Fault Refusal := .next (mnopSlot t.val s)

/-- A loaded value as its x register holds it. -/
def loadValue (size : Nat) (sx : Bool) (bs : List Byte) : DWord :=
  let v := leNat bs
  if sx then BitVec.ofInt 64 (signed v (8 * size)) else BitVec.ofNat 64 v

/-- Data of a narrow load reaches its register; poison gives a marked zero (R229). -/
def Wren.loaded (w : Wren) (l : NarrowLoad) (bs : List Byte) (poison : Bool) : Wren :=
  w.setX l.rd (if poison then 0 else loadValue l.size l.sx bs) poison

/-- NLD: forwarded from the youngest entry, or read from the Cistern (R231). -/
def nldAct (t : Nat) (m : Nat) (p : Prog) (s : State) : State :=
  let w := (s.tile t).wren
  let l := { s.loadOf p m w.snapX with id := s.nextId }
  match w.forward l with
  | some e => s.setWren t (fun w => w.loaded l ((e.bytes.drop (l.addr - e.addr)).take l.size) e.poison)
  | none =>
    (s.post t .wren p.ctx l.handle l.addr (.readNarrow l.size)).setWren t (fun w => { w with loads := w.loads ++ [l] })

def nldSlot (t : Nat) (s : State) : State := s.moveSlot t opNLD (nldAct t)

/-- NLD (R231). -/
def execNld (t : Fin 16) (s : State) : Host.Outcome State Fault Refusal := .next (nldSlot t.val s)

/-- The last overlapping entry of a held load has drained: the load and its bundle issue (R231). -/
def heldLoadIssue (t : Nat) (s : State) : State :=
  let w := (s.tile t).wren
  match w.held with
  | none => s
  | some l =>
    if !s.mayIssue t || w.kill.isSome || !(w.overlaps l).isEmpty then s
    else
      let r := s.setWren t (fun w => { w with held := none })
      match r.fate t with
      | .waits => s
      | .holdsLoad _ => s
      | _ => r.moveSlot t opNLD (nldAct t)

/-- HELD_LOAD_ISSUE (R231). -/
def execHeldLoadIssue (t : Fin 16) (s : State) : Host.Outcome State Fault Refusal := .next (heldLoadIssue t.val s)

/-- NST enters the store buffer and is presented to its bank; a marked register writes poison (R229, R230). -/
def nstAct (t : Nat) (m : Nat) (p : Prog) (s : State) : State :=
  let w := (s.tile t).wren
  let x := readX w.snapX (slRa m)
  let a := s.phys p.ctx (fdHandle x) (moveAddr m x).toNat
  let e : StoreEntry :=
    { id := s.nextId, addr := a, bytes := leBytes (slSize m) (readX w.snapX (slRd m)).toNat, poison := w.snapMarked (slRd m) }
  (s.post t .wren p.ctx (fdHandle x) a (.writeNarrow e.bytes e.poison)).setWren t (fun w =>
    { w with stores := w.stores ++ [e] })

def nstSlot (t : Nat) (s : State) : State := s.moveSlot t opNST (nstAct t)

/-- NST (R230). -/
def execNst (t : Fin 16) (s : State) : Host.Outcome State Fault Refusal := .next (nstSlot t.val s)

/-- A signal is held until the tile's earlier writes are acknowledged (R239). -/
def State.holdSignal (s : State) (t : Nat) (g : HeldSignal) : State := s.setWren t (fun w => { w with sig := some g })

def tsigSlot (t : Nat) (s : State) : State :=
  s.moveSlot t opTSIG (fun m _ s =>
    s.holdSignal t { tile := some (Fin.ofNat 16 (bits m 16 4)), sem := bits m 10 6, value := BitVec.ofNat 32 (bits m 20 12) })

/-- TSIG (R236). -/
def execTsig (t : Fin 16) (s : State) : Host.Outcome State Fault Refusal := .next (tsigSlot t.val s)

def dsigSlot (t : Nat) (s : State) : State :=
  s.moveSlot t opDSIG (fun m _ s =>
    s.holdSignal t { tile := none, sem := bits m 10 8, value := BitVec.ofNat 32 (bits m 18 14) })

/-- DSIG (R238). -/
def execDsig (t : Fin 16) (s : State) : Host.Outcome State Fault Refusal := .next (dsigSlot t.val s)

/-- The Wren waits for a tile semaphore (R237). -/
def State.startWait (s : State) (t m : Nat) (take : Bool) : State :=
  s.setWren t (fun w => { w with wait := some { sem := bits m 10 6, value := BitVec.ofNat 32 (bits m 20 12), take := take } })

def twaitSlot (t : Nat) (s : State) : State := s.moveSlot t 4 (fun m _ s => s.startWait t m false)

/-- TWAIT (R237). -/
def execTwait (t : Fin 16) (s : State) : Host.Outcome State Fault Refusal := .next (twaitSlot t.val s)

def ttakeSlot (t : Nat) (s : State) : State := s.moveSlot t 5 (fun m _ s => s.startWait t m true)

/-- TTAKE (R237). -/
def execTtake (t : Fin 16) (s : State) : Host.Outcome State Fault Refusal := .next (ttakeSlot t.val s)

/-- IFILL presents its line reads; the buffer then belongs to the running context (R240, R241). -/
def ifillAct (t : Nat) (m : Nat) (p : Prog) (s : State) : State :=
  let x := readX (s.tile t).wren.snapX (slRa m)
  let n := bits m 10 5 + 1
  let fills := (List.range n).map (fun i => FillLine.mk (s.nextId + i) (bits m 20 10 + 16 * i))
  (s.postLines t .wren p.ctx (fdHandle x) (fdOff x) (fun _ => .readLine) n).setWren t (fun w =>
    { w with fills := w.fills ++ fills, owner := some p.ctx })

def ifillSlot (t : Nat) (s : State) : State := s.moveSlot t opIFILL (ifillAct t)

/-- IFILL (R240). -/
def execIfill (t : Fin 16) (s : State) : Host.Outcome State Fault Refusal := .next (ifillSlot t.val s)

/-! ## Signals and waits -/

/-- An instruction's drain writes the Cistern. -/
def ArrInstr.drainsOut (i : ArrInstr) : Bool := i.drain && !ddDest i.xd0

/-- Every write of the tile that a signal waits for is acknowledged (R239). -/
def Tile.writesDone (t : Tile) : Bool :=
  t.wren.stores.isEmpty && t.wren.vstores.isEmpty && t.arr.drains.all (fun d => d.vreg.isSome)
    && (match t.arr.run with | some i => !i.drainsOut | none => true)
    && (match t.arr.pend with | some i => !i.drainsOut | none => true)

/-- A held TSIG or DSIG leaves (R239). -/
def signalLeave (t : Nat) (s : State) : State :=
  let x := s.tile t
  match x.wren.sig with
  | none => s
  | some g =>
    if s.silent || decide (x.wren.issued ≠ 0) || !x.writesDone then s
    else
      let m : Signal := { id := s.nextId, source := Fin.ofNat 16 t, tile := g.tile, sem := g.sem, value := g.value }
      let s := { s with nextId := s.nextId + 1, pmh := { s.pmh with sigs := s.pmh.sigs ++ [m] } }
      s.setWren t (fun w => { w with sig := none })

/-- SIGNAL_LEAVE (R239). -/
def execSignalLeave (t : Fin 16) (s : State) : Host.Outcome State Fault Refusal := .next (signalLeave t.val s)

def State.signal (s : State) (id : Nat) : Option Signal := s.pmh.sigs.find? (fun g => decide (g.id = id))

def State.dropSignal (s : State) (id : Nat) : State :=
  { s with pmh := { s.pmh with sigs := s.pmh.sigs.filter (fun g => decide (g.id ≠ id)) } }

/-- A tile semaphore takes a value, saturating (R236). -/
def Wren.addSem (w : Wren) (n : Nat) (v : Word) : Wren := { w with tsem := spModify 0 w.tsem n (fun x => satAdd32 x v) }

/-- A signal reaches its tile (R236). -/
def tileSemArrive (id : Nat) (s : State) : State :=
  match s.signal id with
  | none => s
  | some g =>
    match g.tile with
    | none => s
    | some u => if s.silent then s else (s.dropSignal id).setWren u.val (fun w => w.addSem g.sem g.value)

/-- TILE_SEM_ARRIVE (R236). -/
def execTileSemArrive (id : Nat) (s : State) : Host.Outcome State Fault Refusal := .next (tileSemArrive id s)

/-- A signal reaches the Pumphouse (R238). -/
def dieSemArrive (id : Nat) (s : State) : State :=
  match s.signal id with
  | none => s
  | some g => if s.silent || g.tile.isSome then s else (s.dropSignal id).addSem g.sem g.value

/-- DIE_SEM_ARRIVE (R238). -/
def execDieSemArrive (id : Nat) (s : State) : Host.Outcome State Fault Refusal := .next (dieSemArrive id s)

/-- A wait finds its semaphore at VALUE (R237). -/
def tileWaitSatisfied (t : Nat) (s : State) : State :=
  let w := (s.tile t).wren
  match w.wait with
  | none => s
  | some x =>
    if s.silent || decide (w.issued ≠ 0) || decide ((spGet 0 w.tsem x.sem).toNat < x.value.toNat) then s
    else s.setWren t (fun w =>
      { w with
        wait := none
        tsem := if x.take then spModify 0 w.tsem x.sem (fun v => v - x.value) else w.tsem })

/-- TILE_WAIT_SATISFIED (R237). -/
def execTileWaitSatisfied (t : Fin 16) (s : State) : Host.Outcome State Fault Refusal := .next (tileWaitSatisfied t.val s)

/-! ## Instruction-buffer lines -/

/-- Status of an image word by its marks (R240). -/
def wordStatus (poison ue : Bool) : Half := if ue then stUncorrectable else if poison then stPoison else stOK

/-- Put a line of an image at bundle `dest`, with the status of each of its words (R240). -/
def Wren.putLine (w : Wren) (dest : Nat) (bs : List Byte) (st : Nat → Half) : Wren :=
  { w with ibuf := spSetRange 0 w.ibuf dest 16 (fun i => BitVec.ofNat 128 (fieldAt bs (16 * i) 16))
           ibMark := spSetRange stOK w.ibMark dest 16 (fun i => st (i / 2)) }

/-- The oldest line of an instruction fill lands (R240). -/
def ifillLineLand (t : Nat) (s : State) : State :=
  match (s.tile t).wren.fills with
  | [] => s
  | f :: rest =>
    match s.cis.resps.find? (fun r => decide (r.id = f.id)) with
    | none => s
    | some r =>
      if s.silent then s
      else
        let s := { s with cis := { s.cis with resps := s.cis.resps.filter (fun q => decide (q.id ≠ f.id)) } }
        s.setWren t (fun w =>
          let w := w.putLine f.dest r.data (fun k => wordStatus (r.marks.getD k false) (r.ue.getD k false))
          { w with fills := rest, data := worstData w.data r.status })

/-- IFILL_LINE_LAND (R240). -/
def execIfillLineLand (t : Fin 16) (s : State) : Host.Outcome State Fault Refusal := .next (ifillLineLand t.val s)

end Sys2Proof.Machine
end

