-- ==== Sys2Proof/Machine/Tensor.lean ====
section
/-!
DEFINITION. The Tensor Array (08): the tensor slot, the running instruction, the drain, and what marks and stops do.
-/

namespace Sys2Proof.Machine

/-! ## Issue -/

/-- Rows (and columns) of an instruction's blocks. -/
def ArrInstr.size (i : ArrInstr) : Nat := if i.op = opDTILE then 16 else 128

/-- Depth K. -/
def ArrInstr.depth (i : ArrInstr) : Nat := if i.op = opDTILE then 128 else pairK i.fa i.fb

def ArrInstr.set (i : ArrInstr) : Nat := tensorSet i.op i.acc

def ArrInstr.kind (i : ArrInstr) : Nat := tensorKind i.op i.fa i.fb (fdScaled i.xa || fdScaled i.xb)

/-- Bytes of a row of the A block, and of a column of the B block (R186). -/
def ArrInstr.rowBytes (i : ArrInstr) (f : Nat) : Nat := elemBytes f i.depth

/-- Present the reads of one operand range and record its lines. -/
def State.readOperand (s : State) (t : Nat) (who : Requester) (part : OpPart) (ctx h o n : Nat) : State × List OpLine :=
  (s.postLines t who ctx h o (fun _ => .readLine) n, s.nextLines part n)

/-- The feeders present the reads of an instruction, and the drain that of its bias (R180, R560). -/
def State.readOperands (s : State) (t : Nat) (i : ArrInstr) : State × List OpLine :=
  let blk := fun (s : State) (who : Requester) (part : OpPart) (d : DWord) (f : Nat) =>
    s.readOperand t who part i.ctx (fdHandle d) (fdOff d) (i.size * i.rowBytes f / 256)
  let scl := fun (s : State) (who : Requester) (part : OpPart) (d : DWord) =>
    if fdScaled d then s.readOperand t who part i.ctx (fdHandle d) (fdScale d) (i.size * i.depth / 32 / 256) else (s, [])
  let a := blk s .feederA .a i.xa i.fa
  let b := blk a.1 .feederB .b i.xb i.fb
  let sa := scl b.1 .feederA .sa i.xa
  let sb := scl sa.1 .feederB .sb i.xb
  let bias := if i.drain && ddBias i.xd0 then
      sb.1.readOperand t .drain .bias i.ctx (fdHandle i.xd2) (fdOff i.xd2) (lineUp (4 * i.size) / 256)
    else (sb.1, [])
  (bias.1, a.2 ++ b.2 ++ sa.2 ++ sb.2 ++ bias.2)

/-- The instruction of a tensor slot. INIT 1 on an empty set acts as INIT 0 (R192). -/
def arrInstrOf (w : Nat) (x : Nat → DWord) (a : Arr) (ctx : Nat) : ArrInstr :=
  let d := tsDrain w
  { op := tsOp w, fa := tsFa w, fb := tsFb w, sa := bit w 12, sb := bit w 13, acc := tsAcc w,
    init := tsInit w && decide (spGet kindEmpty a.kind (tensorSet (tsOp w) (tsAcc w)) ≠ kindEmpty), drain := d,
    xa := x (tsXa w), xb := x (tsXb w), xd0 := if d then x (tsXd w) else 0, xd1 := if d then x (tsXd w + 1) else 0,
    xd2 := if d then x (tsXd w + 2) else 0, ctx := ctx, lines := [] }

def State.setArr (s : State) (t : Nat) (f : Arr → Arr) : State := s.setTile t { s.tile t with arr := f (s.tile t).arr }

/-- The instruction issues as the pending one; its set takes its kind (R180, R192). -/
def tensorAct (t : Nat) (s : State) (p : Prog) : State :=
  let x := s.tile t
  let i := arrInstrOf x.wren.tensor (readX x.wren.snapX) x.arr p.ctx
  let r := s.readOperands t i
  r.1.setArr t (fun a => { a with pend := some { i with lines := r.2 }, kind := spSet kindEmpty a.kind i.set i.kind })

def State.tensorSlot (s : State) (t op : Nat) : State := s.issueSlot t 2 (fun w => decide (tsOp w = op)) (tensorAct t)

/-- A TNOP, and a reserved operation, whose bundle halts (R184). -/
def tnopSlot (t : Nat) (s : State) : State :=
  s.issueSlot t 2 (fun w => decide (tsOp w = 0) || decide (opDTILE < tsOp w)) (fun s _ => s)

/-- TNOP (R183). -/
def execTnop (t : Fin 16) (s : State) : Host.Outcome State Fault Refusal := .next (tnopSlot t.val s)

def mtileSlot (t : Nat) (s : State) : State := s.tensorSlot t 1

/-- MTILE (R191). -/
def execMtile (t : Fin 16) (s : State) : Host.Outcome State Fault Refusal := .next (mtileSlot t.val s)

def mtileS2Slot (t : Nat) (s : State) : State := s.tensorSlot t 2

/-- MTILE.S2 (R175). -/
def execMtileS2 (t : Fin 16) (s : State) : Host.Outcome State Fault Refusal := .next (mtileS2Slot t.val s)

def mtileS3Slot (t : Nat) (s : State) : State := s.tensorSlot t 3

/-- MTILE.S3 (R176). -/
def execMtileS3 (t : Fin 16) (s : State) : Host.Outcome State Fault Refusal := .next (mtileS3Slot t.val s)

def dtileSlot (t : Nat) (s : State) : State := s.tensorSlot t opDTILE

/-- DTILE (R177). -/
def execDtile (t : Fin 16) (s : State) : Host.Outcome State Fault Refusal := .next (dtileSlot t.val s)

/-! ## Start -/

/-- A stop under R197 is in force: no instruction starts. -/
def State.arrStopped (s : State) (t : Nat) : Bool := s.stopped || bit s.pmh.tileHold.toNat t

/-- A drain still uses a set (R193). -/
def Arr.draining (a : Arr) (set : Nat) : Bool := a.drains.any (fun d => decide ((if d.long then 2 + d.acc else d.acc) = set))

/-- The pending instruction becomes the running one, in wave `wave` of the array's frame or, where another ended later in
that frame, right behind it (R180, R193, R195, R490; log 77). -/
def arrayInstrStart (t wave : Nat) (s : State) : State :=
  let a := (s.tile t).arr
  match a.pend with
  | none => s
  | some i =>
    if s.silent || s.arrStopped t || a.run.isSome || a.draining i.set then s
    else
      let main := decide (i.op ≠ opDTILE)
      s.setArr t (fun a => { a with run := some i, pend := none, cold := a.cold && !main
                                    place := max a.place wave, fired := 0, ramp := if a.cold && main then 0 else 64
                                    coldStarts := if a.cold && main then a.coldStarts + 1 else a.coldStarts })

/-- ARRAY_INSTR_START (R193). -/
def execArrayInstrStart (t : Fin 16) (wave : Fin 8) (s : State) : Host.Outcome State Fault Refusal :=
  .next (arrayInstrStart t.val wave.val s)

/-- 256 idle waves have passed (R195). -/
def arrayGoesCold (t : Nat) (s : State) : State :=
  let idle := match (s.tile t).arr.run with | none => true | some i => decide (i.op = opDTILE)
  if s.silent || !idle then s else s.setArr t (fun a => { a with cold := true })

/-- ARRAY_GOES_COLD (R195). -/
def execArrayGoesCold (t : Fin 16) (s : State) : Host.Outcome State Fault Refusal := .next (arrayGoesCold t.val s)

/-! ## The body -/

/-- The bytes of an operand part, in order. -/
def ArrInstr.part (i : ArrInstr) (p : OpPart) : List Byte :=
  (i.lines.filter (fun l => decide (l.part = p))).flatMap (fun l => l.data)

/-- The poison marks of its 32-byte words. -/
def ArrInstr.partMarks (i : ArrInstr) (p : OpPart) : List Bool :=
  (i.lines.filter (fun l => decide (l.part = p))).flatMap (fun l => l.marks)

/-- Row `r` of a block of `n` bytes a row as values by K index. -/
def rowVals (f : Nat) (sgn : Bool) (bs : List Byte) (n r : Nat) : Nat → Val :=
  let row := (bs.drop (r * n)).take n
  fun k => elemVal f sgn (elemAt f row k)

/-- Scale bytes of row `r`; an operand without fine scales contributes the factor 1 (R165, R187). -/
def rowScales (bs : List Byte) (scaled : Bool) (n r : Nat) : Nat → Nat :=
  fun b => if scaled then (byteAt bs (r * n + b)).toNat else 0x7F

/-- The starting value of a cell of the array. -/
def Arr.startWord (a : Arr) (i : ArrInstr) (cell : Nat) : Word := if i.init then spGet 0 a.acc (i.acc * 16384 + cell) else 0

def Arr.startDword (a : Arr) (i : ArrInstr) (cell : Nat) : DWord := if i.init then spGet 0 a.dacc (i.acc * 256 + cell) else 0

/-- The cells of the array after the instruction. -/
def Arr.cells (a : Arr) (i : ArrInstr) : Res (List Word) :=
  let av := rowVals i.fa i.sa (i.part .a) (i.rowBytes i.fa)
  let bv := rowVals i.fb i.sb (i.part .b) (i.rowBytes i.fb)
  let sa := rowScales (i.part .sa) (fdScaled i.xa) (i.depth / 32)
  let sb := rowScales (i.part .sb) (fdScaled i.xb) (i.depth / 32)
  resTable (fun c =>
    if i.op = 1 then
      mtileCell i.fa i.fb i.kind (av (c / 128)) (bv (c % 128)) (sa (c / 128)) (sb (c % 128)) (a.startWord i c)
    else splitCell (decide (i.op = 3)) (av (c / 128)) (bv (c % 128)) (a.startWord i c)) 16384

/-- The cells of the long corner after the instruction. -/
def Arr.longCells (a : Arr) (i : ArrInstr) : Res (List DWord) :=
  let av := rowVals fFP64 false (i.part .a) 1024
  let bv := rowVals fFP64 false (i.part .b) 1024
  resTable (fun c => dtileCell (av (c / 16)) (bv (c % 16)) (a.startDword i c)) 256

/-- A row of `n` bytes holds a byte of a marked word. -/
def rowMarked (marks : List Bool) (n r : Nat) : Bool :=
  (List.range marks.length).any (fun w => marks.getD w false && meets (32 * w) 32 (r * n) n)

/-- Marks of the rows (or columns) of the set after the instruction (R198). -/
def ArrInstr.newMarks (i : ArrInstr) (old : Sparse Bool) (f : Nat) (blk scl : OpPart) : List Bool :=
  (List.range i.size).map (fun r =>
    (i.init && spGet false old (i.set * 128 + r)) || rowMarked (i.partMarks blk) (i.rowBytes f) r
      || rowMarked (i.partMarks scl) (i.depth / 32) r)

/-- The array after the instruction's last operand wave. -/
def Arr.after (a : Arr) (i : ArrInstr) : Arr × Flags :=
  let a := { a with
    rowMark := spSetList false a.rowMark (i.set * 128) (i.newMarks a.rowMark i.fa .a .sa)
    colMark := spSetList false a.colMark (i.set * 128) (i.newMarks a.colMark i.fb .b .sb) }
  if i.op = opDTILE then
    let r := a.longCells i
    ({ a with dacc := spSetList 0 a.dacc (i.acc * 256) r.out }, r.fl)
  else
    let r := a.cells i
    ({ a with acc := spSetList 0 a.acc (i.acc * 16384) r.out }, r.fl)

/-! ## The drain -/

/-- Value of a cell of the set an instruction names. -/
def Arr.cellVal (a : Arr) (i : ArrInstr) (c : Nat) : Val :=
  if i.op = opDTILE then val64 (spGet 0 a.dacc (i.acc * 256 + c))
  else
    let w := spGet 0 a.acc (i.acc * 16384 + c)
    if i.kind = kindInt32 then Val.ofInt w.toInt else val32 w

/-- The drained cells (R174, R177). -/
def Arr.drained (a : Arr) (i : ArrInstr) : Res (List Nat) :=
  let long := decide (i.op = opDTILE)
  let ca := if long then Val.one else val32 (BitVec.ofNat 32 (bits i.xd1.toNat 0 32))
  let cb := if long then Val.one else val32 (BitVec.ofNat 32 (bits i.xd1.toNat 32 32))
  let bias := i.part .bias
  resTable (fun c =>
    drainCell (ddFmt i.xd0) (ddSigned i.xd0) ca cb
      (if ddBias i.xd0 then some (val32 (wordAt bias (4 * (c % i.size)))) else none) (a.cellVal i c)) (i.size * i.size)

/-- Cell (row, column) is marked in the drain's outputs (R198). -/
def Arr.cellMarked (a : Arr) (i : ArrInstr) (r j : Nat) : Bool :=
  spGet false a.rowMark (i.set * 128 + r) || spGet false a.colMark (i.set * 128 + j)
    || (i.partMarks .bias).getD (j / 8) false

/-- Output words of a line that hold a marked cell, as the poison bits of its write. -/
def Arr.linePoison (a : Arr) (i : ArrInstr) (line : Nat) : Byte :=
  let size := fmtBits (ddFmt i.xd0) / 8
  BitVec.ofNat 8 ((List.range 8).foldl (fun m w =>
    let e := (line * 256 + 32 * w) / size
    m + at_ (b2n ((List.range (32 / size)).any (fun k => a.cellMarked i ((e + k) / i.size) ((e + k) % i.size)))) w) 0)

/-- Present the drain's output lines (R189, R560). -/
def State.drainOut (s : State) (t : Nat) (a : Arr) (i : ArrInstr) (vals : List Nat) : State :=
  let bs := packElems (ddFmt i.xd0) vals
  s.postLines t .drain i.ctx (fdHandle i.xd0) (fdOff i.xd0)
    (fun k => .writeLine ((bs.drop (256 * k)).take 256) 0xFFFFFFFF (a.linePoison i k)) (bs.length / 256)

/-- All lines of the instruction but those of its bias have come; all of its bias has. -/
def ArrInstr.fed (i : ArrInstr) : Bool := i.lines.all (fun l => l.arrived || decide (l.part = .bias))
def ArrInstr.biased (i : ArrInstr) : Bool := i.lines.all (fun l => l.arrived || decide (l.part ≠ .bias))

/-- A drain that has formed no output yet. -/
def ArrInstr.newDrain (i : ArrInstr) : Drain :=
  { long := decide (i.op = opDTILE), acc := i.acc, wait := some i, ids := [],
    vreg := if ddDest i.xd0 then some (ddVreg i.xd0) else none, values := [], rowMarks := [], flags := 0 }

/-- Drain `d` of instruction `i` forms its outputs; those for the Cistern are presented (R189, R560). -/
def State.formDrain (s : State) (t : Nat) (i : ArrInstr) (d : Drain) : State × Drain :=
  let a := (s.tile t).arr
  let r := a.drained i
  let d := { d with wait := none, flags := r.fl }
  if ddDest i.xd0 then
    (s, { d with
      values := r.out.map (BitVec.ofNat 32)
      rowMarks := (List.range 128).map (fun r => (List.range 128).any (a.cellMarked i r)) })
  else (s.drainOut t a i r.out, { d with ids := s.nextIds (elemBytes (ddFmt i.xd0) (i.size * i.size) / 256) })

/-- Drains whose bias has come form their outputs, in order. A late bias delays its own drain alone (R560). -/
def State.formDrains (s : State) (t : Nat) : State :=
  let r := (s.tile t).arr.drains.foldl (fun (a : State × List Drain) d =>
    match d.wait with
    | none => (a.1, a.2 ++ [d])
    | some i => if i.biased then let x := a.1.formDrain t i d; (x.1, a.2 ++ [x.2]) else (a.1, a.2 ++ [d])) (s, [])
  r.1.setArr t (fun a => { a with drains := r.2 })

/-- Start the drain of an instruction (R193, R560). -/
def State.startDrain (s : State) (t : Nat) (i : ArrInstr) : State :=
  (s.setArr t (fun a => { a with drains := a.drains ++ [i.newDrain] })).formDrains t

/-- Flags rise in ARR_FLAGS, and in the flags of the program (R158, Table CMD-6). -/
def State.raiseArr (s : State) (t : Nat) (f : Flags) : State :=
  (s.setArr t (fun a => { a with flags := a.flags ||| f })).setWren t (fun w => { w with raised := w.raised ||| f })

/-- Operand waves of an instruction (Table ARR-5). -/
def ArrInstr.waves (i : ArrInstr) : Nat := if i.op = 2 then 384 else if i.op = 3 then 768 else 128

/-- Wave `j` of 8 carries an operand wave at duty k/8: floor((j + 1)k ÷ 8) exceeds floor(jk ÷ 8) (R195, R490). -/
def dutyWave (k j : Nat) : Bool := decide (j * k / 8 < (j + 1) * k / 8)

/-- Entry `n` of every row and column queue has come. A row's entry `n` is its part `n` of 128, in each pass; the scales
come whole (R178, R179). -/
def ArrInstr.holds (i : ArrInstr) (n : Nat) : Bool :=
  let blk := fun (p : OpPart) (f : Nat) =>
    let row := i.rowBytes f
    (List.range i.size).all (fun r =>
      (((i.lines.filter (fun l => decide (l.part = p)))[(r * row + n % 128 * row / 128) / 256]?).map (fun l => l.arrived)).getD false)
  blk .a i.fa && blk .b i.fb
    && i.lines.all (fun l => l.arrived || (decide (l.part ≠ .sa) && decide (l.part ≠ .sb)))

/-- One wave of a running instruction, at its place in the frame: a governor idle wave, a bubble where a queue is empty
(`empty`: it is although the lines have come, for timing, log 3), a wave that the ramp leaves out, or an operand wave. A
bubble or governor idle wave on a scheduled operand wave of the ramp defers it, and the ramp goes on (R179, R195, R490). -/
def Arr.wave (a : Arr) (i : ArrInstr) (empty : Bool) : Arr :=
  let bubble := empty || !i.holds a.fired
  let b := { a with place := a.place + 1, ramp := if a.ramp = 0 && bubble then 0 else min 64 (a.ramp + 1) }
  if !dutyWave a.duty.toNat a.place then { b with govIdle := a.govIdle + 1 }
  else if bubble then { b with bubbles := a.bubbles + 1 }
  else if decide (64 ≤ a.ramp) || dutyWave (a.ramp / 8 + 1) (a.ramp % 8) then
    { b with fired := a.fired + 1, opWaves := a.opWaves + 1
             pairWaves := spSet 0 a.pairWaves (16 * i.fa + i.fb) (spGet 0 a.pairWaves (16 * i.fa + i.fb) + 1) }
  else b

/-- The waves of the frame from the array's place in it on, up to the instruction's last operand wave. -/
def Arr.frame (a : Arr) (i : ArrInstr) (empty : Byte) : Arr :=
  (List.range 8).foldl (fun a j => if a.place = j ∧ a.fired < i.waves then a.wave i (bit empty.toNat j) else a) a

/-- The last operand wave of the running instruction ends, in this frame (R179, R191, R490). Its drain starts (R560). -/
def arrayInstrEnd (t : Nat) (empty : Byte) (s : State) : State :=
  match (s.tile t).arr.run with
  | none => s
  | some i =>
    let a := (s.tile t).arr.frame i empty
    if s.silent || !i.fed || decide (a.fired < i.waves) then s
    else
      let r := a.after i
      let s := s.setArr t (fun _ => { r.1 with run := none })
      let s := s.raiseArr t r.2
      if i.drain then s.startDrain t i else s

/-- ARRAY_INSTR_END (R191). -/
def execArrayInstrEnd (t : Fin 16) (empty : Byte) (s : State) : Host.Outcome State Fault Refusal :=
  .next (arrayInstrEnd t.val empty s)

/-- A frame of 8 waves ends: the running instruction has had the rest of it, and the array reads the effective duty for the
next (R490). -/
def Arr.nextFrame (a : Arr) (empty : Byte) (duty : Nat) : Arr :=
  { (match a.run with | some i => a.frame i empty | none => a) with place := 0, duty := BitVec.ofNat 4 duty }

/-- A drain may end: its lines are acknowledged, and no earlier load of its registers is in flight (R204, R560). -/
def Tile.drainDone (t : Tile) (d : Drain) : Bool :=
  d.wait.isNone && match d.vreg with
  | none => d.ids.isEmpty
  | some v => !t.vec.loads.any (fun l => l.regs.any (fun r => decide (v ≤ r) && decide (r < v + 4)))

/-- A drain's outputs in tile registers (R189, R222). -/
def Vec.takeDrain (v : Vec) (d : Drain) : Vec :=
  match d.vreg with
  | none => v
  | some n => { v with v := spSetList 0 v.v (4096 * n) d.values, vMark := spSetList false v.vMark (32 * n) d.rowMarks }

/-- The first drain that may end does (R560). -/
def drainEnd (t : Nat) (s : State) : State :=
  let x := s.tile t
  match x.arr.drains.findIdx? x.drainDone with
  | none => s
  | some k =>
    if s.silent then s
    else
      let d := x.arr.drains.getD k { long := false, acc := 0, wait := none, ids := [], vreg := none, values := [], rowMarks := [], flags := 0 }
      let s := s.setTile t { x with arr := { x.arr with drains := x.arr.drains.eraseIdx k }, vec := x.vec.takeDrain d }
      s.raiseArr t d.flags

/-- DRAIN_END (R560). -/
def execDrainEnd (t : Fin 16) (s : State) : Host.Outcome State Fault Refusal := .next (drainEnd t.val s)

end Sys2Proof.Machine
end

