-- ==== Sys2Proof/Machine/VecMath.lean ====
section
/-!
DEFINITION. The functions of the Vector Engine on values (09 R206, R207, R215, R216, R219, R220): order, table look-up,
2^x, reciprocals and tree sums.
-/

namespace Sys2Proof.Machine

/-! ## Order (R207, R220) -/

/-- `a` is below `b`, with −0 below +0; neither is a NaN. -/
def Val.below (a b : Val) : Bool :=
  decide (a.cmp b < 0) || (a.isZero && b.isZero && a.sign && !b.sign)

/-- The minimum or maximum of two values; a NaN gives a NaN. -/
def minMax (max : Bool) (a b : Val) : Val :=
  if a.isNan || b.isNan then .nan (a.nv || b.nv)
  else if (if max then b.below a else a.below b) then a else b

/-- `a` ranks above `b` for an argmax: a NaN above +∞, +0 above −0. -/
def Val.ranksAbove (a b : Val) : Bool := if b.isNan then false else if a.isNan then true else b.below a

/-- VCMP predicates 0 to 6 from less, equal and unordered (R207). -/
def predOf (code : Nat) (lt eq un : Bool) : Bool :=
  if code = 0 then eq && !un
  else if code = 1 then un || !eq
  else if code = 2 then lt && !un
  else if code = 3 then (lt || eq) && !un
  else if code = 4 then !lt && !eq && !un
  else if code = 5 then !lt && !un
  else un

def cmpVals (code : Nat) (a b : Val) : Res Bool :=
  let un := a.isNan || b.isNan
  ⟨predOf code (decide (a.cmp b < 0)) (decide (a.cmp b = 0)) un, flagIf (a.nv || b.nv) flNV⟩

/-! ## Table look-up (R215) -/

/-- `lut` of R215 before its rounding, over a table of values. -/
def lutVal (t : Nat → Val) (x : Val) : Val :=
  let at_ := fun (i : Nat) (f : Val) => (t i).add (f.mul ((t (i + 1)).sub (t i)))
  match x with
  | .nan nv => .nan nv
  | .inf neg => if neg then at_ 0 (.zero false) else at_ 255 .one
  | .num neg m e =>
    if neg || m = 0 then at_ 0 (.zero false)
    else if 0 ≤ floorLog m e then at_ 255 .one
    else
      let k := (-(e + 8)).toNat
      let i := m / 2 ^ k
      at_ i (.num false (m % 2 ^ k) (e + 8))

/-! ## The fixed tables (R216) -/

/-- Largest `q` below 2^`n` with `p q`, for a `p` that holds up to a point. -/
def searchUp (p : Nat → Bool) : Nat → Nat → Nat
  | 0, q => q
  | n + 1, q => searchUp p n (if p (q + 2 ^ n) then q + 2 ^ n else q)

/-- E[k] = 2^(k/256) rounded to FP32: its significand is the nearest integer to 2^(23 + k/256). -/
def tableE (k : Nat) : Val :=
  if 256 ≤ k then .num false 1 1
  else .num false (searchUp (fun q => decide ((2 * q - 1) ^ 256 ≤ 2 ^ (24 * 256 + k))) 25 0) (-23)

/-- Q[k] = 1 / (1 + k/256) rounded to FP32. -/
def tableQ (k : Nat) : Val := .num false (rneDiv (2 ^ 24 * 256) (256 + k)) (-24)

/-- 16 / √n rounded to FP32, for n from 256 to 1,024. -/
def rootEntry (n : Nat) : Val := .num false ((Nat.sqrt (2 ^ 58 / n) + 1) / 2) (-24)

/-- P[k] = 1 / √(1 + k/256) and W[k] = 1 / √(2 + 2k/256), rounded to FP32. -/
def tableP (k : Nat) : Val := rootEntry (256 + k)
def tableW (k : Nat) : Val := rootEntry (512 + 2 * k)

/-- An intermediate value rounded to FP32, raising nothing. -/
def mid32 (v : Val) : Val := fmtFP32.round v

/-- 2^x before its rounding. -/
def exp2Val (x : Val) : Val :=
  match x with
  | .nan nv => .nan nv
  | .inf neg => if neg then .zero false else .inf false
  | .num neg m e =>
    if m = 0 then .one
    else if 0 ≤ e then
      -- An integer: 2^n, exactly.
      .num false 1 (signedAt neg m e 0)
    else
      let k := (-e).toNat
      let n : Int := (if neg then -(((m + 2 ^ k - 1) / 2 ^ k : Nat) : Int) else ((m / 2 ^ k : Nat) : Int))
      let r : Nat := (signedAt neg m 0 0 - n * (2 ^ k : Nat)).toNat
      (lutVal tableE (.num false r e)).scale n

/-- The significand of a value, as a value in [1, 2). -/
def mantissa (m : Nat) : Val := .num false m (-(Nat.log2 m : Int))

/-- 1 ÷ b before its last rounding. -/
def recipVal (b : Val) : Val :=
  match b with
  | .nan nv => .nan nv
  | .inf neg => .zero neg
  | .num neg m e =>
    if m = 0 then .inf neg
    else
      let x := mantissa m
      let y0 := mid32 (lutVal tableQ (x.sub .one))
      let d := mid32 (Val.one.sub (x.mul y0))
      let y1 := mid32 (y0.add (y0.mul d))
      let r := y1.scale (-(floorLog m e))
      if neg then r.neg else r

/-- 1 ÷ √a before its last rounding. -/
def rsqrtVal (a : Val) : Val :=
  match a with
  | .nan nv => .nan nv
  | .inf neg => if neg then .nan true else .zero false
  | .num neg m e =>
    if m = 0 then .inf neg
    else if neg then .nan true
    else
      let l := floorLog m e
      let odd := decide (l % 2 = 1)
      let x := if odd then (mantissa m).scale 1 else mantissa m
      let y0 := if odd then mid32 (lutVal tableW ((x.sub (.num false 2 0)).scale (-1)))
        else mid32 (lutVal tableP (x.sub .one))
      let d := mid32 (Val.one.sub ((x.mul y0).mul y0))
      let y1 := mid32 (y0.add ((y0.mul d).scale (-1)))
      y1.scale (-((if odd then l - 1 else l) / 2))

/-! ## Reductions (R219, R220) -/

/-- One level of `tree_sum`: sums of neighbours. -/
def pairSums : List Word → Res (List Word)
  | a :: b :: l =>
    let r := round32 ((val32 a).add (val32 b))
    let s := pairSums l
    ⟨BitVec.ofNat 32 r.out :: s.out, r.fl ||| s.fl⟩
  | l => ⟨l, 0⟩

/-- `tree_sum` of R219 over 2^n values. -/
def treeSum : Nat → List Word → Res Word
  | 0, l => ⟨l.headD 0, 0⟩
  | n + 1, l =>
    let s := pairSums l
    let r := treeSum n s.out
    ⟨r.out, s.fl ||| r.fl⟩

/-- The minimum or maximum of the active sources. -/
def reduceMinMax (max : Bool) (vs : List Val) : Res Word :=
  let r := round32 (vs.foldl (minMax max) (.inf max))
  ⟨BitVec.ofNat 32 r.out, r.fl⟩

/-- The index of the highest-ranked of the active sources, the lowest among equals. -/
def reduceArgmax (vs : List (Nat × Val)) : Res Word :=
  let best := vs.foldl (fun (b : Option (Nat × Val)) x =>
    match b with
    | none => some x
    | some y => if x.2.ranksAbove y.2 then some x else some y) none
  ⟨match best with | none => 0xFFFFFFFF | some b => BitVec.ofNat 32 b.1, flagIf (vs.any (fun x => x.2.nv)) flNV⟩

end Sys2Proof.Machine
end

