-- ==== Sys2Proof/Machine/Vector.lean ====
section
/-!
DEFINITION. The Vector Engine (09): the vector slot, masking, poison marks, and its loads and stores. An instruction computes all
its rows when it issues; it issues once no write of a register it needs is in flight.
-/

namespace Sys2Proof.Machine

/-! ## Registers -/

def State.setVec (s : State) (t : Nat) (f : Vec → Vec) : State := s.setTile t { s.tile t with vec := f (s.tile t).vec }

/-- Flags rise in VEC_FLAGS, and in the flags of the program (R158, Table CMD-6). -/
def State.raiseVec (s : State) (t : Nat) (f : Flags) : State :=
  (s.setVec t (fun v => { v with flags := v.flags ||| f })).setWren t (fun w => { w with raised := w.raised ||| f })

/-- Element `e` = 128 r + j of a tile register, of a mask register; entry `k` of a table. -/
def Vec.elem (v : Vec) (n e : Nat) : Word := spGet 0 v.v (4096 * n + e)
def Vec.mbit (v : Vec) (n e : Nat) : Bool := spGet false v.m (4096 * n + e)
def Vec.entry (v : Vec) (n k : Nat) : Word := spGet 0 v.t (257 * n + k)

/-- The bits of an element, of the register pair where `wide` (R200). -/
def Vec.bits64 (v : Vec) (wide : Bool) (n e : Nat) : DWord :=
  BitVec.ofNat 64 ((v.elem n e).toNat + (if wide then 2 ^ 32 * (v.elem (n + 1) e).toNat else 0))


def Vec.putReg (v : Vec) (n : Nat) (l : List Word) : Vec := { v with v := spSetList 0 v.v (4096 * n) l }

def Vec.putMarks (v : Vec) (n : Nat) (f : Nat → Bool) : Vec :=
  { v with vMark := spSetList false v.vMark (32 * n) ((List.range 32).map f) }

/-- The mark of row `r` of a register, numbered as `vectorRegs` numbers them; a table has one mark. -/
def Vec.regMarked (v : Vec) (n r : Nat) : Bool :=
  if n < 32 then spGet false v.vMark (32 * n + r)
  else if n < 40 then spGet false v.mMark (32 * (n - 32) + r)
  else spGet false v.tMark (n - 40)

/-- What an operation reads: marked data computes as zero bits (R222). -/
def Vec.src (v : Vec) (n e : Nat) : Word := if v.regMarked n (e / 128) then 0 else v.elem n e
def Vec.srcBit (v : Vec) (n e : Nat) : Bool := !v.regMarked (32 + n) (e / 128) && v.mbit n e
def Vec.srcEntry (v : Vec) (n k : Nat) : Word := if v.regMarked (40 + n) 0 then 0 else v.entry n k

/-- The same of the register pair where `wide`: each half has the mark of its own row. -/
def Vec.src64 (v : Vec) (wide : Bool) (n e : Nat) : DWord :=
  BitVec.ofNat 64 ((v.src n e).toNat + (if wide then 2 ^ 32 * (v.src (n + 1) e).toNat else 0))

/-- The floating-point value of an operand element: binary64 where D is 1. -/
def Vec.fp (v : Vec) (w n e : Nat) : Val := if vsD w then val64 (v.src64 true n e) else val32 (v.src n e)

/-- A register, or the pair it begins. -/
def pairOf (wide : Bool) (n : Nat) : List Nat := if wide then [n, n + 1] else [n]

/-- A running maximum takes the magnitudes of source values, by their FP32 bits. R156 does not say how a NaN pattern that
a write has put into VEC_AMAX compares: its bits stay until the next write (DESIGN CHOICE, log 76). -/
def maxWord (a : Word) (xs : List Val) : Word := BitVec.ofNat 32 (xs.foldl (fun a x => max a (amaxBits x)) a.toNat)

/-- A load that is a conversion instruction (R209), and that no write of VEC_AMAX has come behind (R157). -/
def VecLoad.orders (l : VecLoad) : Bool :=
  match l.dest with
  | .reg _ => l.counts && decide (l.fmt ≠ fFP32) && decide (l.fmt ≠ fInt32)
  | _ => false

/-- Give source values to the last conversion still in flight in `ls`, which holds them behind its own; `none`: there is none. -/
def holdLater (xs : List Val) : List VecLoad → Option (List VecLoad)
  | [] => none
  | l :: ls =>
    match holdLater xs ls with
    | some ls' => some (l :: ls')
    | none => if l.orders then some ({ l with later := maxWord l.later xs } :: ls) else none

/-- A conversion's source values reach VEC_AMAX in issue order: those of one that issued behind a load wait for it (R157). -/
def Vec.maximum (v : Vec) (xs : List Val) : Vec :=
  match holdLater xs v.loads with
  | some ls => { v with loads := ls }
  | none => { v with amax := maxWord v.amax xs }

/-! ## Lanes -/

/-- Element `e` is active (R205). -/
def Vec.active (v : Vec) (w e : Nat) : Bool := !vsMen w || v.srcBit (vsMk w) e

def Vec.activeList (v : Vec) (w : Nat) : List Nat := (List.range 4096).filter (v.active w)

/-- A source row, or the row of the mask in force, is marked (R222). -/
def Vec.sourceMarked (v : Vec) (w : Nat) (srcs : List Nat) (r : Nat) : Bool :=
  srcs.any (fun n => v.regMarked n r) || (vsMen w && v.regMarked (32 + vsMk w) r)

/-- Row `r` of a destination keeps an old element, and with it its mark (log 51). -/
def Vec.keeps (v : Vec) (w r : Nat) : Bool := !vsMz w && !(List.range 128).all (fun j => v.active w (128 * r + j))

/-- Write active elements of register `d` under the mask, with the marks of the rows (R205, R222). -/
def Vec.laneMarked (v : Vec) (w d : Nat) (mark : Nat → Bool) (f : Nat → Res Word) : Res Vec :=
  let rs := resTable (fun e => if v.active w e then f e else ⟨if vsMz w then 0 else v.elem d e, 0⟩) 4096
  ⟨(v.putReg d rs.out).putMarks d (fun r => mark r || (vsMen w && v.regMarked (32 + vsMk w) r)
    || (v.keeps w r && v.regMarked d r)), rs.fl⟩

/-- The same for a destination whose source registers are `srcs`. -/
def Vec.lane (v : Vec) (w : Nat) (srcs : List Nat) (d : Nat) (f : Nat → Res Word) : Res Vec :=
  v.laneMarked w d (fun r => srcs.any (fun n => v.regMarked n r)) f

/-- Results of two words: the low ones to VD, the high ones to VD + 1 where `wide`. -/
def Vec.pairLane (v : Vec) (w : Nat) (srcs : List Nat) (wide : Bool) (f : Nat → Res DWord) : Res Vec :=
  let lo := v.lane w srcs (vsVd w) (fun e => let r := f e; ⟨BitVec.ofNat 32 r.out.toNat, r.fl⟩)
  if wide then
    let hi := v.lane w srcs (vsVd w + 1) (fun e => ⟨BitVec.ofNat 32 ((f e).out.toNat / 2 ^ 32), 0⟩)
    ⟨{ lo.out with
        v := spSetList 0 lo.out.v (4096 * (vsVd w + 1)) ((List.range 4096).map (hi.out.elem (vsVd w + 1)))
        vMark := spSetList false lo.out.vMark (32 * (vsVd w + 1)) ((List.range 32).map (hi.out.regMarked (vsVd w + 1))) },
      lo.fl⟩
  else lo

/-- Floating-point results, FP32 or binary64, rounded once (R206). -/
def Vec.fpLane (v : Vec) (w : Nat) (srcs : List Nat) (f : Nat → Val) : Res Vec :=
  v.pairLane w (srcs.flatMap (fun n => if n < 32 then pairOf (vsD w) n else [n])) (vsD w) (fun e =>
    let r := (if vsD w then fmtFP64 else fmtFP32).roundTo (f e)
    ⟨BitVec.ofNat 64 r.out, r.fl⟩)

/-- A result of the lanes of VA and VB as words. -/
def Vec.wordLane (v : Vec) (w : Nat) (f : Word → Word → Res Word) : Res Vec :=
  v.lane w [vsVa w, vsVb w] (vsVd w) (fun e => f (v.src (vsVa w) e) (v.src (vsVb w) e))

/-- Write active elements of mask VD[2:0] (R205, R222). -/
def Vec.maskLane (v : Vec) (w : Nat) (srcs : List Nat) (f : Nat → Res Bool) : Res Vec :=
  let d := vsVd w % 8
  let rs := resTable (fun e => if v.active w e then f e else ⟨!vsMz w && v.mbit d e, 0⟩) 4096
  ⟨{ v with
      m := spSetList false v.m (4096 * d) rs.out
      mMark := spSetList false v.mMark (32 * d) ((List.range 32).map (fun r =>
        v.sourceMarked w srcs r || (v.keeps w r && v.regMarked (32 + d) r))) }, rs.fl⟩

/-! ## Issue -/

/-- Issue the vector slot of operation `op`, whose effect is on the engine alone; `f` also gets the Wren as the bundle reads it. -/
def State.vectorOn (s : State) (t op : Nat) (f : Wren → Nat → Vec → Res Vec) : State :=
  s.issueSlot t 3 (fun w => decide (vsOp w = op)) (fun s _ =>
    let x := s.tile t
    let r := f x.wren x.wren.vector x.vec
    (s.setVec t (fun _ => { r.out with busy := true, rows := x.vec.rows + 32 })).raiseVec t r.fl)

def State.vectorSlot (s : State) (t op : Nat) (f : Nat → Vec → Res Vec) : State := s.vectorOn t op (fun _ w v => f w v)

/-- A VNOP, and an operation outside Table VEC-2, whose bundle halts (R203). -/
def vnopSlot (t : Nat) (s : State) : State :=
  s.issueSlot t 3 (fun w => decide (vsOp w = 0) || !vectorKnown (vsOp w)) (fun s _ => s)

/-- VNOP (R202). -/
def execVnop (t : Fin 16) (s : State) : Host.Outcome State Fault Refusal := .next (vnopSlot t.val s)

/-! ## Floating-point arithmetic (R206) -/

def vaddSlot (t : Nat) (s : State) : State := s.vectorSlot t 0x01 (fun w v => v.fpLane w [vsVa w, vsVb w] (fun e => Val.add (v.fp w (vsVa w) e) (v.fp w (vsVb w) e)))

/-- VADD (R206). -/
def execVadd (t : Fin 16) (s : State) : Host.Outcome State Fault Refusal := .next (vaddSlot t.val s)

def vsubSlot (t : Nat) (s : State) : State := s.vectorSlot t 0x02 (fun w v => v.fpLane w [vsVa w, vsVb w] (fun e => Val.sub (v.fp w (vsVa w) e) (v.fp w (vsVb w) e)))

/-- VSUB (R206). -/
def execVsub (t : Fin 16) (s : State) : Host.Outcome State Fault Refusal := .next (vsubSlot t.val s)

def vmulSlot (t : Nat) (s : State) : State := s.vectorSlot t 0x03 (fun w v => v.fpLane w [vsVa w, vsVb w] (fun e => Val.mul (v.fp w (vsVa w) e) (v.fp w (vsVb w) e)))

/-- VMUL (R206). -/
def execVmul (t : Fin 16) (s : State) : Host.Outcome State Fault Refusal := .next (vmulSlot t.val s)

def vfmaSlot (t : Nat) (s : State) : State := s.vectorSlot t 0x04 (fun w v => v.fpLane w [vsVa w, vsVb w, vsVc w]
    (fun e => ((v.fp w (vsVa w) e).mul (v.fp w (vsVb w) e)).add (v.fp w (vsVc w) e)))

/-- VFMA (R206). -/
def execVfma (t : Fin 16) (s : State) : Host.Outcome State Fault Refusal := .next (vfmaSlot t.val s)

def vminSlot (t : Nat) (s : State) : State := s.vectorSlot t 0x05 (fun w v => v.fpLane w [vsVa w, vsVb w]
    (fun e => minMax false (v.fp w (vsVa w) e) (v.fp w (vsVb w) e)))

/-- VMIN (R207). -/
def execVmin (t : Fin 16) (s : State) : Host.Outcome State Fault Refusal := .next (vminSlot t.val s)

def vmaxSlot (t : Nat) (s : State) : State := s.vectorSlot t 0x06 (fun w v => v.fpLane w [vsVa w, vsVb w]
    (fun e => minMax true (v.fp w (vsVa w) e) (v.fp w (vsVb w) e)))

/-- VMAX (R207). -/
def execVmax (t : Fin 16) (s : State) : Host.Outcome State Fault Refusal := .next (vmaxSlot t.val s)

def vabsSlot (t : Nat) (s : State) : State := s.vectorSlot t 0x07 (fun w v => v.fpLane w [vsVa w] (fun e => (v.fp w (vsVa w) e).abs))

/-- VABS (R206). -/
def execVabs (t : Fin 16) (s : State) : Host.Outcome State Fault Refusal := .next (vabsSlot t.val s)

def vnegSlot (t : Nat) (s : State) : State := s.vectorSlot t 0x08 (fun w v => v.fpLane w [vsVa w] (fun e => (v.fp w (vsVa w) e).neg))

/-- VNEG (R206). -/
def execVneg (t : Fin 16) (s : State) : Host.Outcome State Fault Refusal := .next (vnegSlot t.val s)

/-! ## Comparison and selection (R207) -/

/-- The comparison of an element (R207). -/
def Vec.cmpElem (v : Vec) (w e : Nat) : Res Bool :=
  if bit (vsVc w) 3 && !vsD w then
    let a := (v.src (vsVa w) e).toInt
    let b := (v.src (vsVb w) e).toInt
    ⟨predOf (vsVc w % 8) (decide (a < b)) (decide (a = b)) false, 0⟩
  else cmpVals (vsVc w % 8) (v.fp w (vsVa w) e) (v.fp w (vsVb w) e)

def vcmpSlot (t : Nat) (s : State) : State := s.vectorSlot t 0x09 (fun w v => v.maskLane w ([vsVa w, vsVb w].flatMap (pairOf (vsD w))) (v.cmpElem w))

/-- VCMP (R207). -/
def execVcmp (t : Fin 16) (s : State) : Host.Outcome State Fault Refusal := .next (vcmpSlot t.val s)

def vselSlot (t : Nat) (s : State) : State := s.vectorSlot t 0x0A (fun w v => v.pairLane w ([vsVa w, vsVb w].flatMap (pairOf (vsD w)) ++ [32 + vsVc w % 8]) (vsD w)
    (fun e => ⟨v.src64 (vsD w) (if v.srcBit (vsVc w % 8) e then vsVa w else vsVb w) e, 0⟩))

/-- VSEL (R202). -/
def execVsel (t : Fin 16) (s : State) : Host.Outcome State Fault Refusal := .next (vselSlot t.val s)

/-! ## Bitwise operations and shifts (R202, R206) -/

def vandSlot (t : Nat) (s : State) : State := s.vectorSlot t 0x0B (fun w v => v.wordLane w (fun a b => ⟨a &&& b, 0⟩))

/-- VAND (R202). -/
def execVand (t : Fin 16) (s : State) : Host.Outcome State Fault Refusal := .next (vandSlot t.val s)

def vorSlot (t : Nat) (s : State) : State := s.vectorSlot t 0x0C (fun w v => v.wordLane w (fun a b => ⟨a ||| b, 0⟩))

/-- VOR (R202). -/
def execVor (t : Fin 16) (s : State) : Host.Outcome State Fault Refusal := .next (vorSlot t.val s)

def vxorSlot (t : Nat) (s : State) : State := s.vectorSlot t 0x0D (fun w v => v.wordLane w (fun a b => ⟨a ^^^ b, 0⟩))

/-- VXOR (R202). -/
def execVxor (t : Fin 16) (s : State) : Host.Outcome State Fault Refusal := .next (vxorSlot t.val s)

def vnotSlot (t : Nat) (s : State) : State := s.vectorSlot t 0x0E (fun w v => v.lane w [vsVa w] (vsVd w) (fun e => ⟨~~~ (v.src (vsVa w) e), 0⟩))

/-- VNOT (R202). -/
def execVnot (t : Fin 16) (s : State) : Host.Outcome State Fault Refusal := .next (vnotSlot t.val s)

def vshlSlot (t : Nat) (s : State) : State := s.vectorSlot t 0x0F (fun w v => v.wordLane w (fun a b => ⟨a <<< (b.toNat % 32), 0⟩))

/-- VSHL (R206). -/
def execVshl (t : Fin 16) (s : State) : Host.Outcome State Fault Refusal := .next (vshlSlot t.val s)

def vshrSlot (t : Nat) (s : State) : State := s.vectorSlot t 0x10 (fun w v => v.wordLane w (fun a b => ⟨a >>> (b.toNat % 32), 0⟩))

/-- VSHR (R206). -/
def execVshr (t : Fin 16) (s : State) : Host.Outcome State Fault Refusal := .next (vshrSlot t.val s)

def vsraSlot (t : Nat) (s : State) : State := s.vectorSlot t 0x11 (fun w v => v.wordLane w (fun a b => ⟨a.sshiftRight (b.toNat % 32), 0⟩))

/-- VSRA (R206). -/
def execVsra (t : Fin 16) (s : State) : Host.Outcome State Fault Refusal := .next (vsraSlot t.val s)

/-- An INT32 result, clamped (R206): it saturates, and differs from the exact value (Table NUM-5). -/
def clampWord (i : Int) : Res Word :=
  let r := clampInt intMin32 intMax32 i
  ⟨BitVec.ofInt 32 r.1, flagIf r.2 (flOF ||| flNX)⟩

def viaddSlot (t : Nat) (s : State) : State := s.vectorSlot t 0x12 (fun w v => v.wordLane w (fun a b => clampWord (a.toInt + b.toInt)))

/-- VIADD (R206). -/
def execViadd (t : Fin 16) (s : State) : Host.Outcome State Fault Refusal := .next (viaddSlot t.val s)

def visubSlot (t : Nat) (s : State) : State := s.vectorSlot t 0x13 (fun w v => v.wordLane w (fun a b => clampWord (a.toInt - b.toInt)))

/-- VISUB (R206). -/
def execVisub (t : Fin 16) (s : State) : Host.Outcome State Fault Refusal := .next (visubSlot t.val s)

def vimulSlot (t : Nat) (s : State) : State := s.vectorSlot t 0x14 (fun w v => v.wordLane w (fun a b => clampWord (a.toInt * b.toInt)))

/-- VIMUL (R206). -/
def execVimul (t : Fin 16) (s : State) : Host.Outcome State Fault Refusal := .next (vimulSlot t.val s)

/-! ## Conversion and copies (R202, R208) -/

/-- Source value of a VCVT, in a register form of R200. -/
def Vec.cvtSource (v : Vec) (w e : Nat) : Val :=
  elemVal (vsVb w % 16) (bit (vsVb w) 4) (v.src64 (decide (vsVb w % 16 = fFP64)) (vsVa w) e).toNat

/-- VCVT converts each active element and updates VEC_AMAX (R208, R209). -/
def Vec.convert (v : Vec) (w : Nat) : Res Vec :=
  let r := v.pairLane w (pairOf (decide (vsVb w % 16 = fFP64)) (vsVa w)) (decide (vsVc w % 16 = fFP64))
    (fun e => let x := elemStore (vsVc w % 16) (bit (vsVc w) 4) (v.cvtSource w e); ⟨BitVec.ofNat 64 x.out, x.fl⟩)
  ⟨r.out.maximum (v.activeList w |>.map (v.cvtSource w)), r.fl⟩

def vcvtSlot (t : Nat) (s : State) : State := s.vectorSlot t 0x15 (fun w v => v.convert w)

/-- VCVT (R208). -/
def execVcvt (t : Fin 16) (s : State) : Host.Outcome State Fault Refusal := .next (vcvtSlot t.val s)

/-- VBCAST copies row 0 of a source to every row; its mark goes with it (R222). -/
def Vec.broadcast (v : Vec) (w : Nat) : Res Vec :=
  v.laneMarked w (vsVd w) (fun _ => v.regMarked (vsVa w) 0) (fun e => ⟨v.src (vsVa w) (e % 128), 0⟩)

def vbcastSlot (t : Nat) (s : State) : State := s.vectorSlot t 0x16 (fun w v => v.broadcast w)

/-- VBCAST (R202). -/
def execVbcast (t : Fin 16) (s : State) : Host.Outcome State Fault Refusal := .next (vbcastSlot t.val s)

/-- VSPLAT fills every element from an x register; a marked one marks every row it writes (R202, R222). -/
def vsplatSlot (t : Nat) (s : State) : State :=
  s.vectorOn t 0x17 (fun x w v =>
    v.laneMarked w (vsVd w) (fun r => x.snapMarked (vsVa w) && (vsMz w || (List.range 128).any (fun j => v.active w (128 * r + j)))) (fun _ => ⟨BitVec.ofNat 32 (readX x.snapX (vsVa w)).toNat, 0⟩))

/-- VSPLAT (R202). -/
def execVsplat (t : Fin 16) (s : State) : Host.Outcome State Fault Refusal := .next (vsplatSlot t.val s)

/-! ## Masks (R202) -/

def mandSlot (t : Nat) (s : State) : State := s.vectorSlot t 0x18 (fun w v => v.maskLane w [32 + vsVa w % 8, 32 + vsVb w % 8]
    (fun e => ⟨(fun a b => a && b) (v.srcBit (vsVa w % 8) e) (v.srcBit (vsVb w % 8) e), 0⟩))

/-- MAND (R202). -/
def execMand (t : Fin 16) (s : State) : Host.Outcome State Fault Refusal := .next (mandSlot t.val s)

def morSlot (t : Nat) (s : State) : State := s.vectorSlot t 0x19 (fun w v => v.maskLane w [32 + vsVa w % 8, 32 + vsVb w % 8]
    (fun e => ⟨(fun a b => a || b) (v.srcBit (vsVa w % 8) e) (v.srcBit (vsVb w % 8) e), 0⟩))

/-- MOR (R202). -/
def execMor (t : Fin 16) (s : State) : Host.Outcome State Fault Refusal := .next (morSlot t.val s)

def mxorSlot (t : Nat) (s : State) : State := s.vectorSlot t 0x1A (fun w v => v.maskLane w [32 + vsVa w % 8, 32 + vsVb w % 8]
    (fun e => ⟨(fun a b => a != b) (v.srcBit (vsVa w % 8) e) (v.srcBit (vsVb w % 8) e), 0⟩))

/-- MXOR (R202). -/
def execMxor (t : Fin 16) (s : State) : Host.Outcome State Fault Refusal := .next (mxorSlot t.val s)

def mnotSlot (t : Nat) (s : State) : State := s.vectorSlot t 0x1B (fun w v => v.maskLane w [32 + vsVa w % 8] (fun e => ⟨!v.srcBit (vsVa w % 8) e, 0⟩))

/-- MNOT (R202). -/
def execMnot (t : Fin 16) (s : State) : Host.Outcome State Fault Refusal := .next (mnotSlot t.val s)

/-! ## Table look-up and fixed functions (R215, R216) -/

def vlutSlot (t : Nat) (s : State) : State := s.vectorSlot t 0x20 (fun w v => v.fpLane w [vsVa w, 40 + vsVb w % 4]
    (fun e => lutVal (fun k => val32 (v.srcEntry (vsVb w % 4) k)) (val32 (v.src (vsVa w) e))))

/-- VLUT (R215). -/
def execVlut (t : Fin 16) (s : State) : Host.Outcome State Fault Refusal := .next (vlutSlot t.val s)

def vexp2Slot (t : Nat) (s : State) : State := s.vectorSlot t 0x21 (fun w v => v.fpLane w [vsVa w] (fun e => exp2Val (val32 (v.src (vsVa w) e))))

/-- VEXP2 (R216). -/
def execVexp2 (t : Fin 16) (s : State) : Host.Outcome State Fault Refusal := .next (vexp2Slot t.val s)

def vrcpSlot (t : Nat) (s : State) : State := s.vectorSlot t 0x22 (fun w v => v.fpLane w [vsVa w] (fun e => recipVal (val32 (v.src (vsVa w) e))))

/-- VRCP (R216). -/
def execVrcp (t : Fin 16) (s : State) : Host.Outcome State Fault Refusal := .next (vrcpSlot t.val s)

def vrsqSlot (t : Nat) (s : State) : State := s.vectorSlot t 0x23 (fun w v => v.fpLane w [vsVa w] (fun e => rsqrtVal (val32 (v.src (vsVa w) e))))

/-- VRSQ (R216). -/
def execVrsq (t : Fin 16) (s : State) : Host.Outcome State Fault Refusal := .next (vrsqSlot t.val s)

/-! ## Reductions (R218 to R220) -/

/-- The active sources of row `r`, or of lane `j`, with their indices. -/
def Vec.rowSources (v : Vec) (w r : Nat) : List (Nat × Val) :=
  ((List.range 128).filter (fun j => v.active w (128 * r + j))).map (fun j => (j, val32 (v.src (vsVa w) (128 * r + j))))

def Vec.laneSources (v : Vec) (w j : Nat) : List (Nat × Val) :=
  ((List.range 32).filter (fun r => v.active w (128 * r + j))).map (fun r => (r, val32 (v.src (vsVa w) (128 * r + j))))

/-- The sources of a sum: an inactive one enters as −0 (R220). -/
def Vec.sumSource (v : Vec) (w e : Nat) : Word := if v.active w e then v.src (vsVa w) e else 0x80000000

/-- A row reduction writes its result to every lane of the row (R218). -/
def Vec.reduceRows (v : Vec) (w : Nat) (f : Nat → Res Word) : Res Vec :=
  let rs := resTable f 32
  ⟨(v.putReg (vsVd w) ((List.range 4096).map (fun e => rs.out.getD (e / 128) 0))).putMarks (vsVd w)
    (fun r => v.sourceMarked w [vsVa w] r), rs.fl⟩

/-- A column reduction writes its result to row 0 (R218). -/
def Vec.reduceLanes (v : Vec) (w : Nat) (f : Nat → Res Word) : Res Vec :=
  let rs := resTable f 128
  ⟨{ v with v := spSetList 0 v.v (4096 * vsVd w) rs.out
            vMark := spSet false v.vMark (32 * vsVd w) ((List.range 32).any (fun r => v.sourceMarked w [vsVa w] r)) }, rs.fl⟩

def vrsumSlot (t : Nat) (s : State) : State := s.vectorSlot t 0x28 (fun w v => v.reduceRows w
    (fun r => treeSum 7 ((List.range 128).map (fun j => v.sumSource w (128 * r + j)))))

/-- VRSUM (R219). -/
def execVrsum (t : Fin 16) (s : State) : Host.Outcome State Fault Refusal := .next (vrsumSlot t.val s)

def vrmaxSlot (t : Nat) (s : State) : State := s.vectorSlot t 0x29 (fun w v => v.reduceRows w (fun r => reduceMinMax true ((v.rowSources w r).map (fun x => x.2))))

/-- VRMAX (R220). -/
def execVrmax (t : Fin 16) (s : State) : Host.Outcome State Fault Refusal := .next (vrmaxSlot t.val s)

def vrminSlot (t : Nat) (s : State) : State := s.vectorSlot t 0x2A (fun w v => v.reduceRows w (fun r => reduceMinMax false ((v.rowSources w r).map (fun x => x.2))))

/-- VRMIN (R220). -/
def execVrmin (t : Fin 16) (s : State) : Host.Outcome State Fault Refusal := .next (vrminSlot t.val s)

def vrargmaxSlot (t : Nat) (s : State) : State := s.vectorSlot t 0x2B (fun w v => v.reduceRows w (fun r => reduceArgmax (v.rowSources w r)))

/-- VRARGMAX (R220). -/
def execVrargmax (t : Fin 16) (s : State) : Host.Outcome State Fault Refusal := .next (vrargmaxSlot t.val s)

def vcsumSlot (t : Nat) (s : State) : State := s.vectorSlot t 0x2C (fun w v => v.reduceLanes w
    (fun j => treeSum 5 ((List.range 32).map (fun r => v.sumSource w (128 * r + j)))))

/-- VCSUM (R219). -/
def execVcsum (t : Fin 16) (s : State) : Host.Outcome State Fault Refusal := .next (vcsumSlot t.val s)

def vcmaxSlot (t : Nat) (s : State) : State := s.vectorSlot t 0x2D (fun w v => v.reduceLanes w (fun j => reduceMinMax true ((v.laneSources w j).map (fun x => x.2))))

/-- VCMAX (R220). -/
def execVcmax (t : Fin 16) (s : State) : Host.Outcome State Fault Refusal := .next (vcmaxSlot t.val s)

def vcminSlot (t : Nat) (s : State) : State := s.vectorSlot t 0x2E (fun w v => v.reduceLanes w (fun j => reduceMinMax false ((v.laneSources w j).map (fun x => x.2))))

/-- VCMIN (R220). -/
def execVcmin (t : Fin 16) (s : State) : Host.Outcome State Fault Refusal := .next (vcminSlot t.val s)

def vcargmaxSlot (t : Nat) (s : State) : State := s.vectorSlot t 0x2F (fun w v => v.reduceLanes w (fun j => reduceArgmax (v.laneSources w j)))

/-- VCARGMAX (R220). -/
def execVcargmax (t : Fin 16) (s : State) : Host.Outcome State Fault Refusal := .next (vcargmaxSlot t.val s)

/-! ## Compress and expand (R221) -/

/-- Active lanes of row `r`, ascending. -/
def Vec.activeLanes (v : Vec) (w r : Nat) : List Nat := (List.range 128).filter (fun j => v.active w (128 * r + j))

/-- VCOMP: the active elements to the low lanes, zero above, the count to lane 0 of v[VC] (R221). -/
def Vec.compress (v : Vec) (w : Nat) : Res Vec :=
  let rows := (List.range 32).map (fun r => (v.activeLanes w r).map (fun j => v.src (vsVa w) (128 * r + j)))
  let at_ := fun (r : Nat) => rows.getD r []
  let u := (v.putReg (vsVd w) ((List.range 32).flatMap (fun r => at_ r ++ List.replicate (128 - (at_ r).length) 0))).putMarks
    (vsVd w) (fun r => v.sourceMarked w [vsVa w] r)
  ⟨(List.range 32).foldl (fun u r =>
    { u with v := spSet 0 u.v (4096 * vsVc w + 128 * r) (BitVec.ofNat 32 (at_ r).length)
             vMark := spSet false u.vMark (32 * vsVc w + r) (v.sourceMarked w [vsVa w] r || u.regMarked (vsVc w) r) }) u, 0⟩

def vcompSlot (t : Nat) (s : State) : State := s.vectorSlot t 0x30 (fun w v => v.compress w)

/-- VCOMP (R221). -/
def execVcomp (t : Fin 16) (s : State) : Host.Outcome State Fault Refusal := .next (vcompSlot t.val s)

def vexpdSlot (t : Nat) (s : State) : State := s.vectorSlot t 0x31 (fun w v => v.lane w [vsVa w] (vsVd w) (fun e =>
    ⟨v.src (vsVa w) (128 * (e / 128) + ((v.activeLanes w (e / 128)).filter (fun j => decide (j < e % 128))).length), 0⟩))

/-- VEXPD (R221). -/
def execVexpd (t : Fin 16) (s : State) : Host.Outcome State Fault Refusal := .next (vexpdSlot t.val s)

/-! ## Loads and stores (R209 to R214) -/

/-- The active elements of a load, as its VecLoad keeps them. -/
def Vec.loadMask (v : Vec) (w : Nat) : Option (Sparse Bool) :=
  if vsMen w then some (spSetList false [] 0 ((List.range 4096).map (v.srcBit (vsMk w)))) else none

def Vec.maskRowMarks (v : Vec) (w : Nat) : Sparse Bool :=
  if vsMen w then spSetList false [] 0 ((List.range 32).map (v.regMarked (32 + vsMk w))) else []

/-- A vector load at its issue. -/
def Vec.startLoad (v : Vec) (w : Nat) (d : VLoadDest) (fmt : Nat) (scaled : Bool) (lines : List OpLine) : VecLoad :=
  { dest := d, fmt := fmt, signed := bit (vsVc w) 4, scaled := scaled, mask := v.loadMask w, mz := vsMz w,
    maskMarks := v.maskRowMarks w, counts := true, later := 0, lines := lines }

/-- Rows that an operation counts in VEC_ROWS: a VTLD has none (log 52). -/
def State.vecIssued (s : State) (t rows : Nat) : State :=
  s.setVec t (fun v => { v with busy := true, rows := v.rows + BitVec.ofNat 32 rows })

/-- Present the line reads of a load of `n` bytes, and its scale line; the load is then in flight. -/
def State.vectorLoad (s : State) (t : Nat) (p : Prog) (d : Nat → VLoadDest) (fmt : Nat → Nat) (n : Nat → Nat)
    (scalable : Bool) (rows : Nat) : State :=
  let x := (s.tile t).wren
  let w := x.vector
  let f := readX x.snapX (vsVa w)
  let scaled := scalable && fdScaled f
  let a := s.readOperand t .vec .a p.ctx (fdHandle f) (fdOff f) (n w / 256)
  let b := if scaled then a.1.readOperand t .vec .sa p.ctx (fdHandle f) (fdScale f) 1 else (a.1, [])
  let l := (s.tile t).vec.startLoad w (d w) (fmt w) scaled (a.2 ++ b.2)
  (b.1.setVec t (fun v => { v with loads := v.loads ++ [l] })).vecIssued t rows

/-- VLD presents its reads; its rows convert as R212 says once they have come. -/
def vldSlot (t : Nat) (s : State) : State :=
  s.issueSlot t 3 (fun w => decide (vsOp w = 0x38)) (fun s p =>
    s.vectorLoad t p (fun w => .reg (vsVd w)) (fun w => vsVc w % 16) (fun w => elemBytes (vsVc w % 16) 4096) true 32)

/-- VLD (R212). -/
def execVld (t : Fin 16) (s : State) : Host.Outcome State Fault Refusal := .next (vldSlot t.val s)

def vtldSlot (t : Nat) (s : State) : State :=
  s.issueSlot t 3 (fun w => decide (vsOp w = 0x3A)) (fun s p =>
    s.vectorLoad t p (fun w => .table (vsVd w % 4)) (fun _ => fFP32) (fun _ => 1280) false 0)

/-- VTLD (R214). -/
def execVtld (t : Fin 16) (s : State) : Host.Outcome State Fault Refusal := .next (vtldSlot t.val s)

def mldSlot (t : Nat) (s : State) : State :=
  s.issueSlot t 3 (fun w => decide (vsOp w = 0x3B)) (fun s p =>
    s.vectorLoad t p (fun w => .mask (vsVd w % 8)) (fun _ => fFP32) (fun _ => 512) false 32)

/-- MLD (R214). -/
def execMld (t : Fin 16) (s : State) : Host.Outcome State Fault Refusal := .next (mldSlot t.val s)

/-- Source bits of a VST lane (R213). -/
def Vec.stBits (v : Vec) (w e : Nat) : DWord := v.src64 (decide (vsVc w % 16 = fFP64)) (vsVb w) e

/-- Format of a VST's source: FP64 pairs for FP64 memory, else INT32 where VD[0] is 1, else FP32. -/
def stSource (w : Nat) : Nat := if vsVc w % 16 = fFP64 then fFP64 else if bit (vsVd w) 0 then fInt32 else fFP32

def Vec.stVal (v : Vec) (w e : Nat) : Val := elemVal (stSource w) true (v.stBits w e).toNat

/-- Elements stored without SCALED: a copy where the formats agree, else a conversion (R213). -/
def Vec.stPlain (v : Vec) (w : Nat) : Res (List Nat) :=
  resTable (fun e =>
    if vsVc w % 16 = stSource w then ⟨(v.stBits w e).toNat, 0⟩
    else elemStore (vsVc w % 16) (bit (vsVc w) 4) (v.stVal w e)) 4096

/-- Elements and scale bytes stored with SCALED: blocks of 32 lanes under VEC_QSCALE (R154, R213). -/
def Vec.stScaled (v : Vec) (w : Nat) : Res (List Nat × List Byte) :=
  let bs := (List.range 128).map (fun b =>
    blockConvert (vsVc w % 16) (bit (vsVc w) 4) (val32 v.qscale) ((List.range 32).map (fun i => v.stVal w (32 * b + i))))
  ⟨(bs.flatMap (fun b => b.2.out), bs.map (fun b => BitVec.ofNat 8 b.1)), bs.foldl (fun f b => f ||| b.2.fl) 0⟩

/-- Poison bits of a line of the block: the words of marked rows of `rowBytes` bytes (R222). -/
def poisonOf (marked : Nat → Bool) (rowBytes line : Nat) : Byte :=
  BitVec.ofNat 8 ((List.range 8).foldl (fun m k =>
    let a := line * 256 + 32 * k
    m + at_ (b2n ((List.range 32).any (fun r => marked r && meets a 32 (r * rowBytes) rowBytes))) k) 0)

/-- Present the lines of a store; its writes wait to be acknowledged (R561). -/
def State.vectorStore (s : State) (t : Nat) (p : Prog) (h o : Nat) (bs : List Byte) (mask : Word) (poison : Nat → Byte) :
    State :=
  let n := (bs.length + 255) / 256
  (s.postLines t .vec p.ctx h o (fun k => .writeLine (padTo 256 (bs.drop (256 * k))) mask (poison k)) n).setWren t
    (fun x => { x with vstores := x.vstores ++ s.nextIds n })

/-- VST stores a register, converting or block-scaling it (R213). -/
def vstAct (t : Nat) (s : State) (p : Prog) : State :=
  let x := (s.tile t).wren
  let v := (s.tile t).vec
  let w := x.vector
  let f := readX x.snapX (vsVa w)
  let fmt := vsVc w % 16
  let wide := decide (fmt = fFP64)
  let r := if fdScaled f then v.stScaled w else (let q := v.stPlain w; ⟨(q.out, []), q.fl⟩)
  let bs := packElems fmt r.out.1
  let s := s.vectorStore t p (fdHandle f) (fdOff f) bs 0xFFFFFFFF
    (poisonOf (fun k => (pairOf wide (vsVb w)).any (fun n => v.regMarked n k)) (elemBytes fmt 128))
  let s := if fdScaled f then s.vectorStore t p (fdHandle f) (fdScale f) r.out.2 0x0000FFFF (fun _ => 0) else s
  let s := if fmt = fFP32 ∨ fmt = fInt32 then s
    else s.setVec t (fun v => v.maximum ((List.range 4096).map (v.stVal w)))
  (s.raiseVec t r.fl).vecIssued t 32

def vstSlot (t : Nat) (s : State) : State := s.issueSlot t 3 (fun w => decide (vsOp w = 0x39)) (vstAct t)

/-- VST (R213). -/
def execVst (t : Fin 16) (s : State) : Host.Outcome State Fault Refusal := .next (vstSlot t.val s)

/-- The bytes of a mask register: 16 a row (R214). -/
def Vec.maskBytes (v : Vec) (n : Nat) : List Byte :=
  (List.range 512).map (fun k =>
    BitVec.ofNat 8 ((List.range 8).foldl (fun m i => m + at_ (b2n (v.srcBit n (8 * k + i))) i) 0))

/-- MST stores a mask register; a word that holds a marked row is stored as poison (R214; log 53). -/
def mstAct (t : Nat) (s : State) (p : Prog) : State :=
  let x := (s.tile t).wren
  let v := (s.tile t).vec
  let w := x.vector
  let f := readX x.snapX (vsVa w)
  (s.vectorStore t p (fdHandle f) (fdOff f) (v.maskBytes (vsVd w % 8)) 0xFFFFFFFF
    (poisonOf (v.regMarked (32 + vsVd w % 8)) 16)).vecIssued t 32

def mstSlot (t : Nat) (s : State) : State := s.issueSlot t 3 (fun w => decide (vsOp w = 0x3C)) (mstAct t)

/-- MST (R214). -/
def execMst (t : Fin 16) (s : State) : Host.Outcome State Fault Refusal := .next (mstSlot t.val s)

/-! ## Loads that have come -/

/-- Bytes of a load's block or of its scale line. -/
def VecLoad.part (l : VecLoad) (p : OpPart) : List Byte :=
  (l.lines.filter (fun x => decide (x.part = p))).flatMap (fun x => x.data)

def VecLoad.partMarks (l : VecLoad) (p : OpPart) : List Bool :=
  (l.lines.filter (fun x => decide (x.part = p))).flatMap (fun x => x.marks)

/-- Element `e` is active in the load. -/
def VecLoad.active (l : VecLoad) (e : Nat) : Bool := match l.mask with | none => true | some m => spGet false m e

/-- Source value of an element: decoded, and multiplied by its fine scale (R209, R212). -/
def VecLoad.val (l : VecLoad) (e : Nat) : Val :=
  let v := elemVal l.fmt l.signed (elemAt l.fmt (l.part .a) e)
  if l.scaled then (scaleVal (byteAt (l.part .sa) (e / 32)).toNat).mul v else v

/-- An element in register form (R212). -/
def VecLoad.elem (l : VecLoad) (e : Nat) : Res DWord :=
  let raw := elemAt l.fmt (l.part .a) e
  if l.fmt = fFP32 ∨ l.fmt = fInt32 ∨ l.fmt = fFP64 then ⟨BitVec.ofNat 64 raw, 0⟩
  else if fmtIsInt l.fmt && !l.scaled then ⟨BitVec.ofNat 64 (intBits 32 (l.val e).toInt), 0⟩
  else let r := round32 (l.val e); ⟨BitVec.ofNat 64 r.out, r.fl⟩

/-- A poisoned word delivers data to row `r`, of `rowBytes` bytes, through an active element (R222). -/
def VecLoad.rowMark (l : VecLoad) (rowBytes r : Nat) : Bool :=
  let perWord := 128 * 32 / rowBytes
  ((List.range (rowBytes / 32)).any (fun k =>
      (l.partMarks .a).getD (r * rowBytes / 32 + k) false
        && (List.range perWord).any (fun i => l.active (128 * r + k * perWord + i))))
    || ((l.partMarks .sa).getD (r / 8) false && (List.range 128).any (fun j => l.active (128 * r + j)))

/-- A destination row keeps an old element, and with it its mark (log 51). -/
def VecLoad.keeps (l : VecLoad) (r : Nat) : Bool := !l.mz && !(List.range 128).all (fun j => l.active (128 * r + j))

/-- VLD fills its register or pair. -/
def Vec.takeReg (v : Vec) (l : VecLoad) (vd : Nat) : Res Vec :=
  let wide := decide (l.fmt = fFP64)
  let rs := resTable (fun e =>
    if l.active e then l.elem e else ⟨if l.mz then 0 else v.bits64 wide vd e, 0⟩) 4096
  let mark := fun (n r : Nat) =>
    l.rowMark (elemBytes l.fmt 128) r || spGet false l.maskMarks r || (l.keeps r && v.regMarked n r)
  let u := (v.putReg vd (rs.out.map (fun x => BitVec.ofNat 32 x.toNat))).putMarks vd (mark vd)
  let u := if wide then (u.putReg (vd + 1) (rs.out.map (fun x => BitVec.ofNat 32 (x.toNat / 2 ^ 32)))).putMarks (vd + 1)
      (mark (vd + 1)) else u
  ⟨u, rs.fl⟩

/-- MLD fills its mask (R205, R214). -/
def Vec.takeMask (v : Vec) (l : VecLoad) (n : Nat) : Vec :=
  let bs := l.part .a
  { v with
    m := spSetList false v.m (4096 * n) ((List.range 4096).map (fun e =>
      if l.active e then bit (byteAt bs (e / 8)).toNat (e % 8) else !l.mz && v.mbit n e))
    mMark := spSetList false v.mMark (32 * n) ((List.range 32).map (fun r =>
      ((l.partMarks .a).getD (r / 2) false && (List.range 128).any (fun j => l.active (128 * r + j)))
        || spGet false l.maskMarks r || (l.keeps r && v.regMarked (32 + n) r))) }

/-- VTLD fills its table; a poisoned word of the first 1,028 bytes marks it (R214, R222). -/
def Vec.takeTable (v : Vec) (l : VecLoad) (n : Nat) : Vec :=
  let bs := l.part .a
  { v with t := spSetList 0 v.t (257 * n) ((List.range 257).map (fun k => wordAt bs (4 * k)))
           tMark := spSet false v.tMark n (((l.partMarks .a).take 33).any id) }

/-- A load all of whose lines have come fills its destination. -/
def Vec.takeLoad (v : Vec) (l : VecLoad) : Res Vec :=
  match l.dest with
  | .reg vd => v.takeReg l vd
  | .mask n => ⟨v.takeMask l n, 0⟩
  | .table n => ⟨v.takeTable l n, 0⟩

def VecLoad.come (l : VecLoad) : Bool := l.lines.all (fun x => x.arrived)

/-- What a landed conversion gives VEC_AMAX: its own source values, then those it holds of the conversions behind it (R157). -/
def VecLoad.maximum (l : VecLoad) : Word :=
  if l.orders then maxWord l.later (((List.range 4096).filter l.active).map l.val) else l.later

/-- Take the loads of `ls` that have come, in issue order, over those of `before`, which still wait. -/
def Vec.landAll (v : Vec) : List VecLoad → List VecLoad → Res Vec
  | before, [] => ⟨{ v with loads := before }, 0⟩
  | before, l :: ls =>
    if l.come then
      let x := { v with loads := before }.takeLoad l
      let y := (x.out.maximum [val32 l.maximum])
      let z := y.landAll y.loads ls
      ⟨z.out, x.fl ||| z.fl⟩
    else v.landAll (before ++ [l]) ls

/-- Fill from the loads that are complete, in issue order (R204). -/
def State.landLoads (s : State) (t : Nat) : State :=
  let r := (s.tile t).vec.landAll [] (s.tile t).vec.loads
  (s.setVec t (fun _ => r.out)).raiseVec t r.fl

/-! ## The end of an instruction -/

/-- The engine has issued the rows of its instruction (R204). VEC_STALLS counts the waves its rows waited under R54,
a free value (log 3). -/
def vectorRowsIssued (t : Nat) (s : State) : State :=
  if !s.silent && (s.tile t).vec.busy then
    { s.setVec t (fun v => { v with busy := false, stalls := v.stalls + Config.rowStalls s.free }) with free := s.free + 1 }
  else s

/-- VECTOR_ROWS_ISSUED (R204). -/
def execVectorRowsIssued (t : Fin 16) (s : State) : Host.Outcome State Fault Refusal := .next (vectorRowsIssued t.val s)

end Sys2Proof.Machine
end

