-- ==== Sys2Proof/Machine/Run.lean ====
section
/-!
DEFINITION. RUN and tile programs (02 R50; 03 R70; 04 R83; 10 R240 to R247, R563), and the arrival of Cistern data and
acknowledgements at the units of a tile (04 R88).
-/

namespace Sys2Proof.Machine

/-! ## RUN -/

/-- A mask of the logical tiles that the die has. -/
def Fuse.logicalMask (f : Fuse) : Nat := 2 ^ f.tileCount - 1

/-- A tile's buffer was last filled by the context (R241, R243). -/
def State.ownsBuffers (s : State) (c : Nat) (tiles : Half) : Bool :=
  (maskList tiles.toNat 16).all (fun t => decide ((s.tile t).wren.owner = some c))

/-- The parameters of a RUN (Table WRN-6). -/
def runJob (p : Pkt) : RunJob :=
  let load := bit (p.byte 11) 0
  { tiles := halfAt p.bytes 8, phandle := BitVec.ofNat 6 (p.handle 10), poff := p.u32 12, load := load,
    plines := p.byte 16, entry := p.u16 18, args := (List.range 4).map (fun i => dwordAt p.bytes (24 + 8 * i)),
    filled := !load, started := false, ended := 0, halts := [], flags := 0, data := stOK }

/-- RUN at dispatch (R243, R563). Of several failures the one in R243's order of parameters, image range and owner is
reported, an absent tile after the parameters and before the others (R39; DEDUCED, log 54). -/
def runAct (s : State) (_k : Nat) (p : Pkt) : DispOut :=
  let j := runJob p
  if j.tiles = 0 ∨ (j.load = true ∧ (j.plines = 0 ∨ 64 < j.plines)) ∨ 1023 < j.entry then .fail s stBounds
  else if s.fuse.logicalMask < j.tiles.toNat then .fail s stRefuseVariant
  else if j.load then
    match s.check p.ctx j.phandle.toNat .wr (j.poff : Int) (256 * j.plines) 256 with
    | some f => .failCheck s f
    | none => .run s (.run j)
  else if s.ownsBuffers p.ctx j.tiles then .run s (.run j)
  else .fail s stPermission

def run (q : Nat) (s : State) : State := s.dispatch q (fun p => decide (p.opcode = 0x10)) runAct

/-- RUN (R243). -/
def execRun (q : Fin 512) (s : State) : Host.Outcome State Fault Refusal := .next (run q.val s)

/-! ## Launch -/

/-- A started RUN uses the tile until every tile of its set has ended (R50; log 55). -/
def State.tileTaken (s : State) (t : Nat) : Bool :=
  s.flying.any (fun e => match e.2.job with
    | .run r => r.started && bit r.tiles.toNat t
    | _ => false)

/-- Idle tile (R50). -/
def State.tileIdle (s : State) (t : Nat) : Bool :=
  (s.tile t).wren.prog.isNone && (s.tile t).wren.claim.isNone && !s.tileTaken t

def State.tilesIdle (s : State) (tiles : Half) : Bool := (maskList tiles.toNat 16).all s.tileIdle

/-- The place of a command in the decode order; a script's commands take that of their STEP. -/
def State.decodeOrder (s : State) (c : Cmd) : Nat :=
  match c.origin with
  | .queue _ => c.order
  | .script x => match s.stepJob x with
    | none => c.order
    | some j => match s.cmd j.slot with | some d => d.order | none => c.order

/-- Tiles that a waiting command needs. -/
def Job.needs : Job → Half
  | .run r => if !r.started && !(r.load && r.filled) then r.tiles else 0
  | .attend bytes => halfAt bytes 8
  | _ => 0

/-- A waiting command of a lower class, or of the same class and decoded earlier, needs a tile of the set (R260); the commands
of one script go in its order (R371). -/
def State.yields (s : State) (k : Nat) (c : Cmd) (tiles : Half) : Bool :=
  s.flying.any (fun e => decide (e.1 ≠ k) && decide (e.2.job.needs &&& tiles ≠ 0)
    && (decide (e.2.cls < c.cls) || (decide (e.2.cls = c.cls) && (decide (s.decodeOrder e.2 < s.decodeOrder c)
      || (decide (s.decodeOrder e.2 = s.decodeOrder c) && decide (e.2.serial < c.serial))))))

/-- The fill of a LOAD: each image line is read once and given to every tile of the set (R240, R244). -/
def State.fillBuffers (s : State) (c : Nat) (r : RunJob) : Half × State :=
  (List.range r.plines).foldl (fun (a : Half × State) i =>
    let s := a.2
    let w0 := s.phys c r.phandle.toNat (r.poff + 256 * i) / 32
    let ue := (List.range 8).map (fun k => decide (wordState (s.syndrome (w0 + k)) = .uncorrectable))
    let g := s.readLines c r.phandle.toNat (r.poff + 256 * i) 1
    let s := (maskList r.tiles.toNat 16).foldl (fun s t => s.setWren t (fun w =>
      w.putLine (16 * i) g.bytes (fun k => wordStatus (g.marks.getD k false) (ue.getD k false)))) g.state
    (worstData a.1 g.status, s)) (stOK, s)

/-- The set of a LOAD is idle: it is claimed and its buffers fill (R50, R244). -/
def loadFillEnd (k : Nat) (s : State) : State :=
  match s.cmd k with
  | none => s
  | some c =>
    match c.job with
    | .run r =>
      if s.silent || r.filled || !s.tilesIdle r.tiles || s.yields k c r.tiles then s
      else
        let f := s.fillBuffers c.ctx r
        let s := (maskList r.tiles.toNat 16).foldl (fun s t => s.setWren t (fun w =>
          { w with claim := some k, owner := some c.ctx })) f.2
        s.setJob k (.run { r with filled := true, data := f.1 })
    | _ => s

/-- LOAD_FILL_END (R244). -/
def execLoadFillEnd (k : Fin 1024) (s : State) : Host.Outcome State Fault Refusal := .next (loadFillEnd k.val s)

/-- A tile at launch (R161, R192, R201, R236, R245). Buffers, owner, counters and ARR_STATUS.COLD stand. -/
def Tile.launched (x : Tile) (t rank : Nat) (k c : Nat) (r : RunJob) : Tile :=
  let args := (List.range 4).foldl (fun m i => spSet 0 m (3 + i) (r.args.getD i 0))
    (spSet 0 (spSet 0 [] 1 (BitVec.ofNat 64 rank)) 2 (BitVec.ofNat 64 t))
  { wren := { x.wren with
      x := args, xMark := [], p := 1, pc := r.entry, snapX := [], snapMark := [], snapP := 1, issued := 0, target := none
      prog := some { slot := k, ctx := c, tiles := r.tiles, rank := rank }, claim := none, lastCtx := some c, fills := []
      stores := [], loads := [], held := none, wait := none, sig := none, tsem := [], halted := false, haltStatus := 0
      haltPc := 0, haltReason := 0, ended := false, kill := none, data := stOK, raised := 0, vstores := [] }
    arr := { x.arr with run := none, pend := none, drains := [], rowMark := [], colMark := [], kind := [], flags := 0 }
    vec := { x.vec with v := [], vMark := [], m := [], mMark := [], t := [], tMark := [], busy := false, loads := []
                        flags := 0, amax := 0, qscale := 0x3F800000 } }

/-- The slot frames of the four tracts of a tile restart (R83). -/
def State.restartFrames (s : State) (t : Nat) : State :=
  (List.range 64).foldl (fun s i =>
    let tr := 4 * t + i / 16
    s.setBank tr (i % 16) { s.bank tr (i % 16) with restart := true }) s

/-- Every tile of the set starts at ENTRY (R50, R245). -/
def State.launch (s : State) (k c : Nat) (r : RunJob) : State :=
  let tiles := maskList r.tiles.toNat 16
  let s := tiles.foldl State.restartFrames s
  let s := ((List.range tiles.length).zip tiles).foldl (fun s e =>
    s.setTile e.2 ((s.tile e.2).launched e.2 e.1 k c r)) s
  s.setJob k (.run { r with started := true })

/-- The set of a RUN is idle, or its buffers are filled: the ownership check once more, and the launch (R50, R563). -/
def tileProgramLaunch (k : Nat) (s : State) : State :=
  match s.cmd k with
  | none => s
  | some c =>
    match c.job with
    | .run r =>
      if s.silent || r.started || !r.filled then s
      else if r.load then s.launch k c.ctx r
      else if !s.tilesIdle r.tiles || s.yields k c r.tiles then s
      else if s.ownsBuffers c.ctx r.tiles then s.launch k c.ctx r
      else s.finish k stPermission 0 0 []
    | _ => s

/-! ## The end of a program -/

/-- Everything the tile began is done and acknowledged (R70, R246). -/
def Tile.quiet (x : Tile) : Bool :=
  let w := x.wren
  decide (w.issued = 0) && w.loads.isEmpty && w.fills.isEmpty && w.stores.isEmpty && w.vstores.isEmpty && w.sig.isNone
    && w.wait.isNone && x.arr.run.isNone && x.arr.pend.isNone && x.arr.drains.isEmpty && x.vec.loads.isEmpty && !x.vec.busy

/-- The status of a RUN whose tiles have all ended, with its REASON and data (R247). -/
def RunJob.outcome (r : RunJob) : Half × Byte × List Byte :=
  match r.halts with
  | (_, some (st, pc, reason)) :: _ =>
    (st, reason, leBytes 2 (r.halts.foldl (fun m e => m + 2 ^ e.1) 0) ++ leBytes 2 pc)
  | _ => (r.data, 0, leBytes 4 0)

/-- The RUN job after a tile has ended. -/
def RunJob.tileEnds (r : RunJob) (t : Nat) (w : Wren) : RunJob :=
  { r with ended := setBit r.ended t true, data := worstData r.data w.data, flags := r.flags ||| w.raised
           halts := if w.halted then spSet none r.halts t (some (w.haltStatus, w.haltPc, w.haltReason)) else r.halts }

/-- A semaphore signal of tile `t` has not arrived: an effect of its program that its RUN's completion waits for (R274). -/
def State.signalling (s : State) (t : Nat) : Bool := s.pmh.sigs.any (fun g => decide (g.source.val = t))

/-- A tile's program ends; the RUN is done with the last (R70, R247, R274). -/
def tileProgramEnd (t : Nat) (s : State) : State :=
  let x := s.tile t
  match x.wren.prog with
  | none => s
  | some p =>
    if s.silent || !(x.wren.ended || x.wren.halted) || !x.quiet || s.signalling t then s
    else
      let s := s.setWren t (fun w => { w with prog := none })
      match s.cmd p.slot with
      | none => s
      | some c =>
        match c.job with
        | .run r =>
          let r := r.tileEnds t x.wren
          let s := s.setJob p.slot (.run r)
          if r.ended = r.tiles then s.finish p.slot r.outcome.1 r.outcome.2.1 r.flags r.outcome.2.2 else s
        | _ => s

/-- TILE_PROGRAM_END (R70). -/
def execTileProgramEnd (t : Fin 16) (s : State) : Host.Outcome State Fault Refusal := .next (tileProgramEnd t.val s)

/-! ## Arrivals from the Cistern -/

def State.resp (s : State) (id : Nat) : Option CisResp := s.cis.resps.find? (fun r => decide (r.id = id))

/-- A response leaves the network, and its status counts for the program of its tile (R123, R247). -/
def State.takeResp (s : State) (r : CisResp) : State :=
  let s := { s with cis := { s.cis with resps := s.cis.resps.filter (fun x => decide (x.id ≠ r.id)) } }
  s.setWren r.tile.val (fun w => { w with data := worstData w.data r.status })

/-- An operand line that the response brings. -/
def OpLine.take (l : OpLine) (r : CisResp) : OpLine :=
  if l.id = r.id then { l with data := r.data, marks := r.marks, arrived := true } else l

def ArrInstr.take (i : ArrInstr) (r : CisResp) : ArrInstr := { i with lines := i.lines.map (fun l => l.take r) }

/-- A Wren takes the data of its narrow load (R229, R231). -/
def Wren.takeLoad (w : Wren) (r : CisResp) : Wren :=
  match w.loads.find? (fun l => decide (l.id = r.id)) with
  | none => w
  | some l => ({ w with loads := w.loads.filter (fun l => decide (l.id ≠ r.id)) }).loaded l r.data (r.marks.any id)

/-- Read data reaches its requester (R88, R179, R212, R231). Lines of an instruction fill land by themselves (R240). -/
def cisternReadReturn (id : Nat) (s : State) : State :=
  match s.resp id with
  | none => s
  | some r =>
    let t := r.tile.val
    if s.silent || r.write || (s.tile t).wren.fills.any (fun f => decide (f.id = id)) then s
    else
      let s := (s.takeResp r).setWren t (fun w => w.takeLoad r)
      let s := (s.setArr t (fun a => { a with
        run := a.run.map (fun i => i.take r), pend := a.pend.map (fun i => i.take r)
        drains := a.drains.map (fun d => { d with wait := d.wait.map (fun i => i.take r) }) })).formDrains t
      (s.setVec t (fun v => { v with loads := v.loads.map (fun l => { l with lines := l.lines.map (fun x => x.take r) }) })).landLoads t

/-- CISTERN_READ_RETURN (R88). -/
def execCisternReadReturn (id : Nat) (s : State) : Host.Outcome State Fault Refusal := .next (cisternReadReturn id s)

/-- A write is acknowledged at its requester: a store-buffer entry, a VST line or a drain line is done (R88, R230). -/
def cisternWriteAck (id : Nat) (s : State) : State :=
  match s.resp id with
  | none => s
  | some r =>
    let t := r.tile.val
    if s.silent || !r.write then s
    else
      let s := (s.takeResp r).setWren t (fun w => { w with
        stores := w.stores.filter (fun e => decide (e.id ≠ id))
        vstores := w.vstores.filter (fun e => decide (e ≠ id)) })
      s.setArr t (fun a => { a with drains := a.drains.map (fun d => { d with ids := d.ids.filter (fun e => decide (e ≠ id)) }) })

/-- CISTERN_WRITE_ACK (R88). -/
def execCisternWriteAck (id : Nat) (s : State) : Host.Outcome State Fault Refusal := .next (cisternWriteAck id s)

end Sys2Proof.Machine
end

