-- ==== Sys2Proof/Machine/Attention.lean ====
section
/-!
DEFINITION. Fused attention and the merge of partial results (13 R304 to R325). FATTN is checked, reads its directories
and pins its pages at dispatch; its arithmetic and its writes are one action, once its tiles are idle (log 62).
-/

namespace Sys2Proof.Machine

/-! ## Parameters -/

/-- Table ATT-1. -/
structure Attn where
  tiles : Half
  kvfmt : Nat
  qfmt : Nat
  ofmt : Nat
  partialOut : Bool
  ropeHalf : Bool
  headdim : Nat
  /-- Query heads per key-value head. -/
  group : Nat
  causal : Bool
  windowed : Bool
  bitmap : Bool
  segment : Bool
  rope : Bool
  layer : Nat
  kvh0 : Nat
  nkvh : Nat
  nrows : Nat
  rh : Nat
  qh : Nat
  oh : Nat
  auxh : Nat
  dh : Nat
  rph : Nat
  window : Nat
  scale : Word
  rtoff : Nat
  sctoff : Nat
  rpoff : Nat
  peer : Half

def attnOf (bs : List Byte) : Attn :=
  let b := fun i => (byteAt bs i).toNat
  { tiles := halfAt bs 8, kvfmt := bits (b 10) 0 2, qfmt := bits (b 10) 2 1, ofmt := bits (b 10) 3 2,
    partialOut := bit (b 10) 5, ropeHalf := bit (b 10) 6, headdim := bits (b 11) 0 2, group := bits (b 11) 4 4 + 1,
    causal := bit (b 12) 0, windowed := bit (b 12) 1, bitmap := bit (b 12) 2, segment := bit (b 12) 3, rope := bit (b 12) 4,
    layer := b 13, kvh0 := b 14, nkvh := b 15, nrows := fieldAt bs 16 2, rh := b 18 % 64, qh := b 19 % 64, oh := b 20 % 64,
    auxh := b 21 % 64, dh := b 22 % 64, rph := b 23 % 64, window := fieldAt bs 24 4, scale := wordAt bs 28,
    rtoff := fieldAt bs 32 8, sctoff := fieldAt bs 40 8, rpoff := fieldAt bs 48 8, peer := halfAt bs 56 }

def headDim (code : Nat) : Nat := [64, 128, 256].getD code 64

def Attn.dim (a : Attn) : Nat := headDim a.headdim
def Attn.remote (a : Attn) : Bool := decide (a.peer ≠ 0xFFFF)
def Attn.queryFmt (a : Attn) : Nat := if a.qfmt = 1 then fFP16 else fBF16

/-- Format of an OFMT code. -/
def outFmt (code : Nat) : Nat := [fBF16, fFP16, fFP32].getD code fFP32

/-- Format of the outputs (R307). -/
def Attn.storeFmt (a : Attn) : Nat := if a.partialOut then fFP32 else outFmt a.ofmt

/-- Table ATT-2. -/
structure ARow where
  diroff : Nat
  keylen : Nat
  qpos0 : Nat
  npos : Nat
  qoff : Nat
  ooff : Nat
  auxoff : Nat
  soff : Nat

def arowAt (bs : List Byte) (i : Nat) : ARow :=
  let b := 64 * i
  { diroff := fieldAt bs b 8, keylen := fieldAt bs (b + 8) 4, qpos0 := fieldAt bs (b + 12) 4, npos := fieldAt bs (b + 16) 2,
    qoff := fieldAt bs (b + 24) 8, ooff := fieldAt bs (b + 32) 8, auxoff := fieldAt bs (b + 40) 8,
    soff := fieldAt bs (b + 48) 8 }

/-- R313. -/
def ARow.tooLong (r : ARow) : Bool := decide (131072 < r.keylen) || decide (131072 < r.qpos0 + r.npos)

/-- *Q* of R307. -/
def Attn.queries (a : Attn) (r : ARow) : Nat := r.npos * a.group

/-- Bytes of a bitmap row, and of a row's bitmap area (R311). -/
def ARow.bitmapRow (r : ARow) : Nat := (r.keylen + 2047) / 2048 * 256
def Attn.bitmapBytes (a : Attn) (r : ARow) : Nat := if a.bitmap then r.npos * r.bitmapRow else 0

/-- Where the segment numbers stand, and how many (R311). -/
def Attn.segOff (a : Attn) (r : ARow) : Nat := r.auxoff + a.bitmapBytes r
def ARow.segCount (r : ARow) : Nat := max r.keylen (r.qpos0 + r.npos)

/-- Pages of a row that are visited (R321). -/
def State.visited (s : State) (c : Nat) (r : ARow) : List Nat :=
  (List.range ((r.keylen + 63) / 64)).filter (s.localBlock c)

/-! ## Checks at dispatch (R305, R334, R95) -/

/-- What needs no memory. -/
def State.attnFault (s : State) (c : Nat) (a : Attn) : Option CheckFail :=
  match s.poolFault c false with
  | some f => some f
  | none =>
    if a.kvfmt = 3 ∨ a.ofmt = 3 ∨ a.headdim = 3 ∨ a.nkvh = 0 ∨ a.nrows = 0 ∨ 512 < a.nrows
      ∨ (a.windowed = true ∧ a.window = 0) ∨ (a.remote = true ∧ a.partialOut = false)
      ∨ (s.act.placeMode c = 1 ∧ 1 < s.act.placeStripes c ∧ a.partialOut = false)
      ∨ a.kvfmt ≠ (s.pool c).fmt.toNat ∨ a.headdim ≠ (s.pool c).headdim.toNat ∨ a.tiles = 0 then some boundsFail
    else if s.fuse.logicalMask < a.tiles.toNat then some ⟨stRefuseVariant, 0⟩
    else s.chk c a.rh .wr a.rtoff (64 * a.nrows)

/-- Ranges of one row, without the rotary table. -/
def State.arowRanges (s : State) (c : Nat) (a : Attn) (r : ARow) : List (Option CheckFail) :=
  let n := a.nkvh * a.queries r
  [s.chk c a.qh .wr r.qoff (2 * n * a.dim)]
    ++ (if a.remote then [] else
      [s.chk c a.oh .ww r.ooff (elemBytes a.storeFmt (n * a.dim))]
        ++ (if a.partialOut then [s.chk c a.oh .ww r.soff (8 * n)] else []))
    ++ [s.chk c a.auxh .wr r.auxoff (a.bitmapBytes r)]
    ++ (if a.segment then [s.chk c a.auxh .wr (a.segOff r) (2 * r.segCount)] else [])

/-- The segment number of a position. -/
def segAt (segs : List Byte) (p : Nat) : Nat := fieldAt segs (2 * p) 2

/-- Positions just before `p` that carry the same segment number (R312). -/
def segRun (segs : List Byte) (v : Nat) : Nat → Nat
  | 0 => 0
  | p + 1 => if segAt segs p = v then segRun segs v p + 1 else 0

/-- The rotary position of a query (R312). -/
def Attn.rotary (a : Attn) (segs : List Byte) (q : Nat) : Nat := if a.segment then segRun segs (segAt segs q) q else q

/-- Offset of the rotary entries of a position (R308). -/
def Attn.ropeOff (a : Attn) (t : Nat) : Nat := a.rpoff + 4 * a.dim * t

/-- Segment numbers of a row, as the check of its rotary range reads them. -/
def State.segsOf (s : State) (c : Nat) (a : Attn) (r : ARow) : List Byte :=
  if a.segment then (s.readBytes c a.auxh (a.segOff r) (2 * r.segCount)).bytes else []

/-- The rotary ranges of a row. -/
def State.ropeRanges (s : State) (c : Nat) (a : Attn) (r : ARow) : List (Option CheckFail) :=
  if a.rope then
    let segs := s.segsOf c a r
    (List.range r.npos).map (fun j => s.chk c a.rph .wr (a.ropeOff (a.rotary segs (r.qpos0 + j))) (4 * a.dim))
  else []

/-- Resolve the directory entries of a row: its pages, head by head, or the check that fails (R334, R336). -/
def Io.resolveRow (x : Io) (c : Nat) (a : Attn) (r : ARow) : Except CheckFail (List Nat) × Io :=
  match x.dir c a.dh r.diroff false with
  | (.error f, x) => (.error f, x)
  | (.ok d, x) =>
    let bs := x.s.visited c r
    if d.layers ≤ a.layer ∨ a.kvh0 < d.head0 ∨ d.head0 + d.heads < a.kvh0 + a.nkvh ∨ bs.any (fun b => decide (d.blocks ≤ b))
    then (.error boundsFail, x)
    else
      let es := x.ents c d [a.layer] ((List.range a.nkvh).map (fun k => a.kvh0 + k)) bs
      if es.1.all (fun e => entryV e.v && es.2.s.pageHeld c (entryPage e.v)) then
        (.ok (es.1.map (fun e => entryPage e.v)), es.2)
      else (.error boundsFail, es.2)

/-- Resolve every row in order; a row that fails under R313 names no page. -/
def Io.resolveRows (c : Nat) (a : Attn) : List ARow → Io → Except CheckFail (List Nat) × Io
  | [], x => (.ok [], x)
  | r :: rs, x =>
    if r.tooLong then Io.resolveRows c a rs x
    else
      match x.resolveRow c a r with
      | (.error f, x) => (.error f, x)
      | (.ok ps, x) =>
        match Io.resolveRows c a rs x with
        | (.error f, x) => (.error f, x)
        | (.ok qs, x) => (.ok (ps ++ qs), x)

/-- The rows, after every check of the command: the pages it resolves, in order. -/
def Io.attnChecks (x : Io) (c : Nat) (a : Attn) : Except CheckFail (List Nat) × Io :=
  let t := x.read c a.rh a.rtoff (64 * a.nrows)
  let rows := (List.range a.nrows).map (arowAt t.1)
  let s := t.2.s
  if rows.any (fun r => decide (r.npos = 0) || decide (128 < a.queries r)) then (.error boundsFail, t.2)
  else
    let live := rows.filter (fun r => !r.tooLong)
    let scale := if a.kvfmt = 0 ∨ live.isEmpty then none else s.chk c a.auxh .wr (a.sctoff + 8 * a.kvh0) (8 * a.nkvh)
    match firstFail (live.flatMap (s.arowRanges c a) ++ [scale]) with
    | some f => (.error f, t.2)
    | none =>
      match firstFail (live.flatMap (s.ropeRanges c a)) with
      | some f => (.error f, t.2)
      | none => Io.resolveRows c a rows t.2

/-! ## Reads -/

/-- A word of the lines read that touches the `n` bytes at offset `off` is marked. -/
def anyMark (marks : List Bool) (off n : Nat) : Bool :=
  (List.range ((off % 256 + n + 31) / 32 - off % 256 / 32)).any (fun i => marks.getD (off % 256 / 32 + i) false)

/-- Read bytes, and whether a word of them is poisoned. -/
def Io.readP (x : Io) (c h off n : Nat) : (List Byte × Bool) × Io :=
  if n = 0 then (([], false), x)
  else
    let g := x.s.readBytes c h off n
    ((g.bytes, anyMark g.marks off n), { x with s := g.state, st := worstData x.st g.status })

/-- One key and value of a page: elements, scale bytes, and whether a word of them is poisoned. -/
structure KeyIn where
  pos : Nat
  k : List Val
  ks : List Nat
  v : List Val
  vs : List Nat
  bad : Bool

/-- Element format of a page (R317). -/
def kvElemFmt (kvfmt : Nat) : Nat := [fBF16, fE4M3, fInt4].getD kvfmt fBF16

/-- Read position `p` of page `n`, which is position `pos` of the sequence (Table KVP-1). -/
def Io.readKey (x : Io) (c n p pos : Nat) : KeyIn × Io :=
  let pl := x.pool c
  let h := pl.phandle.toNat
  let base := pl.pageOff n
  let ew := pl.elems / 64
  let sw := pl.scales / 64
  let f := kvElemFmt pl.fmt.toNat
  let k := x.readP c h (base + p * ew) ew
  let v := k.2.readP c h (base + pl.elems + p * ew) ew
  let ks := v.2.readP c h (base + 2 * pl.elems + p * sw) sw
  let vs := ks.2.readP c h (base + 2 * pl.elems + pl.scales + p * sw) sw
  let elems := fun (bs : List Byte) => (List.range pl.dim).map (fun i => elemVal f true (elemAt f bs i))
  ({ pos := pos, k := elems k.1.1, ks := ks.1.1.map BitVec.toNat, v := elems v.1.1, vs := vs.1.1.map BitVec.toNat,
     bad := k.1.2 || v.1.2 || ks.1.2 || vs.1.2 }, vs.2)

/-- The keys below KEYLEN of the visited pages, in page order; a page's missing keys are padding. -/
def Io.readKeys (x : Io) (c keylen : Nat) (pages : List (Nat × Nat)) : List (List KeyIn) × Io :=
  pages.foldl (fun a bp =>
    let n := min 64 (keylen - 64 * bp.1)
    let r := (List.range n).foldl (fun (b : List KeyIn × Io) p =>
      let k := b.2.readKey c bp.2 p (64 * bp.1 + p)
      (b.1 ++ [k.1], k.2)) ([], a.2)
    (a.1 ++ [r.1], r.2)) ([], x)

/-- Two pages make a block of 128 keys; padding fills the rest (R314, R321). -/
def blocksOf : List (List KeyIn) → List (List (Option KeyIn))
  | [] => []
  | [p] => [(List.range 128).map (fun i => p[i]?)]
  | p :: q :: l => ((List.range 64).map (fun i => p[i]?) ++ (List.range 64).map (fun i => q[i]?)) :: blocksOf l

/-! ## Scores (R308, R309) -/

/-- Flags raised in the Tensor Array and in the Vector Engine. -/
structure TwoFlags where
  arr : Flags
  vec : Flags

def TwoFlags.none : TwoFlags := { arr := 0, vec := 0 }
def TwoFlags.or (a b : TwoFlags) : TwoFlags := { arr := a.arr ||| b.arr, vec := a.vec ||| b.vec }

/-- A value rounded to FP32 and stored into a format. -/
def storeVia32 (f : FloatFmt) (v : Val) : Res Val :=
  let a := round32 v
  let b := f.roundTo (fmtFP32.decode a.out)
  ⟨f.decode b.out, a.fl ||| b.fl⟩

/-- Element `e` of a rotated query (R308). -/
def Attn.rotate (a : Attn) (x : List Val) (entries : List Byte) (e : Nat) : Res Val :=
  let half := a.dim / 2
  let i := if a.ropeHalf then e % half else e / 2
  let second := if a.ropeHalf then decide (half ≤ e) else decide (e % 2 = 1)
  let j := if a.ropeHalf then i else 2 * i
  let p := x.getD j (.zero false)
  let q := x.getD (if a.ropeHalf then i + half else j + 1) (.zero false)
  let co := val32 (wordAt entries (8 * i))
  let si := val32 (wordAt entries (8 * i + 4))
  storeVia32 (fmtFloat a.queryFmt) (if second then (p.mul si).add (q.mul co) else (p.mul co).sub (q.mul si))

/-- Elements 16 g to 16 g + 15. -/
def group16 (l : List Val) (g : Nat) : List Val := (l.drop (16 * g)).take 16

/-- The score of a query against a key before masks (R309, R319). -/
def Attn.score (a : Attn) (ck : Val) (q : List Val) (k : KeyIn) : Res Word :=
  let sb := fun g => if a.kvfmt = 0 then 0x7F else k.ks.getD (if a.kvfmt = 2 then g / 2 else g) 0x7F
  let acc := accGroups kindFp32 (fun g => groupSum (group16 q g) (group16 k.k g) 0x7F (sb g)) (a.dim / 16) ⟨0, 0⟩
  let r := drainCell fFP32 false (val32 a.scale) ck none (val32 acc.out)
  ⟨BitVec.ofNat 32 r.out, acc.fl ||| r.fl⟩

/-- A value element as P·V takes it (R319). -/
def Attn.valueElem (a : Attn) (k : KeyIn) (e : Nat) : Res Val :=
  let x := k.v.getD e (.zero false)
  if a.kvfmt = 0 then ⟨x, 0⟩
  else
    let r := fmtBF16.roundTo ((scaleVal (k.vs.getD (e / (if a.kvfmt = 2 then 32 else 16)) 0x7F)).mul x)
    ⟨fmtBF16.decode r.out, r.fl⟩

/-! ## The softmax (R314 to R316) -/

def negInf32 : Word := 0xFF800000
def posInf32 : Word := 0x7F800000
def nan32 : Word := 0x7FC00000
def one32 : Word := 0x3F800000

def res32 (v : Val) : Res Word :=
  let r := round32 v
  ⟨BitVec.ofNat 32 r.out, r.fl⟩

/-- `weight` of R314. -/
def weight32 (s mn : Word) : Res Word :=
  if mn = posInf32 then ⟨if s = posInf32 then one32 else 0, 0⟩
  else if s = negInf32 then ⟨0, 0⟩
  else
    let d := res32 ((val32 s).sub (val32 mn))
    let r := res32 (exp2Val (val32 d.out))
    ⟨r.out, d.fl ||| r.fl⟩

/-- Equal values, +0 equal to −0. -/
def same32 (a b : Word) : Bool := decide ((val32 a).cmp (val32 b) = 0)

/-- The running state of a query row. -/
structure Soft where
  m : Word
  l : Word
  acc : List Word
  nan : Bool
  fl : TwoFlags

/-- One block: scores, then for each key its value elements, none where it is masked or padding; `vf` are the flags that
reading the values raises. -/
def Soft.block (d : Nat) (st : Soft) (scores : List Word) (vals : List (Option (List Val))) (vf : Flags) : Soft :=
  if scores.any (fun x => (val32 x).isNan) then { st with nan := true, fl := { st.fl with vec := st.fl.vec ||| flNV } }
  else
    let mn := (reduceMinMax true ((st.m :: scores).map val32)).out
    if mn = negInf32 then st
    else
      let al := if same32 mn st.m then ⟨one32, 0⟩ else weight32 st.m mn
      let ps := resTable (fun j => weight32 (scores.getD j negInf32) mn) 128
      let sum := treeSum 7 ps.out
      let l := res32 (((val32 al.out).mul (val32 st.l)).add (val32 sum.out))
      let pb := resTable (fun j => fmtBF16.roundTo (val32 (ps.out.getD j 0))) 128
      let pv := fun j => if (vals.getD j none).isSome then fmtBF16.decode (pb.out.getD j 0) else Val.zero false
      let out := resTable (fun e =>
        let x := accGroups kindFp32 (fun g => groupSum ((List.range 16).map (fun k => pv (16 * g + k)))
          ((List.range 16).map (fun k => match vals.getD (16 * g + k) none with
            | some v => v.getD e (.zero false)
            | none => .zero false)) 0x7F 0x7F) 8 ⟨0, 0⟩
        let y := res32 (((val32 al.out).mul (val32 (st.acc.getD e 0))).add (val32 x.out))
        (⟨(y.out, x.fl), y.fl⟩ : Res (Word × Flags))) d
      { m := mn, l := l.out, acc := out.out.map (fun x => x.1), nan := false
        fl := { arr := out.out.foldl (fun f x => f ||| x.2) (st.fl.arr ||| vf)
                vec := st.fl.vec ||| al.fl ||| ps.fl ||| sum.fl ||| l.fl ||| pb.fl ||| out.fl } }

/-- What a query row stores: its elements before the output format, *m* and *l*, and what it counts as. -/
structure RowOut where
  vals : List Val
  m : Word
  l : Word
  empty : Bool
  nan : Bool
  fl : TwoFlags

/-- The end of `attend`, and R316; an empty row raises no flag (R315). -/
def Soft.finish (st : Soft) (d : Nat) (partialOut : Bool) (cv : Val) : RowOut :=
  if st.nan then
    { vals := List.replicate d (.nan false), m := nan32, l := nan32, empty := false, nan := true, fl := st.fl }
  else if st.m = negInf32 then
    { vals := List.replicate d (.zero false), m := negInf32, l := 0, empty := true, nan := false, fl := .none }
  else
    let nx := flagIf (decide (st.m = posInf32)) flNX
    let r : Res Val := if partialOut then ⟨.one, 0⟩ else
      let q := round32 (recipVal (val32 st.l))
      ⟨fmtFP32.decode q.out, q.fl⟩
    let out := resTable (fun e => let y := round32 ((cv.mul (val32 (st.acc.getD e 0))).mul r.out)
      (⟨fmtFP32.decode y.out, y.fl⟩ : Res Val)) d
    { vals := out.out, m := st.m, l := st.l, empty := false, nan := false
      fl := { st.fl with vec := st.fl.vec ||| nx ||| r.fl ||| out.fl } }

/-- Elements stored into a format. -/
def storeRow (f : Nat) (vals : List Val) : List Byte × Flags :=
  let r := resTable (fun e => (fmtFloat f).roundTo (vals.getD e (.zero false))) vals.length
  (packElems f r.out, r.fl)

/-! ## A unit (R306, R307) -/

/-- What the rows of a unit share: its mask data, each with its poison mark. -/
structure UnitIn where
  a : Attn
  r : ARow
  /-- Key-value head less KVH0. -/
  h : Nat
  ck : Val
  cv : Val
  segs : List Byte
  /-- Bitmap rows by query position. -/
  maps : List (List Byte × Bool)
  blocks : List (List (Option KeyIn))
  /-- The scale table or the segment numbers are poisoned. -/
  bad : Bool

/-- Key `k` is visible to query position number `j` of the row (R310, R311). -/
def UnitIn.visible (u : UnitIn) (j k : Nat) : Bool :=
  let q := u.r.qpos0 + j
  (!u.a.causal || decide (k ≤ q)) && (!u.a.windowed || decide (q < k + u.a.window))
    && (!u.a.bitmap || bit (byteAt (u.maps.getD j ([], false)).1 (k / 8)).toNat (k % 8))
    && (!u.a.segment || decide (segAt u.segs k = segAt u.segs q)) && decide (k < u.r.keylen)

/-- The output of one query row from its rotated query. -/
def UnitIn.attend (u : UnitIn) (j : Nat) (q : List Val) : RowOut :=
  let d := u.a.dim
  let st := u.blocks.foldl (fun (st : Soft) blk =>
    let seen := blk.map (fun k => match k with | some k => if u.visible j k.pos then some k else none | none => none)
    let sc := resTable (fun i => match seen.getD i none with
      | some k => u.a.score u.ck q k
      | none => ⟨negInf32, 0⟩) 128
    let vs := resTable (fun i => match seen.getD i none with
      | some k => let v := resTable (u.a.valueElem k) d
                  (⟨some v.out, v.fl⟩ : Res (Option (List Val)))
      | none => ⟨none, 0⟩) 128
    if st.nan then st
    else Soft.block d { st with fl := { st.fl with arr := st.fl.arr ||| sc.fl } } sc.out vs.out vs.fl)
    { m := negInf32, l := 0, acc := List.replicate d 0, nan := false, fl := .none }
  st.finish d u.a.partialOut u.cv

/-- A visible key of query position `j` is poisoned. -/
def UnitIn.badKeys (u : UnitIn) (j : Nat) : Bool :=
  u.blocks.any (fun blk => blk.any (fun k => match k with | some k => k.bad && u.visible j k.pos | none => false))

/-- One query row of a unit: read its query, rotate it, attend. -/
def Io.queryRow (x : Io) (c : Nat) (u : UnitIn) (i : Nat) : (RowOut × Bool) × Io :=
  let a := u.a
  let j := i / a.group
  let n := u.h * a.queries u.r + i
  let g := x.readP c a.qh (u.r.qoff + 2 * n * a.dim) (2 * a.dim)
  let q0 := (List.range a.dim).map (fun e => elemVal a.queryFmt false (elemAt a.queryFmt g.1.1 e))
  let bad := g.1.2 || u.bad || (u.maps.getD j ([], false)).2 || u.badKeys j
  if a.rope then
    let t := g.2.readP c a.rph (a.ropeOff (a.rotary u.segs (u.r.qpos0 + j))) (4 * a.dim)
    let q := resTable (a.rotate q0 t.1.1) a.dim
    let o := u.attend j q.out
    (((if o.empty then o else { o with fl := { o.fl with vec := o.fl.vec ||| q.fl } }), bad || t.1.2), t.2)
  else ((u.attend j q0, bad), g.2)

/-- What the rows done so far come to. -/
structure AttnAcc where
  x : Io
  empty : Nat
  nan : Nat
  /-- Flags by tile rank. -/
  fl : Sparse Flags × Sparse Flags
  /-- Ranges for another die, in order: offset and bytes. -/
  sends : List (Nat × List Byte)

/-- The tile of a unit raises flags (R306). -/
def AttnAcc.raise (z : AttnAcc) (rank : Nat) (f : TwoFlags) : AttnAcc :=
  { z with fl := (spModify 0 z.fl.1 rank (fun v => v ||| f.arr), spModify 0 z.fl.2 rank (fun v => v ||| f.vec))
           x := { z.x with fl := z.x.fl ||| f.arr ||| f.vec } }

/-- Marks for every word of a run of bytes, where the run is poisoned. -/
def marksFor (bad : Bool) (off n : Nat) : List Bool := if bad then List.replicate ((off % 32 + n + 31) / 32) true else []

/-- Write the outputs of one query row, or keep them for the other die (R307, R316, R322). -/
def AttnAcc.store (z : AttnAcc) (c : Nat) (u : UnitIn) (rank i : Nat) (o : RowOut) (bad : Bool) : AttnAcc :=
  let a := u.a
  let n := u.h * a.queries u.r + i
  let b := storeRow a.storeFmt o.vals
  let size := elemBytes a.storeFmt a.dim
  let stats := leBytes 4 o.m.toNat ++ leBytes 4 o.l.toNat
  let z := z.raise rank (o.fl.or { arr := 0, vec := b.2 })
  let z := { z with empty := z.empty + b2n o.empty, nan := z.nan + b2n o.nan }
  let ooff := u.r.ooff + n * size
  let soff := u.r.soff + 8 * n
  if a.remote then { z with sends := z.sends ++ [(ooff, b.1), (soff, stats)] }
  else
    let x := z.x.writeMarked c a.oh ooff b.1 (marksFor bad ooff size)
    { z with x := if a.partialOut then x.writeMarked c a.oh soff stats (marksFor bad soff 8) else x }

/-- One unit: read its scales, masks and pages, then its query rows. -/
def AttnAcc.unit (c : Nat) (a : Attn) (ntiles : Nat) (z : AttnAcc) (row h : Nat) (r : ARow) (pages : List (Nat × Nat)) : AttnAcc :=
  let sc := if a.kvfmt = 0 then (([], false), z.x) else z.x.readP c a.auxh (a.sctoff + 8 * (a.kvh0 + h)) 8
  let sg := if a.segment then sc.2.readP c a.auxh (a.segOff r) (2 * r.segCount) else (([], false), sc.2)
  let mp := (List.range (if a.bitmap then r.npos else 0)).foldl (fun (m : List (List Byte × Bool) × Io) j =>
    let g := m.2.readP c a.auxh (r.auxoff + j * r.bitmapRow) r.bitmapRow
    (m.1 ++ [g.1], g.2)) ([], sg.2)
  let ks := mp.2.readKeys c r.keylen pages
  let coarse := fun i => if a.kvfmt = 0 then Val.one else val32 (wordAt sc.1.1 i)
  let u : UnitIn := { a := a, r := r, h := h, ck := coarse 0, cv := coarse 4, segs := sg.1.1, maps := mp.1,
                      blocks := blocksOf ks.1, bad := sc.1.2 || sg.1.2 }
  let rank := (row * a.nkvh + h) % ntiles
  (List.range (a.queries r)).foldl (fun z i =>
    let o := z.x.queryRow c u i
    ({ z with x := o.2 }).store c u rank i o.1.1 o.1.2) { z with x := ks.2 }

/-- The rows in order; `pages` are those resolved at dispatch, row by row and head by head. -/
def AttnAcc.rows (c : Nat) (a : Attn) (ntiles : Nat) : Nat → List ARow → List Nat → AttnAcc → AttnAcc
  | _, [], _, z => z
  | i, r :: rs, pages, z =>
    if r.tooLong then AttnAcc.rows c a ntiles (i + 1) rs pages z
    else
      let bs := z.x.s.visited c r
      let z := (List.range a.nkvh).foldl (fun z h =>
        z.unit c a ntiles i h r (bs.zip (pages.drop (h * bs.length)))) z
      AttnAcc.rows c a ntiles (i + 1) rs (pages.drop (a.nkvh * bs.length)) z

/-! ## Running FATTN -/

/-- Raise the flags of each tile of the set. -/
def State.raiseTiles (s : State) (tiles : Half) (fl : Sparse Flags × Sparse Flags) : State :=
  let l := maskList tiles.toNat 16
  (List.range l.length).foldl (fun s i =>
    let t := l.getD i 0
    let x := s.tile t
    s.setTile t { x with arr := { x.arr with flags := x.arr.flags ||| spGet 0 fl.1 i }
                         vec := { x.vec with flags := x.vec.flags ||| spGet 0 fl.2 i } }) s

/-- Rows that R313 fails, ascending. -/
def failedRows (rows : List ARow) : List Nat :=
  (List.range rows.length).filter (fun i => match rows[i]? with | some r => r.tooLong | none => false)

/-- Completion data of R325. -/
def attnData (empty failed lowest nan : Nat) : List Byte :=
  leBytes 4 empty ++ leBytes 2 failed ++ leBytes 2 lowest ++ leBytes 4 nan

/-- Statistics on the counters of Table ATT-7. -/
def Att.count (t : Att) (empty failed nan : Nat) : Att :=
  { emptyRows := t.emptyRows + BitVec.ofNat 32 empty, lenFail := t.lenFail + BitVec.ofNat 32 failed,
    nanRows := t.nanRows + BitVec.ofNat 32 nan }

/-- Pieces of at most 32 KiB of each range (R440). -/
def pieces (fuel : Nat) (off : Nat) (bs : List Byte) : List (Nat × List Byte) :=
  match fuel with
  | 0 => []
  | fuel + 1 => if bs.isEmpty then [] else (off, bs.take segBytes) :: pieces fuel (off + segBytes) (bs.drop segBytes)

/-- Join ranges that follow each other. -/
def joinRanges : List (Nat × List Byte) → List (Nat × List Byte)
  | [] => []
  | (o, b) :: l =>
    match joinRanges l with
    | (p, d) :: m => if o + b.length = p then (o, b ++ d) :: m else (o, b) :: (p, d) :: m
    | [] => [(o, b)]

/-- Send a partial result to another die, one segment a piece (R322, R441; log 63). -/
def State.sendPieces (s : State) (c k : Nat) (peer : Half) (handle : Nat) (zrc : Bool) (ps : List (Nat × List Byte)) : State :=
  (List.range ps.length).foldl (fun s i =>
    let p := ps.getD i (0, [])
    let s := s.sendOwn (wrSegFlit s.dieId peer (BitVec.ofNat 4 c) (BitVec.ofNat 10 k) i handle (decide (i + 1 = ps.length))
      false 0 p.1 p.2.length 0)
    (dataFlits s.dieId peer (BitVec.ofNat 4 c) (BitVec.ofNat 10 k) (BitVec.ofNat 15 i) zrc [] (p.2.length + 1) 0 p.2).foldl
      State.sendOwn s) s

/-- The command's arithmetic and its writes, once its tiles are idle; `pages` are those it pinned. -/
def attnRun (s : State) (k c : Nat) (bytes : List Byte) (pages : List Nat) : DispOut :=
  let a := attnOf bytes
  let t := (Io.of s).read c a.rh a.rtoff (64 * a.nrows)
  let rows := (List.range a.nrows).map (arowAt t.1)
  let n := (maskList a.tiles.toNat 16).length
  let z := AttnAcc.rows c a n 0 rows pages { x := t.2, empty := 0, nan := 0, fl := ([], []), sends := [] }
  let failed := failedRows rows
  let s := z.x.s.raiseTiles a.tiles z.fl
  let s := { s with att := s.att.count z.empty failed.length z.nan }
  let data := attnData z.empty failed.length (failed.headD 0xFFFF) z.nan
  let st := if z.x.st = stOK && !failed.isEmpty then stLengthLimit else z.x.st
  if a.remote && !z.sends.isEmpty then
    match s.egressPort a.peer with
    | none => .fin s stPartnerLost 0 z.x.fl data
    | some port =>
      let ps := (joinRanges (z.sends.filter (fun e => !e.2.isEmpty))).flatMap (fun e => pieces (e.2.length + 1) e.1 e.2)
      let s := s.sendPieces c k a.peer a.oh false ps
      let s := match s.cmd k with
        | none => s
        | some x => s.setCmd k (some { x with flags := x.flags ||| z.x.fl })
      .run s (.xfer { port := port, peer := a.peer, handle := BitVec.ofNat 6 a.oh, off := 0, len := 0, isRead := false,
                      semen := false, sem := 0, semval := 0, segs := List.replicate ps.length Seg.empty, okStatus := st,
                      data := some data })
  else .fin s st 0 z.x.fl data

/-! ## MERGE_LSE (R323) -/

/-- Table ATT-6. -/
structure Merge where
  tiles : Half
  nin : Nat
  partialOut : Bool
  ofmt : Nat
  headdim : Nat
  ih : Nat
  oh : Nat
  nq : Nat
  ioff : Nat
  istride : Nat
  soff : Nat
  sstride : Nat
  ooff : Nat
  osoff : Nat

def mergeOf (bs : List Byte) : Merge :=
  let b := fun i => (byteAt bs i).toNat
  { tiles := halfAt bs 8, nin := b 10, partialOut := bit (b 11) 0, ofmt := bits (b 11) 1 2, headdim := bits (b 11) 3 2,
    ih := b 12 % 64, oh := b 13 % 64, nq := fieldAt bs 16 4, ioff := fieldAt bs 24 8, istride := fieldAt bs 32 8,
    soff := fieldAt bs 40 8, sstride := fieldAt bs 48 8, ooff := fieldAt bs 56 8, osoff := fieldAt bs 64 8 }

def Merge.dim (m : Merge) : Nat := headDim m.headdim
def Merge.storeFmt (m : Merge) : Nat := if m.partialOut then fFP32 else outFmt m.ofmt

def State.mergeFault (s : State) (c : Nat) (m : Merge) : Option CheckFail :=
  if m.nin < 2 ∨ 16 < m.nin ∨ m.ofmt = 3 ∨ m.headdim = 3 ∨ m.nq = 0 ∨ m.tiles = 0 then some boundsFail
  else if s.fuse.logicalMask < m.tiles.toNat then some ⟨stRefuseVariant, 0⟩
  else firstFail ((List.range m.nin).flatMap (fun i =>
      [s.chk c m.ih .wr (m.ioff + i * m.istride) (4 * m.nq * m.dim), s.chk c m.ih .wr (m.soff + i * m.sstride) (8 * m.nq)])
    ++ [s.chk c m.oh .ww m.ooff (elemBytes m.storeFmt (m.nq * m.dim))]
    ++ (if m.partialOut then [s.chk c m.oh .ww m.osoff (8 * m.nq)] else []))

/-- One input of a query row: *m*, *l* and the elements. -/
structure Part where
  m : Word
  l : Word
  u : List Word

/-- `merge` of R323, and what a normalised output stores. -/
def mergeRow (d : Nat) (partialOut : Bool) (ps : List Part) : RowOut :=
  if ps.any (fun p => (val32 p.m).isNan || (val32 p.l).isNan) then
    { vals := List.replicate d (.nan false), m := nan32, l := nan32, empty := false, nan := true
      fl := { arr := 0, vec := flNV } }
  else
    let mm := (reduceMinMax true (ps.map (fun p => val32 p.m))).out
    if mm = negInf32 then
      { vals := List.replicate d (.zero false), m := negInf32, l := 0, empty := true, nan := false, fl := .none }
    else
      let ws := resTable (fun i => let p := ps.getD i ⟨0, 0, []⟩
        if same32 p.m mm then ⟨one32, 0⟩ else weight32 p.m mm) ps.length
      let sum := fun (f : Part → Word) => (List.range ps.length).foldl (fun (a : Res Word) i =>
        let r := res32 (((val32 (ws.out.getD i 0)).mul (val32 (f (ps.getD i ⟨0, 0, []⟩)))).add (val32 a.out))
        ⟨r.out, a.fl ||| r.fl⟩) ⟨0, 0⟩
      let lm := sum (fun p => p.l)
      let um := resTable (fun e => sum (fun p => p.u.getD e 0)) d
      let r : Res Val := if partialOut then ⟨.one, 0⟩ else
        let q := round32 (recipVal (val32 lm.out))
        ⟨fmtFP32.decode q.out, q.fl⟩
      let out := resTable (fun e =>
        if partialOut then (⟨val32 (um.out.getD e 0), 0⟩ : Res Val)
        else
          let y := round32 ((val32 (um.out.getD e 0)).mul r.out)
          ⟨fmtFP32.decode y.out, y.fl⟩) d
      { vals := out.out, m := mm, l := lm.out, empty := false, nan := false
        fl := { arr := 0, vec := ws.fl ||| lm.fl ||| um.fl ||| r.fl ||| out.fl } }

/-- Read input `i` of query row `q`. -/
def Io.readPart (x : Io) (c : Nat) (m : Merge) (q i : Nat) : (Part × Bool) × Io :=
  let g := x.readP c m.ih (m.ioff + i * m.istride + 4 * q * m.dim) (4 * m.dim)
  let t := g.2.readP c m.ih (m.soff + i * m.sstride + 8 * q) 8
  (({ m := wordAt t.1.1 0, l := wordAt t.1.1 4, u := (List.range m.dim).map (fun e => wordAt g.1.1 (4 * e)) },
    g.1.2 || t.1.2), t.2)

/-- Merge query row `q` and write it. -/
def AttnAcc.mergeOne (c : Nat) (m : Merge) (ntiles : Nat) (z : AttnAcc) (q : Nat) : AttnAcc :=
  let r := (List.range m.nin).foldl (fun (b : List Part × Bool × Io) i =>
    let p := b.2.2.readPart c m q i
    (b.1 ++ [p.1.1], b.2.1 || p.1.2, p.2)) ([], false, z.x)
  let o := mergeRow m.dim m.partialOut r.1
  let b := storeRow m.storeFmt o.vals
  let size := elemBytes m.storeFmt m.dim
  let z := ({ z with x := r.2.2, empty := z.empty + b2n o.empty }).raise (q % ntiles) (o.fl.or { arr := 0, vec := b.2 })
  let ooff := m.ooff + q * size
  let soff := m.osoff + 8 * q
  let x := z.x.writeMarked c m.oh ooff b.1 (marksFor r.2.1 ooff size)
  { z with x := if m.partialOut then
      x.writeMarked c m.oh soff (leBytes 4 o.m.toNat ++ leBytes 4 o.l.toNat) (marksFor r.2.1 soff 8) else x }

def mergeRun (s : State) (c : Nat) (bytes : List Byte) : DispOut :=
  let m := mergeOf bytes
  let n := (maskList m.tiles.toNat 16).length
  let z := (List.range m.nq).foldl (AttnAcc.mergeOne c m n) { x := Io.of s, empty := 0, nan := 0, fl := ([], []), sends := [] }
  let s := z.x.s.raiseTiles m.tiles z.fl
  .fin { s with att := s.att.count z.empty 0 0 } z.x.st 0 z.x.fl (attnData z.empty 0 0xFFFF 0)

/-! ## Dispatch and launch -/

/-- Start FATTN or MERGE_LSE in slot `k` now, or leave it waiting for its tiles, which a supply hold, THERMAL_HALT and the
thermal trip stop, as PMH_TILEHOLD does (R50, R260, R282, R304, R486, R500, R501). -/
def attendStart (s : State) (k : Nat) (c : Cmd) (bytes : List Byte) : DispOut :=
  let tiles := halfAt bytes 8
  if s.stopped || decide (s.pmh.tileHold &&& tiles ≠ 0) || !s.tilesIdle tiles || s.yields k c tiles then .run s (.attend bytes)
  else if c.opcode = 0x20 then attnRun s k c.ctx bytes c.pins
  else mergeRun s c.ctx bytes

/-- FATTN at dispatch: its checks, its pins, and its start (R305, R332, R336). The data status of the reads made here goes to
the command's (R325). -/
def fattnAct (s : State) (k : Nat) (p : Pkt) : DispOut :=
  let c := p.ctx
  let a := attnOf p.bytes
  match s.attnFault c a with
  | some f => .failCheck s f
  | none =>
    match (Io.of s).attnChecks c a with
    | (.error f, x) => x.fail f
    | (.ok pages, x) =>
      if a.remote && (x.s.egressPort a.peer).isNone then .fin x.s stPartnerLost 0 0 []
      else if pages.any (fun n => decide (65535 < x.s.pagePin c n + timesIn n pages)) then .wait
      else
        let x := pages.foldl (fun x n => x.pin c n) x
        match x.s.cmd k with
        | none => .wait
        | some cmd =>
          let cmd := { cmd with pins := pages, data := x.st }
          attendStart (x.s.setCmd k (some cmd)) k cmd p.bytes

def fattn (q : Nat) (s : State) : State := s.dispatch q (fun p => decide (p.opcode = 0x20)) fattnAct

/-- FATTN (R305). -/
def execFattn (q : Fin 512) (s : State) : Host.Outcome State Fault Refusal := .next (fattn q.val s)

def mergeLseAct (s : State) (k : Nat) (p : Pkt) : DispOut :=
  match s.mergeFault p.ctx (mergeOf p.bytes) with
  | some f => .failCheck s f
  | none =>
    match s.cmd k with
    | none => .wait
    | some cmd => attendStart s k cmd p.bytes

def mergeLse (q : Nat) (s : State) : State := s.dispatch q (fun p => decide (p.opcode = 0x21)) mergeLseAct

/-- MERGE_LSE (R323). -/
def execMergeLse (q : Fin 512) (s : State) : Host.Outcome State Fault Refusal := .next (mergeLse q.val s)

/-- A waiting FATTN or MERGE_LSE starts once its tiles are idle. -/
def attendLaunch (k : Nat) (s : State) : State :=
  match s.cmd k with
  | none => s
  | some c =>
    match c.job with
    | .attend bytes => if s.silent then s else (attendStart s k c bytes).apply s k
    | _ => s

/-- A tile set is idle: the RUN, FATTN or MERGE_LSE in slot `k` that waits for it starts (R50, R245, R304). -/
def tileSetStart (k : Nat) (s : State) : State := attendLaunch k (tileProgramLaunch k s)

/-- TILE_PROGRAM_LAUNCH (R50). -/
def execTileProgramLaunch (k : Fin 1024) (s : State) : Host.Outcome State Fault Refusal := .next (tileSetStart k.val s)

end Sys2Proof.Machine
end

