-- ==== Sys2Proof/Machine/Receive.lean ====
section
/-!
DEFINITION. What a port does with a flit that comes in, whatever it carries (18 R433 to R437, R447 to R453), and how a
port leaves its states.
-/

namespace Sys2Proof.Machine

/-- A partner's acknowledgement (R448): every buffered flit up to `ack` is released, and its replays are forgotten. -/
def Port.release (p : Port) (ack : Byte) : Port :=
  match p.retry.findIdx? (fun e => decide (e.1 = ack)) with
  | none => p
  | some i =>
    let left := p.retry.drop (i + 1)
    { p with retry := left, replayed := p.replayed.filter (fun r => left.any (fun e => decide (e.1.toNat = r.1))) }

/-- The acknowledgement and credit fields of a good flit (R436, R448). -/
def Port.takeFields (p : Port) (h : FlitHdr) : Port :=
  let p := { p with gotTot := spSet 0 p.gotTot h.crvc.toNat h.crtot }
  if h.ackV then p.release h.ackSeq else p

/-- The receiver's side of taking a flit in order: its SEQ, its credits and the count (R436, R449). -/
def Port.takeInOrder (p : Port) (f : Flit) : Port :=
  { p with rxSeq := p.rxSeq + 1, again := p.again.filter (fun q => decide (q ≠ p.rxSeq)), rxAny := true, nakOpen := false, rxFlits := p.rxFlits + 1
           retTot := spModify 0 p.retTot f.vc.toNat (fun n => n + BitVec.ofNat 11 (flitCredits f)) }

/-- A flit that was taken before the last RETRAIN comes once more: it is dropped, and the credits that its sender has paid
anew are returned (R436, R437; log 79). -/
def Port.dropAgain (p : Port) (seq : Byte) (f : Flit) : Port :=
  if p.again.contains seq && decide ((p.rxSeq - seq).toNat ≤ 64) then
    { p with again := p.again.filter (fun q => decide (q ≠ seq))
             retTot := spModify 0 p.retTot f.vc.toNat (fun n => n + BitVec.ofNat 11 (flitCredits f)) }
  else p

/-- The buffered flits whose channel may be sent now (Table LNK-4, R438, R501; log 79). -/
def State.replayable (s : State) (p : Port) : List (Byte × Flit) := p.retry.filter (fun e => s.vcOpen p e.2.vc)

/-- Put buffered flits on the wire again. -/
def Port.emitAll (p : Port) (fs : List (Byte × Flit)) : Port := fs.foldl (fun p e => p.emit (p.stamp e.2 e.1 false)) p

/-- A replay of the retry buffer (R449). -/
def Port.replay (p : Port) (fs : List (Byte × Flit)) : Port :=
  if fs.isEmpty then p
  else { p.emitAll fs with
         replays := p.replays + 1, replayed := fs.foldl (fun m e => spModify 0 m e.1.toNat (fun n => n + 1)) p.replayed }

def State.replayPort (s : State) (p : Nat) : State := s.setPort p ((s.port p).replay (s.replayable (s.port p)))

/-- One NAK for the flit that did not come in order (R449). -/
def Port.nakOnce (p : Port) : Port := if p.nakOpen then p else { p.sendIdle true with nakOpen := true }

/-- What a port forgets of its partner and of what it was sending. -/
def Port.forget (p : Port) : Port :=
  { p with retry := [], egress := [], replayed := [], again := [], nakOpen := false, leaving := false, partner := none,
           heard := false, unacked := 0, idleSent := false, idleHeard := false }

/-- The handshake bits and credits of a port that begins to train (R437), its sequence numbers from 0 (R518). -/
def Port.restart (p : Port) : Port :=
  { p.forget with sent := [], gotTot := [], retTot := [], crvc := 0, txSeq := 0, rxSeq := 0, rxAny := false }

/-- The port goes DOWN (R452, R453): its buffers are discarded, commands that await a flit over it end with `st`. -/
def State.portDown (s : State) (p : Nat) (st : Half) : State :=
  let s := s.setPort p { (s.port p).forget with state := .down, downs := (s.port p).downs + 1, trained := true }
  (s.loseCommands p st).afterTopology

/-- The port goes OFFLINE (R457). -/
def State.portOffline (s : State) (p : Nat) : State :=
  ((s.setPort p { (s.port p).forget with state := .offline }).loseCommands p stPartnerLost).afterTopology

/-- The discovery and LEAVING flits keep their type in CTRL (Table LNK-3). -/
def typLeaving : BitVec 6 := 12

def Flit.isLeaving (f : Flit) : Bool := decide (f.vc = vcCtrl) && decide (f.typ = typLeaving)

/-- A port whose LEAVING has been acknowledged goes OFFLINE (R520). -/
def State.leaveIfAcked (s : State) (p : Nat) : State :=
  let x := s.port p
  if x.leaving && !x.retry.any (fun e => e.2.isLeaving) && !x.egress.any Flit.isLeaving then s.portOffline p else s

/-- What training found of the lanes; the shaft port has no rate, neither degrades nor repairs (R431, R461). -/
def settledRate (p : Nat) (x : Port) (rate : BitVec 2) : BitVec 2 :=
  if p = 8 then 0
  else
    let top : BitVec 2 := if x.maxRate = 3 then 2 else x.maxRate
    if rate.toNat ≤ top.toNat then rate else top

def Port.trainedAt (x : Port) (p : Nat) (rate : BitVec 2) (half : Bool) (repaired : BitVec 4) : Port :=
  { x with rate := settledRate p x rate, half := decide (p ≠ 8) && half, repaired := if p = 8 then 0 else repaired }

/-- A port has trained: it enters CTRLONLY and sends HELLO, what was queued in TRAINING behind it waits on, and suspended
checks are in force again (R431, R471, R474, R476). -/
def State.portTrained (s : State) (p : Nat) (rate : BitVec 2) (half : Bool) (repaired : BitVec 4) : State :=
  let x := s.port p
  let s := s.setPort p { x.restart.trainedAt p rate half repaired with
    state := .ctrlOnly, trained := true, egress := x.egress }
  let s := { s with top := { s.top with suspended := setBit s.top.suspended (logicalPort s.top.orient p) false } }
  s.sendHello p

/-- The shaft port is in TRAINING. -/
def State.shaftTraining (s : State) (p : Nat) : Bool :=
  decide (p = 8) && !s.silent && decide ((s.port 8).state = .training)

/-- The shaft port leaves TRAINING when both ends have exchanged one good idle flit (R462). -/
def State.shaftTrained (s : State) : State :=
  if (s.port 8).idleSent && (s.port 8).idleHeard then s.portTrained 8 0 false 0 else s

/-- The port takes flits: it is bonded, it trained, and the die is neither in reset nor in STANDBY. -/
def State.receives (s : State) (p : Nat) : Bool := !s.silent && s.fuse.portPresent p && (s.port p).alive

/-- A non-idle flit comes in. Out of order it is dropped with one NAK; in order its fields and credits are taken and
`deliver` is what it does to the die (R449). -/
def State.receive (s : State) (h : FlitHdr) (f : Flit) (deliver : State → State) : State :=
  let p := h.port.val
  if !s.receives p then s
  else if h.seq ≠ (s.port p).rxSeq then s.setPort p ((s.port p).dropAgain h.seq f).nakOnce
  else
    let s := s.setPort p (((s.port p).takeFields h).takeInOrder f)
    let s := if h.nak then s.replayPort p else s
    let s := (deliver s).pump p
    s.leaveIfAcked p

/-- Forward a flit that is not for this die (R447, R475). -/
def State.relay (s : State) (f : Flit) (ingress : Nat) : State :=
  match s.routeFlit f (some ingress) with
  | .deliver => s
  | .out lp => (s.learnFlit f ingress).sendOn f lp (some ingress)

/-- A routed flit: `deliver` it if it is for this die, else forward it. -/
def State.routed (s : State) (h : FlitHdr) (f : Flit) (deliver : State → State) : State :=
  let lp := logicalPort s.top.orient h.port.val
  match s.routeFlit f (some lp) with
  | .deliver => deliver s
  | .out _ => s.relay f lp

/-- The flit that a header and payload make. -/
def mkFlit (h : FlitHdr) (vc : BitVec 2) (typ : BitVec 6) (zrc : Bool) (payload : List Byte) : Flit :=
  { vc := vc, typ := typ, src := h.src, dst := h.dst, ctx := h.ctx, xid := h.xid, segno := h.segno, zrc := zrc,
    payload := payload }

end Sys2Proof.Machine
end

