-- ==== Sys2Proof/Machine/LinkEvents.lean ====
section
/-!
DEFINITION. Events of the ports and of package time (18 R431, R449 to R456, R461 to R463; 19 R471, R481). An event that
the state does not allow changes nothing (log 7).
-/

namespace Sys2Proof.Machine

/-- Every 5 us a CTRLONLY port whose latest HELLO is unacknowledged sends it again (R471). -/
def helloResend (p : Nat) (s : State) : State :=
  if !s.silent && decide ((s.port p).state = .ctrlOnly) && decide (0 < (s.port p).unacked) then s.sendHello p else s

/-- HELLO_RESEND (R471). -/
def execHelloResend (p : Fin 9) (s : State) : Host.Outcome State Fault Refusal := .next (helloResend p.val s)

/-- A port that has sent nothing for 256 ns sends an idle flit (R452); so does the shaft port in TRAINING (R462). -/
def keepalive (p : Nat) (s : State) : State :=
  if s.shaftTraining p then (s.setPort p { (s.port p).sendIdle false with idleSent := true }).shaftTrained
  else if !s.silent && (s.port p).alive then s.setPort p ((s.port p).sendIdle false)
  else s

/-- KEEPALIVE_IDLE_SEND (R452). -/
def execKeepaliveIdleSend (p : Fin 9) (s : State) : Host.Outcome State Fault Refusal := .next (keepalive p.val s)

/-- A port that has heard no good flit for 2 us goes DOWN and tells the hub over another port (R452). -/
def linkDown (p : Nat) (s : State) : State :=
  if !s.silent && (s.port p).alive then
    (s.portDown p stPartnerLost).notify (ntLinkDown (logicalPort s.top.orient p))
  else s

/-- LINK_DOWN (R452). -/
def execLinkDown (p : Fin 9) (s : State) : Host.Outcome State Fault Refusal := .next (linkDown p.val s)

/-- The oldest buffered flit has waited 1 us for its acknowledgement (R449). A die that may send nothing replays nothing. -/
def replayTimeout (p : Nat) (s : State) : State :=
  if (s.port p).alive then s.replayPort p else s

/-- REPLAY_TIMEOUT (R449). -/
def execReplayTimeout (p : Fin 9) (s : State) : Host.Outcome State Fault Refusal := .next (replayTimeout p.val s)

/-- One buffered SEQ has been replayed 16 times. -/
def Port.worn (x : Port) : Bool := x.retry.any (fun e => decide (16 ≤ spGet 0 x.replayed e.1.toNat))

/-- After 16 replays of one SEQ the port retrains, or with its partner, whose end began it (R450). HUBDIST may change. -/
def retrainEnter (p : Nat) (partner : Bool) (s : State) : State :=
  if !s.silent && (s.port p).alive && (partner || (s.port p).worn) then
    (s.setPort p { s.port p with state := .retrain, retrains := (s.port p).retrains + 1 }).afterTopology
  else s

/-- RETRAIN_ENTER (R450). -/
def execRetrainEnter (p : Fin 9) (partner : Bool) (s : State) : Host.Outcome State Fault Refusal :=
  .next (retrainEnter p.val partner s)

/-- The 64 SEQs before the one expected next. -/
def Port.taken (x : Port) : List Byte := if x.rxAny then (List.range 64).map (fun i => x.rxSeq - 1 - BitVec.ofNat 8 i) else []

/-- Credits at full count (R437). The partner pays anew for every flit it replays, those taken already too. -/
def Port.freshCredits (x : Port) : Port := { x with sent := [], gotTot := [], retTot := [], crvc := 0, again := x.taken }

/-- Every buffered flit takes its credits anew (R437, R450). -/
def Port.charge (x : Port) : Port :=
  { x with replayed := []
           sent := x.retry.foldl (fun m e => spModify 0 m e.2.vc.toNat (fun n => n + flitCredits e.2)) x.sent }

/-- The replay that ends a RETRAIN: one replay, of what may be sent (R449, R450). -/
def State.resend (s : State) (p : Nat) : State :=
  let x := (s.port p).charge
  let fs := s.replayable x
  s.setPort p (if fs.isEmpty then x else { x.emitAll fs with replays := x.replays + 1 })

/-- Retraining completes (R450): the retry buffer is replayed; a port that comes back to CTRLONLY sends HELLO (R471), and
notices may have a way again (R516). -/
def retrainDone (p : Nat) (rate : BitVec 2) (half : Bool) (repaired : BitVec 4) (s : State) : State :=
  let x := s.port p
  if s.silent || decide (x.state ≠ .retrain) then s
  else
    let lp := logicalPort s.top.orient p
    let st : PortState := if x.handshaken && !bit s.top.mismatch.toNat lp then .active else .ctrlOnly
    let y := { x.trainedAt p rate half repaired with state := st }.freshCredits
    let s := (s.setPort p y).resend p
    let s := if st = .ctrlOnly then s.sendHello p else s
    let s := if y.half || decide (y.repaired ≠ 0) then s.notify (ntLinkDegraded lp y.half y.repaired.toNat) else s
    s.afterTopology.pump p

/-- RETRAIN_DONE (R450). -/
def execRetrainDone (p : Fin 9) (rate : BitVec 2) (half : Bool) (repaired : BitVec 4) (s : State) :
    Host.Outcome State Fault Refusal := .next (retrainDone p.val rate half repaired s)

/-- A RETRAIN that does not end within 500 us sends the port DOWN (R451). -/
def retrainTimeout (p : Nat) (s : State) : State :=
  if !s.silent && decide ((s.port p).state = .retrain) then s.portDown p stRetryExhausted else s

/-- RETRAIN_TIMEOUT (R451). -/
def execRetrainTimeout (p : Fin 9) (s : State) : Host.Outcome State Fault Refusal := .next (retrainTimeout p.val s)

/-- A DOWN port trains again every 1 ms until HUBOFF is set (R456). -/
def trainingRetry (p : Nat) (s : State) : State :=
  let x := s.port p
  if !s.silent && x.en && decide (x.state = .down) && !x.hubOff then s.setPort p { x.restart with state := .training }
  else s

/-- TRAINING_RETRY (R456). -/
def execTrainingRetry (p : Fin 9) (s : State) : Host.Outcome State Fault Refusal := .next (trainingRetry p.val s)

/-- A port that fails to train within 500 us goes DOWN (R512). -/
def trainingTimeout (p : Nat) (s : State) : State :=
  if !s.silent && decide ((s.port p).state = .training) then s.portDown p stPartnerLost else s

/-- TRAINING_TIMEOUT (R512). -/
def execTrainingTimeout (p : Fin 9) (s : State) : Host.Outcome State Fault Refusal := .next (trainingTimeout p.val s)

/-- A wellhead has trained (R431). The shaft port has no training of this kind (R461, R462). -/
def linkTrained (p : Nat) (rate : BitVec 2) (half : Bool) (repaired : BitVec 4) (s : State) : State :=
  if s.silent || decide (p = 8) || decide ((s.port p).state ≠ .training) then s
  else s.portTrained p rate half repaired

/-- LINK_TRAINED (R431). -/
def execLinkTrained (p : Fin 9) (rate : BitVec 2) (half : Bool) (repaired : BitVec 4) (s : State) :
    Host.Outcome State Fault Refusal := .next (linkTrained p.val rate half repaired s)

/-- A transfer has had no response within LNK_E2ETIMEOUT (R454). -/
def e2eTimeout (k : Nat) (s : State) : State :=
  match s.cmd k with
  | none => s
  | some c => match c.job with
    | .xfer _ => s.loseCmd k stPartnerLost
    | _ => s

/-- E2E_TIMEOUT (R454). -/
def execE2eTimeout (k : Fin 1024) (s : State) : Host.Outcome State Fault Refusal := .next (e2eTimeout k.val s)

/-- The hottest valid sensor (R499, R500); 0 when none is valid. -/
def Pwr.tmax (p : Pwr) : Nat :=
  p.temp.foldl (fun m e => match e.2 with | some t => max m t.toNat | none => m) 0

/-- Some sensor is valid. -/
def Pwr.sensed (p : Pwr) : Bool := p.temp.any (fun e => e.2.isSome)

/-- Once every 1 us the lower die sends the hottest sensor to the upper (R463). -/
def sidebandSend (s : State) : State :=
  if decide (s.effTier = 1) && !s.silent then
    let w := BitVec.ofNat 16 (s.pwr.tmax + at_ (b2n s.pwr.sensed) 10 + at_ s.pwr.sbSeq.toNat 12)
    { s with pwr := { s.pwr with sbWire := s.pwr.sbWire ++ [w], sbSeq := s.pwr.sbSeq + 1 } }
  else s

/-- THERMAL_SIDEBAND_SEND (R463). -/
def execThermalSidebandSend (s : State) : Host.Outcome State Fault Refusal := .next (sidebandSend s)

/-- The upper die takes a valid word as a report (R502, R504). -/
def sidebandWord (w : Half) (s : State) : State :=
  if decide (s.effTier = 2) && !s.silent && bit w.toNat 10 then
    { s with pwr := { s.pwr with lower := w, stackMiss := false, reported := true } }
  else s

/-- THERMAL_SIDEBAND_WORD (R502). -/
def execThermalSidebandWord (w : Half) (s : State) : Host.Outcome State Fault Refusal := .next (sidebandWord w s)

/-- After 10 us without TIME the die sends one TIME_LOST (R481). -/
def timeLost (s : State) : State :=
  if s.time.valid && !s.time.lostSent then
    ({ s with time := { s.time with lostSent := true } }).notify (ntTimeLost s.now)
  else s

/-- TIME_LOST (R481). -/
def execTimeLost (s : State) : Host.Outcome State Fault Refusal := .next (timeLost s)

end Sys2Proof.Machine
end

