-- ==== Sys2Proof/Machine/Power.lean ====
section
/-!
DEFINITION. Supplies, the governor and heat (20): the events that the monitors, sensors and the 1 us and 10 us ticks
bring, and the PWR registers.
-/

namespace Sys2Proof.Machine

/-- R463: a temperature in the encoding of the sensors. -/
def tempCode (celsius : Nat) : Nat := (celsius + 40) * 4

/-- Effective duty (R490). -/
def Pwr.duty (p : Pwr) : Nat := min p.capPower.toNat (min p.capThermal.toNat p.capStack.toNat)

/-- The caps and stops that a telemetry period has seen (Table PWR-2). -/
def State.mark (s : State) : State :=
  let p := s.pwr
  { s with pwr := { p with
      telGov := p.telGov || decide (p.capPower ≠ 8) || decide (p.capThermal ≠ 8)
      telStack := p.telStack || decide (p.capStack ≠ 8)
      telHold := p.telHold || s.supplyHold
      telHalt := p.telHalt || p.halt } }

/-- One eighth lower, at least 1/8. -/
def capDown (c : BitVec 4) : BitVec 4 := if c.toNat ≤ 1 then 1 else c - 1

/-- One eighth higher, at most 8/8. -/
def capUp (c : BitVec 4) : BitVec 4 := if 8 ≤ c.toNat then 8 else c + 1

/-- After a stop has ended, the window counts of R492 start again, Lark engines resume and what was held may be sent (R428,
R486, R494; log 30). -/
def State.resume (s : State) : State :=
  if s.stopped then s
  else
    let p := { s.pwr with lowWindows := 0 }
    let p := if p.stackMiss && decide (4 < p.capStack.toNat) && decide (s.effTier = 2) then { p with capStack := 4 } else p
    let s := { s with pwr := p }
    ({ s with lrk := { s.lrk with engines := s.lrk.engines.filterMap (fun (e : Nat × Engine) =>
        let g := { e.2 with stopped := false }
        if g = Engine.reset then none else some (e.1, g)) } }).pumpAll

/-! ## Supplies -/

/-- The lowest VCORE level told in the telemetry period (log 32). -/
def lowerMv (a b : Half) : Half := if a = 0 || b.toNat < a.toNat then b else a

/-- A level sensed on VCORE or VCIS. -/
def Pwr.sense (p : Pwr) (vcis : Bool) (mv : Half) : Pwr :=
  if vcis then { p with vcis := mv } else { p with vcore := mv, telVcore := lowerMv p.telVcore mv }

/-- VCORE or VCIS falls below its warning level: a supply hold begins (R484, R486, R487). The monitors are masked in
STANDBY (R523). -/
def supplyWarning (vcis : Bool) (mv : Half) (s : State) : State :=
  if s.rst.standby then s
  else
    let was := s.supplyHold
    let p := s.pwr.sense vcis mv
    let s := { s with pwr := if vcis then { p with vcisWarn := true } else { p with vcoreWarn := true } }
    let s := s.mark
    if was then s else s.notify (ntSupplyHold s.pwr.vcoreWarn s.pwr.vcisWarn)

/-- SUPPLY_WARNING_ASSERT (R486). -/
def execSupplyWarningAssert (vcis : Bool) (mv : Half) (s : State) : Host.Outcome State Fault Refusal :=
  .next (supplyWarning vcis mv s)

/-- The dwell above the warning level plus 15 mV has passed: the hold ends with the last warning (R484, R487). -/
def supplyRecovered (vcis : Bool) (mv : Half) (s : State) : State :=
  if s.rst.standby then s
  else
    let was := s.supplyHold
    let p := s.pwr.sense vcis mv
    let s := { s with pwr := if vcis then { p with vcisWarn := false, cisBrown := false }
                             else { p with vcoreWarn := false, coreBrown := false } }
    if was && !s.supplyHold && s.rst.held.isNone then
      let s := { s with pwr := { s.pwr with holds := s.pwr.holds + 1 } }
      (s.notify (ntSupplyResume s.pwr.holds)).resume
    else s

/-- SUPPLY_WARNING_DEASSERT (R487). -/
def execSupplyWarningDeassert (vcis : Bool) (mv : Half) (s : State) : Host.Outcome State Fault Refusal :=
  .next (supplyRecovered vcis mv s)

/-- VLINK falls below its warning level: nothing is held (R488). STANDBY masks the other two monitors only (R523). -/
def vlinkWarn (mv : Half) (s : State) : State :=
  let was := s.pwr.vlinkWarn
  let s := { s with pwr := { s.pwr with vlink := mv, vlinkWarn := true } }
  if was then s else s.notify (ntSupplyLink mv)

/-- VLINK_WARNING (R488). -/
def execVlinkWarning (mv : Half) (s : State) : Host.Outcome State Fault Refusal := .next (vlinkWarn mv s)

/-- VLINK_WARNING_DEASSERT (R484). -/
def vlinkRecovered (mv : Half) (s : State) : State :=
  { s with pwr := { s.pwr with vlink := mv, vlinkWarn := false } }

def execVlinkWarningDeassert (mv : Half) (s : State) : Host.Outcome State Fault Refusal := .next (vlinkRecovered mv s)

/-! ## The governor -/

/-- Events of kind `k` since reset, numbered as `Config.eventEnergy` numbers them (R489). -/
def State.activity (s : State) (k : Nat) : Word :=
  let sum := fun (n : Nat) (f : Nat → Word) => (List.range n).foldl (fun a i => a + f i) 0
  if k < 256 then sum 16 (fun t => spGet 0 (spGet Tile.reset s.tiles t).arr.pairWaves k)
  else if k = 256 then sum 16 (fun t => (spGet Tile.reset s.tiles t).vec.rows)
  else if k = 257 then s.cis.slots
  else if k = 258 then sum 9 (fun p => (s.port p).txFlits)
  else s.lrk.samples

/-- The estimate of the window that ends: the static term and the energy of the events counted in it (R489; log 78). -/
def State.estimate (s : State) : Half :=
  let e := (List.range 260).foldl
    (fun e k => e + Config.eventEnergy k * (s.activity k - spGet 0 s.pwr.counted k).toNat)
    (Config.staticPower s.pwr.vcore.toNat s.pwr.tmax)
  BitVec.ofNat 16 (min 0xFFFF (e / 2 ^ 20))

/-- One window of the POWER cap against the limit (R492). -/
def Pwr.govern (p : Pwr) (est : Half) : Pwr :=
  if p.limit.toNat < est.toNat then { p with capPower := capDown p.capPower, lowWindows := 0 }
  else
    let low := if 8 * est.toNat ≤ 7 * p.limit.toNat then p.lowWindows + 1 else 0
    if 4 ≤ low then { p with capPower := capUp p.capPower, lowWindows := 0 } else { p with lowWindows := low }

/-- Windows in a row above the limit with the cap at 1/8, towards OVERLIMIT (R493). -/
def Pwr.overWindows (p : Pwr) (est : Half) : Nat :=
  if p.limit.toNat < est.toNat && decide (p.capPower = 1) then p.highWindows + 1 else 0

/-- The end of a window (R489, R492 to R495), VCORE as the monitors sense it now. -/
def powerWindowEnd (mv : Half) (s : State) : State :=
  if s.silent then s
  else
    let s := { s with pwr := s.pwr.sense false mv }
    let p := s.pwr
    let est := s.estimate
    let limit := p.limitNext.getD p.limit
    let p := { p with limit := limit, limitNext := none, estimate := est, telSum := p.telSum + est.toNat,
                      telCount := p.telCount + 1, overlimit := p.overlimit && decide (limit.toNat < est.toNat)
                      counted := (List.range 260).foldl (fun m k => spSet 0 m k (s.activity k)) [] }
    let p := { (if s.stopped then p else p.govern est) with highWindows := p.overWindows est }
    if 10 ≤ p.highWindows && !p.overlimit then
      ({ s with pwr := { p with overlimit := true, overlimits := p.overlimits + 1 } }).mark.notify
        (ntOverlimit est limit)
    else ({ s with pwr := p }).mark

/-- POWER_WINDOW_END (R492). -/
def execPowerWindowEnd (mv : Half) (s : State) : Host.Outcome State Fault Refusal := .next (powerWindowEnd mv s)

/-- The frame of an array ends: its waves pass, and the array reads the effective duty at the start of the next (R490). -/
def governorFrame (t : Nat) (empty : Byte) (s : State) : State :=
  if s.rst.ready && !s.silent && decide (t < s.fuse.tileCount) then
    s.setArr t (fun a => a.nextFrame empty s.pwr.duty)
  else s

/-- GOVERNOR_FRAME (R490). -/
def execGovernorFrame (t : Fin 16) (empty : Byte) (s : State) : Host.Outcome State Fault Refusal :=
  .next (governorFrame t.val empty s)

/-- TELEMETRY notice data (Table PWR-2); the mean is rounded to nearest (log 32). -/
def Pwr.telemetry (p : Pwr) (pace : Half) : List Byte :=
  let mean := if p.telCount = 0 then p.estimate.toNat else (2 * p.telSum + p.telCount) / (2 * p.telCount)
  leBytes 2 mean
    ++ leBytes 2 (p.telTmax.toNat + at_ (b2n p.telGov) 10 + at_ (b2n p.telStack) 11 + at_ (b2n p.telHold) 12
        + at_ (b2n p.telHalt) 13)
    ++ leBytes 2 p.telVcore.toNat ++ leBytes 2 pace.toNat

/-- A telemetry period ends (R497); the next begins with what is in force. -/
def telemetryPeriod (pace : Half) (s : State) : State :=
  if s.silent then s
  else
    let data := s.pwr.telemetry pace
    let s := { s with pwr := { s.pwr with telGov := false, telStack := false, telHold := false, telHalt := false,
                                          telTmax := BitVec.ofNat 10 s.pwr.tmax, telSum := 0, telCount := 0,
                                          telVcore := s.pwr.vcore } }
    s.mark.notify (ntTelemetry data)

/-- TELEMETRY_PERIOD (R497). -/
def execTelemetryPeriod (pace : Half) (s : State) : Host.Outcome State Fault Refusal := .next (telemetryPeriod pace s)

/-! ## Heat -/

/-- Sensor `n` exists: tiles 0 to 15 by physical number, the shaft field, Lark (R499). -/
def Fuse.sensor (f : Fuse) (n : Nat) : Bool :=
  if n < 16 then f.tileOrder.contains n else if n = 16 then true else decide (n = 17) && f.lark

/-- THERMAL_HALT begins or ends, and THERMTRIP_N asserts (Table PWR-3, R501). Only the trip works in reset and STANDBY
(R508, R523). -/
def State.heat (s : State) : State :=
  let t := s.pwr.tmax
  let s := if tempCode 125 ≤ t && s.pwr.sensed then { s with pins := { s.pins with thermtrip := true } } else s
  if s.silent then s
  else if !s.pwr.halt && s.pwr.sensed && decide (tempCode 115 ≤ t) then
    ({ s with pwr := { s.pwr with halt := true } }).mark.notify (ntThermalHalt t)
  else if s.pwr.halt && decide (t < tempCode 112) then
    let s := { s with pwr := { s.pwr with halt := false, halts := s.pwr.halts + 1 } }
    (s.notify (ntThermalResume s.pwr.halts)).resume
  else s

/-- The sensors are sampled (R499). -/
def sensorSample (temps : List (BitVec 10)) (s : State) : State :=
  let m := (List.range 18).foldl (fun m n =>
    spSet none m n (if s.fuse.sensor n then temps[n]? else none)) s.pwr.temp
  let p := { s.pwr with temp := m }
  ({ s with pwr := { p with telTmax := BitVec.ofNat 10 (max p.telTmax.toNat p.tmax) } }).heat

/-- SENSOR_SAMPLE (R500). -/
def execSensorSample (temps : List (BitVec 10)) (s : State) : Host.Outcome State Fault Refusal :=
  .next (sensorSample temps s)

/-- The THERMAL cap against TGOV and HYST, every 10 us (Table PWR-3); no cap moves during a stop (R494). -/
def thermalCapTick (s : State) : State :=
  let s := s.heat
  if s.silent || s.stopped || !s.pwr.sensed then s
  else
    let t := s.pwr.tmax
    let c := s.pwr.capThermal
    let c := if tempCode s.act.tgov < t then capDown c
      else if t < tempCode (s.act.tgov - s.act.hyst) then capUp c else c
    ({ s with pwr := { s.pwr with capThermal := c } }).mark

/-- THERMAL_CAP_TICK (R500). -/
def execThermalCapTick (s : State) : Host.Outcome State Fault Refusal := .next (thermalCapTick s)

/-- The STACK cap of an upper die against its latest report, every 10 us (R502, R503). -/
def stackCapTick (s : State) : State :=
  if s.silent || s.stopped || decide (s.effTier ≠ 2) || !s.pwr.reported || s.pwr.stackMiss then s
  else
    let t := bits s.pwr.lower.toNat 0 10
    let c := s.pwr.capStack
    let c := if tempCode s.act.tstack < t then capDown c
      else if t ≤ tempCode (s.act.tstack - s.act.hyst) then capUp c else c
    ({ s with pwr := { s.pwr with capStack := c } }).mark

/-- STACK_CAP_TICK (R503). -/
def execStackCapTick (s : State) : Host.Outcome State Fault Refusal := .next (stackCapTick s)

/-- An upper die has had no report for 5 us (R504). A stop keeps the cap until it ends (R494). -/
def stackReportTimeout (s : State) : State :=
  if s.silent || decide (s.effTier ≠ 2) then s
  else
    let p := { s.pwr with stackMiss := true }
    ({ s with pwr := if s.stopped || decide (p.capStack.toNat ≤ 4) then p else { p with capStack := 4 } }).mark

/-- STACK_REPORT_TIMEOUT (R504). -/
def execStackReportTimeout (s : State) : Host.Outcome State Fault Refusal := .next (stackReportTimeout s)

/-! ## Registers (Table PWR-6) -/

/-- PWR_TEMP. -/
def Pwr.tempWord (p : Pwr) (n : Nat) : Nat :=
  match spGet none p.temp n with
  | some t => t.toNat + 2 ^ 31
  | none => 0

/-- The word at an offset of the PWR block, as CTRL reads it. -/
def State.pwrWord (s : State) (set : CfgSet) (off : Nat) : Nat :=
  let p := s.pwr
  if off = 0x00 then (p.limitNext.getD p.limit).toNat
  else if off = 0x04 ∨ off = 0x08 then (set.word (0x020000 + off)).toNat
  else if off = 0x10 then p.estimate.toNat
  else if off = 0x14 then
    p.capPower.toNat + at_ p.capThermal.toNat 4 + at_ p.capStack.toNat 8 + at_ p.duty 12
  else if off = 0x18 then
    b2n s.supplyHold + at_ (b2n p.halt) 1 + at_ (b2n s.pins.thermtrip) 2 + at_ (b2n p.overlimit) 3
      + at_ (b2n p.stackMiss) 4 + at_ (b2n p.vcisWarn) 5 + at_ (b2n p.vlinkWarn) 6
  else if 0x20 ≤ off ∧ off < 0x68 then p.tempWord ((off - 0x20) / 4)
  else if off = 0x68 then p.tmax
  else if off = 0x6C then p.lower.toNat &&& 0xF7FF
  else if off = 0x70 then p.vcore.toNat
  else if off = 0x74 then p.vcis.toNat
  else if off = 0x78 then p.vlink.toNat
  else if off = 0x7C then p.vaux.toNat
  else if off = 0x80 then p.holds.toNat
  else if off = 0x84 then p.halts.toNat
  else if off = 0x88 then p.overlimits.toNat
  else 0

/-- A PWR_LIMIT write (R495). -/
def State.writeLimit (s : State) (w : Word) : State :=
  let v := min (w.toNat % 2 ^ 16) s.act.limitMax
  { s with pwr := { s.pwr with limitNext := some (BitVec.ofNat 16 v) } }

/-- TELEMETRY writes one line of the PWR block (R498). -/
def telemetryAct (s : State) (_k : Nat) (p : Pkt) : DispOut :=
  match s.check p.ctx (p.handle 8) .ww (p.u64 16) 256 256 with
  | some e => .failCheck s e
  | none =>
    let data := (List.range 64).flatMap (fun i => leBytes 4 (s.pwrWord (if s.cfg.view then s.shd else s.act) (4 * i)))
    let w := s.writeBytes p.ctx (p.handle 8) (p.u64 16) data
    .fin w.2 w.1 0 0 []

def telemetry (q : Nat) (s : State) : State := s.dispatch q (fun p => decide (p.opcode = 0x48)) telemetryAct

/-- TELEMETRY (R498). -/
def execTelemetry (q : Fin 512) (s : State) : Host.Outcome State Fault Refusal := .next (telemetry q.val s)

end Sys2Proof.Machine
end

