-- ==== Sys2Proof/Machine/TestAccess.lean ====
section
/-!
DEFINITION. Test access (23 R551 to R558). A TAP command is the load of its instruction and one scan of its data register;
`tdo` is what TDO gives, the captured instruction register first.
-/

namespace Sys2Proof.Machine

/-- RST_N is low and PWRGD_CORE asserted (R551). -/
def State.testOk (s : State) : Bool := !s.pins.rstN && s.pins.pwrgdCore

/-- Bits of a number, bit 0 first. -/
def bitList (v n : Nat) : List Bool := (List.range n).map (bit v)

/-- Capture-IR (R551). -/
def State.irCapture (s : State) : List Bool := bitList (1 + at_ (b2n s.testOk) 2) 8

def irExtest : Byte := 0x00
def irIdcode : Byte := 0x01
def irSample : Byte := 0x02
def irClamp : Byte := 0x03
def irHighz : Byte := 0x04
def irWrapsel : Byte := 0x10
def irMarch : Byte := 0x11
def irFuseread : Byte := 0x12
def irWrapdr : Byte := 0x13
def irWrapir : Byte := 0x14
def irScrsel : Byte := 0x30
def irDwrext : Byte := 0x31
def irBypass : Byte := 0xFF

/-- Gated by TESTOK (Table PHY-7). -/
def gatedIr (c : Byte) : Bool := [irExtest, irClamp, irHighz, irMarch, irWrapdr, irWrapir, irDwrext].contains c

/-- Ungated and defined, other than BYPASS. -/
def openIr (c : Byte) : Bool := [irIdcode, irSample, irWrapsel, irFuseread, irScrsel].contains c

/-- Test state of a gated instruction ends with TESTOK (R558). -/
def Tap.gateEnds (t : Tap) : Tap :=
  { t with ir := if gatedIr t.ir then irBypass else t.ir, bsr := 0, wrapIr := [], wrapDr := [], dwr := 0, marchPass := 0 }

/-- At RST_N release no test setting persists (R558). -/
def Tap.release (t : Tap) : Tap := { t.gateEnds with wrapSel := 0, scr := false }

/-- The TAP answers: TRST_N is high and PWRGD_AUX asserted (R551). -/
def State.tapOn (s : State) : Bool := s.pins.pwrgdAux && s.pins.trstN

def State.withTap (s : State) (t : Tap) : State := { s with tap := t }

/-- The shaft port senses a bonded partner, which it has only in a tower (R557; log 41). -/
def State.shaftPartner (s : State) : Bool := decide (s.effTier ≠ 0) && Config.shaftBonded

/-- The chain goes on through the upper die's TAP path (R557). -/
def State.chained (s : State) : Bool := decide (s.effTier = 1) && s.shaftPartner && s.tap.scr

/-- One load of an instruction and one scan of its data register, which shifts out `old`: TDO gives the captured instruction
register, then the data. In a chain the upper die's path comes before each (R557). -/
def State.shift (s : State) (code : Byte) (old : List Bool) (f : Tap → Tap) : State :=
  let own := { f s.tap with ir := code }
  if s.chained then
    { s.withTap { own with tdo := Config.upperTap s.free ++ s.irCapture ++ Config.upperTap (s.free + 1) ++ old } with
      free := s.free + 2 }
  else s.withTap { own with tdo := s.irCapture ++ old }

/-- Shift bits through the 1-bit bypass register, which captures 0. -/
def State.bypassScan (s : State) (ir : Byte) (din : List Bool) : State :=
  s.shift ir ((false :: din).take din.length) (fun t => { t with bypass := (din.getLast?).getD t.bypass })

/-- An instruction of the TAP: `act` when it may act; a gated one acts as BYPASS while TESTOK is 0 (R552). -/
def State.tapDo (s : State) (code : Byte) (din : List Bool) (act : State → State) : State :=
  if !s.tapOn then s
  else if gatedIr code && !s.testOk then s.bypassScan irBypass din
  else act s

/-- A data register of known length captures `old` and is shifted out whole. -/
def State.scan (s : State) (code : Byte) (old : List Bool) (f : Tap → Tap) : State := s.shift code old f

/-- Test-Logic-Reset selects IDCODE (R551): by TMS, or by a new level of TRST_N, which holds the TAP there while it is low. -/
def tapReset (trst : Option Bool) (s : State) : State :=
  match trst with
  | none => s.withTap { s.tap with ir := irIdcode }
  | some high =>
    let s := { s with pins := { s.pins with trstN := high } }
    if high then s else s.withTap { s.tap with ir := irIdcode }

/-- TAP_RESET (R551). -/
def execTapReset (trst : Option Bool) (s : State) : Host.Outcome State Fault Refusal := .next (tapReset trst s)

/-! ## Boundary -/

/-- THERMTRIP_N is low: the comparator pulls it, or cell 12 in EXTEST and CLAMP (R553, R554). -/
def State.tripLow (s : State) : Bool :=
  s.pins.thermtrip
    || (s.testOk && (decide (s.tap.ir = irExtest) || decide (s.tap.ir = irClamp)) && bit s.tap.bsr.toNat 12)

/-- What the boundary register captures (R553) under instruction `code`, whose update has come before the capture. -/
def State.boundary (s : State) (code : Byte) : BitVec 14 :=
  let s := s.withTap { s.tap with ir := code }
  let p := s.pins
  BitVec.ofNat 14 (b2n p.pwrgdAux + at_ (b2n p.pwrgdCore) 1 + at_ (b2n p.rstN) 2 + at_ p.orient.toNat 3
    + at_ p.tier.toNat 6 + at_ p.site.toNat 8 + at_ (b2n p.thermtrip) 12 + at_ (b2n (!s.tripLow)) 13)

def extest (din : BitVec 14) (s : State) : State :=
  s.tapDo irExtest (bitList din.toNat 14) (fun s =>
    s.scan irExtest (bitList (s.boundary irExtest).toNat 14) (fun t => { t with bsr := din }))

/-- EXTEST (R553). -/
def execExtest (din : BitVec 14) (s : State) : Host.Outcome State Fault Refusal := .next (extest din s)

def samplePreload (din : BitVec 14) (s : State) : State :=
  s.tapDo irSample [] (fun s => s.scan irSample (bitList (s.boundary irSample).toNat 14) (fun t => { t with bsr := din }))

/-- SAMPLE/PRELOAD (R553). -/
def execSamplePreload (din : BitVec 14) (s : State) : Host.Outcome State Fault Refusal := .next (samplePreload din s)

def clamp (din : Bool) (s : State) : State := s.tapDo irClamp [din] (fun s => s.bypassScan irClamp [din])

/-- CLAMP (R552): one bit through the bypass register. -/
def execClamp (din : Bool) (s : State) : Host.Outcome State Fault Refusal := .next (clamp din s)

def highz (din : Bool) (s : State) : State := s.tapDo irHighz [din] (fun s => s.bypassScan irHighz [din])

/-- HIGHZ (R552): the boundary register no longer pulls THERMTRIP_N. -/
def execHighz (din : Bool) (s : State) : Host.Outcome State Fault Refusal := .next (highz din s)

def bypassIr (code : Byte) (din : Bool) (s : State) : State :=
  if !s.tapOn || openIr code || (gatedIr code && s.testOk) then s else s.bypassScan irBypass [din]

/-- BYPASS (R552): also every undefined or blocked instruction. -/
def execBypass (code : Byte) (din : Bool) (s : State) : Host.Outcome State Fault Refusal := .next (bypassIr code din s)

/-! ## Identification, fuses, march -/

def idcode (s : State) : State := s.tapDo irIdcode [] (fun s => s.scan irIdcode (bitList s.fuse.idcode.toNat 32) id)

/-- IDCODE (R555). -/
def execIdcode (s : State) : Host.Outcome State Fault Refusal := .next (idcode s)

/-- The fuse image's layout is not given: a free value (log 29). -/
def fuseread (s : State) : State :=
  s.tapDo irFuseread [] (fun s => s.scan irFuseread (bitList Config.fuseImage.toNat 4096) id)

/-- FUSEREAD (R551). -/
def execFuseread (s : State) : Host.Outcome State Fault Refusal := .next (fuseread s)

def march (pass : BitVec 1024) (s : State) : State :=
  s.tapDo irMarch [] (fun s => s.scan irMarch (bitList pass.toNat 1024) (fun t => { t with marchPass := pass }))

/-- MARCH (R128, R551). -/
def execMarch (pass : BitVec 1024) (s : State) : Host.Outcome State Fault Refusal := .next (march pass s)

/-! ## Wrappers (R556) -/

/-- Physical tiles present, as a mask. -/
def Fuse.tileMask (f : Fuse) : Half := f.tileOrder.foldl (fun m p => setBit m p true) 0

def wrapsel (din : Half) (s : State) : State :=
  s.tapDo irWrapsel [] (fun s =>
    s.scan irWrapsel (bitList s.tap.wrapSel.toNat 16) (fun t => { t with wrapSel := din &&& s.fuse.tileMask }))

/-- WRAPSEL (R556). -/
def execWrapsel (din : Half) (s : State) : Host.Outcome State Fault Refusal := .next (wrapsel din s)

/-- Selected physical tiles, the one nearest TDO first. -/
def State.selected (s : State) : List Nat := maskList s.tap.wrapSel.toNat 16

/-- Wrapper instruction of a tile; codes above 3 act as WS_BYPASS. -/
def Tap.wsOf (t : Tap) (p : Nat) : Nat := let c := (spGet 0 t.wrapIr p).toNat; if c ≤ 3 then c else 0

/-- What the selected data chains give while `n` bits are shifted: bypassed wrappers are one bit each, the length and
contents of other chains are not given (log 29). -/
def State.wrapOut (s : State) (din : List Bool) : List Bool :=
  if s.selected.all (fun p => decide (s.tap.wsOf p = 0)) then
    (List.replicate (max 1 s.selected.length) false ++ din).take din.length
  else (List.range din.length).map (Config.wrapBit s.free)

def wrapdr (din : List Bool) (s : State) : State :=
  s.tapDo irWrapdr din (fun s =>
    let m := s.selected.foldl (fun m p => if s.tap.wsOf p = 0 then m else spSet [] m p din) s.tap.wrapDr
    let r := s.scan irWrapdr (s.wrapOut din) (fun t => { t with wrapDr := m })
    { r with free := r.free + 1 })

/-- WRAPDR (R556). -/
def execWrapdr (din : List Bool) (s : State) : Host.Outcome State Fault Refusal := .next (wrapdr din s)

/-- Put instructions into the selected wrappers, in their order from TDO. -/
def putWs (m : Sparse (BitVec 4)) : List Nat → List (BitVec 4) → Sparse (BitVec 4)
  | p :: ps, c :: cs => putWs (spSet 0 m p c) ps cs
  | _, _ => m

def wrapir (din : List (BitVec 4)) (s : State) : State :=
  s.tapDo irWrapir (din.flatMap (fun c => bitList c.toNat 4)) (fun s =>
    if s.selected.isEmpty then s.bypassScan irWrapir (din.flatMap (fun c => bitList c.toNat 4))
    else
      let old := s.selected.map (fun p => spGet 0 s.tap.wrapIr p)
      let all := old ++ din
      s.scan irWrapir ((all.take din.length).flatMap (fun c => bitList c.toNat 4))
        (fun t => { t with wrapIr := putWs t.wrapIr s.selected (all.drop din.length) }))

/-- WRAPIR (R556). -/
def execWrapir (din : List (BitVec 4)) (s : State) : Host.Outcome State Fault Refusal := .next (wrapir din s)

/-- A wrapper instruction takes effect in a selected tile, while TESTOK is 1. -/
def State.wrapper (s : State) (p code : Nat) (f : Tap → Tap) : State :=
  if s.tapOn && s.testOk && s.selected.contains p then
    s.withTap (f { s.tap with ir := irWrapir, wrapIr := spSet 0 s.tap.wrapIr p (BitVec.ofNat 4 code) })
  else s

def wsBypass (p : Nat) (s : State) : State := s.wrapper p 0 (fun t => { t with wrapDr := spSet [] t.wrapDr p [] })

/-- WS_BYPASS (R556). -/
def execWsBypass (p : Fin 16) (s : State) : Host.Outcome State Fault Refusal := .next (wsBypass p.val s)

/-- What a tile's wrapper captures is not given (log 29). -/
def State.wsCapture (s : State) (p code : Nat) : State :=
  { s.wrapper p code (fun t => { t with wrapDr := spSet [] t.wrapDr p [Config.wrapBit s.free 0] }) with free := s.free + 1 }

def wsExtest (p : Nat) (s : State) : State := s.wsCapture p 1

/-- WS_EXTEST (R556). -/
def execWsExtest (p : Fin 16) (s : State) : Host.Outcome State Fault Refusal := .next (wsExtest p.val s)

def wsIntest (p : Nat) (s : State) : State := s.wsCapture p 2

/-- WS_INTEST (R556). -/
def execWsIntest (p : Fin 16) (s : State) : Host.Outcome State Fault Refusal := .next (wsIntest p.val s)

def wsBist (p : Nat) (s : State) : State := s.wsCapture p 3

/-- WS_BIST (R556): the tile's self-test; its result is not given, and the tile is in reset. -/
def execWsBist (p : Fin 16) (s : State) : Host.Outcome State Fault Refusal := .next (wsBist p.val s)

/-! ## Stacking (R557) -/

def scrsel (din : Bool) (s : State) : State :=
  s.tapDo irScrsel [] (fun s =>
    s.scan irScrsel [s.tap.scr && s.shaftPartner] (fun t => { t with scr := din && s.shaftPartner }))

/-- SCRSEL (R557). -/
def execScrsel (din : Bool) (s : State) : Host.Outcome State Fault Refusal := .next (scrsel din s)

def dwrext (din : BitVec 128) (s : State) : State :=
  s.tapDo irDwrext (bitList din.toNat 128) (fun s =>
    let r := s.scan irDwrext (bitList (Config.shaftCells s.free).toNat 128) (fun t => { t with dwr := din })
    { r with free := r.free + 1 })

/-- DWREXT (R557). -/
def execDwrext (din : BitVec 128) (s : State) : Host.Outcome State Fault Refusal := .next (dwrext din s)

end Sys2Proof.Machine
end

