-- ==== Sys2Proof/Machine/Tracts.lean ====
section
/-! DEFINITION. Tract power, row repair commands and the end of a zero walk (04 R97 to R106; 05 R131 to R134). -/

namespace Sys2Proof.Machine

/-! ## Waiting on walks -/

/-- A close whose walks include the tract (R101). -/
def State.closeWalked (s : State) (tr k : Nat) : State :=
  match s.cmd k with
  | none => s
  | some c =>
    match c.job with
    | .close j =>
      if j.row = 7 then
        let j := { j with tracts := j.tracts.filter (fun t => decide (t ≠ tr)) }
        if j.tracts.isEmpty then s.contextClosed k j else s.setJob k (.close j)
      else s
    | _ => s

/-- The swap whose walks include the tract (R296). -/
def State.swapWalked (s : State) (tr : Nat) : State :=
  match s.cfg.walking with
  | none => s
  | some w =>
    let ts := w.tracts.filter (fun t => decide (t ≠ tr))
    if ts.isEmpty then s.finishSwap w.slot w.affected w.walks
    else { s with cfg := { s.cfg with walking := some { w with tracts := ts } } }

/-- A tract's walk is over for the closes and the swap that wait on it (R101, R296). -/
def State.walkOver (s : State) (tr : Nat) : State :=
  let s := (List.range 16).foldl (fun s c =>
    let x := s.ctxOf c
    s.setCtx c { x with closing := x.closing.filter (fun g => decide (g / 4096 ≠ tr)) }) s
  ((s.flying.map (fun e => e.1)).foldl (fun s k => s.closeWalked tr k) s).swapWalked tr

/-! ## TRACT_POWER -/

/-- What TRACT_POWER names, or the status it fails with (R104). -/
def State.namedTracts (s : State) (p : Pkt) : Except Half (List Nat) :=
  if 1 < p.byte 8 ∨ 1 < p.byte 9 ∨ (p.byte 9 = 0 ∧ 63 < p.byte 10) ∨ (p.byte 9 = 1 ∧ 15 < p.byte 10) then .error stBounds
  else if p.byte 9 = 1 then .ok (s.presentTracts.filter (fun t => decide (s.act.group t = p.byte 10)))
  else if s.tractPresent (p.byte 10) then .ok [p.byte 10]
  else .error stRefuseVariant

/-- The tract is on its way to ON (R106). -/
def State.tractWaking (s : State) (t : Nat) : Bool := decide (s.tractState t = 1) || decide (s.tractState t = 2)

/-- A waiting repair of a bank of a tract that is OFF or WAKING records its entry without any copy (R134). -/
def State.recordRepair (s : State) (k tr b row : Nat) (restore : Bool) : State :=
  let x := s.bank tr b
  match x.repairRefusal restore row, x.freeSpare with
  | some r, _ => s.finish k stOK 0 0 (x.repairData row r)
  | none, some sp => s.installRepair k tr b row sp false
  | none, none => s

/-- Repairs that wait for a tract, in dispatch order, with slot, bank, row and mode. -/
def State.repairsOf (s : State) (tr : Nat) : List (Nat × Nat × Nat × Bool) :=
  s.inOrder.filterMap (fun e => match e.2.job with
    | .repair r t b row => if t = tr then some (e.1, b, row, r) else none
    | _ => none)

/-- A tract goes to OFF: it loses its data, its walk and scrub passes end, repairs that wait for it record their entries
(R103, R105, R126; log 35). -/
def State.tractOff (s : State) (tr : Nat) : State :=
  let s := s.emptyTract tr
  let s := if (s.walkOf tr).isSome then ((s.setTract tr 0).setWalk tr none).walkOver tr else s.setTract tr 0
  let s := (List.range 16).foldl (fun s b => s.setBank tr b { s.bank tr b with scrub := none, repair := none }) s
  ((s.repairsOf tr).foldl (fun s e =>
    if (s.repairsOf tr).any (fun x => decide (x.1 = e.1)) then s.recordRepair e.1 tr e.2.1 e.2.2.1 e.2.2.2 else s) s).scrubEnds

/-- Act on the named tracts in the states in force (R105, R106). -/
def State.powerOn (s : State) (k : Nat) (ts : List Nat) : State :=
  let s := ts.foldl (fun s t => if s.tractState t = 0 then s.setTract t 1 else s) s
  let rest := ts.filter (fun t => !s.tractOn t)
  if rest.isEmpty then s.finish k stOK 0 0 [] else s.setJob k (.tractOn rest)

def State.powerOff (s : State) (k : Nat) (ts : List Nat) : State :=
  if ts.any s.act.spanned then s.finish k stPermission 0 0 []
  else (ts.foldl State.tractOff s).finish k stOK 0 0 []

def State.power (s : State) (k : Nat) (on : Bool) (ts : List Nat) : State :=
  if on then s.powerOn k ts else s.powerOff k ts

/-- A job that ends or goes on by itself: what dispatch does when `f` takes the command on in flight. -/
def dispatchAs (s : State) (k : Nat) (j : Job) (f : State → State) : DispOut :=
  let s := f (s.setJob k j)
  match s.cmd k with
  | some c => .run s c.job
  | none => .run s .ended

/-- TRACT_POWER at dispatch (R104 to R106, R129). -/
def tractPowerAct (s : State) (k : Nat) (p : Pkt) : DispOut :=
  match s.namedTracts p with
  | .error st => .fail s st
  | .ok ts =>
    let on := decide (p.byte 8 = 1)
    if on && ts.any s.tractFailed then .fail s stPermission
    else if ts.any s.tractWaking then .run s (.tractWait on ts)
    else dispatchAs s k .ended (fun s => s.power k on ts)

def tractPowerOn (q : Nat) (s : State) : State :=
  s.dispatch q (fun p => decide (p.opcode = 0x3C) && decide (p.byte 8 ≠ 0)) tractPowerAct

/-- TRACT_POWER with target ON (R106). -/
def execTractPowerOn (q : Fin 512) (s : State) : Host.Outcome State Fault Refusal := .next (tractPowerOn q.val s)

def tractPowerOff (q : Nat) (s : State) : State :=
  s.dispatch q (fun p => decide (p.opcode = 0x3C) && decide (p.byte 8 = 0)) tractPowerAct

/-- TRACT_POWER with target OFF (R105). -/
def execTractPowerOff (q : Fin 512) (s : State) : Host.Outcome State Fault Refusal := .next (tractPowerOff q.val s)

/-- A TRACT_POWER looks again at its tracts: one that waited acts once none is on its way, one that turns tracts on
completes when all are ON (R106). -/
def State.powerGoesOn (s : State) (k : Nat) : State :=
  match s.cmd k with
  | none => s
  | some c =>
    match c.job with
    | .tractOn ts =>
      let rest := ts.filter (fun t => !s.tractOn t)
      if rest.isEmpty then s.finish k stOK 0 0 [] else s.setJob k (.tractOn rest)
    | .tractWait on ts => if ts.any s.tractWaking then s else s.power k on ts
    | _ => s

/-! ## REPAIR_ROW -/

/-- REPAIR_ROW at dispatch (R131 to R134). -/
def repairAct (s : State) (k : Nat) (p : Pkt) : DispOut :=
  let mode := p.byte 8
  let tr := p.byte 9
  let b := p.byte 10
  let row := p.u16 12
  if 1 < mode ∨ 15 < b ∨ 63 < tr ∨ 511 < row then .fail s stBounds
  else if !s.tractPresent tr then .fail s stRefuseVariant
  else
    let restore := decide (mode = 1)
    let x := s.bank tr b
    if s.tractState tr = 0 ∨ s.tractState tr = 1 then dispatchAs s k .ended (fun s => s.recordRepair k tr b row restore)
    else if s.tractState tr = 2 then .run s (.repair restore tr b row)
    else
      match x.repairRefusal restore row with
      | some r => .ok s (x.repairData row r)
      | none => .run s (.repair restore tr b row)

def repairRowLive (q : Nat) (s : State) : State :=
  s.dispatch q (fun p => decide (p.opcode = 0x3D) && decide (p.byte 8 ≠ 1)) repairAct

/-- REPAIR_ROW LIVE (R132). -/
def execRepairRowLive (q : Fin 512) (s : State) : Host.Outcome State Fault Refusal := .next (repairRowLive q.val s)

def repairRowRestore (q : Nat) (s : State) : State :=
  s.dispatch q (fun p => decide (p.opcode = 0x3D) && decide (p.byte 8 = 1)) repairAct

/-- REPAIR_ROW RESTORE (R133). -/
def execRepairRowRestore (q : Fin 512) (s : State) : Host.Outcome State Fault Refusal := .next (repairRowRestore q.val s)

/-! ## The end of a zero walk -/

/-- The zero fill of bring-up ends with the last walk (Table RST-2). -/
def State.zeroFilled (s : State) : State :=
  if s.rst.testDone && !s.rst.zeroDone && s.presentTracts.all (fun t => s.tractFailed t || s.tractOn t) then
    { s with rst := { s.rst with zeroDone := true, phase := 3 } }
  else s

/-- The command turns tracts on, or waits to act on tracts. -/
def Cmd.turnsOn (c : Cmd) : Bool := match c.job with | .tractOn _ => true | _ => false
def Cmd.waitsTracts (c : Cmd) : Bool := match c.job with | .tractWait _ _ => true | _ => false

/-- What waited on the walk of a tract goes on: first the commands that were turning the tract on see it ON, then those that
waited for it act, in dispatch order (R106); repairs of an ON tract that install nothing complete (R132, R134). -/
def State.walkEnded (s : State) (tr : Nat) : State :=
  let go := fun (p : Cmd → Bool) (s : State) =>
    ((s.inOrder.filter (fun e => p e.2)).map (fun e => e.1)).foldl (fun s k => s.powerGoesOn k) s
  let s := if s.tractOn tr then (List.range 16).foldl (fun s b => s.refuseRepairs tr b) s else s
  go Cmd.waitsTracts (go Cmd.turnsOn (s.walkOver tr))

/-- The walk of a tract ends 16,384 w after it began (R97, R106, R110). -/
def zeroWalkEnd (tr : Nat) (s : State) : State :=
  match s.walkOf tr with
  | none => s
  | some w =>
    if !s.banksRun then s
    else
      let s := s.setWalk tr none
      let s := { s with cis := { s.cis with zeroWalks := s.cis.zeroWalks + 1 } }
      let s := if w.power then s.setTract tr 3 else s
      (s.walkEnded tr).zeroFilled

/-- ZERO_WALK_END (R97). -/
def execZeroWalkEnd (tr : Fin 64) (s : State) : Host.Outcome State Fault Refusal := .next (zeroWalkEnd tr.val s)

end Sys2Proof.Machine
end

