-- ==== Sys2Proof/Machine/Reset.lean ====
section
/-!
DEFINITION. Resets, bring-up, live detach and STANDBY (21; 01 R25, R28; 05 R128 to R130; 19 R464, R465).
-/

namespace Sys2Proof.Machine

/-! ## Entering reset -/

/-- Which of two resets that meet prevails (log 38). -/
def ResetKind.rank : ResetKind → Nat
  | .cold => 3
  | .pin => 2
  | .brownout => 1
  | .warm => 0

/-- RST_CAUSE bits (Table RST-6). -/
def causeCold : Nat := 0
def causePin : Nat := 1
def causeCbrown : Nat := 2
def causeVbrown : Nat := 3
def causeWarm : Nat := 4

/-- The VAUX domain of the PWR block: monitors and sensors (R508). -/
def Pwr.kept (p : Pwr) : Pwr :=
  { Pwr.reset with vcoreWarn := p.vcoreWarn, vcisWarn := p.vcisWarn, vlinkWarn := p.vlinkWarn,
                   coreBrown := p.coreBrown, cisBrown := p.cisBrown, temp := p.temp,
                   vcore := p.vcore, vcis := p.vcis, vlink := p.vlink, vaux := p.vaux, sbWire := p.sbWire }

/-- Remap entries that stay: all, until fuse load (R128, R130). -/
def State.keptBanks (s : State) : Sparse Bank :=
  s.cis.banks.foldr (fun e m => spSet Bank.reset m e.1 { Bank.reset with remap := e.2.remap }) []

/-- What a port has sent stays on record (log 10). -/
def State.keptPorts (s : State) : Sparse Port :=
  s.ports.foldr (fun e m => spSet Port.reset m e.1 { Port.reset with wire := e.2.wire }) []

/-- The die in reset (Table RST-3): every register at its reset value but what the table keeps. -/
def State.enterReset (s : State) (kind : ResetKind) (cause : BitVec 5) (count : Word) : State :=
  { State.reset with
    pending := s.pending
    free := s.free
    nextId := s.nextId
    time := { Time.reset with wave := s.time.wave }
    fuse := s.fuse
    pins := s.pins
    rst := { Rst.reset with held := some kind, kind := kind, cause := cause, count := count }
    pwr := if kind = .cold then { Pwr.reset with sbWire := s.pwr.sbWire } else s.pwr.kept
    top := { Top.reset with orient := s.top.orient, tier := s.top.tier, site := s.top.site }
    ports := s.keptPorts
    cis := { Cis.reset with banks := s.keptBanks }
    tap := s.tap }

/-- A reset arrives; one that finds the die in reset prevails if it is of a higher rank, and adds its cause. -/
def State.resetBy (s : State) (kind : ResetKind) (bit : Nat) : State :=
  let cause := setBit s.rst.cause bit true
  match s.rst.held with
  | none => s.enterReset kind cause (s.rst.count + 1)
  | some k => if k.rank < kind.rank then s.enterReset kind cause s.rst.count else s

/-- PWRGD_AUX is deasserted: everything resets, the VAUX domain too (R506, R508, R551). -/
def coldReset (s : State) : State :=
  let s := s.enterReset .cold 1 0
  { s with pins := { s.pins with pwrgdAux := false, thermtrip := false }, tap := Tap.reset }

/-- COLD_RESET (R506). -/
def execColdReset (s : State) : Host.Outcome State Fault Refusal := .next (coldReset s)

/-- The pins take new levels; where that ends TESTOK, the test state of gated instructions ends (R551, R558). -/
def State.setPins (s : State) (aux core rstN : Bool) : State :=
  let was := s.testOk
  let s := { s with pins := { s.pins with pwrgdAux := aux, pwrgdCore := core, rstN := rstN } }
  if was && !s.testOk then s.withTap s.tap.gateEnds else s

/-- PWRGD_AUX, PWRGD_CORE and RST_N change (R506): PWRGD_AUX deasserted is a cold reset; RST_N low, or PWRGD_CORE
deasserted, with PWRGD_AUX asserted is a pin reset. While a cold reset holds the die its pins may rise one by one (R509). -/
def pinReset (aux core rstN : Bool) (s : State) : State :=
  let was := s.pins.pwrgdAux
  let s := s.setPins aux core rstN
  if !aux then (if was then coldReset s else s)
  else if core && rstN then s
  else s.resetBy .pin causePin

/-- PIN_RESET (R506). -/
def execPinReset (aux core rstN : Bool) (s : State) : Host.Outcome State Fault Refusal := .next (pinReset aux core rstN s)

/-- VCORE or VCIS below its reset level for 50 ns; the monitors are masked in STANDBY (R485, R523). The rail is below its
warning level too, and holds the die in reset until it has recovered (R506). -/
def brownoutReset (vcis : Bool) (s : State) : State :=
  if s.rst.standby then s
  else
    let p := s.pwr
    let s := { s with pwr := if vcis then { p with vcisWarn := true, cisBrown := true }
                             else { p with vcoreWarn := true, coreBrown := true } }
    s.resetBy .brownout (if vcis then causeVbrown else causeCbrown)

/-- BROWNOUT_RESET (R485). -/
def execBrownoutReset (vcis : Bool) (s : State) : Host.Outcome State Fault Refusal := .next (brownoutReset vcis s)

/-- The REG_RSP payload (Table LNK-3). -/
def regRspBytes (off count : Nat) (st : Half) (words : List Word) : List Byte :=
  leBytes 4 off ++ leBytes 2 count ++ leBytes 2 st.toNat ++ words.flatMap (fun w => leBytes 4 w.toNat)

/-- CTRL type of REG_RSP (Table LNK-3). -/
def typRegRsp : BitVec 6 := 3

def State.sendRegRsp (s : State) (off count : Nat) (st : Half) (words : List Word) : State :=
  s.sendOwn (s.hubFlit typRegRsp (regRspBytes off count st words))

def offRstCtrl : Nat := 0x010008

/-- A write of 1 to RST_CTRL.WARM: REG_RSP leaves, then the die enters reset (R507). -/
def warmReset (s : State) : State :=
  if s.silent then s else (s.sendRegRsp offRstCtrl 1 stOK []).resetBy .warm causeWarm

/-- WARM_RESET (R507). -/
def execWarmReset (s : State) : Host.Outcome State Fault Refusal := .next (warmReset s)

/-! ## Bring-up (Table RST-2) -/

/-- The die leaves reset, unless a rail that reset it has not recovered (R506). Cold and pin resets latch the straps as RST_N
is released, and no test setting persists (R464, R518, R558). A supply warning that stands is told (log 31). -/
def leaveReset (orient : BitVec 3) (tier : BitVec 2) (site : BitVec 4) (s : State) : State :=
  match s.rst.held with
  | none => s
  | some kind =>
    if s.pwr.coreBrown || s.pwr.cisBrown then s
    else
      let latch := decide (kind = .cold) || decide (kind = .pin)
      let pins := { s.pins with pwrgdAux := true, pwrgdCore := true, rstN := true }
      let s := { s with
        pins := if latch then { pins with orient := orient, tier := tier, site := site } else pins
        top := if latch then { s.top with orient := orient, tier := tier, site := site } else s.top
        rst := { s.rst with held := none }
        tap := if latch then s.tap.release else s.tap }
      let up : Bool := decide (State.effTier s = (2 : BitVec 2))
      let s := { s with
        idStrapErr := s.fuse.planar && (decide (s.top.tier = 1) || decide (s.top.tier = 2))
        pwr := if up then { s.pwr with capStack := 4, stackMiss := true } else s.pwr }
      let s := s.mark
      let s := if s.supplyHold then s.notify (ntSupplyHold s.pwr.vcoreWarn s.pwr.vcisWarn) else s
      if s.pwr.vlinkWarn then s.notify (ntSupplyLink s.pwr.vlink) else s

/-- LEAVE_RESET (R506, R511). -/
def execLeaveReset (orient : BitVec 3) (tier : BitVec 2) (site : BitVec 4) (s : State) :
    Host.Outcome State Fault Refusal := .next (leaveReset orient tier site s)

/-- The port trains when enabled: bonded, and the shaft port only in a tower (R25, R37). -/
def State.portUsable (s : State) (p : Nat) : Bool := s.fuse.portPresent p && (decide (p ≠ 8) || decide (s.effTier ≠ 0))

/-- Every bonded and enabled port begins to train (Table RST-2 phase 4). -/
def State.trainPorts (s : State) : State :=
  (List.range 9).foldl (fun s p =>
    if s.portUsable p && (s.port p).en then s.setPort p { (s.port p).restart with state := .training } else s) s

/-- Install the repairs made at test in every bank (R128). -/
def State.loadRepairs (s : State) (warm : Bool) : State :=
  let cleared := s.cis.banks.foldr (fun e m => spSet Bank.reset m e.1 (e.2.fuseClear warm)) []
  let s := { s with cis := { s.cis with banks := cleared } }
  s.fuse.testRepairs.foldl (fun s (tr, b, row, sp) =>
    s.setBank tr.val b.val ((s.bank tr.val b.val).testRepair row.val sp.val)) s

/-- Zero fill: one walk per tract that has not failed (R99, Table RST-2 phase 3). -/
def State.zeroFill (s : State) : State :=
  let s := { s with rst := { s.rst with testDone := true, phase := 2 } }
  (s.presentTracts.foldl (fun s t => if s.tractFailed t then s else s.clearTract t) s).zeroFilled

/-- Fuse load ends (R28, R128, R511, R514). A failed integrity check stops bring-up, but the links train. -/
def fuseLoadDone (s : State) : State :=
  if s.silent || s.rst.fuseDone then s
  else if !s.fuse.imageOk then
    ({ s with rst := { s.rst with fuseDone := true, fuseErr := true, phase := 3 } }).trainPorts
  else
    let warm := decide (s.rst.kind = .warm)
    let s := { s with rst := { s.rst with fuseDone := true, idLoaded := true, phase := 1 } }
    let s := (s.loadRepairs warm).trainPorts
    if warm then s.zeroFill else s

/-- FUSE_LOAD_DONE (R511). -/
def execFuseLoadDone (s : State) : Host.Outcome State Fault Refusal := .next (fuseLoadDone s)

/-- Failing free spares become BAD; a failing row that is remapped spoils its spare (R128). -/
def Bank.markFails (x : Bank) (f : BankFail) : Bank :=
  let x := f.spares.foldl (fun x k => if x.usable k.val then x.spoil k.val else x) x
  f.rows.foldl (fun x r => match x.spareOf r.val with | some k => x.spoil k | none => x) x

/-- Failing rows go to usable spares in ascending row order, with SOURCE 1; what is left over fails the tract (R128). -/
def Bank.assign (x : Bank) : List Nat → Bank × Bool
  | [] => (x, false)
  | r :: rs =>
    match x.freeSpare with
    | none => (x, true)
    | some k => (x.install r k 1).assign rs

/-- The result of the march on one bank. -/
def State.testBank (s : State) (f : BankFail) : State :=
  let tr := f.tract.val
  if !s.tractPresent tr then s
  else
    let rows := (List.range 512).filter (fun r => f.rows.any (fun x => decide (x.val = r)))
    let g := ((s.bank tr f.bank.val).markFails f).assign rows
    let s := s.setBank tr f.bank.val g.1
    if g.2 then { s with cis := { s.cis with tractFail := setBit s.cis.tractFail tr true } } else s

/-- The self-test march ends (R128, R129): zero fill follows. -/
def selfTestDone (fails : List BankFail) (s : State) : State :=
  if s.silent || !s.rst.fuseDone || s.rst.fuseErr || s.rst.testDone then s
  else
    let s := fails.foldl State.testBank s
    ((s.presentTracts.filter s.tractFailed).foldl (fun s t => s.notify (ntTractFailed t)) s).zeroFill

/-- SELF_TEST_DONE (R128). -/
def execSelfTestDone (fails : List BankFail) (s : State) : Host.Outcome State Fault Refusal :=
  .next (selfTestDone fails s)

/-- A strap reading that contradicts the part, told once after discovery (R25, R465). -/
def State.strapConflict (s : State) : Bool :=
  decide (s.top.tier = 3) || (s.fuse.planar && (decide (s.top.tier = 1) || decide (s.top.tier = 2)))

/-- The discovery window ends after the last port's training (R511, R512). -/
def discoveryWindowEnd (s : State) : State :=
  if s.silent || !s.rst.fuseDone || s.rst.windowDone
      || (List.range 9).any (fun p => s.portUsable p && (s.port p).en && !(s.port p).trained) then s
  else
    let s := { s with rst := { s.rst with windowDone := true } }
    if s.strapConflict && !s.rst.strapTold then
      ({ s with rst := { s.rst with strapTold := true } }).notify (ntStrapConflict s.straps)
    else s

/-- DISCOVERY_WINDOW_END (R511). -/
def execDiscoveryWindowEnd (s : State) : Host.Outcome State Fault Refusal := .next (discoveryWindowEnd s)

/-- READY when zero fill and discovery have both ended (R511, R517); context 0 is OPEN from now on (R284). -/
def ready (us : Half) (s : State) : State :=
  if s.silent || s.rst.ready || s.rst.fuseErr || !s.rst.zeroDone || !s.rst.windowDone then s
  else
    let s := { s with rst := { s.rst with ready := true, phase := 4, readyUs := us } }
    (s.setCtx 0 { s.ctxOf 0 with state := .opened }).tellReady

/-- READY (R517). -/
def execReady (us : Half) (s : State) : Host.Outcome State Fault Refusal := .next (ready us s)

/-! ## Detach (R519 to R523) -/

/-- STANDBY: no Cistern contents, no refresh, the VCORE and VCIS monitors masked; the VLINK monitor works on (R523). -/
def State.standby (s : State) : State :=
  { s with
    rst := { s.rst with standby := true, phase := 6, detach := none }
    pwr := { s.pwr with vcoreWarn := false, vcisWarn := false }
    cis := { s.cis with mem := [], synd := [], tract := [], walk := [], reqs := [], resps := [] } }

/-- In-flight commands other than the DETACH itself. -/
def State.othersFlying (s : State) (k : Nat) : List (Nat × Cmd) := s.flying.filter (fun e => decide (e.1 ≠ k))

/-- Commands of queues finished so far: those in flight whose completion waits. -/
def State.detachDone (s : State) (d : Detach) (st : Half) : State :=
  let s := { s with rst := { s.rst with detach := some { d with stage := 4 } } }
  s.finish d.slot st 0 0 (leBytes 2 d.finished ++ leBytes 2 d.ended)

/-- Steps 2 to 4 of Table RST-4, as far as they may go now: after step 2 when nothing else is in flight, after step 3
when every command has ended. -/
def State.detachGoesOn (s : State) : State :=
  match s.rst.detach with
  | none => s
  | some d =>
    if d.stage = 2 && (s.othersFlying d.slot).isEmpty then s.detachDone d stOK
    else if d.stage = 3 && !(s.othersFlying d.slot).any (fun e => decide (e.2.job ≠ .ended)) then
      s.detachDone d (if d.ended = 0 then stOK else stRefuseContext)
    else s

/-- A command has left flight during step 2: it counts as finished (R520). -/
def State.countFinished (s : State) (k : Nat) : State :=
  match s.rst.detach with
  | some d =>
    if d.stage = 2 && decide (k ≠ d.slot) then
      { s with rst := { s.rst with detach := some { d with finished := d.finished + 1 } } }
    else s
  | none => s

/-- Send LEAVING on a port in CTRLONLY or ACTIVE. -/
def State.sendLeaving (s : State) (p : Nat) : State :=
  if (s.port p).alive then
    (s.setPort p { s.port p with leaving := true }).portSend p (s.linkFlit typLeaving [])
  else s

/-- Steps 4 and 5, once the DETACH completion is written: DETACH_DONE, then LEAVING, on the hub port last. -/
def State.detachWritten (s : State) (k : Nat) : State :=
  match s.rst.detach with
  | none => s
  | some d =>
    if d.slot = k ∧ d.stage = 4 then
      let hub := physPort s.top.orient s.hubPort
      let s := { s with rst := { s.rst with detach := some { d with stage := 5 } } }
      let s := s.notify (ntDetachDone (if d.ended = 0 then stOK else stRefuseContext) d.finished d.ended)
      (((List.range 9).filter (fun p => decide (p ≠ hub))).foldl State.sendLeaving s).sendLeaving hub
    else s

/-- DETACH ABANDON (R521): everything stops at the wave boundary. -/
def State.abandonNow (s : State) : State := s.standby

/-- BOUND of a DETACH: 0 selects RST_DETACHBOUND, whose 0 is read as 1 (R519, Table RST-6). -/
def State.detachMicros (s : State) (p : Pkt) : Nat :=
  if p.u32 12 ≠ 0 then p.u32 12 else if s.rst.detachBound = 0 then 1 else s.rst.detachBound.toNat

/-- DETACH MODE 0, or a reserved mode (R519, R520). -/
def detachAct (s : State) (k : Nat) (p : Pkt) : DispOut :=
  if 1 < p.byte 8 then .fail s stBounds
  else if p.byte 8 = 1 then .run s.abandonNow .detach
  else if s.rst.detach.isSome then .wait
  else .run { s with rst := { s.rst with phase := 5
                                         detach := some { slot := k, bound := s.detachMicros p, finished := 0, ended := 0, stage := 2 } } } .detach

/-- A DETACH ORDERLY dispatches, and a running detach goes on as far as it can. -/
def detachOrderly (q : Nat) (s : State) : State :=
  (s.dispatch q (fun p => decide (p.opcode = 0x4A) && decide (p.byte 8 ≠ 1)) detachAct).detachGoesOn

/-- DETACH_ORDERLY (R520). -/
def execDetachOrderly (q : Fin 512) (s : State) : Host.Outcome State Fault Refusal := .next (detachOrderly q.val s)

def detachAbandon (q : Nat) (s : State) : State :=
  s.dispatch q (fun p => decide (p.opcode = 0x4A) && decide (p.byte 8 = 1)) detachAct

/-- DETACH_ABANDON (R521). -/
def execDetachAbandon (q : Fin 512) (s : State) : Host.Outcome State Fault Refusal := .next (detachAbandon q.val s)

/-- A write of 1 to RST_CTRL.ABANDON: in steps 1 to 3, or outside a detach (R522). -/
def abandon (s : State) : State :=
  if s.silent then s
  else match s.rst.detach with
    | none => s.abandonNow
    | some d => if d.stage ≤ 3 then s.abandonNow else s

/-- ABANDON (R522). -/
def execAbandon (s : State) : Host.Outcome State Fault Refusal := .next (abandon s)

/-- BOUND has elapsed since dispatch (log 3) with commands left: tiles are held and the commands end, those of a step script
with their STEP (Table RST-4 step 3). -/
def detachBoundExpire (s : State) : State :=
  match s.rst.detach with
  | none => s
  | some d =>
    if s.silent || decide (d.stage ≠ 2) || (s.othersFlying d.slot).isEmpty then s
    else
      let ks := s.slotsThat Cmd.lives |>.filter (fun k => decide (k ≠ d.slot))
      let s := { s with pmh := { s.pmh with tileHold := 0xFFFF }
                        rst := { s.rst with detach := some { d with
                          stage := 3, ended := ks.length
                          finished := d.finished + (s.slotsThat (fun c => decide (c.job = Job.ended))).length } } }
      (s.endAll stRefuseContext ks).detachGoesOn

/-- DETACH_BOUND_EXPIRE (R520). -/
def execDetachBoundExpire (s : State) : Host.Outcome State Fault Refusal := .next (detachBoundExpire s)

/-- Every LEAVING is acknowledged (Table RST-4 step 6). -/
def standbyEnter (s : State) : State :=
  match s.rst.detach with
  | none => s
  | some d =>
    if s.silent || decide (d.stage ≠ 5) || (List.range 9).any (fun p => (s.port p).leaving) then s else s.standby

/-- STANDBY_ENTER (R523). -/
def execStandbyEnter (s : State) : Host.Outcome State Fault Refusal := .next (standbyEnter s)

end Sys2Proof.Machine
end

