-- ==== Sys2Proof/Machine/Completion.lean ====
section
/-! DEFINITION. Completion records (11 R274 to R278, Table CMD-6). -/

namespace Sys2Proof.Machine

/-! ## Rings of records -/

/-- Records of `size` bytes that a ring holds (R276); its size is a power of two from 4 KiB to 1 MiB. -/
def Ring.records (r : Ring) (size : Nat) : Nat := 2 ^ (r.size.toNat + 12) / size

/-- Fewer than N − 1 unread records (R277, R378). -/
def Ring.room (r : Ring) (size : Nat) : Bool := decide ((r.tail - r.head).toNat < r.records size - 1)

/-- Offset of the next record. -/
def Ring.slotOff (r : Ring) (size : Nat) : Nat := r.first.toNat * 4096 + r.tail.toNat % r.records size * size

/-- PHASE: 1 on the first pass, inverted on each pass. -/
def Ring.phase (r : Ring) (size : Nat) : Nat := 1 - r.tail.toNat / r.records size % 2

/-- The ring's geometry is one of R276, and its next record passes checks 2 to 5 (log 43). The manual gives no status for a
SIZE of 9 to 15 in PMH_CRING or SRV_ORING: records of such a ring wait (DESIGN CHOICE, log 43). -/
def State.ringReady (s : State) (c : Nat) (r : Ring) (size : Nat) : Bool :=
  decide (r.size.toNat ≤ 8) && (s.checkRing c r.handle.toNat .ww (r.slotOff size) size).isNone

/-- Write a record at TAIL, and count it. -/
def State.ringPut (s : State) (c : Nat) (r : Ring) (bytes : List Byte) : State :=
  (s.writeBytes c r.handle.toNat (r.slotOff bytes.length) bytes).2

/-! ## The record -/

/-- Waves from dispatch, saturating. -/
def elapsed (now since : Nat) : Nat := min (now - since) (2 ^ 32 - 1)

/-- Table CMD-6. -/
def Compl.record (x : Compl) (phase : Nat) (now : DWord) (wave : Nat) : List Byte :=
  leBytes 2 x.tag.toNat ++ leBytes 2 (x.queue + at_ phase 15) ++ leBytes 2 x.status.toNat
    ++ [x.reason, BitVec.ofNat 8 (x.flags.toNat + at_ (b2n x.late) 4)] ++ leBytes 8 now.toNat
    ++ leBytes 4 (elapsed wave x.wave) ++ padTo 12 x.data

/-- The first completion of the context that waits, and the others. -/
def takeCompl (c : Nat) : List Compl → Option (Compl × List Compl)
  | [] => none
  | x :: l => if x.ctx = c then some (x, l) else (takeCompl c l).map (fun r => (r.1, x :: r.2))

/-- A command leaves flight: its pins are dropped, its slot is free and the queue it holds goes on (R272, R273). -/
def State.leaveFlight (s : State) (k : Nat) : State :=
  match s.cmd k with
  | none => s
  | some c =>
    let s := (s.unpinAll c.ctx c.pins).setCmd k none
    let s := match c.origin with
      | .queue q => if (s.queue q).hold = some k then s.setQueue q { s.queue q with hold := none } else s
      | .script _ => s
    s.countFinished k

/-- The record is written: what waits for it goes on (R278; Table CTX-3 row 4; Table RST-4). -/
def State.afterRecord (s : State) (x : Compl) : State :=
  let s := match x.slot with | none => s | some k => s.leaveFlight k
  let s := if x.notify then s.notify (ntCmdNotify x.ctx x.tag) else s
  let s := s.closesGoOn
  let s := match x.slot with | none => s | some k => s.detachWritten k
  s.detachGoesOn

/-- Write the context's oldest waiting completion, or tell once that the ring is full (R276, R277). -/
def completionWrite (c : Nat) (s : State) : State :=
  match takeCompl c s.pmh.compl with
  | none => s
  | some (x, rest) =>
    let y := s.ctxOf c
    let r := y.cring
    if s.silent || s.rst.standby || !s.ringReady c r 32 then s
    else if !r.room 32 then
      if r.told then s else (s.setCtx c { y with cring := { r with told := true } }).notify (ntCringFull c)
    else
      let s := s.ringPut c r (x.record (r.phase 32) s.now s.time.wave)
      let s := s.setCtx c { s.ctxOf c with cring := { r with tail := r.tail + 1, told := false } }
      ({ s with pmh := { s.pmh with compl := rest } }).afterRecord x

/-- COMPLETION_WRITE (R276). -/
def execCompletionWrite (c : Fin 16) (s : State) : Host.Outcome State Fault Refusal := .next (completionWrite c.val s)

end Sys2Proof.Machine
end

