-- ==== Sys2Proof/Machine/Sampling.lean ====
section
/-! DEFINITION. Token selection and speculative verification (16 R383 to R398). -/

namespace Sys2Proof.Machine

/-! ## Sampling slots (R383 to R385) -/

/-- Reset value of word `w` of a slot (Table SMP-1). -/
def smpResetWord (w : Nat) : Word := if w = 3 ∨ w = 5 then 0x3F800000 else 0

def State.slotWord (s : State) (n w : Nat) : Word := spGet 0 s.smp.slots (16 * n + w) ^^^ smpResetWord w

/-- The words of a slot. -/
def State.slotWords (s : State) (n : Nat) : List Word := (List.range 14).map (s.slotWord n)

/-- A slot as the sampler reads it. -/
structure SlotP where
  greedy : Bool
  qmode : Bool
  vocab : Nat
  topk : Nat
  itemp2 : Val
  topp : Val
  minp : Val
  rep : Val
  pres : Val
  freq : Val
  lh : Nat
  dqh : Nat
  lstride : Nat
  loff : Nat
  dqoff : Nat

def Val.isFinite (v : Val) : Bool := !v.isNan && !v.isInf

/-- A positive value that is not a NaN. -/
def Val.positive (v : Val) : Bool := !v.isNan && decide (0 < v.cmp (.zero false))

/-- R385. -/
def slotParams (ws : List Word) : SlotP :=
  let w := fun i => ws.getD i 0
  let v := fun i => val32 (w i)
  let k := bits (w 1).toNat 0 11
  { greedy := bit (w 0).toNat 8 || !((v 2).positive && (v 2).isFinite)
    qmode := bit (w 0).toNat 9
    vocab := bits (w 0).toNat 12 19
    topk := if k = 0 ∨ 1024 < k then 1024 else k
    itemp2 := v 2
    topp := if (v 3).positive && decide ((v 3).cmp .one ≤ 0) then v 3 else .one
    minp := if !(v 4).isNan && decide (0 ≤ (v 4).cmp (.zero false)) && decide ((v 4).cmp .one ≤ 0) then v 4 else .zero false
    rep := if (v 5).positive then v 5 else .one
    pres := if (v 6).isFinite then v 6 else .zero false
    freq := if (v 7).isFinite then v 7 else .zero false
    lh := bits (w 8).toNat 0 6
    dqh := bits (w 8).toNat 8 6
    lstride := (w 9).toNat
    loff := (w 10).toNat + at_ (w 11).toNat 32
    dqoff := (w 12).toNat + at_ (w 13).toNat 32 }

/-- The slot is usable by a context (R383). -/
def slotUsable (ws : List Word) (c : Nat) : Bool :=
  let p := slotParams ws
  bit (ws.getD 0 0).toNat 0 && decide (bits (ws.getD 0 0).toNat 4 4 = c) && decide (1 ≤ p.vocab)
    && decide (p.vocab ≤ 262144) && decide (p.lstride % 256 = 0) && decide (4 * p.vocab ≤ p.lstride)

/-- A slot by number, usable by a context. -/
def State.slotOk (s : State) (n c : Nat) : Bool := decide (n < 1024) && slotUsable (s.slotWords n) c

/-! ## Candidate lists (R389) -/

/-- The quotient of two values, exact but for a lowest bit that says whether more bits follow: storing it in FP32 rounds
as storing the quotient does. -/
def Val.quot : Val → Val → Val
  | .nan a, .nan b => .nan (a || b)
  | .nan a, _ => .nan a
  | _, .nan b => .nan b
  | .inf _, .inf _ => .nan true
  | .inf a, .num b _ _ => .inf (a != b)
  | .num a _ _, .inf b => .zero (a != b)
  | .num a m e, .num b n f =>
    if n = 0 then (if m = 0 then .nan true else .inf (a != b))
    else
      let k := 64 + Nat.log2 n
      let q := m * 2 ^ k / n
      .num (a != b) (2 * q + b2n (decide (m * 2 ^ k % n ≠ 0))) (e - f - k - 1)

/-- An FP32 result and its value. -/
def store32 (v : Val) : Res Val :=
  let r := round32 v
  ⟨fmtFP32.decode r.out, r.fl⟩

/-- The penalties of a token with a count. -/
def SlotP.penalise (p : SlotP) (c : Nat) (x : Val) : Res Val :=
  if c = 0 || !x.isFinite then ⟨x, 0⟩
  else
    let a := store32 (if x.positive then x.quot p.rep else x.mul p.rep)
    let b := store32 ((a.out.sub p.pres).sub (p.freq.mul (.ofInt c)))
    ⟨b.out, a.fl ||| b.fl⟩

/-- The score of one logit; a NaN is a ban. -/
def SlotP.score (p : SlotP) (c : Nat) (z : Word) : Res Val :=
  let x := val32 z
  if x.isNan then ⟨.inf true, flNV⟩
  else
    let a := p.penalise c x
    if p.greedy then a
    else
      let b := store32 (a.out.mul p.itemp2)
      ⟨b.out, a.fl ||| b.fl⟩

/-- Put a token among others of higher or equal score. -/
def putTop (t : Nat) (y : Val) : List (Nat × Val) → List (Nat × Val)
  | [] => [(t, y)]
  | a :: l => if a.2.cmp y < 0 then (t, y) :: a :: l else a :: putTop t y l

/-- The count of a token: its first entry, or 0. -/
def countOf (cnt : List (Nat × Nat)) (t : Nat) : Nat :=
  match cnt.find? (fun e => decide (e.1 = t)) with | some e => e.2 | none => 0

/-- The ids of highest score, by score descending and ties by lower id. -/
def SlotP.top (p : SlotP) (cnt : List (Nat × Nat)) : Nat → List Word → Res (List (Nat × Val)) → Res (List (Nat × Val))
  | _, [], a => a
  | t, z :: zs, a =>
    let y := p.score (countOf cnt t) z
    let l := if y.out.isNan || decide (y.out = .inf true) then a.out else (putTop t y.out a.out).take p.topk
    p.top cnt (t + 1) zs ⟨l, a.fl ||| y.fl⟩

/-- The weight function of R314. -/
def softWeight (y m : Val) : Res Word :=
  if m = .inf false then ⟨if y = .inf false then 0x3F800000 else 0, 0⟩
  else if y = .inf true then ⟨0, 0⟩
  else
    let d := store32 (y.sub m)
    let r := round32 (exp2Val d.out)
    ⟨BitVec.ofNat 32 r.out, d.fl ||| r.fl⟩

/-- A candidate: its id, its weight and the running sum up to it. -/
structure Tok where
  id : Nat
  w : Word
  cum : Word

/-- Running sums in list order, each rounded. -/
def runSums : Word → List (Nat × Word) → Res (List Tok)
  | _, [] => ⟨[], 0⟩
  | cum, (t, w) :: l =>
    let r := round32 ((val32 cum).add (val32 w))
    let c := BitVec.ofNat 32 r.out
    let rest := runSums c l
    ⟨⟨t, w, c⟩ :: rest.out, r.fl ||| rest.fl⟩

/-- The running sum of the last candidate; +0 of an empty list. -/
def totalOf (l : List Tok) : Word := match l.getLast? with | some t => t.cum | none => 0

/-- The shortest prefix whose running sum reaches a threshold. -/
def prefixTo (thr : Val) : List Tok → List Tok
  | [] => []
  | a :: l => if (val32 a.cum).cmp thr < 0 then a :: prefixTo thr l else [a]

/-- `candidate_list` of R389; its total is `totalOf`. -/
def SlotP.candidates (p : SlotP) (cnt : List (Nat × Nat)) (zs : List Word) : Res (List Tok) :=
  let top := p.top cnt 0 zs ⟨[], 0⟩
  match top.out with
  | [] => ⟨[], top.fl⟩
  | (t0, y0) :: _ =>
    if p.greedy then ⟨[⟨t0, 0x3F800000, 0x3F800000⟩], top.fl⟩
    else
      let ws := resTable (fun i => softWeight (top.out.getD i (0, .inf true)).2 y0) top.out.length
      let cs := runSums 0 ((top.out.map (fun e => e.1)).zip ws.out)
      let thr := store32 (p.topp.mul (val32 (totalOf cs.out)))
      let kept := prefixTo thr.out cs.out
      let low := store32 (p.minp.mul (val32 (ws.out.headD 0)))
      let left := kept.filter (fun a => !decide ((val32 a.w).cmp low.out < 0) && !(val32 a.w).isZero)
      let fin := runSums 0 (left.map (fun a => (a.id, a.w)))
      ⟨fin.out, top.fl ||| ws.fl ||| cs.fl ||| thr.fl ||| low.fl ||| fin.fl⟩

/-! ## Draws (R390, R391) -/

/-- One round of Philox-4×32. -/
def philoxRound (c : Word × Word × Word × Word) (k0 k1 : Word) : Word × Word × Word × Word :=
  let a := 0xD2511F53 * c.1.toNat
  let b := 0xCD9E8D57 * c.2.2.1.toNat
  (BitVec.ofNat 32 (b / 2 ^ 32) ^^^ c.2.1 ^^^ k0, BitVec.ofNat 32 b,
    BitVec.ofNat 32 (a / 2 ^ 32) ^^^ c.2.2.2 ^^^ k1, BitVec.ofNat 32 a)

def philox : Nat → Word × Word × Word × Word → Word → Word → Word × Word × Word × Word
  | 0, c, _, _ => c
  | n + 1, c, k0, k1 => philox n (philoxRound c k0 k1) (k0 + 0x9E3779B9) (k1 + 0xBB67AE85)

/-- The uniform of a position and a draw index (R391). -/
def uniform (seed : DWord) (pos : Word) (idx : Nat) (req : Word) : Val :=
  let c := philox 10 (pos, BitVec.ofNat 32 idx, req, 0) (seed.setWidth 32) ((seed >>> 32).setWidth 32)
  .num false (c.1.toNat / 256) (-24)

/-- The first id whose running sum exceeds a threshold, or the last. -/
def firstAbove (thr : Val) : List (Nat × Val) → Nat
  | [] => 0
  | [a] => a.1
  | a :: l => if thr.cmp a.2 < 0 then a.1 else firstAbove thr l

/-- A draw from a list (R390). -/
def drawFrom (l : List Tok) (u : Val) : Res Nat :=
  let thr := store32 (u.mul (val32 (totalOf l)))
  ⟨firstAbove thr.out (l.map (fun a => (a.id, val32 a.cum))), thr.fl⟩

/-- Running sums of exact weights. -/
def exactSums : Val → List (Nat × Val) → List (Nat × Val)
  | _, [] => []
  | a, (t, v) :: l => (t, a.add v) :: exactSums (a.add v) l

/-- A draw from exact residual weights (R392). -/
def drawExact (r : List (Nat × Val)) (u : Val) : Res Nat :=
  let cs := exactSums (.zero false) r
  let tot := match cs.getLast? with | some a => a.2 | none => .zero false
  let thr := store32 (u.mul tot)
  ⟨firstAbove thr.out cs, thr.fl⟩

/-! ## Verification (R392 to R394) -/

/-- What a row came to. -/
structure Verdict where
  sample : Sample
  draws : Nat
  accepted : Nat
  rejected : Nat
  fl : Flags

def weightIn (l : List Tok) (x : Nat) : Val :=
  match l.find? (fun a => decide (a.id = x)) with | some a => val32 a.w | none => .zero false

/-- Counts after one more emitted token (R393, R396): its entry rises, or it is appended while there is room. -/
def countToken (cnt : List (Nat × Nat)) (t : Nat) : List (Nat × Nat) :=
  if cnt.any (fun e => decide (e.1 = t)) then
    (List.range cnt.length).map (fun i =>
      let e := cnt.getD i (0, 0)
      if cnt.findIdx? (fun e => decide (e.1 = t)) = some i then (e.1, min 65535 (e.2 + 1)) else e)
  else if cnt.length < 4096 then cnt ++ [(t, 1)] else cnt

/-- The residual weights of a rejected draft (R392). -/
def residuals (l d : List Tok) : List (Nat × Val) :=
  let w := val32 (totalOf l)
  let v := val32 (totalOf d)
  l.map (fun a =>
    let r := ((val32 a.w).mul v).sub ((weightIn d a.id).mul w)
    (a.id, if r.positive then r else .zero false))

/-- The test of a draft: accepted, or the token that replaces it; the uniforms used; the flags raised. -/
def SlotP.testDraft (p : SlotP) (l d : Res (List Tok)) (x : Nat) (u0 u1 : Val) : Option Nat × Nat × Flags :=
  let w := val32 (totalOf l.out)
  if p.greedy then
    let t := (l.out.headD ⟨0, 0, 0⟩).id
    (if t = x then none else some t, 0, 0)
  else if !p.qmode then
    let thr := store32 (u0.mul w)
    let only := decide (l.out.length = 1) && l.out.any (fun a => decide (a.id = x))
    if decide (thr.out.cmp (weightIn l.out x) < 0) || only then (none, 1, thr.fl)
    else
      let rest := runSums 0 ((l.out.filter (fun a => decide (a.id ≠ x))).map (fun a => (a.id, a.w)))
      let k := drawFrom rest.out u1
      (some k.out, 2, thr.fl ||| rest.fl ||| k.fl)
  else
    let v := val32 (totalOf d.out)
    if ((u0.mul (weightIn d.out x)).mul w).cmp ((weightIn l.out x).mul v) < 0 then (none, 1, d.fl)
    else
      let r := residuals l.out d.out
      let k := if r.all (fun a => a.2.isZero) then drawFrom l.out u1 else drawExact r u1
      (some k.out, 2, d.fl ||| k.fl)

/-- What a row's verification reads: the request, the position of the first logits, the logits of each fed index and of
each draft's distribution. -/
structure RowIn where
  seed : DWord
  req : Word
  pos : Nat
  logits : List (List Word)
  dists : List (List Word)

/-- Fed index `k` onward; `m` drafts are left, the first of them `drafts`' head. -/
def SlotP.examine (p : SlotP) (r : RowIn) : List Nat → Nat → List (Nat × Nat) → Verdict → Verdict
  | [], k, cnt, v =>
    let l := p.candidates cnt (r.logits.getD k [])
    let fl := v.fl ||| l.fl
    match l.out with
    | [] => { v with sample := .noCandidate, accepted := 0, rejected := 0, fl := fl }
    | a :: _ =>
      if p.greedy then { v with sample := .picked v.accepted (BitVec.ofNat 32 a.id), fl := fl }
      else
        let t := drawFrom l.out (uniform r.seed (BitVec.ofNat 32 (r.pos + k)) 1 r.req)
        { v with sample := .picked v.accepted (BitVec.ofNat 32 t.out), draws := v.draws + 1, fl := fl ||| t.fl }
  | x :: xs, k, cnt, v =>
    let l := p.candidates cnt (r.logits.getD k [])
    let pos := BitVec.ofNat 32 (r.pos + k)
    if l.out.isEmpty then { v with sample := .noCandidate, accepted := 0, rejected := 0, fl := v.fl ||| l.fl }
    else
      let d := if p.qmode && !p.greedy then p.candidates cnt (r.dists.getD k []) else ⟨[], 0⟩
      let t := p.testDraft l d x (uniform r.seed pos 0 r.req) (uniform r.seed pos 1 r.req)
      let v := { v with draws := v.draws + t.2.1, fl := v.fl ||| l.fl ||| t.2.2 }
      match t.1 with
      | some tok => { v with sample := .picked v.accepted (BitVec.ofNat 32 tok), rejected := 1 }
      | none => p.examine r xs (k + 1) (countToken cnt x) { v with accepted := v.accepted + 1 }

/-! ## Memory -/

/-- Logits of one vector; an element of a poisoned or uncorrectable word reads as −∞ (R388). -/
def Io.logits (x : Io) (c h off vocab : Nat) : List Word × Io :=
  let g := x.s.readBytes c h off (4 * vocab)
  ((List.range vocab).map (fun i =>
      if g.marks.getD ((off % 256 + 4 * i) / 32) false then 0xFF800000 else wordAt g.bytes (4 * i)),
    { x with s := g.state, st := worstData x.st g.status })

/-- The valid entries of a penalty table, as (id, count) (R395). -/
def Io.penalties (x : Io) (c h off : Nat) : List (Nat × Nat) × Io :=
  let n := x.readNat c h off 4
  let k := min n.1 4096
  let r := n.2.read c h (off + 8) (8 * k)
  ((List.range k).map (fun i => (fieldAt r.1 (8 * i) 4, fieldAt r.1 (8 * i + 4) 2)), if k = 0 then n.2 else r.2)

/-- Bytes of a penalty table. -/
def penBytes : Nat := 32776

/-- Wide logit vectors are checked at their line alignment (R388; log 60). -/
def State.chkLogits (s : State) (c h off vocab : Nat) : Option CheckFail := s.check c h .wr (off : Int) (4 * vocab) 256

/-! ## The SAMPLE command (R398) -/

/-- A row descriptor of Table SMP-2. -/
structure SampleRow where
  seed : DWord
  pos : Word
  tag : Word
  penh : Option Nat
  penoff : Nat

/-- Row descriptor `i`. A PENHANDLE of 0x40 to 0xFE names no handle, and its table fails VALID (R20; log 60). -/
def sampleRowAt (bs : List Byte) (i : Nat) : SampleRow :=
  let b := 32 * i
  { seed := dwordAt bs b, pos := wordAt bs (b + 8), tag := wordAt bs (b + 12),
    penh := if byteAt bs (b + 16) = 0xFF then none else some (byteAt bs (b + 16)).toNat,
    penoff := fieldAt bs (b + 20) 8 }

/-- Wrapping counters. -/
def Smp.count (m : Smp) (draws accepted rejected nocand : Nat) : Smp :=
  { m with draws := m.draws + BitVec.ofNat 32 draws, accepted := m.accepted + BitVec.ofNat 32 accepted,
           rejected := m.rejected + BitVec.ofNat 32 rejected, noCand := m.noCand + BitVec.ofNat 32 nocand }

def Io.countSmp (x : Io) (draws accepted rejected nocand : Nat) : Io :=
  { x with s := { x.s with smp := x.s.smp.count draws accepted rejected nocand } }

/-- Sample one row: its token, 0xFFFF_FFFF for none. -/
def Io.sampleRow (x : Io) (c lh off : Nat) (p : SlotP) (r : SampleRow) : Word × Io :=
  let pen := match r.penh with | none => ([], x) | some h => x.penalties c h r.penoff
  let z := pen.2.logits c lh off p.vocab
  let l := p.candidates pen.1 z.1
  let x := { z.2 with fl := z.2.fl ||| l.fl }
  match l.out with
  | [] => (0xFFFFFFFF, x.countSmp 0 0 0 1)
  | a :: _ =>
    if p.greedy then (BitVec.ofNat 32 a.id, x)
    else
      let t := drawFrom l.out (uniform r.seed r.pos 1 r.tag)
      (BitVec.ofNat 32 t.out, { x with fl := x.fl ||| t.fl }.countSmp 1 0 0 0)

/-- Sample rows 0 to n − 1, writing each token; counts the rows with no candidate. -/
def Io.sampleRows (x : Io) (p : Pkt) (sp : SlotP) (rows : List SampleRow) : Nat × Io :=
  (List.range rows.length).foldl (fun a i =>
    let r := rows.getD i { seed := 0, pos := 0, tag := 0, penh := none, penoff := 0 }
    let t := a.2.sampleRow p.ctx (p.handle 8) (p.u64 16 + i * sp.lstride) sp r
    (a.1 + b2n (decide (t.1 = 0xFFFFFFFF)), t.2.write p.ctx (p.handle 9) (p.u64 24 + 32 * i + 28) (leBytes 4 t.1.toNat)))
    (0, x)

/-- SAMPLE: the ranges that its packet names, the row descriptors, the penalty tables that they name, then the rows (R95,
R398). -/
def sampleAct (s : State) (_k : Nat) (p : Pkt) : DispOut :=
  let c := p.ctx
  let n := p.u16 12
  if !s.slotOk (p.u16 10) c || decide (n = 0) || decide (512 < n) then .fail s stBounds
  else
    let sp := slotParams (s.slotWords (p.u16 10))
    let roff := p.u64 24
    let logits := (List.range n).map (fun i => s.chkLogits c (p.handle 8) (p.u64 16 + i * sp.lstride) sp.vocab)
    match firstFail ([s.chk c (p.handle 9) .wr roff (32 * n), s.chk c (p.handle 9) .ww roff (32 * n)] ++ logits) with
    | some f => .failCheck s f
    | none =>
      let d := (Io.of s).read c (p.handle 9) roff (32 * n)
      let rows := (List.range n).map (sampleRowAt d.1)
      let checks := (List.range n).map (fun i =>
        match (sampleRowAt d.1 i).penh with
        | none => none
        | some h => s.chk c h .wr (sampleRowAt d.1 i).penoff penBytes)
      match firstFail checks with
      | some f => d.2.fail f
      | none =>
        let r := d.2.sampleRows p sp rows
        r.2.done (leBytes 2 r.1)

def sample (q : Nat) (s : State) : State := s.dispatch q (fun p => decide (p.opcode = 0x34)) sampleAct

/-- SAMPLE (R398). -/
def execSample (q : Fin 512) (s : State) : Host.Outcome State Fault Refusal := .next (sample q.val s)

end Sys2Proof.Machine
end

