-- ==== Sys2Proof/Machine/Preform.lean ====
section
/-!
DEFINITION. The geometry and arithmetic of Preform (17 R421, R422, R424 to R426), on planes of integer samples.
-/

namespace Sys2Proof.Machine

/-! ## LRK_LAMBDA and LRK_TAPS at reset (Table LRK-11, R422) -/

/-- ⌊256 × 0.57 × 2^((q − 12) ÷ 3)⌋: the largest *n* whose cube is not above the cube of the real value. -/
def lambdaReset (q : Nat) : Word :=
  BitVec.ofNat 32 (searchUp (fun n => decide (n ^ 3 * 10 ^ 6 * 2 ^ 12 ≤ 14592 ^ 3 * 2 ^ q)) 32 0)

/-- 64 × the cubic kernel with *a* = −0.5 at `d` 64ths of a sample, rounded half away from zero. -/
def cubicTap (d : Nat) : Int :=
  let t : Int := d
  let n := if d ≤ 64 then 3 * t ^ 3 - 320 * t ^ 2 + 524288
    else if d < 128 then -(t ^ 3) + 320 * t ^ 2 - 32768 * t + 1048576
    else 0
  let k : Int := ((2 * n.natAbs + 8192) / 16384 : Nat)
  if n < 0 then -k else k

/-- Tap `j` of phase `ph` at reset: the kernel, the difference from a sum of 64 added to tap 1 or tap 2. -/
def tapAtReset (ph j : Nat) : Int :=
  let k := fun i : Nat => cubicTap ((64 * (i : Int) - 64 - ph).natAbs)
  let d := 64 - (k 0 + k 1 + k 2 + k 3)
  if j = (if ph < 32 then 1 else 2) then k j + d else k j

def tapsReset (ph : Nat) : Word :=
  BitVec.ofNat 32 (leNat ((List.range 4).map (fun j => BitVec.ofInt 8 (tapAtReset ph j))))

/-- LRK_LAMBDA and LRK_TAPS as they stand. -/
def State.lambda (s : State) (q : Nat) : Word := spGet 0 s.lrk.lambda q ^^^ lambdaReset q
def State.taps (s : State) (ph : Nat) : Word := spGet 0 s.lrk.taps ph ^^^ tapsReset ph

/-! ## Planes (R421) -/

/-- A plane of samples, row by row. -/
abbrev Plane := List (List Nat)

def Plane.at (p : Plane) (x y : Nat) : Nat := (p.getD y []).getD x 0

/-- The plane of `w` × `h` samples that `f` gives by column and row. -/
def mkPlane (w h : Nat) (f : Nat → Nat → Nat) : Plane :=
  (List.range h).map (fun y => (List.range w).map (fun x => f x y))

/-- A picture's geometry: the crop in luma samples, quarter turns, mirror, 4-tap scaling, left-sited chroma. -/
structure Geometry where
  x : Nat
  y : Nat
  w : Nat
  h : Nat
  turns : Nat
  mirror : Bool
  taps4 : Bool
  left : Bool
  outW : Nat
  outH : Nat
  deriving DecidableEq, Repr

def Geometry.swaps (g : Geometry) : Bool := decide (g.turns % 2 = 1)

/-- Output size against cropped size on one axis lies in [1/16, 16]. -/
def ratioOk (src dst : Nat) : Bool := decide (0 < src) && decide (src ≤ 16 * dst) && decide (dst ≤ 16 * src)

/-- R421: both ratios, after the rotation has swapped the dimensions. -/
def Geometry.ok (g : Geometry) : Bool :=
  if g.swaps then ratioOk g.h g.outW && ratioOk g.w g.outH else ratioOk g.w g.outW && ratioOk g.h g.outH

/-- Turn a `w` × `h` plane clockwise by quarter turns. -/
def turn (turns w h : Nat) (f : Nat → Nat → Nat) : Nat → Nat → Nat :=
  match turns with
  | 1 => fun x y => f y (h - 1 - x)
  | 2 => fun x y => f (w - 1 - x) (h - 1 - y)
  | 3 => fun x y => f (w - 1 - y) x
  | _ => f

/-- Stages 1 to 3 on a plane whose crop is `x`, `y`, `w`, `h`. -/
def Geometry.orient (g : Geometry) (x y w h : Nat) (f : Nat → Nat → Nat) : Plane :=
  let ow := if g.swaps then h else w
  let oh := if g.swaps then w else h
  let r := turn g.turns w h (fun a b => f (x + a) (y + b))
  mkPlane ow oh (fun a b => r (if g.mirror then ow - 1 - a else a) b)

/-- `box` of R422. -/
def boxMean (row : List Nat) (k : Nat) : List Nat :=
  if k = 0 then row
  else (List.range (row.length / 2 ^ k)).map (fun i => ((row.drop (i * 2 ^ k)).take (2 ^ k)).foldl (· + ·) (2 ^ (k - 1)) / 2 ^ k)

/-- `scale_axis` of R422, with the position of an output sample, after `k` halvings, and the taps of a phase. -/
def scaleAxis (pos : Nat → Nat → Nat → Nat → Int) (taps : Nat → Nat → Int) (b dst : Nat) (row : List Nat) : List Nat :=
  let k := ((List.range 17).find? (fun k => decide (row.length / 2 ^ k ≤ 2 * dst))).getD 16
  let r := boxMean row k
  let n := r.length
  (List.range dst).map (fun x =>
    let p := pos k n dst x
    let i := p / 64
    let ph := (p % 64).toNat
    let s := (List.range 4).foldl (fun (a : Int) (j : Nat) =>
      a + taps ph j * (r.getD (clampInt 0 ((n : Int) - 1) (i - 1 + j)).1.toNat 0 : Nat)) 0
    (clampInt 0 (2 ^ b - 1) ((s + 32) / 64)).1.toNat)

/-- The position of R422. -/
def centred (_k n dst x : Nat) : Int := (((2 * x + 1) * n * 64 / (2 * dst) : Nat) : Int) - 32

/-- The position on the axis along which chroma is left-sited: its samples lie a quarter of a chroma sample before the centre,
or after it where the axis is mirrored (R421; log 70). -/
def sited (mirrored : Bool) (k n dst x : Nat) : Int :=
  if mirrored then centred k n dst x - (16 / 2 ^ k : Nat) else centred k n dst x + (16 / 2 ^ k : Nat)

/-- Columns as rows. -/
def flipPlane (w : Nat) (p : Plane) : Plane := (List.range w).map (fun x => p.map (fun r => r.getD x 0))

/-- Taps of a phase: LRK_TAPS, or the bilinear ones (R422). -/
def State.tapOf (s : State) (taps4 : Bool) (ph j : Nat) : Int :=
  if taps4 then signed (bits (s.taps ph).toNat (8 * j) 8) 8 else ([0, 64 - (ph : Int), ph, 0] : List Int).getD j 0

/-- Stage 4 on an oriented plane: horizontal first. Left-sited chroma has positions of its own on the axis that was horizontal
in the source (log 70). -/
def Geometry.scale (g : Geometry) (s : State) (b : Nat) (chroma : Bool) (p : Plane) : Plane :=
  let left := sited (if g.swaps then decide (g.turns = 3) else xor g.mirror (decide (g.turns = 2)))
  let px := if chroma && g.left && !g.swaps then left else centred
  let py := if chroma && g.left && g.swaps then left else centred
  let rows := p.map (scaleAxis px (s.tapOf g.taps4) b g.outW)
  let cols := (flipPlane g.outW rows).map (scaleAxis py (s.tapOf g.taps4) b g.outH)
  flipPlane g.outH cols

/-- Crop of a chroma axis (log 70). -/
def chromaCrop (x w : Nat) : Nat × Nat := if x % 2 = 0 ∧ w % 2 = 0 then (x / 2, w / 2) else Config.oddCrop x w

/-- Stages 1 to 4 on the luma or an RGB plane, and on a chroma plane. -/
def Geometry.luma (g : Geometry) (s : State) (b : Nat) (f : Nat → Nat → Nat) : Plane :=
  g.scale s b false (g.orient g.x g.y g.w g.h f)
def Geometry.chroma (g : Geometry) (s : State) (b : Nat) (f : Nat → Nat → Nat) : Plane :=
  let cx := chromaCrop g.x g.w
  let cy := chromaCrop g.y g.h
  g.scale s b true (g.orient cx.1 cy.1 cx.2 cy.2 f)

/-! ## Colour (R424) -/

/-- A fraction. -/
structure Frac where
  num : Int
  den : Nat

def Frac.add (a b : Frac) : Frac := ⟨a.num * b.den + b.num * a.den, a.den * b.den⟩
def Frac.mul (a b : Frac) : Frac := ⟨a.num * b.num, a.den * b.den⟩
def Frac.neg (a : Frac) : Frac := ⟨-a.num, a.den⟩

/-- Clamped to [0, 1] and rounded once to FP32. -/
def Frac.unit32 (a : Frac) : Res Nat :=
  if a.num ≤ 0 then ⟨0, 0⟩
  else if (a.den : Int) ≤ a.num then round32 .one
  else round32 ((Val.ofInt a.num).quot (Val.ofInt a.den))

/-- *K*ᵣ and *K*_b in ten-thousandths. -/
def matrixK (m : Nat) : Nat × Nat := [(2990, 1140), (2126, 722), (2627, 593)].getD m (2990, 1140)

/-- *Y*ₙ and *C*ₙ. -/
def lumaN (full : Bool) (depth y : Nat) : Frac :=
  let k : Nat := 2 ^ (depth - 8)
  if full then ⟨y, 2 ^ depth - 1⟩ else ⟨(y : Int) - 16 * k, 219 * k⟩
def chromaN (full : Bool) (depth c : Nat) : Frac :=
  let k : Nat := 2 ^ (depth - 8)
  if full then ⟨(c : Int) - 2 ^ (depth - 1), 2 ^ depth - 1⟩ else ⟨(c : Int) - 128 * k, 224 * k⟩

/-- R, G and B of a YUV sample, exact. -/
def yuvRgb (matrix : Nat) (full : Bool) (depth y cb cr : Nat) : List Frac :=
  let k := matrixK matrix
  let yn := lumaN full depth y
  let r := yn.add ((⟨2 * (10000 - k.1 : Nat), 10000⟩ : Frac).mul (chromaN full depth cr))
  let b := yn.add ((⟨2 * (10000 - k.2 : Nat), 10000⟩ : Frac).mul (chromaN full depth cb))
  let g := (yn.add ((⟨k.1, 10000⟩ : Frac).mul r).neg).add ((⟨k.2, 10000⟩ : Frac).mul b).neg
  [r, g.mul ⟨10000, 10000 - k.1 - k.2⟩, b]

/-- The BT.709 luma of an RGBX pixel, exact. -/
def rgbLuma (r g b : Nat) : Frac := ⟨2126 * r + 7152 * g + 722 * b, 2550000⟩

/-! ## Elements (R425, R426) -/

/-- The stored element of a channel value `v` (FP32 bits). -/
def preformElem (ofmt : Nat) (qscale mean istd : Word) (v : Nat) : Res Nat :=
  let t := round32 (((val32 (BitVec.ofNat 32 v)).sub (val32 mean)).mul (val32 istd))
  let tv := fmtFP32.decode t.out
  let r :=
    if ofmt = 0 then elemStore fBF16 true tv
    else
      let q := tv.mul (val32 qscale)
      if ofmt = 1 then blockStore fE4M3 true q
      else if ofmt = 2 then blockStore fE5M2 true q
      else elemStore fInt8 true q
  ⟨r.out, t.fl ||| r.fl⟩

/-- Patch size of a layout; 0 for HWC. -/
def patchSize (layout : Nat) : Nat := [0, 8, 14, 16, 32].getD layout 0

/-- Column, row and channel of element `i` of the output. -/
def elemPlace (layout w c i : Nat) : Nat × Nat × Nat :=
  let p := patchSize layout
  if p = 0 then (i / c % w, i / c / w, i % c)
  else
    let b := i / (p * p * c)
    let r := i % (p * p * c)
    (b % (w / p) * p + r / c % p, b / (w / p) * p + r / c / p, r % c)

end Sys2Proof.Machine
end

