-- ==== Sys2Proof/Machine/Picture.lean ====
section
/-!
DEFINITION. What Lark's frames read and write (17 R401 to R403, R406): frame buffers, pictures by sample and by CTU, and syntax
blocks.
-/

namespace Sys2Proof.Machine

/-! ## Frame buffers (Table LRK-4) -/

/-- Rounded up to a multiple. -/
def roundUp (n m : Nat) : Nat := (n + m - 1) / m * m

/-- The layout of a picture of `w` × `h` luma samples: pitches, and the bytes of Y and of each chroma plane. -/
structure Layout where
  depth : Nat
  w64 : Nat
  h64 : Nat
  pitch : Nat
  cpitch : Nat
  deriving DecidableEq, Repr

def sampleBytes (depth : Nat) : Nat := if depth = 10 then 2 else 1

def layoutOf (w h depth : Nat) : Layout :=
  let w64 := roundUp w 64
  { depth := depth, w64 := w64, h64 := roundUp h 64, pitch := roundUp (w64 * sampleBytes depth) 256
    cpitch := roundUp (w64 * sampleBytes depth) 512 / 2 }

def Layout.yBytes (l : Layout) : Nat := l.pitch * l.h64
def Layout.cBytes (l : Layout) : Nat := l.cpitch * l.h64 / 2
/-- Y, Cb and Cr. -/
def Layout.picture (l : Layout) : Nat := l.yBytes + 2 * l.cBytes
def Layout.side (l : Layout) : Nat := roundUp l.picture 256
def Layout.errorMap (l : Layout) : Nat := l.side + l.w64 * l.h64 / 16 + 65536
def Layout.total (l : Layout) : Nat := l.side + l.w64 * l.h64 / 16 + 131072

def Stream.layout (x : Stream) : Layout := layoutOf x.width x.height x.depth

def Stream.bufOff (x : Stream) (b : Nat) : Nat := x.poolOff + b * x.bufBytes

def Stream.bufAt (x : Stream) (b : Nat) : Buf := spGet Buf.reset x.buf b
def Stream.setBuf (x : Stream) (b : Nat) (y : Buf) : Stream := { x with buf := spSet Buf.reset x.buf b y }

/-! ## Pictures -/

/-- A sample of a plane at byte `base` of the picture, by column and row. -/
def planeSample (bs : List Byte) (depth base pitch x y : Nat) : Nat :=
  if depth = 10 then fieldAt bs (base + y * pitch + 2 * x) 2 % 1024 else (byteAt bs (base + y * pitch + x)).toNat

/-- A byte of a plane: bits [15:10] of a 10-bit sample are zero (R406). -/
def maskSample (depth i : Nat) (b : Byte) : Byte := if depth = 10 ∧ i % 2 = 1 then b &&& 3 else b

/-- Byte `i` of 2^(DEPTH − 1), as absent chroma reads. -/
def greyByte (depth i : Nat) : Byte := if depth = 10 then (if i % 2 = 1 then 2 else 0) else 128

/-- Luma column and row of the sample that holds byte `i` of a picture; a chroma sample lies at every second one. -/
def Layout.lumaAt (l : Layout) (i : Nat) : Nat × Nat :=
  let b := sampleBytes l.depth
  if i < l.yBytes then (i % l.pitch / b, i / l.pitch)
  else
    let j := (i - l.yBytes) % l.cBytes
    (2 * (j % l.cpitch / b), 2 * (j / l.cpitch))

/-- A picture of `w` × `h` luma samples cut into CTUs of a size (R406). -/
structure CtuGrid where
  w : Nat
  h : Nat
  size : Nat

def CtuGrid.cols (g : CtuGrid) : Nat := (g.w + g.size - 1) / g.size
def CtuGrid.count (g : CtuGrid) : Nat := g.cols * ((g.h + g.size - 1) / g.size)

/-- The CTU that holds byte `i` of a picture; none outside the picture. -/
def CtuGrid.at (g : CtuGrid) (l : Layout) (i : Nat) : Option Nat :=
  let p := l.lumaAt i
  if i < l.picture ∧ p.1 < g.w ∧ p.2 < g.h then some (p.2 / g.size * g.cols + p.1 / g.size) else none

/-- Word `w` (32 bytes) of a picture holds a byte of CTU `c` of which `p` holds. -/
def CtuGrid.inWord (g : CtuGrid) (l : Layout) (c w : Nat) (p : Nat → Bool) : Bool :=
  (List.range 32).any (fun i => decide (g.at l (32 * w + i) = some c) && p (32 * w + i))

/-- Words of a picture. -/
def Layout.words (l : Layout) : Nat := l.picture / 32

/-- A bit map as bytes, bit `i` in bit `i` mod 8 of byte `i` div 8. -/
def bitBytes (n : Nat) (f : Nat → Bool) : List Byte :=
  (List.range ((n + 7) / 8)).map (fun j => BitVec.ofNat 8 ((List.range 8).foldl (fun a i =>
    a + (if 8 * j + i < n ∧ f (8 * j + i) then 2 ^ i else 0)) 0))

/-- Read line `i` of a buffer where `want` asks for it; a line that is not read stands as zeros. -/
def Io.readSome (x : Io) (c h off : Nat) (want : Nat → Bool) (lines : List Nat) : (List Byte × List Bool) × Io :=
  lines.foldl (fun a i =>
    if want i then
      let g := a.2.s.readBytes c h (off + 256 * i) 256
      ((a.1.1 ++ g.bytes, a.1.2 ++ g.marks), { a.2 with s := g.state, st := worstData a.2.st g.status })
    else ((a.1.1 ++ List.replicate 256 0, a.1.2 ++ List.replicate 8 false), a.2)) (([], []), x)

/-! ## Syntax blocks (R403) -/

/-- A record of part 3: the segment's header elements, its payload, its entry points or tile sizes. -/
structure Segment where
  header : List Word
  off : Nat
  len : Nat
  entries : List Word

/-- A syntax block: parts 1 and 2, and the records of part 3. -/
structure Syntax where
  kind : Nat
  parts : List Word
  segs : List Segment

/-- The records of part 3, where they fill it exactly; the standard fixes how many elements each part of a record has (log 26). -/
def segmentsOf (parts : List Word) : Nat → List Word → Option (List Segment)
  | 0, ws => if ws.isEmpty then some [] else none
  | n + 1, ws =>
    let h := Config.headerWords parts ws
    let header := ws.take h
    let e := Config.entryWords parts header
    if ws.length < h + 2 + e then none
    else (segmentsOf parts n (ws.drop (h + 2 + e))).map (fun l =>
      { header := header, off := (ws.getD h 0).toNat, len := (ws.getD (h + 1) 0).toNat, entries := (ws.drop (h + 2)).take e } :: l)

/-- The words of a block from byte `lo` to byte `hi`. -/
def wordsOf (bs : List Byte) (lo hi : Nat) : List Word := (List.range ((hi - lo) / 4)).map (fun i => wordAt bs (lo + 4 * i))

/-- The syntax block of some bytes: none where its value counts disagree with its length (R403). -/
def syntaxOf (bs : List Byte) : Option Syntax :=
  let kind := fieldAt bs 0 4
  let o := fun i => fieldAt bs (4 + 4 * i) 4
  let p1 := wordsOf bs (o 1) (o 2)
  let p2 := wordsOf bs (o 2) (o 3)
  if o 1 < 64 ∨ o 1 % 4 ≠ 0 ∨ o 2 ≠ o 1 + 4 * Config.partWords kind 1 p1 ∨ o 3 ≠ o 2 + 4 * Config.partWords kind 2 p2
      ∨ bs.length < o 3 ∨ bs.length % 4 ≠ 0 then none
  else (segmentsOf (p1 ++ p2) (fieldAt bs 4 4) (wordsOf bs (o 3) bs.length)).map (fun l =>
    { kind := kind, parts := p1 ++ p2, segs := l })

/-- The value of an element of parts 1 and 2. -/
def Syntax.elem (y : Syntax) (e : LarkElem) : Nat := (y.parts.getD (Config.elemPlace e y.parts) 0).toNat

/-- Every element that enables a tool, profile, chroma format or bit depth selects what Table LRK-1 lists (R401). -/
def Syntax.supported (y : Syntax) : Bool :=
  if y.kind = 0 then
    [1, 2, 3].contains (y.elem .profileIdc) && decide (y.elem .chromaFormatIdc = 1) && decide (y.elem .bitDepthLumaMinus8 ≤ 2)
      && decide (y.elem .bitDepthChromaMinus8 ≤ 2)
      && [.fieldSeqFlag, .spsRangeExtension, .spsMultilayerExtension, .sps3dExtension, .spsSccExtension, .ppsRangeExtension,
          .ppsMultilayerExtension, .pps3dExtension, .ppsSccExtension].all (fun e => decide (y.elem e = 0))
  else
    decide (y.elem .seqProfile = 0) && decide (y.elem .twelveBit = 0) && decide (y.elem .allowScreenContentTools = 0)
      && (decide (y.elem .monoChrome = 1) || (decide (y.elem .subsamplingX = 1) && decide (y.elem .subsamplingY = 1)))

/-- The picture is monochrome (R406). -/
def Syntax.mono (y : Syntax) : Bool := decide (y.kind = 1) && decide (y.elem .monoChrome = 1)

/-- Size of a CTU: the HEVC CTB, or the AV1 superblock (R406). -/
def Syntax.ctuSize (y : Syntax) : Nat :=
  if y.kind = 0 then 2 ^ ((y.elem .log2MinCbMinus3 + 3 + y.elem .log2DiffMaxMinCb) % 8)
  else if y.elem .use128Superblock = 1 then 128 else 64

end Sys2Proof.Machine
end

