-- ==== Sys2Proof/Machine/Decoder.lean ====
section
/-!
DEFINITION. How a decode ends (17 R410 to R415): the segments in error, the concealed CTUs and their fill, poisoned
references, the error map and the completion. What the HEVC and AV1 standards compute is a free function of what it is
computed from (R73; log 26).
-/

namespace Sys2Proof.Machine

/-- Slots of a LARK_DECODE: REF[0] to REF[15]; AV1 uses the first seven. -/
def decodeRefs (x : Stream) (bytes : List Byte) : List Nat :=
  (List.range (if x.mode = 1 then 7 else 16)).map (fun i => (byteAt bytes (48 + i)).toNat)

/-- DIST of a slot (Table LRK-5). -/
def decodeDist (bytes : List Byte) (i : Nat) : Int := signed (fieldAt bytes (64 + 2 * i) 2) 16

/-- Slots that are present, each with its buffer: in range of the pool and not missing (R410). -/
def presentSlots (x : Stream) (refs : List Nat) (missing : Half) : List (Nat × Nat) :=
  refs.zipIdx.filterMap (fun r => if bit missing.toNat r.2 || decide (x.bufs ≤ r.1) then none else some (r.2, r.1))

/-- The nearest reference: the present slot of smallest |DIST|, ties broken by the lower slot (R414). -/
def nearestSlot (bytes : List Byte) : List (Nat × Nat) → Option Nat
  | [] => none
  | a :: l =>
    match nearestSlot bytes l with
    | none => some a.1
    | some b => if (decodeDist bytes a.1).natAbs ≤ (decodeDist bytes b).natAbs then some a.1 else some b

/-- One frame's decoding: what it is computed from, and what its errors hide. -/
structure Decoding where
  y : Syntax
  d : DecodeIn
  grid : CtuGrid
  l : Layout
  /-- Slots that are missing (R410). -/
  missing : Half
  /-- Concealed CTUs (R413). -/
  hidden : List Nat
  nearest : Option Nat

/-- The place in segment `i` of its first error: one that its decoding meets, or a poisoned word of its payload (R413). -/
def segmentError (d : DecodeIn) (i : Nat) (g : Segment) (poison : Nat → Bool) : Option Nat :=
  let words := (List.range g.len).filter (fun j => poison (g.off + j))
  let ps := (match Config.erringCtu d i with | some k => [k] | none => []) ++ words.map (fun j => Config.ctuAtByte d i (g.off + j))
  ps.min?

/-- Per segment, the CTUs that an error in it hides: from the erring CTU to the end of the segment or tile; none where it has
no error (R413). -/
def hiddenOf (y : Syntax) (d : DecodeIn) (poison : Nat → Bool) : List (Option (List Nat)) :=
  y.segs.zipIdx.map (fun g => (segmentError d g.2 g.1 poison).map (fun k => (Config.segmentCtus d.sx g.2).drop k))

/-- The sample at a luma position is not decoded: its CTU is concealed, or its block predicts from a missing slot (R414). -/
def Decoding.lost (z : Decoding) (p : Nat × Nat) : Bool :=
  z.hidden.contains (p.2 / z.grid.size * z.grid.cols + p.1 / z.grid.size)
    || decide (Config.blockSlots z.d z.hidden p.1 p.2 &&& z.missing ≠ 0)

/-- Some sample of CTU `c` in word `w` is not decoded. -/
def Decoding.lostIn (z : Decoding) (c w : Nat) : Bool := z.grid.inWord z.l c w (fun i => z.lost (z.l.lumaAt i))

/-- CTU `c` reads word `w` of the picture in slot `r`: its prediction does, or it is filled from there (R414, R415). -/
def Decoding.reads (z : Decoding) (c r w : Nat) : Bool :=
  (decide (z.nearest = some r) && z.lostIn c w) || (!z.hidden.contains c && Config.ctuReads z.d z.hidden c r w)

/-- Line `i` of the picture in slot `r` is read. -/
def Decoding.readsLine (z : Decoding) (r i : Nat) : Bool :=
  (List.range z.grid.count).any (fun c => (List.range 8).any (fun k => z.reads c r (8 * i + k)))

/-- The pictures of the slots, by slot number, each with its marks; a slot that is not present stands empty. -/
def Decoding.readSlots (z : Decoding) (x : Io) (c : Nat) (st : Stream) (present : List (Nat × Nat)) :
    List (List Byte × List Bool) × Io :=
  (List.range 16).foldl (fun a r =>
    match present.find? (fun e => decide (e.1 = r)) with
    | none => (a.1 ++ [([], [])], a.2)
    | some e =>
      let g := a.2.readSome c st.handle.toNat (st.bufOff e.2) (z.readsLine r) (List.range (z.l.picture / 256))
      (a.1 ++ [g.1], g.2)) ([], x)

/-- A poisoned sample reaches CTU `c` (R415). -/
def Decoding.poisoned (z : Decoding) (pics : List (List Byte × List Bool)) (c : Nat) : Bool :=
  (List.range pics.length).any (fun r =>
    let marks := (pics.getD r ([], [])).2
    (List.range z.l.words).any (fun w => marks.getD w false && z.reads c r w))

/-- The fill of a byte that is not decoded: the co-located byte of the nearest reference, or 2^(DEPTH − 1) (R414). -/
def Decoding.fill (z : Decoding) (pics : List (List Byte × List Bool)) (i : Nat) : Byte :=
  match z.nearest with
  | some r => byteAt (pics.getD r ([], [])).1 i
  | none => greyByte z.l.depth i

/-- The picture before the loop filters. -/
def Decoding.base (z : Decoding) (pics : List (List Byte × List Bool)) : List Byte :=
  (List.range z.l.picture).map (fun i =>
    if (z.grid.at z.l i).isSome && z.lost (z.l.lumaAt i) then z.fill pics i
    else maskSample z.l.depth i (Config.reconByte z.d z.hidden (pics.map (fun p => p.1)) i))

/-- CTU `c` has its error-map bit set (R406, R414, R415). -/
def Decoding.marked (z : Decoding) (pics : List (List Byte × List Bool)) (c : Nat) : Bool :=
  z.hidden.contains c || (List.range z.l.words).any (fun w => z.lostIn c w) || z.poisoned pics c

/-- The 16-byte motion record that holds side byte `j` belongs to samples that are not decoded: zero motion (R414; log 26). -/
def Decoding.still (z : Decoding) (j : Nat) : Bool :=
  let b := j / 16
  let cols := z.l.w64 / 16
  let p := (16 * (b % cols), 16 * (b / cols))
  decide (j < z.l.w64 * z.l.h64 / 16) && decide (p.1 < z.grid.w) && decide (p.2 < z.grid.h) && z.lost p

/-- The target's bytes: the filtered picture, grey where a monochrome stream has no chroma, and the side area with the error map
(Table LRK-4). -/
def Decoding.bytes (z : Decoding) (pics : List (List Byte × List Bool)) : List Byte :=
  let base := z.base pics
  let err := bitBytes z.grid.count (z.marked pics)
  (List.range z.l.total).map (fun i =>
    if i < z.l.picture then
      (if z.y.mono && decide (z.l.yBytes ≤ i) then greyByte z.l.depth i else maskSample z.l.depth i (Config.filterByte z.d base i))
    else if z.l.errorMap ≤ i ∧ i < z.l.errorMap + err.length then byteAt err (i - z.l.errorMap)
    else if decide (z.l.side ≤ i) && z.still (i - z.l.side) then 0
    else Config.reconByte z.d z.hidden (pics.map (fun p => p.1)) i)

/-- R415: the first status that applies. -/
def decodeStatus (data : Half) (missing : Half) (bad : Nat) : Half :=
  if data ≠ stOK then data else if missing ≠ 0 then stRefMissing else if bad ≠ 0 then stSyntaxConcealed else stOK

/-- The side areas of the slots, as far as the decode reads them. -/
def Io.readSides (x : Io) (c : Nat) (st : Stream) (sx : List Byte) (present : List (Nat × Nat)) : List (List Byte) × Io :=
  (List.range 16).foldl (fun a r =>
    match present.find? (fun e => decide (e.1 = r)) with
    | none => (a.1 ++ [[]], a.2)
    | some e =>
      let first := st.layout.side / 256
      let n := st.layout.total / 256 - first
      let g := a.2.readSome c st.handle.toNat (st.bufOff e.2) (fun i => Config.readsSide sx r (i - first))
        ((List.range n).map (fun i => first + i))
      (a.1 ++ [g.1.1], g.2)) ([], x)

/-- What a decode comes to. -/
structure Decoded where
  /-- Concealed CTUs. -/
  concealed : Nat
  /-- Segments with syntax errors. -/
  bad : Nat
  /-- The target's bytes, and the poison marks of its words. -/
  bytes : List Byte
  marks : List Bool
  /-- The grained picture. -/
  grained : List Byte

/-- The decoding of a frame: it reads its syntax block, its payload and its references (R402, R410 to R415). -/
def Io.decode (x : Io) (c : Nat) (st : Stream) (p : Pkt) (missing : Half) : Decoded × Io :=
  let pre := (x.s.readBytes c (p.handle 11) (p.u64 32) 64).bytes
  let sx := (x.s.readBytes c (p.handle 11) (p.u64 32) (max 64 (Config.syntaxLength pre))).bytes
  let y := (syntaxOf sx).getD { kind := st.mode, parts := [], segs := [] }
  let pay := x.s.readBytes c (p.handle 10) (p.u64 24) (p.u32 16)
  let x := { x with s := pay.state, st := worstData x.st pay.status }
  let poison := fun j => pay.marks.getD ((p.u64 24 % 256 + j) / 32) false
  let present := presentSlots st (decodeRefs st p.bytes) missing
  let sides := x.readSides c st sx present
  let d : DecodeIn := { sx := sx, payload := pay.bytes, sides := sides.1 }
  let errs := hiddenOf y d poison
  let z : Decoding := { y := y, d := d, grid := { w := st.width, h := st.height, size := y.ctuSize }, l := st.layout,
                        missing := missing, hidden := (errs.flatMap (fun e => e.getD [])).eraseDups
                        nearest := nearestSlot p.bytes present }
  let pics := z.readSlots sides.2 c st present
  let bytes := z.bytes pics.1
  ({ concealed := (List.range z.grid.count).countP z.hidden.contains, bad := (errs.filter Option.isSome).length, bytes := bytes
     marks := (List.range z.l.words).map (fun w =>
       (List.range z.grid.count).any (fun i => z.poisoned pics.1 i && z.grid.inWord z.l i w (fun _ => true)))
     grained := (List.range z.l.picture).map (fun i =>
       maskSample z.l.depth i (Config.grainByte sx (bytes.take z.l.picture) i)) }, pics.2)

/-- The target takes its mark and becomes VALID (R409). -/
def State.markTarget (s : State) (n b mark : Nat) : State :=
  s.setStream n ((s.stream n).setBuf b { (s.stream n).bufAt b with mark := BitVec.ofNat 2 mark, valid := true })

/-- Luma samples that a frame has produced (R489). -/
def State.addSamples (s : State) (n : Nat) : State :=
  { s with lrk := { s.lrk with samples := s.lrk.samples + BitVec.ofNat 32 n } }

/-- A decode ends (R409, R411 to R415). -/
def State.decodeEnd (s : State) (f : Frame) (sn target : Nat) : State :=
  let c := f.ctx
  let x := s.stream sn
  let p : Pkt := { bytes := f.bytes, ctx := c, cls := f.cls, order := 0 }
  let r := (Io.of s).decode c x p f.missing
  let io := r.2.writeMarked c x.handle.toNat (x.bufOff target) r.1.bytes r.1.marks
  let io := if x.grain then io.write c (p.handle 13) (p.u64 40) r.1.grained else io
  let s := (io.s.markTarget sn target (p.byte 12)).addSamples (x.width * x.height)
  let s := { s with lrk := { s.lrk with decPix := s.lrk.decPix + x.width * x.height
                                        concealed := s.lrk.concealed + BitVec.ofNat 32 r.1.concealed } }
  (s.dropFrame f.id).finish f.slot (decodeStatus (worstData f.data io.st) f.missing r.1.bad) 0 0
    (leBytes 4 r.1.concealed ++ leBytes 2 f.missing.toNat ++ leBytes 2 r.1.bad)

end Sys2Proof.Machine
end

