-- ==== Sys2Proof/Machine/Encoder.lean ====
section
/-!
DEFINITION. How an encode ends (17 R416 to R421): its input on the stream's grid, motion search, mode decision, rate control and
the completion. Coding itself is the HEVC standard's and a free function of what it is computed from (R73; log 27).
-/

namespace Sys2Proof.Machine

/-- Slots of a LARK_ENCODE by frame type: REF0 for P, REF0 and REF1 for B. -/
def encodeRefs (bytes : List Byte) : List Nat :=
  (List.range (4 * (byteAt bytes 12).toNat)).map (fun i => (byteAt bytes (56 + i)).toNat)

/-- A geometry with the CROP at byte `at` and GEOM in `geom`. -/
def geometryOf (p : List Byte) (crop geom : Nat) (left : Bool) (outW outH : Nat) : Geometry :=
  { x := fieldAt p crop 2, y := fieldAt p (crop + 2) 2, w := fieldAt p (crop + 4) 2, h := fieldAt p (crop + 6) 2
    turns := geom % 4, mirror := bit geom 2, taps4 := bit geom 3, left := left, outW := outW, outH := outH }

/-! ## The input (R416, R421) -/

/-- The input picture on the stream's grid: luma, then each chroma plane on the half-size grid. -/
def encodePlanes (s : State) (x : Stream) (bytes input : List Byte) : List Plane :=
  let l := layoutOf (fieldAt bytes 44 2) (fieldAt bytes 46 2) x.depth
  let g := geometryOf bytes 48 (byteAt bytes 15).toNat false x.width x.height
  let half : Geometry := { g with outW := (x.width + 1) / 2, outH := (x.height + 1) / 2 }
  let c := fun base => half.chroma s x.depth (planeSample input x.depth base l.cpitch)
  [g.luma s x.depth (planeSample input x.depth 0 l.pitch), c l.yBytes, c (l.yBytes + l.cBytes)]

/-- The nearest present one of a list of references to place `i`: the smallest distance, ties broken by the lower place (R417;
log 71). -/
def nearestRef (i : Nat) (present : List Nat) : Option Nat :=
  (List.range 8).findSome? (fun d => present.find? (fun j => decide (j + d = i) || decide (i + d = j)))

/-- The references of an encode, each a buffer: a missing one is replaced by the nearest present one, an absent one is left out
(R410, R417). -/
def encodeBufs (x : Stream) (bytes : List Byte) (missing : Half) : List Nat :=
  let refs := encodeRefs bytes
  let places := List.range refs.length
  let present := places.filter (fun i => !bit missing.toNat i && decide (refs.getD i 0xFF < x.bufs))
  places.filterMap (fun i =>
    if bit missing.toNat i then (nearestRef i present).map (fun j => refs.getD j 0)
    else if refs.getD i 0xFF < x.bufs then some (refs.getD i 0) else none)

/-! ## Motion search (R419) -/

/-- A vector in quarter samples. -/
abbrev Mv := Int × Int

/-- The luma sample of a reference, its edges repeated outside the picture. -/
def refLuma (x : Stream) (pic : List Byte) (c r : Int) : Nat :=
  planeSample pic x.depth 0 x.layout.pitch (clampInt 0 ((x.width : Int) - 1) c).1.toNat (clampInt 0 ((x.height : Int) - 1) r).1.toNat

/-- The HEVC luma interpolation filter of a quarter-sample phase (log 27). -/
def lumaTaps (f : Nat) : List Int :=
  if f = 1 then [-1, 4, -10, 58, 17, -5, 1, 0]
  else if f = 2 then [-1, 4, -11, 40, 40, -11, 4, -1]
  else [0, 1, -5, 17, 58, -10, 4, -1]

/-- Eight samples weighted by the filter of a phase, from three places before the integer sample to four after it. -/
def filter8 (f : Nat) (sample : Int → Int) : Int :=
  (List.range 8).foldl (fun (a : Int) (i : Nat) => a + (lumaTaps f).getD i 0 * sample ((i : Int) - 3)) 0

/-- A reference's luma at a position in quarter samples, as HEVC interpolates it (log 27). -/
def interLuma (x : Stream) (pic : List Byte) (qx qy : Int) : Nat :=
  let fx := (qx % 4).toNat
  let fy := (qy % 4).toNat
  let at_ := fun (i j : Int) => (refLuma x pic (qx / 4 + i) (qy / 4 + j) : Int)
  let down := fun (v : Int) => v / 2 ^ (x.depth - 8)
  let row := fun (j : Int) => down (filter8 fx (fun i => at_ i j))
  let v := if fx = 0 ∧ fy = 0 then at_ 0 0 * 2 ^ (14 - x.depth)
    else if fy = 0 then row 0
    else if fx = 0 then down (filter8 fy (fun j => at_ 0 j))
    else filter8 fy row / 64
  (clampInt 0 (2 ^ x.depth - 1) ((v + 2 ^ (13 - x.depth)) / 2 ^ (14 - x.depth))).1.toNat

/-- The SAD of the 16 × 16 block at a column and row of blocks against a reference moved by a vector; the block ends with the
picture. -/
def blockSad (x : Stream) (cur : Plane) (pic : List Byte) (bx by_ : Nat) (v : Mv) : Nat :=
  (List.range 256).foldl (fun a i =>
    let c := 16 * bx + i % 16
    let r := 16 * by_ + i / 16
    if c < x.width ∧ r < x.height then a + ((cur.at c r : Int) - interLuma x pic (4 * c + v.1) (4 * r + v.2)).natAbs else a) 0

/-- Quarter samples rounded to whole ones, ties away from zero. -/
def roundMv (v : Int) : Int := if v < 0 then -(4 * (((v.natAbs + 2) / 4 : Nat) : Int)) else 4 * (((v.natAbs + 2) / 4 : Nat) : Int)

/-- The median of three. -/
def median (a b c : Int) : Int := max (min a b) (min (max a b) c)

def Stream.blockCols (x : Stream) : Nat := (x.width + 15) / 16
def Stream.blockRows (x : Stream) : Nat := (x.height + 15) / 16

/-- The candidate field's vector of a block; none outside the picture or before the first inter frame (Table LRK-9). -/
def Stream.candidate (x : Stream) (bx by_ : Int) : Option Mv :=
  if 0 ≤ bx ∧ bx < x.blockCols ∧ 0 ≤ by_ ∧ by_ < x.blockRows then x.field[by_.toNat * x.blockCols + bx.toNat]? else none

/-- The candidates of Table LRK-9 in their order, those that are available, rounded, without repeats. -/
def Stream.candidates (x : Stream) (gmv : Mv) (pic : List Byte) (bx by_ : Nat) : List Mv :=
  let left := x.candidate ((bx : Int) - 1) by_
  let top := x.candidate bx ((by_ : Int) - 1)
  let right := x.candidate ((bx : Int) + 1) ((by_ : Int) - 1)
  let temporal := if x.interSeen then
      Config.fieldVector ((pic.drop (x.layout.side + 16 * (by_ * (x.layout.w64 / 16) + bx))).take 16) else none
  let mid := match left, top, right with
    | some a, some b, some c => some (median a.1 b.1 c.1, median a.2 b.2 c.2)
    | _, _, _ => none
  (([some (0, 0), some gmv, left, top, right, x.candidate bx by_, temporal, mid].filterMap id).map
    (fun v => (roundMv v.1, roundMv v.2))).eraseDups

/-- The first vector of lowest cost, with its cost. -/
def bestOf (cost : Mv → Nat) (first : Mv × Nat) (l : List Mv) : Mv × Nat :=
  l.foldl (fun a v => if cost v < a.2 then (v, cost v) else a) first

/-- The small diamond: up, right, down, left, moving while the cost falls, within ±8 samples of where it began. -/
def diamond (cost : Mv → Nat) (origin : Mv) : Nat → Mv × Nat → Mv × Nat
  | 0, a => a
  | n + 1, a =>
    let near := ([(0, -4), (4, 0), (0, 4), (-4, 0)] : List Mv).map (fun d => (a.1.1 + d.1, a.1.2 + d.2))
    let b := bestOf cost a (near.filter (fun v => decide ((v.1 - origin.1).natAbs ≤ 32) && decide ((v.2 - origin.2).natAbs ≤ 32)))
    if b.2 < a.2 then diamond cost origin n b else a

/-- The eight neighbours at a distance, in raster order. -/
def around (d : Int) (v : Mv) : List Mv :=
  ([(-1, -1), (0, -1), (1, -1), (-1, 0), (1, 0), (-1, 1), (0, 1), (1, 1)] : List Mv).map (fun o => (v.1 + d * o.1, v.2 + d * o.2))

/-- The search of one block in one reference: candidates, diamond, half samples, quarter samples. -/
def Stream.searchBlock (x : Stream) (cur : Plane) (gmv : Mv) (pic : List Byte) (bx by_ : Nat) : Mv × Nat :=
  let cost := blockSad x cur pic bx by_
  let best := bestOf cost ((0, 0), cost (0, 0)) (x.candidates gmv pic bx by_)
  let whole := diamond cost best.1 8 best
  let half := bestOf cost whole (around 2 whole.1)
  bestOf cost half (around 1 half.1)

/-- The blocks of a frame in raster order, by column and row. -/
def Stream.blocks (x : Stream) : List (Nat × Nat) :=
  (List.range (x.blockCols * x.blockRows)).map (fun i => (i % x.blockCols, i / x.blockCols))

/-- The search of a frame, reference by reference, block by block. -/
def Stream.search (x : Stream) (cur : Plane) (gmv : Mv) (pics : List (List Byte)) : List (List (Mv × Nat)) :=
  pics.map (fun pic => x.blocks.map (fun b => x.searchBlock cur gmv pic b.1 b.2))

/-- The candidate field that a frame leaves: of each block the vector of lowest SAD, ties broken by the lower reference (log 71). -/
def Stream.nextField (x : Stream) (found : List (List (Mv × Nat))) : List Mv :=
  (List.range (x.blockCols * x.blockRows)).map (fun i =>
    (found.foldl (fun (a : Option (Mv × Nat)) r =>
      match a, r[i]? with
      | none, b => b
      | some a, none => some a
      | some a, some b => if b.2 < a.2 then some b else some a) none).elim (0, 0) (fun a => a.1))

/-! ## Mode decision (R420) -/

/-- The modes in the order that breaks ties: skip, the merge candidates, the searched vectors, the intra modes (Table LRK-6). -/
def encodeModes (e : EncodeIn) : List EncodeMode :=
  (if e.ftype = 0 then [] else
    EncodeMode.skip :: (List.range 5).map .merge ++ (List.range e.refs.length).map .inter) ++ (List.range 35).map .intra

/-- J of R420. -/
def costJ (lambda : Word) (c : Nat × Nat) : Nat := 256 * c.1 + lambda.toNat * c.2

/-- The first mode of lowest J. -/
def pickMode (j : EncodeMode → Nat) : List EncodeMode → EncodeMode
  | [] => .skip
  | a :: l => l.foldl (fun b m => if j m < j b then m else b) a

/-- The choices so far, and the bits of the row. -/
abbrev Coding := List (Nat × EncodeMode) × Nat

/-- Choose the next coding block's mode. -/
def codeBlock (e : EncodeIn) (lambda : Word) (qp : Nat) (z : Coding) : Coding :=
  let m := pickMode (fun m => costJ lambda (Config.modeCost e z.1 qp m)) (encodeModes e)
  (z.1 ++ [(qp, m)], z.2 + (Config.modeCost e z.1 qp m).2)

/-- `encode_row` of R418: the row's CTBs, each block by block; the bits written. -/
def encodeRow (e : EncodeIn) (lambda : Nat → Word) (choices : List (Nat × EncodeMode)) (r qp : Nat) : Nat × List (Nat × EncodeMode) :=
  let cols := (e.width + 31) / 32
  let z := (List.range cols).foldl (fun (z : Coding) i =>
    (List.range (Config.codingBlocks e z.1 (r * cols + i))).foldl (fun z _ => codeBlock e (lambda qp) qp z) z) (choices, 0)
  (z.2 + Config.rowBits e z.1, z.1)

/-! ## Rate control (R418) -/

/-- The rows of a frame from row `r` on: the QP of each, the bits used, and what the rows left behind. -/
def rateRows {α : Type} (row : α → Nat → Nat → Nat × α) (x : Stream) (budget : Int) (rows : Nat) :
    Nat → Nat → Int → Int → α → List Int × Int × α
  | 0, _, _, used, a => ([], used, a)
  | left + 1, r, qp, used, a =>
    let b := row a r qp.toNat
    let used := used + (b.1 : Int)
    let next := if budget ≤ used then x.qpMax
      else if budget * ((r : Int) + 1) < used * rows then min (qp + x.qpStep) x.qpMax else qp
    let t := rateRows row x budget rows left (r + 1) next used b.2
    (qp :: t.1, t.2)

/-- The window's budget. -/
def Stream.budget (x : Stream) : Int :=
  (x.winBits : Int) - (((x.hist.take (x.winFrames - 1)).foldl (· + ·) 0 : Nat) : Int)

/-- `rate_control`: the QP of each row, the bits used, and what the rows left behind. -/
def rateControl {α : Type} (row : α → Nat → Nat → Nat × α) (x : Stream) (ftype hdr rows : Nat) (a : α) : List Int × Int × α :=
  let qp := (clampInt x.qpMin x.qpMax (x.baseQp + x.qpOff.getD ftype 0)).1
  rateRows row x x.budget rows rows 0 qp hdr a

/-! ## The end of an encode -/

/-- What an encode comes to. -/
structure Encoded where
  e : EncodeIn
  found : List (List (Mv × Nat))
  qps : List Int
  used : Int
  choices : List (Nat × EncodeMode)
  /-- References by buffer, with the marks of their words. -/
  marks : List (List Bool)

/-- The vectors GMV, i16 each. -/
def gmvOf (bytes : List Byte) : Mv := (signed (fieldAt bytes 40 2) 16, signed (fieldAt bytes 42 2) 16)

/-- Read the references' pictures and motion fields whole (log 27). -/
def Io.readRefs (x : Io) (c : Nat) (st : Stream) (bufs : List Nat) : List (List Byte × List Bool) × Io :=
  bufs.foldl (fun a b =>
    let g := a.2.readSome c st.handle.toNat (st.bufOff b) (fun _ => true) (List.range (st.layout.total / 256))
    (a.1 ++ [g.1], g.2)) ([], x)

/-- The encoding of a frame: it reads its input and its references, searches, decides and codes (R416 to R420). -/
def Io.encode (x : Io) (c : Nat) (st : Stream) (p : Pkt) (missing : Half) : Encoded × Io :=
  let l := layoutOf (p.u16 44) (p.u16 46) st.depth
  let input := x.read c (p.handle 10) (p.u64 16) l.picture
  let planes := encodePlanes x.s st p.bytes input.1
  let refs := input.2.readRefs c st (encodeBufs st p.bytes missing)
  let pics := refs.1.map (fun r => r.1)
  let ftype := if pics.isEmpty then 0 else p.byte 12
  let found := st.search (planes.headD []) (gmvOf p.bytes) pics
  let e : EncodeIn := { ftype := ftype, width := st.width, height := st.height, depth := st.depth, planes := planes
                        refs := pics.map (fun r => r.take st.layout.picture)
                        vectors := found.map (fun r => r.map (fun b => b.1)) }
  let rc := rateControl (encodeRow e x.s.lambda) st ftype (p.u32 36) ((st.height + 31) / 32) []
  ({ e := e, found := found, qps := rc.1, used := rc.2.1, choices := rc.2.2, marks := refs.1.map (fun r => r.2) }, refs.2)

/-- Payload bytes of a frame: the bits it used beside the header's, rounded up. -/
def payloadBytes (used : Int) (hdr : Nat) : Nat := (used.toNat - hdr + 7) / 8

/-- Encoder CTBs (Table LRK-6). -/
def Stream.ctbs (x : Stream) : CtuGrid := { w := x.width, h := x.height, size := 32 }

/-- CTB `i` reads a poisoned reference sample: where it lies itself, or where its search or prediction goes (R415). -/
def Encoded.poisoned (z : Encoded) (x : Stream) (i : Nat) : Bool :=
  (List.range z.marks.length).any (fun r => (List.range x.layout.words).any (fun w =>
    (z.marks.getD r []).getD w false && (Config.ctbReads z.e i r w || x.ctbs.inWord x.layout i w (fun _ => true))))

/-- The reconstruction, its side area and its error map, which has no concealed CTB (R406). -/
def Encoded.bytes (z : Encoded) (x : Stream) : List Byte :=
  let l := x.layout
  let err := bitBytes x.ctbs.count (z.poisoned x)
  (List.range l.total).map (fun i =>
    let b := Config.encodePicture z.e z.choices i
    if i < l.picture then maskSample l.depth i b
    else if l.errorMap ≤ i ∧ i < l.errorMap + err.length then byteAt err (i - l.errorMap) else b)

/-- The words that poisoned CTBs write. -/
def Encoded.poison (z : Encoded) (x : Stream) : List Bool :=
  (List.range x.layout.words).map (fun w =>
    (List.range x.ctbs.count).any (fun i => z.poisoned x i && x.ctbs.inWord x.layout i w (fun _ => true)))

/-- The stream after a frame: its history, and, after an inter frame, its candidate field (R418, R419). -/
def Stream.coded (x : Stream) (z : Encoded) : Stream :=
  let x' := { x with hist := (z.used.toNat :: x.hist).take 64 }
  if z.e.ftype = 0 then x' else { x' with interSeen := true, field := x.nextField z.found }

/-- An encode ends (R417 to R420). -/
def State.encodeEnd (s : State) (f : Frame) (sn target : Nat) : State :=
  let c := f.ctx
  let x := s.stream sn
  let p : Pkt := { bytes := f.bytes, ctx := c, cls := f.cls, order := 0 }
  let r := (Io.of s).encode c x p f.missing
  let z := r.1
  let bytes := payloadBytes z.used (p.u32 36)
  if p.u32 32 < bytes then
    let s := (r.2.s.havoc c (p.handle 11) (p.u64 24) (p.u32 32)).havoc c x.handle.toNat (x.bufOff target) x.layout.total
    (s.dropFrame f.id).finish f.slot stBounds 4 0 []
  else
    let io := r.2.write c (p.handle 11) (p.u64 24) ((List.range bytes).map (Config.encodeByte z.e z.choices))
    let io := io.writeMarked c x.handle.toNat (x.bufOff target) (z.bytes x) (z.poison x)
    let s := (io.s.markTarget sn target (p.byte 13)).addSamples (x.width * x.height)
    let s := s.setStream sn ((s.stream sn).coded z)
    let qp := fun (q : Option Int) => BitVec.ofInt 8 (q.getD 0)
    (s.dropFrame f.id).finish f.slot io.st 0 0 (leBytes 4 bytes
      ++ [qp z.qps.head?, qp z.qps.getLast?, BitVec.ofNat 8 (b2n (decide (x.budget < z.used)) + 2 * b2n (decide (f.missing ≠ 0)))])

end Sys2Proof.Machine
end

