-- ==== Sys2Proof/Machine/Lark.lean ====
section
/-!
DEFINITION. Lark's commands (17): streams, the reference pool, frames at dispatch, the engines that run them, and Preform.
-/

namespace Sys2Proof.Machine

/-- A buffer that may be read: neither UNUSED nor invalid (R410, R423). -/
def Stream.readable (x : Stream) (b : Nat) : Bool :=
  decide (b < x.bufs) && decide ((x.bufAt b).mark ≠ 0) && (x.bufAt b).valid

/-- R407, R530: one more uncompleted frame names each of these buffers. -/
def Stream.count (x : Stream) (bufs : List Nat) : Stream :=
  { x with buf := bufs.foldl (fun m b => spModify Buf.reset m b (fun y => { y with refcnt := y.refcnt + 1 })) x.buf }

/-- Frames of a stream that have not completed. -/
def State.framesOf (s : State) (n : Nat) : List Frame := s.lrk.frames.filter (fun f => decide (f.stream = some n))

/-- Table LRK-1: W × H and each dimension within the standard's level limit; MODE 1 is AV1. -/
def levelOk (mode w h : Nat) : Bool :=
  decide (w * h ≤ 8912896) && (if mode = 1 then decide (w ≤ 8192) && decide (h ≤ 4352) else decide (w ≤ 8444) && decide (h ≤ 8444))

/-! ## LARK_STREAM (R404 to R408, R411) -/

def i8At (p : Pkt) (i : Nat) : Int := signed (p.byte i) 8

/-- The stream that an OPEN describes (Table LRK-3). -/
def streamOf (p : Pkt) : Stream :=
  { opened := true, mode := p.byte 10, bufs := p.byte 11, width := p.u16 12, height := p.u16 14, depth := p.byte 16
    grain := decide (p.byte 10 = 1) && bit (p.byte 17) 0, handle := BitVec.ofNat 6 (p.byte 18), poolOff := p.u64 24
    bufBytes := p.u32 32, baseQp := p.byte 40, qpOff := [i8At p 41, i8At p 42, i8At p 43], qpMin := p.byte 44
    qpMax := p.byte 45, qpStep := p.byte 46, winFrames := p.byte 47, winBits := p.u32 48, hist := [], interSeen := false
    field := [], buf := [] }

/-- The encoder's parameters lie in the ranges of Table LRK-3. -/
def Stream.rateOk (x : Stream) : Bool :=
  decide (x.qpMin ≤ x.qpMax) && decide (x.qpMax ≤ if x.depth = 10 then 63 else 51)
    && decide (1 ≤ x.qpStep) && decide (x.qpStep ≤ 6) && decide (1 ≤ x.winFrames) && decide (x.winFrames ≤ 64)

/-- OPEN's parameters hold no reserved value, and a buffer has room for Table LRK-4 (R405, R406; log 71). -/
def Stream.openOk (x : Stream) : Bool :=
  decide (x.mode ≤ 2) && decide (1 ≤ x.bufs) && decide (x.bufs ≤ 16) && decide (1 ≤ x.width) && decide (1 ≤ x.height)
    && (decide (x.depth = 8) || decide (x.depth = 10)) && decide (x.poolOff % 256 = 0) && decide (x.bufBytes % 256 = 0)
    && (decide (x.mode ≠ 2) || x.rateOk) && decide (x.layout.total ≤ x.bufBytes)

/-- The frame-buffer pool passes R95 with WR and WW. -/
def State.poolRange (s : State) (c : Nat) (x : Stream) : Option CheckFail :=
  firstFail [s.checkRange c x.handle.toNat .wr x.poolOff (x.bufs * x.bufBytes),
    s.checkRange c x.handle.toNat .ww x.poolOff (x.bufs * x.bufBytes)]

def larkStreamOpenAct (s : State) (_ : Nat) (p : Pkt) : DispOut :=
  let n := p.byte 9
  let x := streamOf p
  if 2 < p.byte 8 then .fail s stBounds
  else if !(s.act.range p.ctx).hasStream n then .fail s stPermission
  else if (s.stream n).opened || decide (2 < x.mode) then .fail s stBounds
  else if !levelOk x.mode x.width x.height then .fail s stUnsupportedTool
  else if !x.openOk then .fail s stBounds
  else
    match s.poolRange p.ctx x with
    | some f => .fin s stBounds f.order 0 []
    | none => .ok (s.setStream n x) []

/-- Packets of LARK_STREAM by SUBOP; a reserved one goes with OPEN. -/
def isLarkStream (sub : Nat) (p : Pkt) : Bool :=
  decide (p.opcode = 0x43) && (if sub = 0 then decide (p.byte 8 ≠ 1) && decide (p.byte 8 ≠ 2) else decide (p.byte 8 = sub))

def larkStreamOpen (q : Nat) (s : State) : State := s.dispatch q (isLarkStream 0) larkStreamOpenAct

/-- LARK_STREAM_OPEN (R406). -/
def execLarkStreamOpen (q : Fin 512) (s : State) : Host.Outcome State Fault Refusal := .next (larkStreamOpen q.val s)

/-- R408: the mark of one buffer; UNUSED also clears VALID. -/
def Stream.markBuf (x : Stream) (mark : Nat) (b : Nat) : Stream :=
  let y := x.bufAt b
  x.setBuf b { y with mark := BitVec.ofNat 2 mark, valid := y.valid && decide (mark ≠ 0) }

def larkStreamMarkAct (s : State) (_ : Nat) (p : Pkt) : DispOut :=
  let n := p.byte 9
  let x := s.stream n
  let mask := (maskList (p.u16 12) 16).filter (fun b => decide (b < x.bufs))
  if !(s.act.range p.ctx).hasStream n then .fail s stPermission
  else if !x.opened || decide (3 < p.byte 14) then .fail s stBounds
  else if (s.framesOf n).any (fun f => match f.target with | some b => mask.contains b | none => false) then .fail s stBounds
  else .ok (s.setStream n (mask.foldl (fun x b => x.markBuf (p.byte 14) b) x)) []

def larkStreamMark (q : Nat) (s : State) : State := s.dispatch q (isLarkStream 1) larkStreamMarkAct

/-- LARK_STREAM_MARK (R408). -/
def execLarkStreamMark (q : Fin 512) (s : State) : Host.Outcome State Fault Refusal := .next (larkStreamMark q.val s)

def larkStreamCloseAct (s : State) (_ : Nat) (p : Pkt) : DispOut :=
  let n := p.byte 9
  if !(s.act.range p.ctx).hasStream n then .fail s stPermission
  else if !(s.stream n).opened then .fail s stBounds
  else if !(s.framesOf n).isEmpty then .wait
  else .ok (s.setStream n (s.stream n).closed) []

def larkStreamClose (q : Nat) (s : State) : State := s.dispatch q (isLarkStream 2) larkStreamCloseAct

/-- LARK_STREAM_CLOSE (R411). -/
def execLarkStreamClose (q : Fin 512) (s : State) : Host.Outcome State Fault Refusal := .next (larkStreamClose q.val s)

/-! ## Frames at dispatch (R407, R409, R410, R412) -/

/-- The list without repeats. -/
def noRepeats (l : List Nat) : List Nat := l.foldr (fun b m => if m.contains b then m else b :: m) []

/-- The frame's stream is named in the context's range, is OPEN and has a mode that `ok` allows; then there is room. -/
def State.frameStream (s : State) (p : Pkt) (n : Nat) (ok : Nat → Bool) : Option DispOut :=
  if !(s.act.range p.ctx).hasStream n then some (.fail s stPermission)
  else if !(s.stream n).opened || !ok (s.stream n).mode then some (.fail s stBounds)
  else if 8 ≤ (s.framesOf n).length then some .wait
  else none

/-- The TARGET and TMARK of a frame (R408, R409): a failure, a wait, or neither. -/
def Stream.targetFault (x : Stream) (target tmark : Nat) : Bool :=
  decide (x.bufs ≤ target) || decide ((x.bufAt target).mark ≠ 0) || decide (tmark = 0) || decide (3 < tmark)

/-- A frame enters the engine's frames, and its stream counts it (R407). -/
def State.queueFrame (s : State) (k : Nat) (p : Pkt) (kind : FrameKind) (stream : Option Nat) (bufs : List Nat)
    (target : Option Nat) (missing : Half) (data : Half) : DispOut :=
  let f : Frame := {
    id := s.lrk.nextFrame, slot := k, ctx := p.ctx, cls := p.cls, kind := kind, stream := stream,
    bufs := noRepeats bufs, target := target, missing := missing, bytes := p.bytes, data := data, started := false }
  let s := { s with lrk := { s.lrk with frames := s.lrk.frames ++ [f], nextFrame := s.lrk.nextFrame + 1 } }
  let s := match stream with
    | none => s
    | some n => s.setStream n ((s.stream n).count f.bufs)
  .run s (.lark f.id)

/-- R410: the missing slots. -/
def Stream.missing (x : Stream) (refs : List Nat) (needed : Nat → Bool) : Half :=
  (List.range refs.length).foldl (fun m i =>
    let r := refs.getD i 0xFF
    setBit m i (if r = 0xFF then needed i else !x.readable r)) 0

/-- Buffers of the pool that the slots name. -/
def Stream.named (x : Stream) (refs : List Nat) : List Nat := refs.filter (fun r => decide (r < x.bufs))

def larkDecodeAct (s : State) (k : Nat) (p : Pkt) : DispOut :=
  let c := p.ctx
  let n := p.byte 8
  let x := s.stream n
  match s.frameStream p n (fun m => decide (m ≤ 1)) with
  | some o => o
  | none =>
    if x.targetFault (p.byte 9) (p.byte 12) then .fail s stBounds
    else
      match firstFail [s.poolRange c x, s.chk c (p.handle 10) .wr (p.u64 24) (p.u32 16),
          s.checkRange c (p.handle 11) .wr (p.u64 32) 64,
          if x.grain then s.checkRange c (p.handle 13) .ww (p.u64 40) x.layout.picture else none] with
      | some f => .failCheck s f
      | none =>
        let pre := (Io.of s).read c (p.handle 11) (p.u64 32) 64
        let len := max 64 (Config.syntaxLength pre.1)
        match s.checkRange c (p.handle 11) .wr (p.u64 32) len with
        | some f => .failCheck s f
        | none =>
          let sx := (Io.of s).read c (p.handle 11) (p.u64 32) len
          match (if fieldAt sx.1 0 4 = x.mode then syntaxOf sx.1 else none) with
          | none => .fail sx.2.s stBounds
          | some y =>
          if !y.supported then .fail sx.2.s stUnsupportedTool
          else if (x.bufAt (p.byte 9)).refcnt ≠ 0 then .wait
          else
            let refs := decodeRefs x p.bytes
            sx.2.s.queueFrame k p .decode (some n) (p.byte 9 :: x.named refs) (some (p.byte 9))
              (x.missing refs (fun i => bit (Config.slotsNeeded sx.1).toNat i)) sx.2.st

def larkDecode (q : Nat) (s : State) : State := s.dispatch q (fun p => decide (p.opcode = 0x40)) larkDecodeAct

/-- LARK_DECODE (R412). -/
def execLarkDecode (q : Fin 512) (s : State) : Host.Outcome State Fault Refusal := .next (larkDecode q.val s)

/-- The crop lies in the source and both ratios hold (R421; log 71). -/
def Geometry.fits (g : Geometry) (w h : Nat) : Bool := decide (g.x + g.w ≤ w) && decide (g.y + g.h ≤ h) && g.ok

def larkEncodeAct (s : State) (k : Nat) (p : Pkt) : DispOut :=
  let c := p.ctx
  let n := p.byte 8
  let x := s.stream n
  let g := geometryOf p.bytes 48 (p.byte 15) false x.width x.height
  match s.frameStream p n (fun m => decide (m = 2)) with
  | some o => o
  | none =>
    if x.targetFault (p.byte 9) (p.byte 13) || decide (2 < p.byte 12) || decide (p.byte 14 ≠ if x.depth = 10 then 1 else 0)
        || !g.fits (p.u16 44) (p.u16 46) then .fail s stBounds
    else
      match firstFail [s.poolRange c x,
          s.checkRange c (p.handle 10) .wr (p.u64 16) (layoutOf (p.u16 44) (p.u16 46) x.depth).picture,
          s.chk c (p.handle 11) .ww (p.u64 24) (p.u32 32)] with
      | some f => .failCheck s f
      | none =>
        if (x.bufAt (p.byte 9)).refcnt ≠ 0 then .wait
        else
          let refs := encodeRefs p.bytes
          s.queueFrame k p .encode (some n) (p.byte 9 :: x.named refs) (some (p.byte 9)) (x.missing refs (fun _ => false)) stOK

def larkEncode (q : Nat) (s : State) : State := s.dispatch q (fun p => decide (p.opcode = 0x41)) larkEncodeAct

/-- LARK_ENCODE (R416). -/
def execLarkEncode (q : Fin 512) (s : State) : Host.Outcome State Fault Refusal := .next (larkEncode q.val s)

/-! ## LARK_PREFORM (Table LRK-10, R423) -/

structure PreformP where
  infmt : Nat
  matrix : Nat
  ofmt : Nat
  layout : Nat
  luma : Bool
  geo : Geometry
  /-- Input: handle, offset, layout in memory and size; the stream's buffer, or INHANDLE. -/
  handle : Nat
  off : Nat
  lay : Layout
  w : Nat
  h : Nat
  inBytes : Nat
  out : Nat
  outOff : Nat

def PreformP.chans (a : PreformP) : Nat := if a.luma then 1 else 3
def PreformP.elems (a : PreformP) : Nat := a.geo.outW * a.geo.outH * a.chans
def PreformP.elemSize (a : PreformP) : Nat := if a.ofmt = 0 then 2 else 1
def PreformP.outBytes (a : PreformP) : Nat := a.elems * a.elemSize

/-- The parameters of a LARK_PREFORM whose stream and buffer are as named. -/
def preformOf (x : Stream) (bytes : List Byte) : PreformP :=
  let b := fun i => (byteAt bytes i).toNat
  let pool := decide (b 81 ≠ 0xFF)
  let w := if pool then x.width else fieldAt bytes 28 2
  let h := if pool then x.height else fieldAt bytes 30 2
  let l := layoutOf w h (if b 10 = 1 then 10 else 8)
  let lay := if pool then l else { l with pitch := fieldAt bytes 24 4 }
  { infmt := b 10, matrix := b 11, ofmt := b 12, layout := b 13, luma := decide (b 14 = 1)
    geo := geometryOf bytes 32 (b 15) (!bit (b 11) 3) (fieldAt bytes 40 2) (fieldAt bytes 42 2)
    handle := if pool then x.handle.toNat else b 8 % 64, off := if pool then x.bufOff (b 81) else fieldAt bytes 16 8
    lay := lay, w := w, h := h, inBytes := if b 10 = 2 then lay.pitch * h else lay.picture
    out := b 9 % 64, outOff := fieldAt bytes 72 8 }

/-- Reserved values, the crop and the ratios, and the patches (R421, R426). -/
def PreformP.bad (a : PreformP) (outch : Nat) : Bool :=
  decide (2 < a.infmt) || decide (a.matrix % 4 = 3) || decide (3 < a.ofmt) || decide (4 < a.layout) || decide (1 < outch)
    || !a.geo.fits a.w a.h
    || (decide (a.layout ≠ 0) && (decide (a.geo.outW % patchSize a.layout ≠ 0) || decide (a.geo.outH % patchSize a.layout ≠ 0)))

/-- R423: what STREAM and INBUF come to. -/
def State.preformSource (s : State) (p : Pkt) : Option DispOut :=
  let n := p.byte 80
  let b := p.byte 81
  if n = 0xFF then (if b = 0xFF then none else some (.fail s stBounds))
  else
    match s.frameStream p n (fun _ => true) with
    | some o => some o
    | none =>
      if b = 0xFF then none
      else if !(s.stream n).readable b || decide (p.byte 10 ≠ if (s.stream n).depth = 10 then 1 else 0) then
        some (.fail s stBounds)
      else none

def larkPreformAct (s : State) (k : Nat) (p : Pkt) : DispOut :=
  let c := p.ctx
  let n := p.byte 80
  let x := s.stream n
  let a := preformOf x p.bytes
  match s.preformSource p with
  | some o => o
  | none =>
    if a.bad (p.byte 14) then .fail s stBounds
    else
      match firstFail [s.chk c a.handle .wr a.off a.inBytes, s.chk c a.out .ww a.outOff a.outBytes] with
      | some f => .failCheck s f
      | none =>
        s.queueFrame k p .preform (if n = 0xFF then none else some n) (if p.byte 81 = 0xFF then [] else [p.byte 81]) none 0 stOK

def larkPreform (q : Nat) (s : State) : State := s.dispatch q (fun p => decide (p.opcode = 0x42)) larkPreformAct

/-- LARK_PREFORM (R423). -/
def execLarkPreform (q : Fin 512) (s : State) : Host.Outcome State Fault Refusal := .next (larkPreform q.val s)

/-! ## Scheduling (R427, R428) -/

/-- Engines of a pipeline: decode, encode, Preform (R399). -/
def pipeEngines (pl : Nat) : List Nat := if pl = 0 then [0, 1, 2, 3] else if pl = 1 then [4] else [5]

def enginePipe (e : Nat) : Nat := if e < 4 then 0 else if e = 4 then 1 else 2

def FrameKind.pipe : FrameKind → Nat
  | .decode => 0
  | .encode => 1
  | .preform => 2

/-- A frame that has not started and is its stream's oldest uncompleted one, or has no stream (R427). The frames of a context
that closes start no more (R428). -/
def State.frameReady (s : State) (f : Frame) : Bool :=
  !f.started && decide ((s.ctxOf f.ctx).state ≠ .closing) && (match f.stream with
    | none => true
    | some n => match s.framesOf n with | g :: _ => decide (g.id = f.id) | [] => false)

/-- Ready frames of a pipeline in dispatch order. -/
def State.readyFrames (s : State) (pl : Nat) : List Frame :=
  s.lrk.frames.filter (fun f => decide (f.kind.pipe = pl) && s.frameReady f)

/-- The first frame of the lowest class. -/
def lowestClass (l : List Frame) : Option Frame :=
  (List.range 8).findSome? (fun c => l.find? (fun f => decide (f.cls = c)))

/-- Class of the frame an engine runs. -/
def State.engineClass (s : State) (e : Nat) : Option Nat :=
  match (s.engine e).frame with
  | none => none
  | some f => (s.frame f).map (fun x => x.cls)

/-- The engine whose frame a class-0 frame suspends: the highest class above 0, then the highest engine; an engine holds
one suspended frame at a time (R427; log 69). -/
def State.victim (s : State) (pl : Nat) : Option Nat :=
  let may := fun e => !(s.engine e).toSuspend && (s.engine e).suspended.isNone
  (List.range 7).findSome? (fun i =>
    (pipeEngines pl).reverse.find? (fun e => may e && decide (s.engineClass e = some (7 - i))))

def State.startFrame (s : State) (f : Frame) (e : Nat) : State :=
  let s := s.setEngine e { s.engine e with frame := some f.id }
  { s with lrk := { s.lrk with
      frames := s.lrk.frames.map (fun x => if x.id = f.id then { x with started := true } else x) } }

def larkFrameStart (pl : Nat) (s : State) : State :=
  if s.silent || s.stopped then s
  else
    let ready := s.readyFrames pl
    match lowestClass ready with
    | none => s
    | some f =>
      let free := fun e => (s.engine e).frame.isNone && (decide (f.cls = 0) || (s.engine e).suspended.isNone)
      match (pipeEngines pl).find? free with
      | some e => s.startFrame f e
      | none =>
        let chosen := ((pipeEngines pl).filter (fun e => (s.engine e).toSuspend)).length
        if f.cls = 0 ∧ chosen < (ready.filter (fun g => decide (g.cls = 0))).length then
          match s.victim pl with
          | some e => s.setEngine e { s.engine e with toSuspend := true }
          | none => s
        else s

/-- LARK_FRAME_START (R427). -/
def execLarkFrameStart (pl : Fin 3) (s : State) : Host.Outcome State Fault Refusal := .next (larkFrameStart pl.val s)

def larkFrameSuspend (e : Nat) (s : State) : State :=
  let g := s.engine e
  if s.silent || g.stopped || !g.toSuspend || g.frame.isNone then s
  else
    let s := s.setEngine e { g with frame := none, suspended := g.frame, toSuspend := false }
    { s with lrk := { s.lrk with preempts := s.lrk.preempts + 1 } }

/-- LARK_FRAME_SUSPEND (R427). -/
def execLarkFrameSuspend (e : Fin 6) (s : State) : Host.Outcome State Fault Refusal := .next (larkFrameSuspend e.val s)

def larkFrameResume (e : Nat) (s : State) : State :=
  let g := s.engine e
  if s.silent || s.stopped || g.frame.isSome || g.suspended.isNone
      || (s.readyFrames (enginePipe e)).any (fun f => decide (f.cls = 0)) then s
  else s.setEngine e { g with frame := g.suspended, suspended := none }

/-- LARK_FRAME_RESUME (R427). -/
def execLarkFrameResume (e : Fin 6) (s : State) : Host.Outcome State Fault Refusal := .next (larkFrameResume e.val s)

def larkEngineStop (e : Nat) (s : State) : State :=
  if s.silent || !s.stopped then s else s.setEngine e { s.engine e with stopped := true }

/-- LARK_ENGINE_STOP (R428). -/
def execLarkEngineStop (e : Fin 6) (s : State) : Host.Outcome State Fault Refusal := .next (larkEngineStop e.val s)

/-! ## Preform at its end (R421 to R426) -/

/-- The exact channels of an output pixel, from the three scaled planes. -/
def PreformP.pixel (a : PreformP) (ps : List Plane) (x y : Nat) : List Frac :=
  let v := fun i => (ps.getD i []).at x y
  let full := bit a.matrix 2
  if a.infmt = 2 then
    if a.luma then [rgbLuma (v 0) (v 1) (v 2)] else (List.range 3).map (fun i => ⟨v i, 255⟩)
  else if a.luma then [lumaN full a.lay.depth (v 0)]
  else yuvRgb (a.matrix % 4) full a.lay.depth (v 0) (v 1) (v 2)

/-- Stages 1 to 4 on the input's planes. -/
def PreformP.planes (a : PreformP) (s : State) (bs : List Byte) : List Plane :=
  if a.infmt = 2 then
    (List.range 3).map (fun i => a.geo.luma s 8 (fun x y => (byteAt bs (y * a.lay.pitch + 4 * x + i)).toNat))
  else
    let d := a.lay.depth
    let c := fun base => a.geo.chroma s d (planeSample bs d base a.lay.cpitch)
    a.geo.luma s d (planeSample bs d 0 a.lay.pitch) :: (if a.luma then [] else [c a.lay.yBytes, c (a.lay.yBytes + a.lay.cBytes)])

/-- The output elements in memory order (R424 to R426). -/
def PreformP.compute (a : PreformP) (bytes : List Byte) (ps : List Plane) : Res (List Nat) :=
  resTable (fun i =>
    let e := elemPlace a.layout a.geo.outW a.chans i
    let v := ((a.pixel ps e.1 e.2.1).getD e.2.2 ⟨0, 1⟩).unit32
    let r := preformElem a.ofmt (wordAt bytes 44) (wordAt bytes (48 + 4 * e.2.2)) (wordAt bytes (60 + 4 * e.2.2)) v.out
    ⟨r.out, v.fl ||| r.fl⟩) a.elems

/-- A Preform ends. -/
def State.preformEnd (s : State) (f : Frame) : State :=
  let x := match f.stream with | some n => s.stream n | none => Stream.reset
  let a := preformOf x f.bytes
  let g := (Io.of s).read f.ctx a.handle a.off a.inBytes
  let r := a.compute f.bytes (a.planes s g.1)
  let io := g.2.write f.ctx a.out a.outOff (r.out.flatMap (leBytes a.elemSize))
  ((io.s.addSamples (a.geo.outW * a.geo.outH)).dropFrame f.id).finish f.slot io.st 0 r.fl []

def larkFrameEnd (e : Nat) (s : State) : State :=
  if s.silent || (s.engine e).stopped then s
  else
    match (s.engine e).frame with
    | none => s
    | some id =>
      match s.frame id with
      | none => s
      | some f =>
        match f.kind, f.stream, f.target with
        | .decode, some n, some b => s.decodeEnd f n b
        | .encode, some n, some b => s.encodeEnd f n b
        | .preform, _, _ => s.preformEnd f
        | _, _, _ => s

/-- LARK_FRAME_END (R415). -/
def execLarkFrameEnd (e : Fin 6) (s : State) : Host.Outcome State Fault Refusal := .next (larkFrameEnd e.val s)

end Sys2Proof.Machine
end

