-- ==== Sys2Proof/Machine/Tick.lean ====
section
/-! DEFINITION. The passing of one wave, and package time (19 R479, R480; log 3). -/

namespace Sys2Proof.Machine

/-- The lowest-numbered physical wellhead in CTRLONLY or ACTIVE (R480). -/
def State.timeSource (s : State) : Option Nat := (List.range 8).find? (fun p => (s.port p).alive)

/-- TOP_TIMEPACE; 0 is read as 160 (Table TOP-6). -/
def State.timePace (s : State) : Nat := if s.time.pace = 0 then 160 else s.time.pace.toNat

/-- max(last reported time, base + interpolated time) (R479). -/
def Time.advance (t : Time) : Time :=
  let v := t.base + BitVec.ofNat 64 t.interp
  { t with last := if t.last.toNat ≤ v.toNat then v else t.last }

/-- One wave of interpolation: the PHY counter of the source, or the wave count over TOP_TIMEPACE (R480). -/
def State.interpolate (s : State) : Time :=
  let t := s.time
  match s.timeSource with
  | some _ => { t with interp := t.interp + Config.phyNs t.wave }
  | none => { t with interp := t.interp + (t.frac + 100) / s.timePace, frac := (t.frac + 100) % s.timePace }

/-- The program is held in this wave: by a wait, a signal or a narrow load (R230, R231, R237, R239), or because its next
bundle may not issue (R54, R204, R248). -/
def State.heldWave (s : State) (t : Nat) : Bool :=
  let w := (s.tile t).wren
  w.prog.isSome && !w.halted
    && (w.wait.isSome || w.sig.isSome || w.held.isSome
      || (decide (w.issued = 0) && !w.ended && (s.stopped || decide (s.fate t = .waits))))

/-- WRN_STALLS counts the wave (Table WRN-7). -/
def Tile.stall (t : Tile) : Tile := { t with wren := { t.wren with stalls := t.wren.stalls + 1 } }

/-- One wave passes while no command waits. A die in reset or in STANDBY holds no tile program. -/
def waveTick (s : State) : State :=
  let t := if s.time.valid then s.interpolate.advance else s.time
  let m := if s.silent then s.tiles else s.tiles.map (fun e => (e.1, if s.heldWave e.1 then e.2.stall else e.2))
  { s with time := { t with wave := t.wave + 1 }, tiles := m }

end Sys2Proof.Machine
end

