-- ==== Sys2Proof/Machine/Registers.lean ====
section
/-!
DEFINITION. What CTRL reads at each offset of the control space (23 Table PHY-1 and the register table of every chapter).
Reserved, write-only and absent words read zero (R16, R17, R19, R38); a read changes nothing.
-/

namespace Sys2Proof.Machine

/-! ## ID, RST, TOP, LNK -/

/-- ID (Tables FAM-4 to FAM-8, PHY-9); the whole block reads zero where no fuse load has succeeded (R28, R543). -/
def State.idWord (s : State) (off : Nat) : Nat :=
  let f := s.fuse
  if !s.rst.idLoaded then 0
  else if off = 0x00 then 0x4C4A
  else if off = 0x04 then f.variant.toNat
  else if off = 0x08 then f.tileOrder.foldl (fun a p => a + 2 ^ p) 0
  else if off = 0x0C then bits f.tileMap 0 32
  else if off = 0x10 then bits f.tileMap 32 32
  else if off = 0x14 then b2n s.idStrapErr
  else if off = 0x18 then f.idcode.toNat
  else if off = 0x20 then bits f.serial.toNat 0 32
  else if off = 0x24 then bits f.serial.toNat 32 32
  else if off = 0x30 then s.idScratch.toNat
  else 0

/-- RST (Table RST-6). -/
def State.rstWord (s : State) (off : Nat) : Nat :=
  let r := s.rst
  if off = 0x00 then r.phase.toNat + at_ (b2n r.fuseErr) 8 + at_ (maskList s.cis.tractFail.toNat 64).length 9
  else if off = 0x04 then r.cause.toNat
  else if off = 0x0C then r.count.toNat
  else if off = 0x10 then r.readyUs.toNat
  else if off = 0x14 then r.detachBound.toNat
  else if off = 0x18 then r.noticeLost.toNat
  else 0

/-- `n` 4-bit fields. -/
def nibbles (n : Nat) (f : Nat → Nat) : Nat := (List.range n).foldl (fun a k => a + at_ (f k) (4 * k)) 0

/-- TOP_PARTNER of a logical port. -/
def State.partnerWord (s : State) (lp : Nat) : Nat :=
  match (s.port (physPort s.top.orient lp)).partner with
  | none => 0
  | some m => m.dieId.toNat + at_ (m.port.toNat % 16) 16 + at_ (m.role.toNat % 2) 20 + at_ m.tier.toNat 21 + 2 ^ 31

/-- TOP (Table TOP-6). -/
def State.topWord (s : State) (off : Nat) : Nat :=
  let t := s.top
  if off = 0x00 then s.straps
  else if off = 0x04 then nibbles 8 (fun n => if s.fuse.portPresent n then logicalPort t.orient n else 0xF)
  else if off = 0x08 then t.module.toNat + at_ (b2n t.mapv) 31
  else if off = 0x0C then s.dieId.toNat
  else if off = 0x10 then t.hubPort.toNat + at_ s.learnedHub 8 + at_ s.hubDist 16
  else if off = 0x14 then nibbles 8 s.routeOf
  else if off = 0x18 then nibbles 8 (fun k => s.routeOf (8 + k))
  else if off = 0x1C then nibbles 8 s.learnOf
  else if off = 0x20 then nibbles 8 (fun k => s.learnOf (8 + k))
  else if 0x40 ≤ off ∧ off < 0x64 then (spGet 0 t.expect ((off - 0x40) / 4)).toNat
  else if 0x80 ≤ off ∧ off < 0xA4 then s.partnerWord ((off - 0x80) / 4)
  else if off = 0xC0 then t.mismatch.toNat
  else if off = 0xC8 then t.unroutable.toNat
  else if off = 0x100 then bits s.now.toNat 0 32
  else if off = 0x104 then bits s.now.toNat 32 32
  else if off = 0x108 then s.time.adj.toNat
  else if off = 0x10C then b2n s.time.valid + at_ (s.timeSource.getD 0xF) 4
  else if off = 0x110 then s.time.pace.toNat
  else 0

/-- Port and offset within its block, for a port that is bonded (Table LNK-6, R38). -/
def State.lnkAt (s : State) (off : Nat) : Option (Nat × Nat) :=
  let p := if 0x7C000 ≤ off then 8 else (off - 0x40000) / 0x8000
  let rel := if 0x7C000 ≤ off then off - 0x7C000 else (off - 0x40000) % 0x8000
  if (p = 8 ∨ (p < 8 ∧ off < 0x80000)) ∧ s.fuse.portPresent p ∧ rel < 0x4000 ∧ (p ≠ 8 ∨ 0x7C000 ≤ off) then some (p, rel)
  else none

/-- Code of a port's state (Table LNK-4). -/
def PortState.code : PortState → Nat
  | .disabled => 0
  | .training => 1
  | .ctrlOnly => 2
  | .active => 3
  | .retrain => 4
  | .down => 5
  | .offline => 6

/-- LNK_CREDITS; a port that has not trained has none to send with (log 72). -/
def Port.creditWord (x : Port) : Nat :=
  if x.alive || decide (x.state = .retrain) then
    x.credits vcCtrl + at_ (x.credits vcReq) 6 + at_ (x.credits vcRsp) 14 + at_ (x.credits vcBulk / 4) 23
  else 0

/-- LNK (Table LNK-6). -/
def Port.word (x : Port) (rel : Nat) : Nat :=
  if rel = 0x00 then b2n x.en + at_ x.maxRate.toNat 1 + at_ (b2n x.zrcEn) 3 + at_ (b2n x.hubOff) 4
  else if rel = 0x04 then
    x.state.code + at_ x.rate.toNat 4 + at_ (b2n x.half) 6 + at_ x.repaired.toNat 8
      + at_ (match x.partner with | some m => m.dieId.toNat | none => 0) 16
  else if rel = 0x08 then x.creditWord
  else if rel = 0x10 then x.e2e.toNat
  else if rel = 0x20 then x.txFlits.toNat
  else if rel = 0x24 then x.rxFlits.toNat
  else if rel = 0x28 then x.crcErr.toNat
  else if rel = 0x2C then x.replays.toNat
  else if rel = 0x30 then x.retrains.toNat
  else if rel = 0x34 then x.downs.toNat
  else if rel = 0x38 then x.protErr.toNat
  else if rel = 0x3C then x.zrcFlits.toNat
  else 0

/-! ## CIS -/

def Remap.word (r : Remap) : Nat := r.row.toNat + at_ (b2n r.valid) 9 + at_ r.source.toNat 10 + at_ (b2n r.bad) 12

/-- CIS (Tables CIS-6, CIS-8, CIS-9, INT-5 to INT-7), but for the RWS power groups. -/
def State.cisWord (s : State) (off : Nat) : Nat :=
  let c := s.cis
  let busy := fun b => (List.range 32).foldl (fun a k => a + (if (s.walkOf (b + k)).isSome then 2 ^ k else 0)) 0
  if off < 0x10 then
    (List.range 16).foldl (fun a k =>
      let t := 4 * off + k
      a + (if s.tractPresent t then at_ (s.tractState t) (2 * k) else 0)) 0
  else if off = 0x30 then busy 0
  else if off = 0x34 then busy 32
  else if off = 0x38 then c.zeroWalks.toNat
  else if off = 0x100 then c.scrubRate.toNat
  else if off = 0x104 then c.scrubPasses.toNat
  else if off = 0x108 then c.ce.toNat
  else if off = 0x10C then c.ue.toNat
  else if off = 0x110 then c.poisonReads.toNat
  else if off = 0x114 then c.ceNotify.toNat
  else if off = 0x118 then c.elogHead.toNat
  else if off = 0x11C then c.elogTail.toNat
  else if off = 0x120 then c.elogLost.toNat
  else if off = 0x124 then bits c.tractFail.toNat 0 32
  else if off = 0x128 then bits c.tractFail.toNat 32 32
  else if 0x1000 ≤ off ∧ off < 0x1800 then
    bits (spGet 0 c.elog ((off - 0x1000) / 0x20)).toNat (8 * (off % 0x20)) 32
  else if 0x20000 ≤ off then
    let tr := (off - 0x20000) / 0x800
    if s.tractPresent tr then ((s.bank tr (off / 0x80 % 16)).remapOf (off / 4 % 32)).word else 0
  else 0

/-! ## PMH, CFG, CTX -/

/-- A ring's words, as PMH_CRING and SRV_ORING lay them out. -/
def Ring.word (r : Ring) (w : Nat) : Nat :=
  if w = 0 then r.handle.toNat + at_ r.size.toNat 8
  else if w = 1 then r.first.toNat
  else if w = 2 then r.head.toNat
  else if w = 3 then r.tail.toNat
  else 0

/-- PMH (Table CMD-7), but for the RWS map and weights. -/
def State.pmhWord (s : State) (off : Nat) : Nat :=
  let p := s.pmh
  if 0x1000 ≤ off ∧ off < 0x2000 then
    let x := s.queue ((off - 0x1000) / 8)
    if off % 8 = 0 then x.tail.toNat else x.head.toNat
  else if 0x2000 ≤ off ∧ off < 0x2800 then
    let x := s.queue ((off - 0x2000) / 4)
    b2n x.faulted + at_ (b2n x.cond) 1 + at_ x.pred.toNat 2 + at_ x.fstatus.toNat 16
  else if off = 0x3080 then p.tileHold.toNat
  else if 0x3100 ≤ off ∧ off < 0x3300 then (s.ctxOf ((off - 0x3100) / 0x20)).cring.word (off % 0x20 / 4)
  else if 0x4000 ≤ off ∧ off < 0x4400 then (s.semOf ((off - 0x4000) / 4)).toNat
  else if off = 0x5000 then s.inFlight
  else if off = 0x5004 then p.qerrors.toNat
  else if off = 0x5008 then p.qdiscard.toNat
  else if off = 0x500C then p.laPrestage.toNat
  else if off = 0x5010 then p.laMispred.toNat
  else 0

def CtxState.code : CtxState → Nat
  | .closed => 0
  | .opened => 1
  | .closing => 2

/-- CFG and CTX (Table CTX-5), but for the RWS ranges. -/
def State.cfgWord (s : State) (off : Nat) : Nat :=
  let c := s.cfg
  if off = 0x00 then b2n c.view
  else if off = 0x08 then b2n s.frozen + at_ (b2n c.wlost) 1 + at_ (b2n c.timedOut) 2 + at_ c.affected.toNat 16
  else if off = 0x0C then c.timeout.toNat
  else if off = 0x10 then c.swaps.toNat
  else if off = 0x100 then (List.range 16).foldl (fun a k => a + at_ (s.ctxOf k).state.code (2 * k)) 0
  else if off = 0x104 then s.ctxCloses.toNat
  else 0

/-! ## SRV, KVP, SMP, ATT -/

def ReqState.code : ReqState → Nat
  | .free => 0
  | .admitted => 1
  | .prefill => 2
  | .decode => 3
  | .pageWait => 4
  | .budgetWait => 5
  | .draining => 6
  | .done => 7

/-- The 128 bytes of an entry (Table SRV-1). -/
def Entry.bytes (e : Entry) : List Byte :=
  [BitVec.ofNat 8 e.state.code,
    BitVec.ofNat 8 (b2n e.late + at_ (b2n e.cancel) 1 + at_ (b2n e.keepKv) 2 + at_ (b2n e.inStep) 3)]
  ++ leBytes 2 e.reason.toNat ++ leBytes 4 e.length ++ leBytes 4 e.promptLeft ++ leBytes 4 e.newLeft
  ++ leBytes 8 e.deadline.toNat ++ leBytes 2 (e.customer % 1024 + at_ e.priority 12) ++ leBytes 2 e.slot
  ++ leBytes 1 e.dhandle.toNat ++ leBytes 1 e.phandle.toNat ++ leBytes 1 e.penhandle.toNat
  ++ leBytes 1 (e.nstop % 8 + at_ e.ndraft 4)
  ++ leBytes 8 e.diroff.toNat ++ leBytes 8 e.promptoff.toNat ++ leBytes 8 e.penoff.toNat ++ leBytes 8 e.seed.toNat
  ++ leBytes 4 e.counter.toNat ++ leBytes 4 e.reserve ++ leBytes 4 e.seq.toNat ++ leBytes 4 e.lastTok.toNat
  ++ (List.range 4).flatMap (fun i => leBytes 4 (e.stop.getD i 0).toNat)
  ++ (List.range 8).flatMap (fun i => leBytes 4 (e.draft.getD i 0).toNat)

/-- SRV (Tables SRV-9, BKS-6), but for the RWS limits, scripts, rates and caps. -/
def State.srvWord (s : State) (off : Nat) : Nat :=
  let v := s.srv
  if off < 0x80000 then fieldAt (s.entry (off / 0x80)).bytes (off % 0x80) 4
  else if 0x81000 ≤ off ∧ off < 0x81200 then (s.ctxOf ((off - 0x81000) / 0x20)).oring.word (off % 0x20 / 4)
  else if off = 0x82000 then v.seq.toNat
  else if off = 0x82004 then v.steps.toNat
  else if off = 0x82008 then v.refusals.toNat
  else if off = 0x8200C then v.late.toNat
  else if off = 0x82010 then (v.entries.filter (fun e => decide (e.2.state ≠ .free))).length
  else if off = 0x82014 then v.draftLost.toNat
  else if 0x90000 ≤ off ∧ off < 0x94000 then
    let c := spGet Customer.reset v.cust ((off - 0x90000) / 16)
    if off % 16 = 0 then c.budget.toNat else if off % 16 = 4 then c.reserved.toNat else 0
  else if 0x94000 ≤ off ∧ off < 0x98000 then
    let c := spGet Customer.reset v.cust ((off - 0x94000) / 16)
    if off % 16 = 0 then c.refilled.toNat else if off % 16 = 4 then c.added.toNat
    else if off % 16 = 8 then c.charged.toNat else 0
  else 0

/-- KVP (Table KVP-8). -/
def Pool.word (p : Pool) (rel : Nat) : Nat :=
  if rel = 0x00 then
    p.phandle.toNat + at_ p.fmt.toNat 6 + at_ p.headdim.toNat 8 + at_ (b2n p.live) 11 + at_ p.armErr.toNat 12
  else if rel = 0x04 then p.pages.toNat
  else if rel = 0x08 then p.dataOff.toNat
  else if rel = 0x0C then p.metaOff.toNat
  else if rel = 0x10 then p.xhandle.toNat + at_ p.bucketBits.toNat 8
  else if rel = 0x14 then p.nodes.toNat
  else if rel = 0x18 then p.pxOff.toNat
  else if rel = 0x1C then p.bucketOff.toNat
  else if rel = 0x20 then p.layers.toNat + at_ p.heads.toNat 16
  else if rel = 0x40 then p.free
  else if rel = 0x44 then p.reserved
  else if rel = 0x48 then p.held
  else if rel = 0x4C then p.reclaim
  else if rel = 0x50 then p.fresh
  else if rel = 0x54 then p.nodesLive
  else if rel = 0x58 then p.cows.toNat
  else 0

/-- SMP (Tables SMP-1, SMP-3). -/
def State.smpWord (s : State) (off : Nat) : Nat :=
  if off < 0x10000 then (if off / 4 % 16 < 14 then (s.slotWord (off / 0x40) (off / 4 % 16)).toNat else 0)
  else if off = 0x10000 then s.smp.draws.toNat
  else if off = 0x10004 then s.smp.accepted.toNat
  else if off = 0x10008 then s.smp.rejected.toNat
  else if off = 0x1000C then s.smp.noCand.toNat
  else if off = 0x10010 then s.smp.penOvf.toNat
  else if off = 0x10014 then s.smp.badSlot.toNat
  else 0

/-- ATT (Table ATT-7), but for the RWS placements. -/
def State.attWord (s : State) (off : Nat) : Nat :=
  if off = 0x100 then s.att.emptyRows.toNat
  else if off = 0x104 then s.att.lenFail.toNat
  else if off = 0x108 then s.att.nanRows.toNat
  else 0

/-! ## Tiles -/

/-- A set is busy: its instruction runs, from its first operand wave on, which its first entries in every queue allow, or a
drain still uses it (R179, R193). -/
def Arr.setBusy (a : Arr) (set : Nat) : Bool :=
  (match a.run with | some i => decide (i.set = set) && (decide (0 < a.fired) || i.holds 0) | none => false) || a.draining set

/-- ARR, VEC and WRN of a logical tile (Tables ARR-9, ARR-10, NUM-7 to NUM-10, VEC-5, VEC-6, WRN-7). -/
def State.tileWord (s : State) (t rel : Nat) : Nat :=
  let a := (s.tile t).arr
  let v := (s.tile t).vec
  let w := (s.tile t).wren
  let held := b2n (s.arrStopped t)
  if rel = 0x0000 then
    b2n a.run.isSome + at_ (b2n a.pend.isSome) 1 + at_ (b2n (a.setBusy 0)) 2 + at_ (b2n (a.setBusy 1)) 3
      + at_ (b2n a.cold) 4 + at_ held 5 + at_ (b2n (a.setBusy 2)) 6 + at_ (b2n (a.setBusy 3)) 7
  else if rel = 0x0008 then a.opWaves.toNat
  else if rel = 0x000C then a.bubbles.toNat
  else if rel = 0x0010 then a.govIdle.toNat
  else if rel = 0x0014 then a.coldStarts.toNat
  else if rel = 0x0040 then a.flags.toNat
  else if rel = 0x4000 then b2n v.busy + at_ held 1 + at_ (b2n (!v.vMark.isEmpty || !v.mMark.isEmpty)) 2
  else if rel = 0x4008 then v.rows.toNat
  else if rel = 0x400C then v.stalls.toNat
  else if rel = 0x4040 then v.flags.toNat
  else if rel = 0x4044 then v.amax.toNat
  else if rel = 0x4048 then v.qscale.toNat
  else if rel = 0x8000 then
    b2n w.prog.isSome + at_ (b2n (w.wait.isSome || w.sig.isSome || w.held.isSome)) 1 + at_ held 2 + at_ (b2n w.halted) 3
      + at_ (w.owner.getD 0) 4 + at_ (b2n w.owner.isSome) 8
  else if rel = 0x8004 then w.pc % 1024
  else if rel = 0x8008 then w.haltStatus.toNat + at_ (w.haltPc % 2048) 16
  else if rel = 0x8010 then w.bundles.toNat
  else if rel = 0x8014 then w.stalls.toNat
  else if rel = 0x8018 then w.mispred.toNat
  else if rel = 0x801C then w.loadHolds.toNat
  else if 0x8100 ≤ rel ∧ rel < 0x8200 then (spGet 0 w.tsem ((rel - 0x8100) / 4)).toNat
  else 0

/-! ## LRK -/

/-- LRK_STREAM (Table LRK-11). -/
def State.streamWord (s : State) (n w : Nat) : Nat :=
  let x := s.stream n
  if w = 0 then x.mode % 4 + at_ (b2n x.opened) 2 + at_ (s.framesOf n).length 4
  else if w ≤ 2 then nibbles 8 (fun k => let y := x.bufAt (8 * (w - 1) + k); y.mark.toNat + at_ (b2n y.valid) 2)
  else if 9 ≤ w ∧ w ≤ 12 then
    (List.range 4).foldl (fun a k => a + at_ ((x.bufAt (4 * (w - 9) + k)).refcnt % 256) (8 * k)) 0
  else 0

/-- LRK (Table LRK-11). -/
def State.lrkWord (s : State) (off : Nat) : Nat :=
  let busy := fun e => b2n (s.engine e).frame.isSome
  if off = 0x00 then
    nibbles 1 (fun _ => busy 0 + 2 * busy 1 + 4 * busy 2 + 8 * busy 3) + at_ (busy 4) 4 + at_ (busy 5) 5 + at_ (b2n s.stopped) 6
  else if 0x100 ≤ off ∧ off < 0x1100 then s.streamWord ((off - 0x100) / 0x40) (off % 0x40 / 4)
  else if 0x2000 ≤ off ∧ off < 0x2100 then (s.lambda ((off - 0x2000) / 4)).toNat
  else if 0x2200 ≤ off ∧ off < 0x2300 then (s.taps ((off - 0x2200) / 4)).toNat
  else if off = 0x3000 then s.lrk.decPix / 2 ^ 16
  else if off = 0x3004 then s.lrk.concealed.toNat
  else if off = 0x3008 then s.lrk.preempts.toNat
  else 0

/-! ## The control space (Table PHY-1) -/

/-- The word that CTRL reads at an offset that is a multiple of 4. -/
def State.ctrlRead (s : State) (off : Nat) : Word :=
  if (cfgItem off).isSome then (if s.cfg.view then s.shd else s.act).word off
  else BitVec.ofNat 32 (
    if off < 0x10000 then s.idWord off
    else if off < 0x20000 then s.rstWord (off - 0x10000)
    else if off < 0x30000 then s.pwrWord s.act (off - 0x20000)
    else if off < 0x40000 then s.topWord (off - 0x30000)
    else if off < 0x80000 then (match s.lnkAt off with | some (p, rel) => (s.port p).word rel | none => 0)
    else if off < 0xC0000 then s.cisWord (off - 0x80000)
    else if off < 0x100000 then 0
    else if off < 0x180000 then s.pmhWord (off - 0x100000)
    else if off < 0x200000 then s.cfgWord (off - 0x180000)
    else if off < 0x300000 then s.srvWord (off - 0x200000)
    else if off < 0x340000 then
      (if off < 0x301000 then (s.pool ((off - 0x300000) / 0x100)).word (off % 0x100) else 0)
    else if off < 0x380000 then s.smpWord (off - 0x340000)
    else if off < 0x400000 then s.attWord (off - 0x380000)
    else if off < 0x500000 then
      (if (off - 0x400000) / 0x10000 < s.fuse.tileCount then s.tileWord ((off - 0x400000) / 0x10000) (off % 0x10000) else 0)
    else if 0x600000 ≤ off ∧ off < 0x800000 then (if s.fuse.lark then s.lrkWord (off - 0x600000) else 0)
    else 0)

end Sys2Proof.Machine
end

