-- ==== Sys2Proof/Machine/Control.lean ====
section
/-!
DEFINITION. Register access over CTRL (18 R439; 21 R515; 23 R540 to R542): what a write of each word does, and the REG_RD
and REG_WR flits. A row that names one register's write is that write alone; REG_WR runs the same writes.
-/

namespace Sys2Proof.Machine

/-! ## RST, TOP, LNK -/

def State.rstWrite (s : State) (off : Nat) (w : Word) : State :=
  if off = 0x04 then { s with rst := { s.rst with cause := s.rst.cause &&& ~~~(w.setWidth 5) } }
  else if off = 0x08 then (if bit w.toNat 1 then abandon s else s)
  else if off = 0x14 then { s with rst := { s.rst with detachBound := w.setWidth 24 } }
  else s

/-- A write of TOP_MAP (R470, R473): MODULE is ignored while MAPV is 1; every port with a partner is checked again, and
HELLO tells a change. -/
def topMapWrite (w : Word) (s : State) : State :=
  let t := s.top
  let n := { t with module := if t.mapv then t.module else w.setWidth 12, mapv := bit w.toNat 31 }
  let s := { s with top := n }
  let s := if n.module = t.module ∧ n.mapv = t.mapv then s else s.sendHellos
  s.checkPorts.afterTopology

/-- A write of TOP_EXPECT for a logical port (R473). -/
def topExpectWrite (p : Nat) (w : Word) (s : State) : State :=
  ({ s with top := { s.top with expect := spSet 0 s.top.expect p (w &&& 0x810FFFFF) } }).checkPorts.afterTopology

/-- One port of a TOP_CONFIRM (R474): a port held in CTRLONLY goes ACTIVE. -/
def State.confirmPort (s : State) (lp : Nat) : State :=
  let p := physPort s.top.orient lp
  let s := { s with top := { s.top with mismatch := setBit s.top.mismatch lp false
                                        suspended := setBit s.top.suspended lp true } }
  if (s.port p).state = .ctrlOnly then (s.setPort p { s.port p with state := .active }).pump p else s

/-- A write of TOP_CONFIRM (R474). -/
def portConfirm (mask : BitVec 9) (s : State) : State := ((maskList mask.toNat 9).foldl State.confirmPort s).afterTopology

/-- Eight 4-bit entries of a site table, kept as differences from 0xF. -/
def putNibbles (m : Sparse (BitVec 4)) (base : Nat) (w : Word) : Sparse (BitVec 4) :=
  spSetRange 0 m base 8 (fun k => BitVec.ofNat 4 (bits w.toNat (4 * k) 4) ^^^ 0xF)

def State.topWrite (s : State) (off : Nat) (w : Word) : State :=
  if off = 0x08 then topMapWrite w s
  else if off = 0x10 then ({ s with top := { s.top with hubPort := w.setWidth 4 } }).afterTopology
  else if off = 0x14 then { s with top := { s.top with route := putNibbles s.top.route 0 w } }
  else if off = 0x18 then { s with top := { s.top with route := putNibbles s.top.route 8 w } }
  else if 0x40 ≤ off ∧ off < 0x64 then topExpectWrite ((off - 0x40) / 4) w s
  else if off = 0xC4 then portConfirm (w.setWidth 9) s
  else if off = 0x108 then { s with time := { s.time with adj := w.setWidth 16 } }
  else if off = 0x110 then { s with time := { s.time with pace := w.setWidth 16 } }
  else s

/-- The port is disabled: it forgets its partner and is no longer held (R474), and commands that await it end (Table LNK-4;
log 72). -/
def State.disablePort (s : State) (p : Nat) : State :=
  let s := { s with top := { s.top with mismatch := setBit s.top.mismatch (logicalPort s.top.orient p) false } }
  ((s.setPort p { (s.port p).forget with state := .disabled }).loseCommands p stPartnerLost).afterTopology

/-- A write of LNK_CTRL (R457, R524): EN cleared disables the port; EN set anew trains it, once the links train at all
(Table RST-2 phase 4). -/
def linkEnable (p : Nat) (w : Word) (s : State) : State :=
  if !s.fuse.portPresent p then s
  else
    let was := (s.port p).en
    let en := bit w.toNat 0
    let s := s.setPort p { s.port p with
      en := en, maxRate := BitVec.ofNat 2 (bits w.toNat 1 2), zrcEn := bit w.toNat 3, hubOff := bit w.toNat 4 }
    if was && !en then s.disablePort p
    else if !was && en && s.rst.fuseDone && s.portUsable p then s.setPort p { (s.port p).restart with state := .training }
    else s

def State.lnkWrite (s : State) (p rel : Nat) (w : Word) : State :=
  if rel = 0x00 then linkEnable p w s
  else if rel = 0x10 then s.setPort p { s.port p with e2e := w.setWidth 16 }
  else s

/-! ## CIS, PMH, CFG -/

def State.cisWrite (s : State) (off : Nat) (w : Word) : State :=
  if off = 0x100 then
    let v := bits w.toNat 0 14
    if 1 ≤ v ∧ v ≤ 10000 then { s with cis := { s.cis with scrubRate := BitVec.ofNat 14 v } } else s
  else if off = 0x114 then { s with cis := { s.cis with ceNotify := w.setWidth 16 } }
  else if off = 0x11C then { s with cis := { s.cis with elogTail := w.setWidth 7 } }
  else s

/-- A write of PMH_QTAIL (R251). -/
def queueDoorbell (q : Nat) (tail : Word) (s : State) : State :=
  let m := s.act.qmap q
  let x := s.queue q
  if m.en ∧ (tail - x.head).toNat ≤ m.units ∧ (x.tail - x.head).toNat ≤ (tail - x.head).toNat then
    s.setQueue q { x with tail := tail }
  else ({ s with pmh := { s.pmh with qerrors := s.pmh.qerrors + 1 } }).notify (ntQueueOverrun q)

/-- A write of PMH_TILEHOLD (R282). -/
def tileHold (w : Half) (s : State) : State := { s with pmh := { s.pmh with tileHold := w } }

/-- A word of PMH_CRING or SRV_ORING; room made by HEAD lets the next FULL notice out (R277, R378). -/
def Ring.put (r : Ring) (w : Nat) (v : Word) (size : Nat) : Ring :=
  let r :=
    if w = 0 then { r with handle := v.setWidth 6, size := BitVec.ofNat 4 (bits v.toNat 8 4) }
    else if w = 1 then { r with first := v.setWidth 18 }
    else if w = 2 then { r with head := v }
    else r
  { r with told := r.told && !r.room size }

def State.pmhWrite (s : State) (off : Nat) (w : Word) : State :=
  if 0x1000 ≤ off ∧ off < 0x2000 ∧ off % 8 = 0 then queueDoorbell ((off - 0x1000) / 8) w s
  else if off = 0x3080 then tileHold (w.setWidth 16) s
  else if 0x3100 ≤ off ∧ off < 0x3300 then
    let c := (off - 0x3100) / 0x20
    s.setCtx c { s.ctxOf c with cring := (s.ctxOf c).cring.put (off % 0x20 / 4) w 32 }
  else if 0x4000 ≤ off ∧ off < 0x4400 then s.setSem ((off - 0x4000) / 4) w
  else s

def State.cfgWordWrite (s : State) (off : Nat) (w : Word) : State :=
  let c := s.cfg
  if off = 0x00 then { s with cfg := { c with view := bit w.toNat 0 } }
  else if off = 0x04 then (if bit w.toNat 0 then swapRequest s else s)
  else if off = 0x08 then
    { s with cfg := { c with wlost := c.wlost && !bit w.toNat 1, timedOut := c.timedOut && !bit w.toNat 2 } }
  else if off = 0x0C then { s with cfg := { c with timeout := w.setWidth 24 } }
  else s

/-! ## SRV, KVP, SMP, tiles, LRK -/

/-- A write of NDRAFT (word 7, bits [31:28]) or of a DRAFT word (24 to 31) of an entry (R354). An NDRAFT of 9 to 15, which
R20 lets no machine act on, leaves the field as it is (log 66). -/
def draftWrite (e word : Nat) (w : Word) (s : State) : State :=
  let x := s.entry e
  if word ≠ 7 ∧ word < 24 then s
  else if x.inStep then { s with srv := { s.srv with draftLost := s.srv.draftLost + 1 } }
  else if word = 7 then (if 8 < bits w.toNat 28 4 then s else s.setEntry e { x with ndraft := bits w.toNat 28 4 })
  else s.setEntry e { x with draft := setAt (padDraft x.draft) (word - 24) w }
where
  padDraft (l : List Word) : List Word := (List.range 8).map (fun i => l.getD i 0)

def State.srvWrite (s : State) (off : Nat) (w : Word) : State :=
  if off < 0x80000 then draftWrite (off / 0x80) (off % 0x80 / 4) w s
  else if 0x81000 ≤ off ∧ off < 0x81200 then
    let c := (off - 0x81000) / 0x20
    s.setCtx c { s.ctxOf c with oring := (s.ctxOf c).oring.put (off % 0x20 / 4) w 32 }
  else s

/-- A configuration word of a pool that is not LIVE (R328). -/
def Pool.put (p : Pool) (rel : Nat) (w : Word) : Pool :=
  if p.live then p
  else if rel = 0x00 then
    { p with phandle := w.setWidth 6, fmt := BitVec.ofNat 2 (bits w.toNat 6 2), headdim := BitVec.ofNat 2 (bits w.toNat 8 2) }
  else if rel = 0x04 then { p with pages := w.setWidth 20 }
  else if rel = 0x08 then { p with dataOff := w.setWidth 30 }
  else if rel = 0x0C then { p with metaOff := w.setWidth 30 }
  else if rel = 0x10 then { p with xhandle := w.setWidth 6, bucketBits := BitVec.ofNat 5 (bits w.toNat 8 5) }
  else if rel = 0x14 then { p with nodes := w.setWidth 20 }
  else if rel = 0x18 then { p with pxOff := w.setWidth 30 }
  else if rel = 0x1C then { p with bucketOff := w.setWidth 30 }
  else if rel = 0x20 then { p with layers := w.setWidth 16, heads := BitVec.ofNat 16 (bits w.toNat 16 16) }
  else p

/-- A write of 1 to KVP_POOLCFG.ARM (R328); a LIVE pool ignores it. -/
def poolArm (c : Nat) (s : State) : State := if (s.pool c).live then s else s.armPool c

def State.kvpWrite (s : State) (c rel : Nat) (w : Word) : State :=
  let s := s.setPool c ((s.pool c).put rel w)
  if rel = 0x00 ∧ bit w.toNat 10 then poolArm c s else s

/-- Writable bits of the words of SMP_SLOT (Table SMP-1). -/
def slotMask (w : Nat) : Word :=
  if w = 0 then 0x7FFFF3F1 else if w = 1 then 0x7FF else if w = 8 then 0x3F3F else if w < 14 then 0xFFFFFFFF else 0

def State.smpWrite (s : State) (off : Nat) (w : Word) : State :=
  if off < 0x10000 ∧ off / 4 % 16 < 14 then
    let k := off / 4 % 16
    { s with smp := { s.smp with slots := spSet 0 s.smp.slots (16 * (off / 0x40) + k) ((w &&& slotMask k) ^^^ smpResetWord k) } }
  else s

/-- ARR_FLAGS, VEC_FLAGS (R158), VEC_AMAX (R157: loads under way no longer count) and VEC_QSCALE. -/
def State.tileWrite (s : State) (t rel : Nat) (w : Word) : State :=
  if rel = 0x0040 then s.setArr t (fun a => { a with flags := a.flags &&& ~~~(w.setWidth 4) })
  else if rel = 0x4040 then s.setVec t (fun v => { v with flags := v.flags &&& ~~~(w.setWidth 4) })
  else if rel = 0x4044 then
    s.setVec t (fun v => { v with amax := w &&& 0x7FFFFFFF, loads := v.loads.map (fun l => { l with counts := false, later := 0 }) })
  else if rel = 0x4048 then s.setVec t (fun v => { v with qscale := w })
  else s

def State.lrkWrite (s : State) (off : Nat) (w : Word) : State :=
  if 0x2000 ≤ off ∧ off < 0x2100 then
    let q := (off - 0x2000) / 4
    { s with lrk := { s.lrk with lambda := spSet 0 s.lrk.lambda q (w ^^^ lambdaReset q) } }
  else if 0x2200 ≤ off ∧ off < 0x2300 then
    let p := (off - 0x2200) / 4
    { s with lrk := { s.lrk with taps := spSet 0 s.lrk.taps p (w ^^^ tapsReset p) } }
  else s

/-! ## The control space -/

/-- A write of one word; RO, reserved and absent words ignore it (R16, R17, R19, R38). RST_CTRL.WARM acts where REG_RSP
has been sent (R507). -/
def State.ctrlWrite (s : State) (off : Nat) (w : Word) : State :=
  if (cfgItem off).isSome then s.rwsWrite off w
  else if off < 0x10000 then
    (if !s.rst.idLoaded then s
     else if off = 0x14 then { s with idStrapErr := s.idStrapErr && !bit w.toNat 0 }
     else if off = 0x30 then { s with idScratch := w }
     else s)
  else if off < 0x20000 then s.rstWrite (off - 0x10000) w
  else if off < 0x30000 then (if off = 0x20000 then s.writeLimit w else s)
  else if off < 0x40000 then s.topWrite (off - 0x30000) w
  else if off < 0x80000 then (match s.lnkAt off with | some (p, rel) => s.lnkWrite p rel w | none => s)
  else if off < 0xC0000 then s.cisWrite (off - 0x80000) w
  else if off < 0x100000 then s
  else if off < 0x180000 then s.pmhWrite (off - 0x100000) w
  else if off < 0x200000 then s.cfgWordWrite (off - 0x180000) w
  else if off < 0x300000 then s.srvWrite (off - 0x200000) w
  else if off < 0x340000 then
    (if off < 0x301000 then s.kvpWrite ((off - 0x300000) / 0x100) (off % 0x100) w else s)
  else if off < 0x380000 then s.smpWrite (off - 0x340000) w
  else if off < 0x400000 then s
  else if off < 0x500000 then
    (if (off - 0x400000) / 0x10000 < s.fuse.tileCount then s.tileWrite ((off - 0x400000) / 0x10000) (off % 0x10000) w else s)
  else if 0x600000 ≤ off ∧ off < 0x800000 then (if s.fuse.lark then s.lrkWrite (off - 0x600000) w else s)
  else s

/-- First offset beyond the blocks that a REG_WR may reach before READY: ID, RST, PWR, TOP and LNK (R515). -/
def earlyEnd : Nat := 0x80000

/-- A write of one register that reaches the die: CTRL is served, and before READY only some blocks are (R515). -/
def State.single (s : State) (off : Nat) (f : State → State) : State :=
  if s.silent || (!s.rst.ready && decide (earlyEnd ≤ off)) then s else f s

/-- QUEUE_DOORBELL (R251). -/
def execQueueDoorbell (q : Fin 512) (tail : Word) (s : State) : Host.Outcome State Fault Refusal :=
  .next (s.single 0x101000 (queueDoorbell q.val tail))

/-- POOL_ARM (R328). -/
def execPoolArm (c : Fin 16) (s : State) : Host.Outcome State Fault Refusal := .next (s.single 0x300000 (poolArm c.val))

/-- PORT_CONFIRM (R474). -/
def execPortConfirm (mask : BitVec 9) (s : State) : Host.Outcome State Fault Refusal :=
  .next (s.single 0x300C4 (portConfirm mask))

/-- TOP_MAP_WRITE (R473). -/
def execTopMapWrite (w : Word) (s : State) : Host.Outcome State Fault Refusal := .next (s.single 0x30008 (topMapWrite w))

/-- TOP_EXPECT_WRITE (R473). -/
def execTopExpectWrite (p : Fin 9) (w : Word) (s : State) : Host.Outcome State Fault Refusal :=
  .next (s.single 0x30040 (topExpectWrite p.val w))

/-- TILE_HOLD (R282). -/
def execTileHold (w : Half) (s : State) : Host.Outcome State Fault Refusal := .next (s.single 0x103080 (tileHold w))

/-- DRAFT_WRITE (R354). -/
def execDraftWrite (e : Fin 4096) (word : Fin 32) (w : Word) (s : State) : Host.Outcome State Fault Refusal :=
  .next (s.single 0x200000 (draftWrite e.val word.val w))

/-- SHADOW_REGISTER_WRITE (R288): the word at a multiple of 4. -/
def execShadowRegisterWrite (off : BitVec 24) (w : Word) (s : State) : Host.Outcome State Fault Refusal :=
  .next (s.single off.toNat (fun s => if off.toNat % 4 = 0 then s.rwsWrite off.toNat w else s))

/-- LINK_ENABLE (R457). -/
def execLinkEnable (p : Fin 9) (w : Word) (s : State) : Host.Outcome State Fault Refusal :=
  .next (s.single 0x40000 (linkEnable p.val w))

/-! ## REG_RD and REG_WR -/

/-- The status of a register packet's checks (R439, R515, R541; log 73). -/
def State.regFault (s : State) (h : FlitHdr) (off : Word) (count : Nat) (write : Bool) : Half :=
  if h.src ≠ s.dieId then stPermission
  else if off.toNat % 4 ≠ 0 then stAlign
  else if count = 0 ∨ 56 < count ∨ 0x1000000 < off.toNat + 4 * count then stBounds
  else if write && !s.rst.ready && decide (earlyEnd < off.toNat + 4 * count) then stRefuseContext
  else stOK

/-- REG_RSP to the sender. -/
def State.answerReg (s : State) (h : FlitHdr) (off : Word) (count : Nat) (st : Half) (words : List Word) : State :=
  s.sendOwn { s.hubFlit typRegRsp (regRspBytes off.toNat count st words) with dst := h.src }

/-- A REG_RD for this die (R439, R541). -/
def State.regRdArrives (s : State) (h : FlitHdr) (off : Word) (count : Nat) : State :=
  let st := s.regFault h off count false
  s.answerReg h off count st
    (if st = stOK then (List.range count).map (fun i => s.ctrlRead (off.toNat + 4 * i)) else [])

def regRdReceived (h : FlitHdr) (off : Word) (count : Byte) (s : State) : State :=
  let f := mkFlit h vcCtrl 1 false (leBytes 4 off.toNat ++ [count, 0, 0, 0])
  s.receive h f (fun s => s.routed h f (fun s => s.regRdArrives h off count.toNat))

/-- REG_RD (R541). -/
def execRegRd (h : FlitHdr) (off : Word) (count : Byte) (s : State) : Host.Outcome State Fault Refusal :=
  .next (regRdReceived h off count s)

/-- Write words at consecutive offsets, in ascending order (R541). -/
def State.ctrlWrites (s : State) (off : Nat) : List Word → State
  | [] => s
  | w :: ws => (s.ctrlWrite off w).ctrlWrites (off + 4) ws

/-- RST_CTRL.WARM is among the words and set. -/
def asksWarm (off : Nat) (ws : List Word) : Bool :=
  decide (off ≤ offRstCtrl) && bit (ws.getD ((offRstCtrl - off) / 4) 0).toNat 0

/-- A REG_WR for this die (R439, R507, R541). -/
def State.regWrArrives (s : State) (h : FlitHdr) (off : Word) (ws : List Word) : State :=
  let st := s.regFault h off ws.length true
  if st ≠ stOK then s.answerReg h off ws.length st []
  else
    let s := s.ctrlWrites off.toNat ws
    if s.silent then s
    else
      let s := s.answerReg h off ws.length stOK []
      if asksWarm off.toNat ws then s.resetBy .warm causeWarm else s

def regWrReceived (h : FlitHdr) (off : Word) (ws : List Word) (s : State) : State :=
  let f := mkFlit h vcCtrl 2 false
    (leBytes 4 off.toNat ++ [BitVec.ofNat 8 ws.length, 0, 0, 0] ++ ws.flatMap (fun w => leBytes 4 w.toNat))
  s.receive h f (fun s => s.routed h f (fun s => s.regWrArrives h off ws))

/-- REG_WR (R541). -/
def execRegWr (h : FlitHdr) (off : Word) (words : List Word) (s : State) : Host.Outcome State Fault Refusal :=
  .next (regWrReceived h off words s)

end Sys2Proof.Machine
end

