-- ==== Sys2Proof/Machine/Flits.lean ====
section
/-! DEFINITION. Received flits (18 R434, R441 to R459; 19 R471, R479): one meaning each. -/

namespace Sys2Proof.Machine

/-! ## TIME -/

/-- A TIME flit sets the base of package time (R479, R481). -/
def State.setTime (s : State) (ns : DWord) : State :=
  let t := { s.time with base := ns + BitVec.ofNat 64 s.time.adj.toNat, interp := 0, frac := 0, valid := true,
                         lostSent := false }
  { s with time := t.advance }

def timeReceived (h : FlitHdr) (ns : DWord) (s : State) : State :=
  let f := mkFlit h vcCtrl 5 false (leBytes 8 ns.toNat)
  s.receive h f (fun s => s.routed h f (fun s => s.setTime ns))

/-- TIME (R479). -/
def execTimeFlit (h : FlitHdr) (ns : DWord) (s : State) : Host.Outcome State Fault Refusal := .next (timeReceived h ns s)

/-! ## Semaphores -/

/-- Status of a remote signal at the receiving die (R269, R303). -/
def State.semSigStatus (s : State) (ctx sem : Nat) : Half :=
  if !s.isOpen ctx then stRefuseContext
  else if !(s.act.range ctx).hasSem sem then stPermission
  else stOK

/-- A SEM_SIG for this die: add, then answer SEM_ACK with the status and the value (R441, R446). -/
def State.semSigArrives (s : State) (f : Flit) (sem : Byte) (value : Word) : State :=
  let st := s.semSigStatus f.ctx.toNat sem.toNat
  let s := if st = stOK then s.addSem sem.toNat value else s
  s.sendOwn { vc := vcCtrl, typ := 7, src := s.dieId, dst := f.src, ctx := f.ctx, xid := 0, segno := 0, zrc := false,
              payload := [sem, 0, 0, 0] ++ leBytes 4 (s.semOf sem.toNat).toNat ++ leBytes 2 st.toNat }

def semSigReceived (h : FlitHdr) (sem : Byte) (value : Word) (s : State) : State :=
  let f := mkFlit h vcCtrl 6 false ([sem, 0, 0, 0] ++ leBytes 4 value.toNat)
  s.receive h f (fun s => s.routed h f (fun s => s.semSigArrives f sem value))

/-- SEM_SIG (R441). -/
def execSemSig (h : FlitHdr) (sem : Byte) (value : Word) (s : State) : Host.Outcome State Fault Refusal :=
  .next (semSigReceived h sem value s)

/-- The earliest remote signal to `peer` on `sem` that awaits its acknowledgement (R445: one channel keeps its order). -/
def State.awaitedSig (s : State) (peer : Half) (sem : Nat) : Option Nat :=
  ((s.flying.filter (fun e => match e.2.job with
      | .remoteSig _ q n => decide (q = peer) && decide (n = sem)
      | _ => false)).foldl
    (fun m e => match m with
      | none => some e
      | some b => if e.2.serial < b.2.serial then some e else some b) none).map (fun e => e.1)

/-- A SEM_ACK completes the signal it answers (R271). -/
def State.semAckArrives (s : State) (f : Flit) (sem : Byte) (value : Word) (status : Half) : State :=
  match s.awaitedSig f.src sem.toNat with
  | none => s
  | some k => s.finish k status 0 0 (leBytes 4 value.toNat)

def semAckReceived (h : FlitHdr) (sem : Byte) (value : Word) (status : Half) (s : State) : State :=
  let f := mkFlit h vcCtrl 7 false ([sem, 0, 0, 0] ++ leBytes 4 value.toNat ++ leBytes 2 status.toNat)
  s.receive h f (fun s => s.routed h f (fun s => s.semAckArrives f sem value status))

/-- SEM_ACK (R271). -/
def execSemAck (h : FlitHdr) (sem : Byte) (value : Word) (status : Half) (s : State) :
    Host.Outcome State Fault Refusal := .next (semAckReceived h sem value status s)

/-! ## Discovery -/

/-- Remember a partner's fields; they are checked when they complete the handshake, and ever after (R471 to R473). -/
def State.partnerSays (s : State) (p : Nat) (m : Hello) (ack : Bool) : State :=
  let x := s.port p
  let s := s.setPort p { x with partner := some m, heard := true
                                unacked := if ack then x.unacked - 1 else x.unacked }
  let s := s.afterTopology
  let y := s.port p
  if y.handshaken || decide (y.state = .active) || bit s.top.mismatch.toNat (logicalPort s.top.orient p) then s.checkPort p
  else s

def helloReceived (h : FlitHdr) (m : Hello) (s : State) : State :=
  let f := mkFlit h vcCtrl 8 false (helloBytes m)
  s.receive h f (fun s => (s.sendHelloAck h.port.val).partnerSays h.port.val m false)

/-- HELLO (R471). -/
def execHello (h : FlitHdr) (m : Hello) (s : State) : Host.Outcome State Fault Refusal := .next (helloReceived h m s)

def helloAckReceived (h : FlitHdr) (m : Hello) (s : State) : State :=
  let f := mkFlit h vcCtrl 9 false (helloBytes m)
  s.receive h f (fun s => s.partnerSays h.port.val m true)

/-- HELLO_ACK (R471). -/
def execHelloAck (h : FlitHdr) (m : Hello) (s : State) : Host.Outcome State Fault Refusal :=
  .next (helloAckReceived h m s)

/-- The die a partner is reached as: its die id, or this die's own for the hub (R469, R471). -/
def State.peerOf (s : State) (m : Hello) : Half := if m.role = 0 then m.dieId else s.dieId

/-- The partner on port `p` leaves (R457): every command that awaits it, over whatever port, ends, and the port goes
OFFLINE. Its acknowledgement leaves first. -/
def State.leavingArrives (s : State) (p : Nat) : State :=
  let s := s.setPort p ((s.port p).sendIdle false)
  let s := match (s.port p).partner with
    | none => s
    | some m => s.loseJobs (Job.awaitsDie (s.peerOf m)) stPartnerLost
  s.portOffline p

def leavingReceived (h : FlitHdr) (s : State) : State :=
  let f := mkFlit h vcCtrl 12 false []
  s.receive h f (fun s => s.leavingArrives h.port.val)

def execLeaving (h : FlitHdr) (s : State) : Host.Outcome State Fault Refusal := .next (leavingReceived h s)

/-! ## Segments -/

/-- Check 1 to 5 of Table CIS-4 on a segment of another die (R265, R441, R442). -/
def State.checkSeg (s : State) (ctx handle : Nat) (perm : Perm) (off len : Nat) : Option CheckFail :=
  s.check ctx handle perm (off : Int) len 256

/-- The segment that a WR_SEG opens. -/
def rxSegOf (port : Fin 9) (f : Flit) (handle : Byte) (last semen : Bool) (sem : Byte) (off : DWord)
    (len semval : Word) : RxSeg :=
  { src := f.src, xid := f.xid, segno := f.segno, ctx := f.ctx, handle := BitVec.ofNat 6 handle.toNat, last := last,
    semen := semen, sem := sem, off := off.toNat, len := len.toNat, semval := semval, port := port, pos := 0,
    buf := [], marks := [], dead := false, status := stOK }

/-- What a WR_SEG supersedes: the segment of its key, and with SEGNO 0 every one of an earlier transfer (log 79). -/
def State.supersede (s : State) (f : Flit) : State :=
  { s with rxSegs := s.rxSegs.filter (fun r =>
      !(decide (r.src = f.src) && decide (r.xid = f.xid) && (decide (f.segno = 0) || decide (r.segno = f.segno)))) }

/-- The last segment with SEMEN adds SEMVAL before its WR_ACK, if the semaphore is in the context's range (R441). -/
def State.segSignal (s : State) (r : RxSeg) : State :=
  if r.last && r.semen && (s.act.range r.ctx.toNat).hasSem r.sem.toNat then s.addSem r.sem.toNat r.semval else s

/-- Status a finished segment reports: its own, or PERMISSION where its semaphore is out of range (R269). -/
def State.segStatus (s : State) (r : RxSeg) : Half :=
  if r.last && r.semen && !(s.act.range r.ctx.toNat).hasSem r.sem.toNat then stPermission else r.status

/-- Another segment of the same transfer is still open. -/
def State.openBeside (s : State) (r : RxSeg) : Bool :=
  s.rxSegs.any (fun x => decide (x.src = r.src) && decide (x.xid = r.xid) && decide (x.segno ≠ r.segno) && !x.dead)

/-- Every line of the segment is written: its signal, then its WR_ACK (R441, R446). -/
def State.ackSeg (s : State) (r : RxSeg) : State :=
  let s := s.dropSeg r.src r.xid r.segno
  (s.segSignal r).sendOwn (rspFlit s.dieId r.src 1 r.ctx r.xid r.segno (wrAckBytes (s.segStatus r) 0 r.len))

/-- The last segment of a transfer, complete, may wait for the others, which have now ended (R441). -/
def State.ackLast (s : State) (src : Half) (xid : BitVec 10) : State :=
  match s.rxSegs.find? (fun r => decide (r.src = src) && decide (r.xid = xid) && !r.dead && decide (r.pos = r.len)) with
  | none => s
  | some r => if s.openBeside r then s else s.ackSeg r

/-- A segment is complete: a last one with SEMEN waits while another of its transfer is open (R441). -/
def State.segDone (s : State) (r : RxSeg) : State :=
  if r.last && r.semen && s.openBeside r then s.putSeg r else (s.ackSeg r).ackLast r.src r.xid

/-- Bytes of an open write segment arrive: whole lines are checked again and written; a full segment is answered (R285,
R441, R446; log 79). -/
def State.segData (s : State) (r : RxSeg) (bs : List Byte) (marks : List Nat) : State :=
  let at' := r.written
  let pos := r.pos + bs.length
  let buf := r.buf ++ bs
  let bad := r.marks ++ marks
  let m := wholeLines (decide (pos = r.len)) buf
  match (if m = 0 then none else s.checkSeg r.ctx.toNat r.handle.toNat .xw (r.off + at') m) with
  | some e => (s.failSeg { r with pos := pos, buf := buf } e.status e.order).ackLast r.src r.xid
  | none =>
    let w := s.writeMarked r.ctx.toNat r.handle.toNat (r.off + at') (buf.take m) (marksFrom bad (at' / 32) ((m + 31) / 32))
    let r := { r with pos := pos, buf := buf.drop m, marks := bad, status := worstData r.status w.1 }
    if pos = r.len then w.2.segDone r else w.2.putSeg r

/-- A WR_SEG for this die: opens the segment, or answers the failed check (R441). One of no bytes is complete. -/
def State.wrSegArrives (s : State) (h : FlitHdr) (f : Flit) (handle : Byte) (last semen : Bool) (sem : Byte)
    (off : DWord) (len semval : Word) : State :=
  let r := rxSegOf h.port f handle last semen sem off len semval
  let s := s.supersede f
  match s.checkSeg f.ctx.toNat handle.toNat .xw off.toNat len.toNat with
  | some e => s.failSeg r e.status e.order
  | none => if len = 0 then s.segDone r else s.putSeg r

def wrSegReceived (h : FlitHdr) (handle : Byte) (last semen : Bool) (sem : Byte) (off : DWord) (len semval : Word)
    (s : State) : State :=
  let f := { wrSegFlit h.src h.dst h.ctx h.xid 0 handle.toNat last semen sem off.toNat len.toNat semval with
             segno := h.segno }
  s.receive h f (fun s => s.routed h f (fun s => s.wrSegArrives h f handle last semen sem off len semval))

/-- WR_SEG (R441). -/
def execWrSeg (h : FlitHdr) (handle : Byte) (last semen : Bool) (sem : Byte) (off : DWord) (len semval : Word)
    (s : State) : Host.Outcome State Fault Refusal := .next (wrSegReceived h handle last semen sem off len semval s)

/-- A malformed DATA flit of an open write segment: the segment ends with BOUNDS, REASON 5 (R459). -/
def State.segBad (s : State) (p : Nat) (r : RxSeg) : State :=
  let s := s.setPort p { s.port p with protErr := (s.port p).protErr + 1 }
  (s.failSeg r stBounds 5).ackLast r.src r.xid

/-- DATA of a segment that has failed is discarded; once the last of its bytes has come, the segment is forgotten (R441,
R459). -/
def State.discardData (s : State) (r : RxSeg) (zrc : Bool) (payload : List Byte) : State :=
  match dataBytes zrc payload (r.len - r.pos) with
  | none => s
  | some bs =>
    if r.pos + bs.length = r.len then s.dropSeg r.src r.xid r.segno else s.putSeg { r with pos := r.pos + bs.length }

/-- The die's own read transfer that a DATA, RD_END or WR_ACK flit answers. -/
def State.ownXfer (s : State) (f : Flit) : Option (Cmd × Xfer) :=
  match s.cmd f.xid.toNat with
  | none => none
  | some c =>
    match c.job with
    | .xfer x => if x.peer = f.src then some (c, x) else none
    | _ => none

/-- DATA of a read segment arrives, or is malformed and ends it (R442, R459). -/
def State.readData (s : State) (p : Nat) (f : Flit) : State :=
  match s.ownXfer f with
  | none => s
  | some (c, x) =>
    let n := f.segno.toNat
    let g := x.segs.getD n Seg.empty
    if !x.isRead || g.ended then s
    else
      match dataBytes f.zrc f.payload (segLen x.len n - g.pos) with
      | some bs => s.readArrives f.xid.toNat c x n bs f.marks
      | none =>
        let s := s.setPort p { s.port p with protErr := (s.port p).protErr + 1 }
        s.xferProgress f.xid.toNat c (x.onSeg n (fun g => { g with ended := true, status := stBounds, reason := 5 }))

/-- A DATA flit for this die (R441, R442, R458). -/
def State.dataArrives (s : State) (p : Nat) (f : Flit) : State :=
  match s.rxSegs.find? (fun r => r.isOf f) with
  | some r =>
    if r.dead then s.discardData r f.zrc f.payload
    else
      match dataBytes f.zrc f.payload (r.len - r.pos) with
      | some bs => s.segData r bs f.marks
      | none => s.segBad p r
  | none => s.readData p f

def dataReceived (h : FlitHdr) (zrc : Bool) (payload : List Byte) (marks : List Nat) (s : State) : State :=
  let f := { mkFlit h vcBulk 1 zrc payload with marks := marks }
  s.receive h f (fun s => s.routed h f (fun s => s.dataArrives h.port.val f))

/-- DATA (R458). -/
def execDataFlit (h : FlitHdr) (zrc : Bool) (payload : List Byte) (marks : List Nat) (s : State) :
    Host.Outcome State Fault Refusal := .next (dataReceived h zrc payload marks s)

/-- An RD_SEG for this die: the segment's DATA and an RD_END, or the failed check (R442). -/
def State.rdSegArrives (s : State) (f : Flit) (handle : Byte) (off : DWord) (len : Word) : State :=
  match s.checkSeg f.ctx.toNat handle.toNat .xr off.toNat len.toNat with
  | some e => s.sendOwn (rspFlit s.dieId f.src 2 f.ctx f.xid f.segno (rdEndBytes e.status e.order))
  | none =>
    let g := s.readBytes f.ctx.toNat handle.toNat off.toNat len.toNat
    let s := (dataFlits s.dieId f.src f.ctx f.xid f.segno false (markedWords g.marks) (len.toNat + 1) 0 g.bytes).foldl State.sendOwn g.state
    s.sendOwn (rspFlit s.dieId f.src 2 f.ctx f.xid f.segno (rdEndBytes g.status 0))

def rdSegReceived (h : FlitHdr) (handle : Byte) (off : DWord) (len : Word) (s : State) : State :=
  let f := { rdSegFlit h.src h.dst h.ctx h.xid 0 handle.toNat off.toNat len.toNat with segno := h.segno }
  s.receive h f (fun s => s.routed h f (fun s => s.rdSegArrives f handle off len))

/-- RD_SEG (R442). -/
def execRdSeg (h : FlitHdr) (handle : Byte) (off : DWord) (len : Word) (s : State) : Host.Outcome State Fault Refusal :=
  .next (rdSegReceived h handle off len s)

/-- A WR_ACK ends its segment (R443). -/
def State.wrAckArrives (s : State) (f : Flit) (status : Half) (reason : Byte) (bytes : Word) : State :=
  match s.ownXfer f with
  | none => s
  | some (c, x) =>
    if x.isRead || (x.segs.getD f.segno.toNat Seg.empty).ended then s
    else s.xferProgress f.xid.toNat c (x.onSeg f.segno.toNat (fun g =>
      { g with ended := true, status := status, reason := reason, bytes := bytes.toNat }))

def wrAckReceived (h : FlitHdr) (status : Half) (reason : Byte) (bytes : Word) (s : State) : State :=
  let f := mkFlit h vcRsp 1 false (wrAckBytes status reason bytes.toNat)
  s.receive h f (fun s => s.routed h f (fun s => s.wrAckArrives f status reason bytes))

/-- WR_ACK (R443). -/
def execWrAck (h : FlitHdr) (status : Half) (reason : Byte) (bytes : Word) (s : State) :
    Host.Outcome State Fault Refusal := .next (wrAckReceived h status reason bytes s)

/-- An RD_END ends its segment (R442). -/
def State.rdEndArrives (s : State) (f : Flit) (status : Half) (reason : Byte) : State :=
  match s.ownXfer f with
  | none => s
  | some (c, x) =>
    if !x.isRead || (x.segs.getD f.segno.toNat Seg.empty).ended then s
    else s.xferProgress f.xid.toNat c (x.onSeg f.segno.toNat (fun g =>
      { g with ended := true, status := status, reason := reason }))

def rdEndReceived (h : FlitHdr) (status : Half) (reason : Byte) (s : State) : State :=
  let f := mkFlit h vcRsp 2 false (rdEndBytes status reason)
  s.receive h f (fun s => s.routed h f (fun s => s.rdEndArrives f status reason))

/-- RD_END (R442). -/
def execRdEnd (h : FlitHdr) (status : Half) (reason : Byte) (s : State) : Host.Outcome State Fault Refusal :=
  .next (rdEndReceived h status reason s)

/-- An UNREACH completes the transfer with PARTNER_LOST (R454). The flit comes from the relay, not from the peer. -/
def State.unreachArrives (s : State) (f : Flit) : State :=
  match s.cmd f.xid.toNat with
  | none => s
  | some c => match c.job with
    | .xfer _ => s.loseCmd f.xid.toNat stPartnerLost
    | _ => s

def unreachReceived (h : FlitHdr) (s : State) : State :=
  let f := mkFlit h vcRsp 3 false []
  s.receive h f (fun s => s.routed h f (fun s => s.unreachArrives f))

/-- UNREACH (R454). -/
def execUnreach (h : FlitHdr) (s : State) : Host.Outcome State Fault Refusal := .next (unreachReceived h s)

/-! ## Idle and bad flits -/

/-- An idle flit carries acknowledgement and credit fields only (R434). On the shaft port in TRAINING it is the partner's
half of the exchange that ends it (R462). -/
def idleReceived (h : FlitHdr) (s : State) : State :=
  let p := h.port.val
  if s.shaftTraining p then (s.setPort p { s.port p with idleHeard := true }).shaftTrained
  else if !s.receives p then s
  else
    let s := s.setPort p ((s.port p).takeFields h)
    let s := if h.nak then s.replayPort p else s
    (s.pump p).leaveIfAcked p

/-- IDLE_FLIT (R434). -/
def execIdleFlit (h : FlitHdr) (s : State) : Host.Outcome State Fault Refusal := .next (idleReceived h s)

/-- A flit that fails its CRC is counted and dropped with one NAK (R449). -/
def badFlit (p : Nat) (s : State) : State :=
  if !s.receives p then s
  else s.setPort p { s.port p with crcErr := (s.port p).crcErr + 1 }.nakOnce

end Sys2Proof.Machine
end

