-- ==== Sys2Proof/Machine/Prefix.lean ====
section
/-!
DEFINITION. The prefix index (14 R344 to R350): keys, nodes and buckets in the index handle, lookup, insertion, removal.
-/

namespace Sys2Proof.Machine

/-! ## Keys (R344) -/

def mixKey (h x : DWord) : DWord :=
  (h ^^^ (x * 0xD3B65A1F8C274E93)).rotateLeft 29 * 0x8F1BC6E52A749D3B

/-- `block_key` over the 64 token ids of a block. -/
def blockKey (parent : DWord) (tok : List Word) (salt : DWord) : DWord :=
  let h := (List.range 32).foldl (fun h i =>
    mixKey h ((tok.getD (2 * i) 0).setWidth 64 ||| ((tok.getD (2 * i + 1) 0).setWidth 64 <<< 32))) (mixKey salt parent)
  h ^^^ (h >>> 31)

/-! ## Nodes and buckets (R345) -/

/-- The id that stands for no node. -/
def noNode : Nat := 0xFFFFFFFF

def Pool.nodeOff (p : Pool) (n : Nat) : Nat := p.pxOff.toNat + n * p.nodeBytes

/-- Bucket of a key. -/
def Pool.bucketAt (p : Pool) (key : DWord) : Nat := p.bucketOff.toNat + 4 * (key.toNat % 2 ^ p.bucketBits.toNat)

/-- The node is live: allocated, and not on the node stack. -/
def Pool.nodeLive (p : Pool) (n : Nat) : Bool := decide (n < p.nodeFresh) && !p.nodeStack.contains n

/-- A field of a node. -/
def State.nodeField (s : State) (c n off size : Nat) : Nat :=
  s.readNat c (s.pool c).xhandle.toNat ((s.pool c).nodeOff n + off) size

def State.nodeKey (s : State) (c n : Nat) : DWord := BitVec.ofNat 64 (s.nodeField c n 0 8)
def State.nodeParent (s : State) (c n : Nat) : Nat := s.nodeField c n 8 4
def State.nodeNext (s : State) (c n : Nat) : Nat := s.nodeField c n 12 4
def State.nodeChildren (s : State) (c n : Nat) : Nat := s.nodeField c n 16 4
def State.nodeTokens (s : State) (c n : Nat) : List Word :=
  (List.range 64).map (fun i => BitVec.ofNat 32 (s.nodeField c n (256 + 4 * i) 4))

/-- The page entries of a node. -/
def State.nodePages (s : State) (c n : Nat) : List Nat :=
  (List.range ((s.pool c).layers.toNat * (s.pool c).heads.toNat)).map (fun i => s.nodeField c n (512 + 4 * i) 4)

def Io.putNode (x : Io) (c n off v : Nat) : Io :=
  x.write c (x.pool c).xhandle.toNat ((x.pool c).nodeOff n + off) (leBytes 4 v)

/-- First node of the chain of a key. -/
def State.bucketHead (s : State) (c : Nat) (key : DWord) : Nat :=
  s.readNat c (s.pool c).xhandle.toNat ((s.pool c).bucketAt key) 4

/-- The die reads `k` bytes of a node (R121, R123). -/
def Io.touchNode (x : Io) (c n off k : Nat) : Io := (x.read c (x.pool c).xhandle.toNat ((x.pool c).nodeOff n + off) k).2

/-- The die reads the page entries of a node. -/
def Io.touchPages (x : Io) (c n : Nat) : Io := x.touchNode c n 512 (4 * ((x.pool c).layers.toNat * (x.pool c).heads.toNat))

/-- The die reads the bucket of a key. -/
def Io.touchBucket (x : Io) (c : Nat) (key : DWord) : Io :=
  (x.read c (x.pool c).xhandle.toNat ((x.pool c).bucketAt key) 4).2

def Io.setBucket (x : Io) (c : Nat) (key : DWord) (n : Nat) : Io :=
  x.write c (x.pool c).xhandle.toNat ((x.pool c).bucketAt key) (leBytes 4 n)

/-- The first node of a chain that matches (R346). A chain holds each live node at most once. -/
def State.matchChain (s : State) (c : Nat) (key : DWord) (parent : Nat) (tok : List Word) : Nat → Nat → Option Nat
  | 0, _ => none
  | fuel + 1, n =>
    if !(s.pool c).nodeLive n then none
    else if s.nodeKey c n = key ∧ s.nodeParent c n = parent ∧ s.nodeTokens c n = tok then some n
    else s.matchChain c key parent tok fuel (s.nodeNext c n)

/-- The node that matches a block, given the key and the node of the block before (R346). -/
def State.matchBlock (s : State) (c : Nat) (key : DWord) (parent : Nat) (tok : List Word) : Option Nat :=
  s.matchChain c key parent tok ((s.pool c).nodesLive + 1) (s.bucketHead c key)

/-- The reads of a walk of a chain: the header of each node up to the one that matches, and the tokens of each whose key and
parent do (R346; log 56). -/
def Io.touchChain (x : Io) (c : Nat) (key : DWord) (parent : Nat) (tok : List Word) : Nat → Nat → Io
  | 0, _ => x
  | fuel + 1, n =>
    if !(x.pool c).nodeLive n then x
    else
      let y := x.touchNode c n 0 24
      if x.s.nodeKey c n = key ∧ x.s.nodeParent c n = parent then
        let z := y.touchNode c n 256 256
        if x.s.nodeTokens c n = tok then z else z.touchChain c key parent tok fuel (x.s.nodeNext c n)
      else y.touchChain c key parent tok fuel (x.s.nodeNext c n)

/-- The reads of the search for a block's node. -/
def Io.touchBlock (x : Io) (c : Nat) (key : DWord) (parent : Nat) (tok : List Word) : Io :=
  (x.touchBucket c key).touchChain c key parent tok ((x.pool c).nodesLive + 1) (x.s.bucketHead c key)

/-- A node is free to allocate (R345). -/
def Pool.nodeFree (p : Pool) : Bool := !p.nodeStack.isEmpty || decide (p.nodeFresh < p.nodes.toNat)

/-- Allocate a node: the top of the node stack, or the next fresh id. -/
def Io.allocNode (x : Io) (c : Nat) : Nat × Io :=
  let p := x.pool c
  let p' := { p with nodesLive := p.nodesLive + 1 }
  match p.nodeStack with
  | n :: rest => (n, x.setPool c { p' with nodeStack := rest })
  | [] => (p.nodeFresh, x.setPool c { p' with nodeFresh := p.nodeFresh + 1 })

/-! ## What both commands read -/

/-- The tokens of block `b`. -/
def blockTokens (toks : List Byte) (b : Nat) : List Word :=
  (List.range 64).map (fun i => wordAt toks (256 * b + 4 * i))

/-- The directory, the blocks covered and their tokens, after the checks of R347. -/
structure Prefix where
  d : Dir
  n : Nat
  toks : List Byte

def Io.prefix (x : Io) (p : Pkt) (write : Bool) : Except CheckFail Prefix × Io :=
  let c := p.ctx
  match x.dir c (p.handle 8) (p.u64 16) write with
  | (.error f, x) => (.error f, x)
  | (.ok d, x) =>
    if d.layers ≠ (x.pool c).layers.toNat ∨ d.heads ≠ (x.pool c).heads.toNat then (.error boundsFail, x)
    else
      let n := min (p.u32 12 / 64) d.blocks
      match x.s.chk c (p.handle 9) .wr (p.u64 24) (256 * n) with
      | some f => (.error f, x)
      | none =>
        let r := if n = 0 then ([], x) else x.read c (p.handle 9) (p.u64 24) (256 * n)
        (.ok { d := d, n := n, toks := r.1 }, r.2)

/-- The entries of a block, layer by layer. -/
def Io.blockEnts (x : Io) (c : Nat) (d : Dir) (b : Nat) : List Ent × Io :=
  x.ents c d (List.range d.layers) d.headList [b]

/-- The entries of the local blocks below `n`. -/
def Io.localEnts (x : Io) (c : Nat) (d : Dir) (n : Nat) : List Ent × Io :=
  x.ents c d (List.range d.layers) d.headList ((List.range n).filter (x.s.localBlock c))

/-! ## Lookup (R348) -/

/-- Progress along the blocks: the last key and node, and how many matched. -/
structure Match where
  x : Io
  key : DWord
  node : Nat
  count : Nat

/-- Pages that the V entries of a node name. -/
def entryPages (es : List Nat) : List Nat := (es.filter entryV).map entryPage

/-- Copy a node's entries into the directory, taking one reference on each page. -/
def Io.shareBlock (x : Io) (c : Nat) (d : Dir) (b : Nat) (es : List Nat) : Io :=
  (List.range es.length).foldl (fun x i =>
    let v := es.getD i 0
    let x := x.putEnt c d (i / d.heads) (d.head0 + i % d.heads) b v
    if entryV v then x.take c (entryPage v) else x) x

/-- Match from the given block upward; `share` takes the pages of each matched block (lookup). -/
def Match.walk (c : Nat) (p : Prefix) (salt : DWord) (share : Bool) : Nat → Match → Match
  | 0, m => m
  | fuel + 1, m =>
    let b := m.count
    let tok := blockTokens p.toks b
    let key := blockKey m.key tok salt
    let x := m.x.touchBlock c key m.node tok
    match m.x.s.matchBlock c key m.node tok with
    | none => { m with x := x }
    | some n =>
      let copies := share && m.x.s.localBlock c b
      let es := if copies then m.x.s.nodePages c n else []
      let x := if copies then (x.touchPages c n).touchRecs c (entryPages es) else x
      if !m.x.s.refsFit c (entryPages es) then { m with x := x }
      else Match.walk c p salt share fuel { x := x.shareBlock c p.d b es, key := key, node := n, count := b + 1 }

def Match.start (x : Io) : Match := { x := x, key := 0, node := noNode, count := 0 }

def prefixLookupAct (s : State) (_k : Nat) (p : Pkt) : DispOut :=
  let c := p.ctx
  match s.poolFault c true with
  | some f => .failCheck s f
  | none =>
    match (Io.of s).prefix p true with
    | (.error f, x) => x.fail f
    | (.ok px, x) =>
      let r := x.localEnts c px.d px.n
      if r.1.any (fun e => entryV e.v) then r.2.fail boundsFail
      else
        let m := Match.walk c px (s.ctxOf c).salt true px.n (Match.start r.2)
        m.x.done (leBytes 4 m.count ++ leBytes 4 m.node)

def prefixLookup (q : Nat) (s : State) : State := s.dispatch q (fun p => decide (p.opcode = 0x2D)) prefixLookupAct

/-- PREFIX_LOOKUP (R348). -/
def execPrefixLookup (q : Fin 512) (s : State) : Host.Outcome State Fault Refusal := .next (prefixLookup q.val s)

/-! ## Insertion (R349) -/

/-- Write a new node at the head of its chain, under its parent (Table KVP-5). -/
def Io.makeNode (x : Io) (c b : Nat) (key : DWord) (parent : Nat) (tok : List Word) (es : List Nat) : Nat × Io :=
  let r := x.allocNode c
  let n := r.1
  let p := r.2.pool c
  let next := x.s.bucketHead c key
  let x := (r.2.touchBucket c key).write c p.xhandle.toNat (p.nodeOff n)
    (leBytes 8 key.toNat ++ leBytes 4 parent ++ leBytes 4 next ++ leBytes 4 0 ++ leBytes 4 b)
  let x := x.write c p.xhandle.toNat (p.nodeOff n + 256) (tok.flatMap (fun t => leBytes 4 t.toNat))
  let x := x.write c p.xhandle.toNat (p.nodeOff n + 512) (es.flatMap (leBytes 4))
  let x := x.setBucket c key n
  (n, if parent = noNode then x else (x.touchNode c parent 16 4).putNode c parent 16 (x.s.nodeChildren c parent + 1))

/-- Create nodes from the given block upward: progress, and the REASON that stopped it, 0 for none. -/
def Match.create (c : Nat) (p : Prefix) (salt : DWord) : Nat → Match → Match × Nat
  | 0, m => (m, 0)
  | fuel + 1, m =>
    let b := m.count
    let isLocal := m.x.s.localBlock c b
    let r := if isLocal then m.x.blockEnts c p.d b else ([], m.x)
    let es := if isLocal then r.1.map (fun e => e.v) else List.replicate (p.d.layers * p.d.heads) 0
    if !(m.x.pool c).nodeFree then (m, 2)
    else if !m.x.s.refsFit c (entryPages es) then ({ m with x := r.2.touchRecs c (entryPages es) }, 3)
    else
      let tok := blockTokens p.toks b
      let key := blockKey m.key tok salt
      let k := (r.2.touchRecs c (entryPages es)).makeNode c b key m.node tok es
      let x := (entryPages es).foldl (fun x n => x.take c n) k.2
      Match.create c p salt fuel { x := x, key := key, node := k.1, count := b + 1 }

def insertAct (s : State) (p : Pkt) : DispOut :=
  let c := p.ctx
  match (Io.of s).prefix p false with
  | (.error f, x) => x.fail f
  | (.ok px, x) =>
    let r := x.localEnts c px.d px.n
    let r := (r.1, r.2.touchEnts c r.1)
    if !r.1.all (fun e => entryV e.v) || !r.2.s.entsHeld c r.1 then r.2.fail boundsFail
    else
      let salt := (s.ctxOf c).salt
      let m := Match.walk c px salt false px.n (Match.start r.2)
      let k := Match.create c px salt (px.n - m.count) m
      let data := leBytes 4 m.count ++ leBytes 4 (k.1.count - m.count) ++ leBytes 4 k.1.node
      if k.2 = 0 then k.1.x.done data
      else .fin k.1.x.s stPageExhausted (BitVec.ofNat 8 k.2) k.1.x.fl data

def prefixInsert (q : Nat) (s : State) : State :=
  s.dispatch q (fun p => decide (p.opcode = 0x2E) && decide (p.byte 10 ≠ 1)) (fun s _ p =>
    match s.poolFault p.ctx true with
    | some f => .failCheck s f
    | none => if 1 < p.byte 10 then .fail s stBounds else insertAct s p)

/-- PREFIX_INSERT INSERT (R349). -/
def execPrefixInsert (q : Fin 512) (s : State) : Host.Outcome State Fault Refusal := .next (prefixInsert q.val s)

/-! ## Removal (R350) -/

/-- Unlink node `n` from its chain, walking from node `m`. -/
def Io.unlink (x : Io) (c n next : Nat) : Nat → Nat → Io
  | 0, _ => x
  | fuel + 1, m =>
    if !(x.pool c).nodeLive m then x
    else if x.s.nodeNext c m = n then (x.touchNode c m 12 4).putNode c m 12 next
    else (x.touchNode c m 12 4).unlink c n next fuel (x.s.nodeNext c m)

def removeAct (s : State) (_k : Nat) (p : Pkt) : DispOut :=
  let c := p.ctx
  let n := p.u32 32
  match s.poolFault c true with
  | some f => .failCheck s f
  | none =>
    if !(s.pool c).nodeLive n then .fail s stBounds
    else
    let x := (Io.of s).touchNode c n 0 24
    if s.nodeChildren c n ≠ 0 then x.fail boundsFail
    else
      let key := s.nodeKey c n
      let next := s.nodeNext c n
      let x := (x.touchPages c n).touchBucket c key
      let x := if s.bucketHead c key = n then x.setBucket c key next
        else x.unlink c n next ((s.pool c).nodesLive + 1) (s.bucketHead c key)
      let x := (entryPages (s.nodePages c n)).foldl (fun x k => x.drop c k) x
      let parent := s.nodeParent c n
      let x := if parent = noNode then x
        else (x.touchNode c parent 16 4).putNode c parent 16 (s.nodeChildren c parent - 1)
      let q := x.pool c
      (x.setPool c { q with nodesLive := q.nodesLive - 1, nodeStack := n :: q.nodeStack }).done []

def prefixRemove (q : Nat) (s : State) : State :=
  s.dispatch q (fun p => decide (p.opcode = 0x2E) && decide (p.byte 10 = 1)) removeAct

/-- PREFIX_INSERT REMOVE (R350). -/
def execPrefixRemove (q : Fin 512) (s : State) : Host.Outcome State Fault Refusal := .next (prefixRemove q.val s)

end Sys2Proof.Machine
end

