-- ==== Sys2Proof/Machine/RawFlit.lean ====
section
/-!
DEFINITION. The 256 bytes of a flit as they come in (18 R433, R434, R447, R449, Tables LNK-1, LNK-3; 19 R471): their CRC is
checked, their header is read, and what they carry has the meaning of its type.
-/

namespace Sys2Proof.Machine

/-- The header of Table LNK-1. -/
def hdrOf (p : Fin 9) (bs : List Byte) : FlitHdr :=
  let b3 := (byteAt bs 3).toNat
  let msg := fieldAt bs 12 4
  { port := p, seq := byteAt bs 1, ackSeq := byteAt bs 2, ackV := bit b3 0, nak := bit b3 1,
    crvc := BitVec.ofNat 2 (bits b3 3 2), crtot := BitVec.ofNat 11 (fieldAt bs 4 2), src := halfAt bs 6, dst := halfAt bs 8,
    ctx := BitVec.ofNat 4 (byteAt bs 10).toNat, xid := BitVec.ofNat 10 msg, segno := BitVec.ofNat 15 (bits msg 10 15) }

/-- The flit itself: PLEN bytes of payload carry meaning (R433). -/
def flitOf (p : Fin 9) (bs : List Byte) : Flit :=
  mkFlit (hdrOf p bs) (BitVec.ofNat 2 (byteAt bs 0).toNat) (BitVec.ofNat 6 (bits (byteAt bs 0).toNat 2 6))
    (bit (byteAt bs 3).toNat 2) ((bs.drop 16).take (min 236 (byteAt bs 11).toNat))

/-- The HELLO of Table TOP-3. -/
def helloOf (pl : List Byte) : Hello :=
  let b4 := (byteAt pl 4).toNat
  { dieId := halfAt pl 0, port := byteAt pl 2, role := byteAt pl 3, tier := BitVec.ofNat 2 b4,
    orient := BitVec.ofNat 3 (bits b4 4 3), mapv := bit b4 7, hubDist := byteAt pl 5, variant := wordAt pl 8 }

/-- A flit of a type that Table LNK-3 does not give: malformed, discarded and counted (R471; log 79). -/
def State.malformed (s : State) (p : Nat) : State := s.setPort p { s.port p with protErr := (s.port p).protErr + 1 }

/-- A flit that acts on its own link, whatever its DST: discovery, LEAVING, and the reserved types (Table LNK-3). -/
def Flit.ofLink (f : Flit) : Bool := decide (f.vc = vcCtrl) && decide (8 ≤ f.typ.toNat)

/-- What a CTRL flit does (Table LNK-3). A NOTICE or a REG_RSP is for a hub: here it does nothing. -/
def State.ctrlArrives (s : State) (h : FlitHdr) (f : Flit) : State :=
  let pl := f.payload
  let p := h.port.val
  match f.typ.toNat with
  | 1 => s.regRdArrives h (wordAt pl 0) (byteAt pl 4).toNat
  | 2 => s.regWrArrives h (wordAt pl 0) ((List.range (byteAt pl 4).toNat).map (fun i => wordAt pl (8 + 4 * i)))
  | 3 => s
  | 4 => s
  | 5 => s.setTime (dwordAt pl 0)
  | 6 => s.semSigArrives f (byteAt pl 0) (wordAt pl 4)
  | 7 => s.semAckArrives f (byteAt pl 0) (wordAt pl 4) (halfAt pl 8)
  | 8 => (s.sendHelloAck p).partnerSays p (helloOf pl) false
  | 9 => s.partnerSays p (helloOf pl) true
  | 12 => s.leavingArrives p
  | _ => s.malformed p

/-- What a REQ flit does. -/
def State.reqArrives (s : State) (h : FlitHdr) (f : Flit) : State :=
  let pl := f.payload
  let flags := (byteAt pl 1).toNat
  match f.typ.toNat with
  | 1 => s.wrSegArrives h f (byteAt pl 0) (bit flags 0) (bit flags 1) (byteAt pl 2) (dwordAt pl 8) (wordAt pl 16) (wordAt pl 20)
  | 2 => s.rdSegArrives f (byteAt pl 0) (dwordAt pl 8) (wordAt pl 16)
  | _ => s.malformed h.port.val

/-- What an RSP flit does. -/
def State.rspArrives (s : State) (h : FlitHdr) (f : Flit) : State :=
  let pl := f.payload
  match f.typ.toNat with
  | 1 => s.wrAckArrives f (halfAt pl 0) (byteAt pl 2) (wordAt pl 4)
  | 2 => s.rdEndArrives f (halfAt pl 0) (byteAt pl 2)
  | 3 => s.unreachArrives f
  | _ => s.malformed h.port.val

/-- What a flit for this die does (Table LNK-3). -/
def State.flitArrives (s : State) (h : FlitHdr) (f : Flit) : State :=
  if f.vc = vcCtrl then s.ctrlArrives h f
  else if f.vc = vcReq then s.reqArrives h f
  else if f.vc = vcRsp then s.rspArrives h f
  else if f.typ = 1 then s.dataArrives h.port.val f
  else s.malformed h.port.val

/-- 256 bytes come in on a port: dropped with a NAK where their CRC fails, else an idle flit, or a flit that is taken in
order and acts here or is forwarded (R434, R447, R449, R475). -/
def rawFlit (p : Fin 9) (bs : List Byte) (s : State) : State :=
  let h := hdrOf p bs
  let f := flitOf p bs
  if !crcGood bs then badFlit p.val s
  else if f.typ = 0 then idleReceived h s
  else s.receive h f (fun s => if f.ofLink then s.flitArrives h f else s.routed h f (fun s => s.flitArrives h f))

/-- FLIT_CRC_FAIL: the bytes of a flit come in (R449). -/
def execFlitCrcFail (p : Fin 9) (bytes : List Byte) (s : State) : Host.Outcome State Fault Refusal :=
  .next (rawFlit p bytes s)

end Sys2Proof.Machine
end

