-- ==== Sys2Proof/Machine/Requests.lean ====
section
/-!
DEFINITION. The Starling request table (15 R353 to R364, R377 to R382; 22 R533): admission, customer budgets, retirement,
output records and cancellation.
-/

namespace Sys2Proof.Machine

/-! ## Entries -/

/-- A request is live (R355). -/
def ReqState.live : ReqState → Bool
  | .admitted | .prefill | .decode | .pageWait | .budgetWait => true
  | .free | .draining | .done => false

/-- Entries that are not FREE: SRV_LIVE. -/
def State.liveEntries (s : State) : Nat := (s.srv.entries.filter (fun e => decide (e.2.state ≠ .free))).length

/-- The lowest-numbered FREE entry (R359). -/
def State.freeEntry (s : State) : Option Nat := (List.range 4096).find? (fun r => decide ((s.entry r).state = .free))

/-! ## Admission (R357 to R360) -/

/-- Table SRV-3. -/
structure Admit where
  customer : Nat
  priority : Nat
  keepKv : Bool
  nstop : Nat
  promptLen : Nat
  length0 : Nat
  maxNew : Nat
  deadline : DWord
  reserve : Nat
  dh : Nat
  ph : Nat
  penh : Nat
  diroff : DWord
  promptoff : DWord
  penoff : DWord
  seed : DWord
  slot : Nat
  stop : List Word

def Pkt.admission (p : Pkt) : Admit :=
  { customer := p.u16 8 % 1024, priority := p.byte 10 % 8, keepKv := bit (p.byte 10) 7, nstop := p.byte 11 % 8,
    promptLen := p.u32 12, length0 := p.u32 16, maxNew := p.u32 20, deadline := dwordAt p.bytes 24, reserve := p.u32 32,
    dh := p.handle 36, ph := p.handle 37, penh := p.handle 38, diroff := dwordAt p.bytes 40,
    promptoff := dwordAt p.bytes 48, penoff := dwordAt p.bytes 56, seed := dwordAt p.bytes 64, slot := p.u16 72,
    stop := (List.range 4).map (fun i => wordAt p.bytes (80 + 4 * i)) }

/-- Entries of a context against SRV_LIMITS.MAXREQ; 0 means no cap. -/
def State.atMaxReq (s : State) (c : Nat) : Bool :=
  decide (s.act.maxReq c ≠ 0) && decide (s.act.maxReq c ≤ (s.entriesOf c).length)

/-- Table SRV-4, orders 1 to 3. -/
def State.admitFault (s : State) (c : Nat) (a : Admit) : Option CheckFail :=
  if !(s.act.range c).hasCust a.customer then some ⟨stRefuseContext, 0⟩
  else if a.maxNew = 0 ∨ a.promptLen ≤ a.length0 ∨ 4 < a.nstop ∨ s.slotOk a.slot c = false then some boundsFail
  else if 131072 < a.promptLen + a.maxNew then some ⟨stRefuseLength, 0⟩
  else firstFail [s.chk c a.dh .wr a.diroff.toNat 64, s.chk c a.penh .wr a.penoff.toNat penBytes]

/-- The entry of a new request (R359); what no parameter names starts at zero (log 64). -/
def Admit.entry (a : Admit) (c : Nat) (seq : Word) : Entry :=
  { Entry.reset with
    state := .admitted, ctx := c, keepKv := a.keepKv, length := a.length0, promptLeft := a.promptLen - a.length0
    newLeft := a.maxNew, deadline := a.deadline, customer := a.customer, priority := a.priority, slot := a.slot
    dhandle := BitVec.ofNat 6 a.dh, phandle := BitVec.ofNat 6 a.ph, penhandle := BitVec.ofNat 6 a.penh, nstop := a.nstop
    diroff := a.diroff, promptoff := a.promptoff, penoff := a.penoff, seed := a.seed, reserve := a.reserve, seq := seq
    stop := a.stop }

/-- A refused admission writes nothing to the table and is counted (R358). -/
def refuseAdmit (x : Io) (f : CheckFail) : DispOut :=
  .failCheck { x.s with srv := { x.s.srv with refusals := x.s.srv.refusals + 1 } } f

/-- The admission itself. -/
def Io.admitEntry (x : Io) (c r : Nat) (a : Admit) : DispOut :=
  let s := x.s
  let seq := s.srv.seq
  let s := s.setEntry r (a.entry c seq)
  let s := { s with srv := { s.srv with seq := seq + 1 } }
  let p := s.pool c
  let s := s.setPool c { p with reserved := p.reserved + a.reserve }
  Io.done { x with s := s } (leBytes 2 r ++ leBytes 4 seq.toNat)

def reqAdmitAct (s : State) (_k : Nat) (p : Pkt) : DispOut :=
  let c := p.ctx
  let a := p.admission
  match s.admitFault c a with
  | some f => refuseAdmit (Io.of s) f
  | none =>
    let b := (Io.of s).readNat c a.dh (a.diroff.toNat + 8) 4
    if b.1 * 64 < a.promptLen + a.maxNew - 1 then refuseAdmit b.2 boundsFail
    else
      match s.freeEntry with
      | none => refuseAdmit b.2 ⟨stTableFull, 0⟩
      | some r =>
        if s.atMaxReq c then refuseAdmit b.2 ⟨stTableFull, 0⟩
        else if !(s.pool c).live || decide ((s.pool c).avail < a.reserve) then refuseAdmit b.2 ⟨stRefusePages, 0⟩
        else b.2.admitEntry c r a

def reqAdmit (q : Nat) (s : State) : State := s.dispatch q (fun p => decide (p.opcode = 0x30)) reqAdmitAct

/-- REQ_ADMIT (R358). -/
def execReqAdmit (q : Fin 512) (s : State) : Host.Outcome State Fault Refusal := .next (reqAdmit q.val s)

/-! ## Customer budgets (R361 to R364, R533) -/

def State.cust (s : State) (n : Nat) : Customer := spGet Customer.reset s.srv.cust n

def State.setCust (s : State) (n : Nat) (x : Customer) : State :=
  { s with srv := { s.srv with cust := spSet Customer.reset s.srv.cust n x } }

/-- BUDGET_ADD; the two rows differ in MODE (R363). -/
def budgetAddAct (s : State) (_k : Nat) (p : Pkt) : DispOut :=
  let n := p.u16 8
  let v := wordAt p.bytes 12
  if !(s.act.range p.ctx).hasCust n then .fail s stPermission
  else if 1 < p.byte 10 then .fail s stBounds
  else
    let x := s.cust n
    let y := if p.byte 10 = 1 then { x with budget := v }
      else
        let b := satAdd32 x.budget v
        { x with budget := b, added := x.added + (b - x.budget) }
    .ok (s.setCust n y) (leBytes 4 y.budget.toNat)

def budgetAdd (q : Nat) (s : State) : State :=
  s.dispatch q (fun p => decide (p.opcode = 0x33) && decide (p.byte 10 ≠ 1)) budgetAddAct

/-- BUDGET_ADD in mode 0 (R363). -/
def execBudgetAdd (q : Fin 512) (s : State) : Host.Outcome State Fault Refusal := .next (budgetAdd q.val s)

def budgetSet (q : Nat) (s : State) : State :=
  s.dispatch q (fun p => decide (p.opcode = 0x33) && decide (p.byte 10 = 1)) budgetAddAct

/-- BUDGET_ADD in mode 1 (R363). -/
def execBudgetSet (q : Fin 512) (s : State) : Host.Outcome State Fault Refusal := .next (budgetSet q.val s)

/-- One refill of one customer (R362). -/
def State.refill (s : State) (n : Nat) : State :=
  let x := s.cust n
  let rate := s.act.rate n
  let cap := s.act.cap n
  if rate = 0 ∨ cap ≤ x.budget.toNat then s
  else
    let b := min cap (x.budget.toNat + rate)
    s.setCust n { x with budget := BitVec.ofNat 32 b, refilled := x.refilled + BitVec.ofNat 32 (b - x.budget.toNat) }

/-- Package time passes a whole millisecond (R362). -/
def budgetRefill (s : State) : State :=
  if s.silent || !s.time.valid then s else (List.range 1024).foldl State.refill s

/-- BUDGET_REFILL (R362). -/
def execBudgetRefill (s : State) : Host.Outcome State Fault Refusal := .next (budgetRefill s)

/-- A row of `n` reserved tokens keeps `a` of them: RESERVED falls, the rest is refunded, saturating; what does not
return is CHARGED (R376, R533). -/
def State.charge (s : State) (cust n a : Nat) : State :=
  let x := s.cust cust
  let b := min (2 ^ 32 - 1) (x.budget.toNat + (n - a))
  s.setCust cust { x with reserved := x.reserved - BitVec.ofNat 32 n, budget := BitVec.ofNat 32 b
                          charged := x.charged + BitVec.ofNat 32 (n - (b - x.budget.toNat)) }

/-! ## Output records (Table SRV-7) -/

def recDone : Nat := 1
def recStop : Nat := 2
def recLimit : Nat := 4
def recLate : Nat := 8
def recDraft : Nat := 16
def recFirst : Nat := 32

def outRecord (req flags pos : Nat) (token : Word) (st step : Half) : List Byte :=
  leBytes 2 req ++ leBytes 2 flags ++ leBytes 4 pos ++ leBytes 4 token.toNat ++ leBytes 2 st.toNat ++ leBytes 2 step.toNat

def State.recsOf (s : State) (c : Nat) : List OutRec := spGet [] s.srv.recs c

def State.setRecs (s : State) (c : Nat) (l : List OutRec) : State :=
  { s with srv := { s.srv with recs := spSet [] s.srv.recs c l } }

def State.addRec (s : State) (c : Nat) (r : OutRec) : State := s.setRecs c (s.recsOf c ++ [r])

/-! ## Retirement (R377) -/

/-- Release the directory's references and the reservation, and make the request DONE; `x.st` keeps the data status. A
directory that fails its checks keeps its references (log 65). -/
def Io.retire (x : Io) (r : Nat) (st : Half) : Io :=
  let e := x.s.entry r
  let x := if e.keepKv then x
    else
      let t := trimDir x.s e.ctx e.dhandle.toNat e.diroff.toNat false 0
      match t.1 with
      | .error _ => { x with s := t.2.s }
      | .ok _ => { x with s := t.2.s, st := worstData x.st t.2.st }
  let p := x.pool e.ctx
  let x := x.setPool e.ctx { p with reserved := p.reserved - e.reserve }
  { x with s := x.s.setEntry r { e with reserve := 0, reason := st, state := .done } }

/-- The final record of a request that retires other than under rule 5 of Table SRV-6. -/
def finalRecord (r : Nat) (e : Entry) (st step : Half) : List Byte :=
  outRecord r (recDone + (if e.late then recLate else 0)) e.length 0xFFFFFFFF st step

/-! ## Cancellation (R380) -/

/-- MODE 0 on an entry that is in no running step: it retires, and the command completes after its record. -/
def cancelNow (s : State) (k c r : Nat) : DispOut :=
  let x := (Io.of s).retire r stCancelled
  let b := finalRecord r (x.s.entry r) stCancelled (Config.freeStep x.s.free)
  let s := { x.s with free := x.s.free + 1 }
  .run (s.addRec c { bytes := b, slots := [k] }) (.record x.st [1])

/-- REQ_CANCEL; the two rows differ in MODE. One that retires its request checks the pool's areas first (R329). -/
def reqCancelAct (s : State) (k : Nat) (p : Pkt) : DispOut :=
  let r := p.u16 8
  let e := s.entry r
  let mode := p.byte 10
  if 4095 < r ∨ e.state = .free ∨ 1 < mode then .fail s stBounds
  else if e.ctx ≠ p.ctx then .fail s stPermission
  else if mode = 1 then
    if e.state = .done then .ok (s.setEntry r { e with state := .free }) [] else .fail s stBounds
  else if e.state = .done then .ok s [0]
  else if e.inStep then .run (s.setEntry r { e with cancel := true, state := .draining }) (.cancel r)
  else
    match (if e.keepKv then none else s.poolFault p.ctx false) with
    | some f => .failCheck s f
    | none => cancelNow s k p.ctx r

def reqCancel (q : Nat) (s : State) : State :=
  s.dispatch q (fun p => decide (p.opcode = 0x31) && decide (p.byte 10 ≠ 1)) reqCancelAct

/-- REQ_CANCEL in mode CANCEL (R380). -/
def execReqCancel (q : Fin 512) (s : State) : Host.Outcome State Fault Refusal := .next (reqCancel q.val s)

def reqRelease (q : Nat) (s : State) : State :=
  s.dispatch q (fun p => decide (p.opcode = 0x31) && decide (p.byte 10 = 1)) reqCancelAct

/-- REQ_CANCEL in mode RELEASE (R380). -/
def execReqRelease (q : Fin 512) (s : State) : Host.Outcome State Fault Refusal := .next (reqRelease q.val s)

/-! ## The output ring (R378, R379) -/

/-- A STEP completes (R374, R379). -/
def State.finishStep (s : State) (k c : Nat) (j : StepJob) : State :=
  let data := (j.rows.length :: j.counts).flatMap (leBytes 2)
  let st := match j.fail with | some f => f.1 | none => j.data
  let reason : Byte := match j.fail with | some f => f.2.1 | none => 0
  (s.setStepJob c none).finishLate k st reason j.flags j.late data

/-- The command in slot `k` has no record left to wait for. -/
def State.recordsDone (s : State) (c k : Nat) : State :=
  match s.cmd k with
  | none => s
  | some x =>
    match x.job with
    | .record st d => s.finish k st 0 0 d
    | .cancel _ => s.finish k stOK 0 0 [2]
    | .step => match s.stepJob c with | some j => s.finishStep k c j | none => s
    | _ => s

/-- Commands of a record that no later record holds back. -/
def State.releaseSlots (s : State) (c : Nat) (ks : List Nat) : State :=
  (ks.filter (fun k => !(s.recsOf c).any (fun r => r.slots.contains k))).foldl (fun s k => s.recordsDone c k) s

/-- The data status of the ring write goes to the context's STEP (R123). -/
def State.stepData (s : State) (c : Nat) (st : Half) : State :=
  match s.stepJob c with
  | some j => s.setStepJob c (some { j with data := worstData j.data st })
  | none => s

/-- Write the context's oldest waiting record, or tell once that the ring is full. -/
def outputRecordWrite (c : Nat) (s : State) : State :=
  match s.recsOf c with
  | [] => s
  | x :: rest =>
    let y := s.ctxOf c
    let r := y.oring
    if s.silent || !s.ringReady c r 16 then s
    else if !r.room 16 then
      if r.told then s else (s.setCtx c { y with oring := { r with told := true } }).notify (ntOringFull c)
    else
      let w := s.writeBytes c r.handle.toNat (r.slotOff 16) x.bytes
      let s := w.2.stepData c w.1
      let s := s.setCtx c { s.ctxOf c with oring := { r with tail := r.tail + 1, told := false } }
      (s.setRecs c rest).releaseSlots c x.slots

/-- OUTPUT_RECORD_WRITE (R378). -/
def execOutputRecordWrite (c : Fin 16) (s : State) : Host.Outcome State Fault Refusal :=
  .next (outputRecordWrite c.val s)

end Sys2Proof.Machine
end

