-- ==== Sys2Proof/Machine/Serving.lean ====
section
/-! DEFINITION. The STEP command (15 R365 to R379, R381): build, script, sampling and bookkeeping. -/

namespace Sys2Proof.Machine

/-! ## Build (R367 to R369) -/

/-- Order of selection: priority, deadline, age (R367). -/
def State.before (s : State) (a b : Nat) : Bool :=
  let x := s.entry a
  let y := s.entry b
  let age := fun (e : Entry) => (e.seq - s.srv.seq).toNat
  decide (x.priority < y.priority) || (decide (x.priority = y.priority)
    && (decide (x.deadline.toNat < y.deadline.toNat) || (decide (x.deadline = y.deadline) && decide (age x < age y))))

def State.insertEntry (s : State) (r : Nat) : List Nat → List Nat
  | [] => [r]
  | a :: l => if s.before r a then r :: a :: l else a :: s.insertEntry r l

/-- The live entries of a context in the order of the build. -/
def State.buildOrder (s : State) (c : Nat) : List Nat :=
  ((s.entriesOf c).filter (fun r => (s.entry r).state.live)).foldl (fun l r => s.insertEntry r l) []

/-- `want` of R367. -/
def Entry.want (e : Entry) (room chunkMax : Nat) : Nat :=
  if e.promptLeft = 0 then
    let n := 1 + min e.ndraft (e.newLeft - 1)
    if n ≤ room then n else 0
  else
    let c := min chunkMax room
    if e.promptLeft ≤ c then e.promptLeft else c - c % 64

/-- Progress of a build. -/
structure Build where
  x : Io
  rows : List StepRow
  toks : Nat
  /-- Best priority selected so far; 8 for none. -/
  top : Nat
  full : Nat
  budget : Nat
  pageWait : Nat
  prio : Nat
  exhausted : Nat
  slots : List (List Word)

/-- The row is deferred or fails: REASON and state (R369, Table SRV-2). -/
def Build.note (b : Build) (r : Nat) (st : Half) (state : ReqState) : Build :=
  { b with x := { b.x with s := b.x.s.setEntry r { b.x.s.entry r with reason := st, state := state } } }

/-- The entries that positions LENGTH to LENGTH + n − 1 touch, over every layer and head (R368). -/
def Io.rowEnts (x : Io) (c : Nat) (e : Entry) (n : Nat) : Except CheckFail (Dir × List Ent) × Io :=
  match x.s.poolFault c false with
  | some f => (.error f, x)
  | none =>
    match x.dir c e.dhandle.toNat e.diroff.toNat true with
    | (.error f, x) => (.error f, x)
    | (.ok d, x) =>
      if d.blocks ≤ (e.length + n - 1) / 64 then (.error boundsFail, x)
      else
        let es := x.ents c d (List.range d.layers) d.headList (x.s.touched c e.length n)
        let es := (es.1, es.2.touchEnts c es.1)
        if es.2.s.entsHeld c es.1 then (.ok (d, es.1), es.2) else (.error boundsFail, es.2)

/-- The budget moves to RESERVED, and the row is recorded with its sampling slot (R367, R384). -/
def Build.select (b : Build) (r n used : Nat) : Build :=
  let s := b.x.s
  let e := s.entry r
  let k := s.cust e.customer
  let s := s.setCust e.customer { k with budget := k.budget - BitVec.ofNat 32 n, reserved := k.reserved + BitVec.ofNat 32 n }
  let state : ReqState := if 0 < e.promptLeft then .prefill else .decode
  let s := s.setEntry r { e with reason := stOK, inStep := true, before := e.state, state := state
                                 reserve := e.reserve - used }
  let ok := s.slotOk e.slot e.ctx
  let s := if ok then s else { s with smp := { s.smp with badSlot := s.smp.badSlot + 1 } }
  let kind := if e.promptLeft = 0 then 0 else if e.promptLeft = n then 2 else 1
  { b with
    x := { b.x with s := s }
    rows := b.rows ++ [{ req := r, kind := kind, ntok := n, tokBase := b.toks, pos := e.length }]
    toks := b.toks + n, top := min b.top e.priority
    slots := b.slots ++ [if ok then s.slotWords e.slot else []] }

/-- Pages for a row that has budget. -/
def Build.pages (c : Nat) (b : Build) (r n : Nat) : Build :=
  let e := b.x.s.entry r
  match b.x.rowEnts c e n with
  | (.error f, x) => ({ b with x := x }).note r f.status e.state
  | (.ok (d, es), x) =>
    let b := { b with x := x }
    if e.reserve + (x.pool c).avail < x.s.pagesFor c es then
      if e.state = .pageWait then { b.note r stDeferPageWait .pageWait with pageWait := b.pageWait + 1 }
      else { b.note r stPageExhausted .pageWait with exhausted := b.exhausted + 1 }
    else
      let p := x.prepare c d es e.length e.reserve
      ({ b with x := p.x }).select r n p.used

/-- One live entry of the build. -/
def Build.row (c rowCap tokCap chunkMax : Nat) (b : Build) (r : Nat) : Build :=
  let e := b.x.s.entry r
  let n := e.want (tokCap - b.toks) chunkMax
  if b.rows.length = rowCap ∨ n = 0 then
    if b.top < e.priority then { b.note r stDeferPriority e.state with prio := b.prio + 1 }
    else { b.note r stDeferStepFull e.state with full := b.full + 1 }
  else if (b.x.s.cust e.customer).budget.toNat < n then
    { b.note r stDeferBudget .budgetWait with budget := b.budget + 1 }
  else Build.pages c b r n

/-- The row record of Table SRV-5. -/
def rowRecord (e : Entry) (r : StepRow) : List Byte :=
  let decode := decide (r.kind = 0)
  let nd := if decode then r.ntok - 1 else 0
  leBytes 2 r.req ++ leBytes 1 r.kind ++ leBytes 1 nd ++ leBytes 2 r.tokBase ++ leBytes 2 r.ntok ++ leBytes 4 r.pos
    ++ leBytes 2 e.slot ++ leBytes 1 e.dhandle.toNat ++ leBytes 1 e.phandle.toNat ++ leBytes 8 e.diroff.toNat
    ++ leBytes 8 e.promptoff.toNat ++ leBytes 4 (if decode then e.lastTok.toNat else 0)
    ++ ((List.range 8).flatMap (fun i => leBytes 4 (if i < nd then (e.draft.getD i 0).toNat else 0))) ++ leBytes 60 0

/-- The part of the batch buffer that the build writes. -/
def Build.writeBatch (b : Build) (c h off : Nat) (seq : Word) : Io :=
  let x := b.x.write c h off (leBytes 2 b.rows.length ++ leBytes 2 b.toks ++ leBytes 4 seq.toNat)
  (List.range b.rows.length).foldl (fun x i =>
    match b.rows[i]? with
    | none => x
    | some r => x.write c h (off + 64 + 128 * i) (rowRecord (x.s.entry r.req) r)) x

/-- A cap of 0, or above the context's, takes the context's (R365). -/
def capOf (v limit : Nat) : Nat := if v = 0 ∨ limit < v then limit else v

/-- A swap that affects the context is pending: it waits for its point, or walks (R294 to R296, Table CTX-2). -/
def State.swapAffects (s : State) (c : Nat) : Bool :=
  (match s.cfg.swap with | some w => bit w.affected.toNat c | none => false)
    || (match s.cfg.walking with | some w => bit w.affected.toNat c | none => false)

/-- STEP (R295, R329, R365): a pending swap defers it at once; it waits while another STEP of its context is in flight; then
its checks, the pool's areas among them, and the build. -/
def stepAct (s : State) (k : Nat) (p : Pkt) : DispOut :=
  let c := p.ctx
  if s.swapAffects c then .fail s stDeferSwap
  else if s.stepFlying k c || (s.stepJob c).isSome then .wait
  else
    let seq := s.srv.steps
    let s := { s with srv := { s.srv with steps := seq + 1 } }
    let rowCap := capOf (p.u16 10) (s.act.rowCap c)
    let tokCap := capOf (p.u16 12) (s.act.tokCap c)
    match s.poolFault c false with
    | some f => .failCheck s f
    | none =>
    if s.act.scriptUnits c = 0 then .fail s stBounds
    else
      match s.chk c (p.handle 8) .ww (p.u64 16) (64 + 128 * rowCap) with
      | some f => .failCheck s f
      | none =>
        let b := (s.buildOrder c).foldl (Build.row c rowCap tokCap (s.act.chunkMax c))
          { x := Io.of s, rows := [], toks := 0, top := 8, full := 0, budget := 0, pageWait := 0, prio := 0, exhausted := 0,
            slots := [] }
        let x := b.writeBatch c (p.handle 8) (p.u64 16) seq
        let j : StepJob :=
          { slot := k, phase := if b.rows.isEmpty then .sampled else .script, bhandle := BitVec.ofNat 6 (p.handle 8)
            boff := p.u64 16, rows := b.rows, tokens := b.toks, stepSeq := seq
            counts := [b.full, b.budget, b.pageWait, b.prio, b.exhausted], unit := 0, index := 0, row := 0, hold := none
            fail := none, slots := b.slots, samples := [], draws := [], data := x.st, flags := 0, late := false }
        .run (x.s.setStepJob c (some j)) .step

def stepCmd (q : Nat) (s : State) : State := s.dispatch q (fun p => decide (p.opcode = 0x32)) stepAct

/-- STEP (R365). -/
def execStep (q : Fin 512) (s : State) : Host.Outcome State Fault Refusal := .next (stepCmd q.val s)

/-! ## The script (R371 to R374) -/

/-- Opcodes that a script may hold. -/
def scriptOp (op : Nat) : Bool := [0x00, 0x01, 0x02, 0x03, 0x08, 0x09, 0x10, 0x20, 0x21, 0x28].contains op

/-- Table CMD-3 for a script packet; the context is that of the STEP (log 67). -/
def scriptFault (p : Pkt) : Option Half :=
  if !scriptOp p.opcode || p.condFlag then some stBadOpcode
  else if p.byte 4 % 16 ≠ p.ctx then some stPermission
  else if 8 ≤ p.byte 5 ∧ p.byte 5 ≠ 0xFF then some stBounds
  else
    match minUnits p.opcode with
    | none => some stBadOpcode
    | some n => if p.units < n then some stBounds else none

/-- What a script packet does. A NOP has no effect and ends at once, whatever its NOTIFY. -/
def scriptAct (s : State) (k : Nat) (p : Pkt) : DispOut :=
  let op := p.opcode
  if op = 0x00 then .ok s []
  else if op = 0x01 then fenceAct s k p
  else if op = 0x02 then semWaitAct s k p
  else if op = 0x03 then (if bit (p.byte 9) 0 then semSignalRemoteAct s k p else semSignalAct s k p)
  else if op = 0x08 then
    (if copyRow p then copyAct s k p else if bit (p.byte 12) 1 then copyDremoteAct s k p else copySremoteAct s k p)
  else if op = 0x09 then fillAct s k p
  else if op = 0x10 then runAct s k p
  else if op = 0x20 then fattnAct s k p
  else mergeLseAct s k p

/-- The script's KV_APPEND expanded for one row (R372). -/
def Pkt.expand (p : Pkt) (dim : Nat) (e : Entry) (r : StepRow) : Append :=
  let a := p.append
  let shift := r.tokBase * a.nhead * dim * a.elemSize
  { a with dh := e.dhandle.toNat, doff := e.diroff.toNat, pos := r.pos, npos := r.ntok
           koff := a.koff + shift, voff := a.voff + shift }

/-- The script fails at a packet, unless it has failed before (R374). -/
def StepJob.failAt (j : StepJob) (st : Half) (idx : Nat) : StepJob :=
  if j.fail.isSome then j else { j with fail := some (st, 1, idx) }

/-- The script moves past its packet of `n` units. -/
def StepJob.past (j : StepJob) (n : Nat) : StepJob := { j with unit := j.unit + n, index := j.index + 1, row := 0 }

/-- One expansion of the script's KV_APPEND, in in-flight slot `k`. -/
def State.scriptAppend (s : State) (k c : Nat) (j : StepJob) (p : Pkt) : State :=
  match j.rows[j.row]? with
  | none => s.setStepJob c (some (j.past p.units))
  | some r =>
    let j' := if j.row + 1 < j.rows.length then { j with row := j.row + 1 } else j.past p.units
    let s' := (s.setStepJob c (some j')).enter k (.script c) p
    let out := if 1 < p.byte 10 then DispOut.fail s' stBounds
      else appendAct s' c (p.expand (s.pool c).dim (s.entry r.req) r)
    out.apply s k

/-- Dispatch a script packet in slot `k`. -/
def State.scriptSend (s : State) (k c : Nat) (j : StepJob) (p : Pkt) : State :=
  if p.opcode = 0x28 then s.scriptAppend k c j p
  else
    let j' := { j.past p.units with hold := if holdsQueue p.opcode then some k else none }
    let s' := (s.setStepJob c (some j')).enter k (.script c) p
    (scriptAct s' k p).apply s k

/-- A command of the script is in flight. -/
def State.scriptBusy (s : State) (c : Nat) : Bool := s.flying.any (fun e => decide (e.2.origin = .script c))

/-- The script's next packet, read with WR, with its data status in the STEP (R371). -/
def State.readScript (s : State) (c : Nat) (j : StepJob) (cls : Nat) : Pkt × StepJob × State :=
  let h := s.act.scriptHandle c
  let off := s.act.scriptOff c + 64 * j.unit
  let units := s.readNat c h (off + 1) 1 % 16 + 1
  let n := min units (s.act.scriptUnits c - j.unit)
  let g := s.readBytes c h off (64 * n)
  ({ bytes := g.bytes, ctx := c, cls := cls, order := j.index }, { j with data := worstData j.data g.status }, g.state)

/-- The next packet of a context's step script dispatches, in order. -/
def scriptPacketDispatch (c : Nat) (s : State) : State :=
  match s.stepJob c with
  | none => s
  | some j =>
    let total := s.act.scriptUnits c
    if !s.dispatchOpen || decide (j.phase ≠ .script) || j.fail.isSome || j.hold.isSome || decide (total ≤ j.unit) then s
    else
      match s.chk c (s.act.scriptHandle c) .wr (s.act.scriptOff c) (64 * total) with
      | some f => s.setStepJob c (some (j.failAt f.status j.index))
      | none =>
        let cls := match s.cmd j.slot with | some x => x.cls | none => 0
        let r := s.readScript c j cls
        let p := r.1
        if p.fence && s.scriptBusy c then s
        else if total < j.unit + p.units then r.2.2.setStepJob c (some (r.2.1.failAt stBounds j.index))
        else
          match scriptFault p with
          | some st => r.2.2.setStepJob c (some (r.2.1.failAt st j.index))
          | none =>
            match s.freeSlot with
            | none => s
            | some k => r.2.2.scriptSend k c r.2.1 p

/-- SCRIPT_PACKET_DISPATCH (R371). -/
def execScriptPacketDispatch (c : Fin 16) (s : State) : Host.Outcome State Fault Refusal :=
  .next (scriptPacketDispatch c.val s)

/-! ## Sampling (R375, R388) -/

/-- Fed indices that the sampler reads of a row (R386). -/
def StepRow.fed (r : StepRow) : List Nat := if r.kind = 0 then List.range r.ntok else [r.ntok - 1]

/-- Drafts whose distributions the sampler reads (R387). -/
def StepRow.dists (r : StepRow) (p : SlotP) : List Nat :=
  if r.kind = 0 ∧ p.qmode = true ∧ p.greedy = false then List.range (r.ntok - 1) else []

def StepRow.logitOff (r : StepRow) (p : SlotP) (k : Nat) : Nat := p.loff + (r.tokBase + k) * p.lstride
def StepRow.distOff (r : StepRow) (p : SlotP) (k : Nat) : Nat := p.dqoff + (r.req * 8 + k) * p.lstride

/-- The sampler processes the row (R375). -/
def State.samples (s : State) (r : StepRow) : Bool := decide (r.kind ≠ 1) && !(s.entry r.req).cancel

/-- The ranges that a row's sampling reads: logits, draft distributions, penalty table (R388; log 60). -/
def State.sampleRanges (s : State) (c : Nat) (r : StepRow) (ws : List Word) : List (Option CheckFail) :=
  if ws.isEmpty || !s.samples r then []
  else
    let p := slotParams ws
    let e := s.entry r.req
    r.fed.map (fun k => s.chkLogits c p.lh (r.logitOff p k) p.vocab)
      ++ (r.dists p).map (fun k => s.chkLogits c p.dqh (r.distOff p k) p.vocab)
      ++ [s.chk c e.penhandle.toNat .wr e.penoff.toNat penBytes]

/-- Read a list of logit vectors. -/
def Io.logitList (x : Io) (c h vocab : Nat) (offs : List Nat) : List (List Word) × Io :=
  offs.foldl (fun a o => let r := a.2.logits c h o vocab; (a.1 ++ [r.1], r.2)) ([], x)

/-- Sample one row; a row whose slot was unusable at the build has no candidate. -/
def Io.stepRow (x : Io) (c : Nat) (r : StepRow) (ws : List Word) : (Sample × Nat) × Io :=
  if !x.s.samples r then ((.skipped, 0), x)
  else if ws.isEmpty then ((.noCandidate, 0), x.countSmp 0 0 0 1)
  else
    let p := slotParams ws
    let e := x.s.entry r.req
    let z := x.logitList c p.lh p.vocab (r.fed.map (r.logitOff p))
    let d := z.2.logitList c p.dqh p.vocab ((r.dists p).map (r.distOff p))
    let cnt := d.2.penalties c e.penhandle.toNat e.penoff.toNat
    let last := r.ntok - 1
    let input : RowIn :=
      { seed := e.seed, req := BitVec.ofNat 32 r.req, pos := r.pos + 1 + (if r.kind = 0 then 0 else last), logits := z.1
        dists := d.1 }
    let drafts := if r.kind = 0 then (List.range last).map (fun i => (e.draft.getD i 0).toNat) else []
    let v := p.examine input drafts 0 cnt.1 { sample := .skipped, draws := 0, accepted := 0, rejected := 0, fl := 0 }
    let x := cnt.2.countSmp v.draws v.accepted v.rejected (b2n (decide (v.sample = .noCandidate)))
    ((v.sample, v.draws), { x with fl := x.fl ||| v.fl })

/-- Sample every row in record order. -/
def State.sampleAll (s : State) (c : Nat) (j : StepJob) : StepJob × State :=
  let rows := j.rows.zip j.slots
  match firstFail (rows.flatMap (fun e => s.sampleRanges c e.1 e.2)) with
  | some f => ({ j with fail := some (f.status, 2, 0xFFFF) }, s)
  | none =>
    let r := rows.foldl (fun (a : List (Sample × Nat) × Io) e =>
      let t := a.2.stepRow c e.1 e.2
      (a.1 ++ [t.1], t.2)) ([], Io.of s)
    ({ j with samples := r.1.map (fun e => e.1), draws := r.1.map (fun e => e.2), data := worstData j.data r.2.st
              flags := j.flags ||| r.2.fl }, r.2.s)

/-- The script has ended and its commands too: the rows are sampled, unless it failed (R374, R375). -/
def stepScriptEnd (c : Nat) (s : State) : State :=
  match s.stepJob c with
  | none => s
  | some j =>
    if s.silent || decide (j.phase ≠ .script) || s.scriptBusy c
        || (j.fail.isNone && decide (j.unit < s.act.scriptUnits c)) then s
    else
      let j := { j with phase := .sampled }
      if j.fail.isSome then s.setStepJob c (some j)
      else
        let r := s.sampleAll c j
        r.2.setStepJob c (some r.1)

/-- STEP_SCRIPT_END (R374). -/
def execStepScriptEnd (c : Fin 16) (s : State) : Host.Outcome State Fault Refusal := .next (stepScriptEnd c.val s)

/-! ## Bookkeeping (R374, R376, R381, R396) -/

/-- Progress of a bookkeeping: its records, each with the request it retires, if it does. -/
structure Keep where
  x : Io
  recs : List (List Byte × Option Nat)

/-- Requests newly LATE (R381). -/
def State.newlyLate (s : State) (c : Nat) : List Nat :=
  if !s.time.valid then []
  else (s.entriesOf c).filter (fun r =>
    let e := s.entry r
    (e.state.live || decide (e.state = .draining)) && !e.late && decide (e.deadline.toNat < s.now.toNat))

def State.markLate (s : State) (rs : List Nat) : State :=
  let s := rs.foldl (fun s r => s.setEntry r { s.entry r with late := true }) s
  { s with srv := { s.srv with late := s.srv.late + BitVec.ofNat 32 rs.length } }

/-- Count one emitted token in the request's penalty table (R396). -/
def Io.countEmitted (x : Io) (c h off t : Nat) : Io :=
  let p := x.penalties c h off
  match p.1.findIdx? (fun e => decide (e.1 = t)) with
  | some i => p.2.write c h (off + 12 + 8 * i) (leBytes 2 (min 65535 ((p.1.getD i (0, 0)).2 + 1)))
  | none =>
    let n := p.1.length
    if n < 4096 then
      (p.2.write c h (off + 8 + 8 * n) (leBytes 4 t ++ leBytes 2 1)).write c h off (leBytes 4 (n + 1))
    else { p.2 with s := { p.2.s with smp := { p.2.s.smp with penOvf := p.2.s.smp.penOvf + 1 } } }

/-- Count the emitted tokens of a row; a table that fails its checks is left as it is (log 65). -/
def Io.countAll (x : Io) (c : Nat) (e : Entry) (ts : List Word) : Io :=
  let h := e.penhandle.toNat
  let off := e.penoff.toNat
  match firstFail [x.s.chk c h .wr off penBytes, x.s.chk c h .ww off penBytes] with
  | some _ => x
  | none => ts.foldl (fun x t => x.countEmitted c h off t.toNat) x

/-- The request retires with its final record (R377). -/
def Keep.retire (k : Keep) (r : Nat) (st step : Half) : Keep :=
  let x := k.x.retire r st
  { x := x, recs := k.recs ++ [(finalRecord r (x.s.entry r) st step, some r)] }

/-- The tokens that a row emits, with the flags of each, and whether the last of them ends the request: rules 4 and 5 of
Table SRV-6. -/
def emitTokens (e : Entry) (first : Bool) (accepted : Nat) : Nat → Nat → List Word → List (Word × Nat) × Bool
  | _, _, [] => ([], false)
  | i, left, t :: ts =>
    let stop := (e.stop.take e.nstop).contains t
    let limit := decide (left ≤ 1)
    let done := stop || limit
    let f := (if !first && decide (i < accepted) then recDraft else 0) + (if first then recFirst else 0)
      + (if e.late then recLate else 0) + (if stop then recStop else 0) + (if limit then recLimit else 0)
      + (if done then recDone else 0)
    if done then ([(t, f)], true)
    else
      let r := emitTokens e first accepted (i + 1) (left - 1) ts
      ((t, f) :: r.1, r.2)

/-- Rules 4 and 5: the row emits its accepted drafts and its new token. -/
def Keep.emit (k : Keep) (c : Nat) (r : StepRow) (accepted : Nat) (token : Word) (step : Half) : Keep :=
  let e := k.x.s.entry r.req
  let drafts := if r.kind = 0 then (List.range accepted).map (fun i => e.draft.getD i 0) else []
  let out := emitTokens e (decide (r.kind = 2)) accepted 0 e.newLeft (drafts ++ [token])
  let base := if r.kind = 0 then e.length + 1 else e.length + r.ntok
  let kept := if r.kind = 0 then out.1.length else r.ntok
  let recs := (List.range out.1.length).map (fun i =>
    let t := out.1.getD i (0, 0)
    (outRecord r.req t.2 (base + i) t.1 stOK step, if out.2 && decide (i + 1 = out.1.length) then some r.req else none))
  let s := k.x.s.charge e.customer r.ntok kept
  let s := s.setEntry r.req { e with
    length := e.length + kept, promptLeft := if r.kind = 2 then 0 else e.promptLeft, newLeft := e.newLeft - out.1.length
    lastTok := ((out.1.getLast?).map Prod.fst).getD e.lastTok, state := .decode }
  let x := ({ k.x with s := s }).countAll c e (out.1.map Prod.fst)
  let x := if out.2 then x.retire r.req stOK else x
  { x := x, recs := k.recs ++ recs }

/-- One row (Table SRV-6; R374 where the step was aborted). -/
def Keep.row (c : Nat) (aborted : Bool) (step : Half) (k : Keep) (r : StepRow) (sm : Sample) (draws : Nat) : Keep :=
  let e := k.x.s.entry r.req
  let put := fun (e : Entry) (kept : Nat) =>
    { k with x := { k.x with s := (k.x.s.charge e.customer r.ntok kept).setEntry r.req e } }
  let moved := { e with length := e.length + r.ntok
                        promptLeft := if r.kind = 0 then e.promptLeft else e.promptLeft - r.ntok
                        counter := e.counter + BitVec.ofNat 32 draws }
  let k :=
    if aborted then
      if e.cancel then (put e 0).retire r.req stCancelled step else put { e with state := e.before } 0
    else if e.cancel then
      (put { e with counter := e.counter + BitVec.ofNat 32 draws } r.ntok).retire r.req stCancelled step
    else if r.kind = 1 then put moved r.ntok
    else
      match sm with
      | .picked a t =>
        let s := k.x.s.setEntry r.req { e with counter := e.counter + BitVec.ofNat 32 draws }
        ({ k with x := { k.x with s := s } }).emit c r a t step
      | _ => (put moved r.ntok).retire r.req stNoCandidate step
  { k with x := { k.x with s := k.x.s.setEntry r.req { k.x.s.entry r.req with inStep := false, ndraft := 0 } } }

/-- Rollbacks of the context that waited for the step (R340). -/
def State.runRollbacks (s : State) (c : Nat) : State :=
  (s.slotsThat (fun x => decide (x.ctx = c))).foldl (fun s k =>
    match s.cmd k with
    | none => s
    | some x =>
      match x.job with
      | .rollback req n trim => if (s.entry req).inStep then s else (rollbackNow s c req n trim).apply s k
      | _ => s) s

/-- Slots whose REQ_CANCEL waits for the request. -/
def State.cancelSlots (s : State) (r : Nat) : List Nat := s.slotsThat (fun x => decide (x.job = .cancel r))

/-- The bookkeeping's part of the batch buffer (Table SRV-5). -/
def batchTail (fail : Option (Half × Byte × Nat)) (records late : Nat) : List Byte :=
  leBytes 2 (match fail with | some f => f.2.2 | none => 0xFFFF) ++ leBytes 2 records ++ leBytes 2 late ++ leBytes 50 0

/-- The bookkeeping, as one action; the STEP completes at once where it has no record to write. -/
def stepBookkeeping (c : Nat) (s : State) : State :=
  match s.stepJob c with
  | none => s
  | some j =>
    if s.silent || decide (j.phase ≠ .sampled) then s
    else
      let late := s.newlyLate c
      let s := s.markLate late
      let step : Half := j.stepSeq.setWidth 16
      let k := (List.range j.rows.length).foldl (fun k i =>
        match j.rows[i]? with
        | none => k
        | some r => Keep.row c j.fail.isSome step k r (j.samples.getD i .skipped) (j.draws.getD i 0))
        { x := Io.of s, recs := [] }
      let x := k.x.write c j.bhandle.toNat (j.boff + 8) (batchTail j.fail k.recs.length late.length)
      let s := x.s
      let j := { j with phase := .records, data := worstData j.data x.st
                        late := (s.entriesOf c).any (fun r => (s.entry r).late) }
      let s := s.setStepJob c (some j)
      let s := k.recs.foldl (fun s e => s.addRec c { bytes := e.1, slots :=
        j.slot :: (match e.2 with | some r => s.cancelSlots r | none => []) }) s
      let s := s.runRollbacks c
      if k.recs.isEmpty then s.finishStep j.slot c j else s

/-- STEP_BOOKKEEPING (R376). -/
def execStepBookkeeping (c : Fin 16) (s : State) : Host.Outcome State Fault Refusal := .next (stepBookkeeping c.val s)

end Sys2Proof.Machine
end

