-- ==== Sys2Proof/Machine/Dispatch.lean ====
section
/-! DEFINITION. One arm per command, each a direct call of its meaning. -/

namespace Sys2Proof.Machine

/-- What a command does to everything but the queue of waiting commands. -/
def exec (i : Instr) (s : State) : Host.Outcome State Fault Refusal :=
  match i with
  | .nop q => Sys2Proof.Machine.execNop q s
  | .fence q => Sys2Proof.Machine.execFence q s
  | .fenceComplete k => Sys2Proof.Machine.execFenceComplete k s
  | .semWait q => Sys2Proof.Machine.execSemWait q s
  | .semWaitTake q => Sys2Proof.Machine.execSemWaitTake q s
  | .semWaitSatisfied k => Sys2Proof.Machine.execSemWaitSatisfied k s
  | .semSignal q => Sys2Proof.Machine.execSemSignal q s
  | .semSignalRemote q => Sys2Proof.Machine.execSemSignalRemote q s
  | .cond q => Sys2Proof.Machine.execCond q s
  | .copy q => Sys2Proof.Machine.execCopy q s
  | .copyDremote q => Sys2Proof.Machine.execCopyDremote q s
  | .copySremote q => Sys2Proof.Machine.execCopySremote q s
  | .fill q => Sys2Proof.Machine.execFill q s
  | .run q => Sys2Proof.Machine.execRun q s
  | .fattn q => Sys2Proof.Machine.execFattn q s
  | .mergeLse q => Sys2Proof.Machine.execMergeLse q s
  | .kvAppend q => Sys2Proof.Machine.execKvAppend q s
  | .kvRollback q => Sys2Proof.Machine.execKvRollback q s
  | .kvTrimTail q => Sys2Proof.Machine.execKvTrimTail q s
  | .kvTrimFront q => Sys2Proof.Machine.execKvTrimFront q s
  | .pageAllocList q => Sys2Proof.Machine.execPageAllocList q s
  | .pageAllocDirectory q => Sys2Proof.Machine.execPageAllocDirectory q s
  | .pageFree q => Sys2Proof.Machine.execPageFree q s
  | .prefixLookup q => Sys2Proof.Machine.execPrefixLookup q s
  | .prefixInsert q => Sys2Proof.Machine.execPrefixInsert q s
  | .prefixRemove q => Sys2Proof.Machine.execPrefixRemove q s
  | .reqAdmit q => Sys2Proof.Machine.execReqAdmit q s
  | .reqCancel q => Sys2Proof.Machine.execReqCancel q s
  | .reqRelease q => Sys2Proof.Machine.execReqRelease q s
  | .step q => Sys2Proof.Machine.execStep q s
  | .scriptPacketDispatch c => Sys2Proof.Machine.execScriptPacketDispatch c s
  | .stepScriptEnd c => Sys2Proof.Machine.execStepScriptEnd c s
  | .stepBookkeeping c => Sys2Proof.Machine.execStepBookkeeping c s
  | .outputRecordWrite c => Sys2Proof.Machine.execOutputRecordWrite c s
  | .budgetAdd q => Sys2Proof.Machine.execBudgetAdd q s
  | .budgetSet q => Sys2Proof.Machine.execBudgetSet q s
  | .sample q => Sys2Proof.Machine.execSample q s
  | .cfgWrite q => Sys2Proof.Machine.execCfgWrite q s
  | .cfgSwap q => Sys2Proof.Machine.execCfgSwap q s
  | .swapPoint => Sys2Proof.Machine.execSwapPoint s
  | .swapTimeout => Sys2Proof.Machine.execSwapTimeout s
  | .ctxOpen q => Sys2Proof.Machine.execCtxOpen q s
  | .ctxClose q => Sys2Proof.Machine.execCtxClose q s
  | .tractPowerOn q => Sys2Proof.Machine.execTractPowerOn q s
  | .tractPowerOff q => Sys2Proof.Machine.execTractPowerOff q s
  | .tractWakeEnd tr => Sys2Proof.Machine.execTractWakeEnd tr s
  | .repairRowLive q => Sys2Proof.Machine.execRepairRowLive q s
  | .repairRowRestore q => Sys2Proof.Machine.execRepairRowRestore q s
  | .larkDecode q => Sys2Proof.Machine.execLarkDecode q s
  | .larkEncode q => Sys2Proof.Machine.execLarkEncode q s
  | .larkPreform q => Sys2Proof.Machine.execLarkPreform q s
  | .larkStreamOpen q => Sys2Proof.Machine.execLarkStreamOpen q s
  | .larkStreamMark q => Sys2Proof.Machine.execLarkStreamMark q s
  | .larkStreamClose q => Sys2Proof.Machine.execLarkStreamClose q s
  | .telemetry q => Sys2Proof.Machine.execTelemetry q s
  | .detachOrderly q => Sys2Proof.Machine.execDetachOrderly q s
  | .detachAbandon q => Sys2Proof.Machine.execDetachAbandon q s
  | .detachBoundExpire => Sys2Proof.Machine.execDetachBoundExpire s
  | .standbyEnter => Sys2Proof.Machine.execStandbyEnter s
  | .packetDecode => Sys2Proof.Machine.execPacketDecode s
  | .packetSkip q => Sys2Proof.Machine.execPacketSkip q s
  | .lookaheadPrestage q => Sys2Proof.Machine.execLookaheadPrestage q s
  | .completionWrite c => Sys2Proof.Machine.execCompletionWrite c s
  | .queueDoorbell q tail => Sys2Proof.Machine.execQueueDoorbell q tail s
  | .swapRequest => Sys2Proof.Machine.execSwapRequest s
  | .poolArm c => Sys2Proof.Machine.execPoolArm c s
  | .portConfirm mask => Sys2Proof.Machine.execPortConfirm mask s
  | .topMapWrite w => Sys2Proof.Machine.execTopMapWrite w s
  | .topExpectWrite p w => Sys2Proof.Machine.execTopExpectWrite p w s
  | .tileHold w => Sys2Proof.Machine.execTileHold w s
  | .draftWrite e word w => Sys2Proof.Machine.execDraftWrite e word w s
  | .shadowRegisterWrite off w => Sys2Proof.Machine.execShadowRegisterWrite off w s
  | .linkEnable p w => Sys2Proof.Machine.execLinkEnable p w s
  | .warmReset => Sys2Proof.Machine.execWarmReset s
  | .abandon => Sys2Proof.Machine.execAbandon s
  | .regRd h off count => Sys2Proof.Machine.execRegRd h off count s
  | .regWr h off words => Sys2Proof.Machine.execRegWr h off words s
  | .timeFlit h ns => Sys2Proof.Machine.execTimeFlit h ns s
  | .semSig h sem value => Sys2Proof.Machine.execSemSig h sem value s
  | .semAck h sem value status => Sys2Proof.Machine.execSemAck h sem value status s
  | .hello h m => Sys2Proof.Machine.execHello h m s
  | .helloAck h m => Sys2Proof.Machine.execHelloAck h m s
  | .helloResend p => Sys2Proof.Machine.execHelloResend p s
  | .leaving h => Sys2Proof.Machine.execLeaving h s
  | .wrSeg h handle last semen sem off len semval => Sys2Proof.Machine.execWrSeg h handle last semen sem off len semval s
  | .dataFlit h zrc payload marks => Sys2Proof.Machine.execDataFlit h zrc payload marks s
  | .rdSeg h handle off len => Sys2Proof.Machine.execRdSeg h handle off len s
  | .wrAck h status reason bytes => Sys2Proof.Machine.execWrAck h status reason bytes s
  | .rdEnd h status reason => Sys2Proof.Machine.execRdEnd h status reason s
  | .unreach h => Sys2Proof.Machine.execUnreach h s
  | .idleFlit h => Sys2Proof.Machine.execIdleFlit h s
  | .flitCrcFail p bytes => Sys2Proof.Machine.execFlitCrcFail p bytes s
  | .keepaliveIdleSend p => Sys2Proof.Machine.execKeepaliveIdleSend p s
  | .linkDown p => Sys2Proof.Machine.execLinkDown p s
  | .replayTimeout p => Sys2Proof.Machine.execReplayTimeout p s
  | .retrainEnter p partner => Sys2Proof.Machine.execRetrainEnter p partner s
  | .retrainDone p rate half repaired => Sys2Proof.Machine.execRetrainDone p rate half repaired s
  | .retrainTimeout p => Sys2Proof.Machine.execRetrainTimeout p s
  | .trainingRetry p => Sys2Proof.Machine.execTrainingRetry p s
  | .linkTrained p rate half repaired => Sys2Proof.Machine.execLinkTrained p rate half repaired s
  | .e2eTimeout k => Sys2Proof.Machine.execE2eTimeout k s
  | .thermalSidebandSend => Sys2Proof.Machine.execThermalSidebandSend s
  | .thermalSidebandWord w => Sys2Proof.Machine.execThermalSidebandWord w s
  | .stackCapTick => Sys2Proof.Machine.execStackCapTick s
  | .stackReportTimeout => Sys2Proof.Machine.execStackReportTimeout s
  | .sensorSample temps => Sys2Proof.Machine.execSensorSample temps s
  | .thermalCapTick => Sys2Proof.Machine.execThermalCapTick s
  | .supplyWarningAssert vcis mv => Sys2Proof.Machine.execSupplyWarningAssert vcis mv s
  | .supplyWarningDeassert vcis mv => Sys2Proof.Machine.execSupplyWarningDeassert vcis mv s
  | .vlinkWarning mv => Sys2Proof.Machine.execVlinkWarning mv s
  | .brownoutReset vcis => Sys2Proof.Machine.execBrownoutReset vcis s
  | .coldReset => Sys2Proof.Machine.execColdReset s
  | .pinReset aux core rstN => Sys2Proof.Machine.execPinReset aux core rstN s
  | .leaveReset orient tier site => Sys2Proof.Machine.execLeaveReset orient tier site s
  | .fuseLoadDone => Sys2Proof.Machine.execFuseLoadDone s
  | .selfTestDone fails => Sys2Proof.Machine.execSelfTestDone fails s
  | .discoveryWindowEnd => Sys2Proof.Machine.execDiscoveryWindowEnd s
  | .ready us => Sys2Proof.Machine.execReady us s
  | .tapReset trst => Sys2Proof.Machine.execTapReset trst s
  | .extest din => Sys2Proof.Machine.execExtest din s
  | .idcode => Sys2Proof.Machine.execIdcode s
  | .samplePreload din => Sys2Proof.Machine.execSamplePreload din s
  | .clamp din => Sys2Proof.Machine.execClamp din s
  | .highz din => Sys2Proof.Machine.execHighz din s
  | .wrapsel din => Sys2Proof.Machine.execWrapsel din s
  | .march pass => Sys2Proof.Machine.execMarch pass s
  | .fuseread => Sys2Proof.Machine.execFuseread s
  | .wrapdr din => Sys2Proof.Machine.execWrapdr din s
  | .wrapir din => Sys2Proof.Machine.execWrapir din s
  | .wsBypass p => Sys2Proof.Machine.execWsBypass p s
  | .wsExtest p => Sys2Proof.Machine.execWsExtest p s
  | .wsIntest p => Sys2Proof.Machine.execWsIntest p s
  | .wsBist p => Sys2Proof.Machine.execWsBist p s
  | .scrsel din => Sys2Proof.Machine.execScrsel din s
  | .dwrext din => Sys2Proof.Machine.execDwrext din s
  | .bypass code din => Sys2Proof.Machine.execBypass code din s
  | .bankSlot tr b => Sys2Proof.Machine.execBankSlot tr b s
  | .reservedSlot tr b => Sys2Proof.Machine.execReservedSlot tr b s
  | .scrubPassStart => Sys2Proof.Machine.execScrubPassStart s
  | .zeroWalkEnd tr => Sys2Proof.Machine.execZeroWalkEnd tr s
  | .cisternReadReturn id => Sys2Proof.Machine.execCisternReadReturn id s
  | .cisternWriteAck id => Sys2Proof.Machine.execCisternWriteAck id s
  | .heldLoadIssue t => Sys2Proof.Machine.execHeldLoadIssue t s
  | .tileProgramLaunch k => Sys2Proof.Machine.execTileProgramLaunch k s
  | .loadFillEnd k => Sys2Proof.Machine.execLoadFillEnd k s
  | .tileProgramEnd t => Sys2Proof.Machine.execTileProgramEnd t s
  | .arrayInstrStart t wave => Sys2Proof.Machine.execArrayInstrStart t wave s
  | .arrayInstrEnd t empty => Sys2Proof.Machine.execArrayInstrEnd t empty s
  | .drainEnd t => Sys2Proof.Machine.execDrainEnd t s
  | .arrayGoesCold t => Sys2Proof.Machine.execArrayGoesCold t s
  | .governorFrame t empty => Sys2Proof.Machine.execGovernorFrame t empty s
  | .signalLeave t => Sys2Proof.Machine.execSignalLeave t s
  | .tileSemArrive id => Sys2Proof.Machine.execTileSemArrive id s
  | .dieSemArrive id => Sys2Proof.Machine.execDieSemArrive id s
  | .tileWaitSatisfied t => Sys2Proof.Machine.execTileWaitSatisfied t s
  | .ifillLineLand t => Sys2Proof.Machine.execIfillLineLand t s
  | .scalarNop t => Sys2Proof.Machine.execScalarNop t s
  | .add t => Sys2Proof.Machine.execAdd t s
  | .sub t => Sys2Proof.Machine.execSub t s
  | .mul t => Sys2Proof.Machine.execMul t s
  | .opAnd t => Sys2Proof.Machine.execOpAnd t s
  | .opOr t => Sys2Proof.Machine.execOpOr t s
  | .opXor t => Sys2Proof.Machine.execOpXor t s
  | .shl t => Sys2Proof.Machine.execShl t s
  | .shr t => Sys2Proof.Machine.execShr t s
  | .sra t => Sys2Proof.Machine.execSra t s
  | .addi t => Sys2Proof.Machine.execAddi t s
  | .limm t => Sys2Proof.Machine.execLimm t s
  | .cmpeq t => Sys2Proof.Machine.execCmpeq t s
  | .cmplt t => Sys2Proof.Machine.execCmplt t s
  | .cmpltu t => Sys2Proof.Machine.execCmpltu t s
  | .pand t => Sys2Proof.Machine.execPand t s
  | .por t => Sys2Proof.Machine.execPor t s
  | .pnot t => Sys2Proof.Machine.execPnot t s
  | .br t => Sys2Proof.Machine.execBr t s
  | .opEnd t => Sys2Proof.Machine.execOpEnd t s
  | .mnop t => Sys2Proof.Machine.execMnop t s
  | .nld t => Sys2Proof.Machine.execNld t s
  | .nst t => Sys2Proof.Machine.execNst t s
  | .tsig t => Sys2Proof.Machine.execTsig t s
  | .twait t => Sys2Proof.Machine.execTwait t s
  | .ttake t => Sys2Proof.Machine.execTtake t s
  | .dsig t => Sys2Proof.Machine.execDsig t s
  | .ifill t => Sys2Proof.Machine.execIfill t s
  | .tnop t => Sys2Proof.Machine.execTnop t s
  | .mtile t => Sys2Proof.Machine.execMtile t s
  | .mtileS2 t => Sys2Proof.Machine.execMtileS2 t s
  | .mtileS3 t => Sys2Proof.Machine.execMtileS3 t s
  | .dtile t => Sys2Proof.Machine.execDtile t s
  | .vnop t => Sys2Proof.Machine.execVnop t s
  | .vadd t => Sys2Proof.Machine.execVadd t s
  | .vsub t => Sys2Proof.Machine.execVsub t s
  | .vmul t => Sys2Proof.Machine.execVmul t s
  | .vfma t => Sys2Proof.Machine.execVfma t s
  | .vmin t => Sys2Proof.Machine.execVmin t s
  | .vmax t => Sys2Proof.Machine.execVmax t s
  | .vabs t => Sys2Proof.Machine.execVabs t s
  | .vneg t => Sys2Proof.Machine.execVneg t s
  | .vcmp t => Sys2Proof.Machine.execVcmp t s
  | .vsel t => Sys2Proof.Machine.execVsel t s
  | .vand t => Sys2Proof.Machine.execVand t s
  | .vor t => Sys2Proof.Machine.execVor t s
  | .vxor t => Sys2Proof.Machine.execVxor t s
  | .vnot t => Sys2Proof.Machine.execVnot t s
  | .vshl t => Sys2Proof.Machine.execVshl t s
  | .vshr t => Sys2Proof.Machine.execVshr t s
  | .vsra t => Sys2Proof.Machine.execVsra t s
  | .viadd t => Sys2Proof.Machine.execViadd t s
  | .visub t => Sys2Proof.Machine.execVisub t s
  | .vimul t => Sys2Proof.Machine.execVimul t s
  | .vcvt t => Sys2Proof.Machine.execVcvt t s
  | .vbcast t => Sys2Proof.Machine.execVbcast t s
  | .vsplat t => Sys2Proof.Machine.execVsplat t s
  | .mand t => Sys2Proof.Machine.execMand t s
  | .mor t => Sys2Proof.Machine.execMor t s
  | .mxor t => Sys2Proof.Machine.execMxor t s
  | .mnot t => Sys2Proof.Machine.execMnot t s
  | .vlut t => Sys2Proof.Machine.execVlut t s
  | .vexp2 t => Sys2Proof.Machine.execVexp2 t s
  | .vrcp t => Sys2Proof.Machine.execVrcp t s
  | .vrsq t => Sys2Proof.Machine.execVrsq t s
  | .vrsum t => Sys2Proof.Machine.execVrsum t s
  | .vrmax t => Sys2Proof.Machine.execVrmax t s
  | .vrmin t => Sys2Proof.Machine.execVrmin t s
  | .vrargmax t => Sys2Proof.Machine.execVrargmax t s
  | .vcsum t => Sys2Proof.Machine.execVcsum t s
  | .vcmax t => Sys2Proof.Machine.execVcmax t s
  | .vcmin t => Sys2Proof.Machine.execVcmin t s
  | .vcargmax t => Sys2Proof.Machine.execVcargmax t s
  | .vcomp t => Sys2Proof.Machine.execVcomp t s
  | .vexpd t => Sys2Proof.Machine.execVexpd t s
  | .vld t => Sys2Proof.Machine.execVld t s
  | .vst t => Sys2Proof.Machine.execVst t s
  | .vtld t => Sys2Proof.Machine.execVtld t s
  | .mld t => Sys2Proof.Machine.execMld t s
  | .mst t => Sys2Proof.Machine.execMst t s
  | .larkFrameStart pl => Sys2Proof.Machine.execLarkFrameStart pl s
  | .larkFrameSuspend e => Sys2Proof.Machine.execLarkFrameSuspend e s
  | .larkFrameResume e => Sys2Proof.Machine.execLarkFrameResume e s
  | .larkFrameEnd e => Sys2Proof.Machine.execLarkFrameEnd e s
  | .larkEngineStop e => Sys2Proof.Machine.execLarkEngineStop e s
  | .budgetRefill => Sys2Proof.Machine.execBudgetRefill s
  | .powerWindowEnd mv => Sys2Proof.Machine.execPowerWindowEnd mv s
  | .telemetryPeriod pace => Sys2Proof.Machine.execTelemetryPeriod pace s
  | .timeLost => Sys2Proof.Machine.execTimeLost s
  | .vlinkWarningDeassert mv => Sys2Proof.Machine.execVlinkWarningDeassert mv s
  | .trainingTimeout p => Sys2Proof.Machine.execTrainingTimeout p s
  | .vectorRowsIssued t => Sys2Proof.Machine.execVectorRowsIssued t s

end Sys2Proof.Machine
end

