-- ==== Sys2Proof/Safety.lean ====
section
/-!
DEFINITION. The terms the statements use: safe runs, when a command of each shape acts, and what a command leaves alone.
-/

namespace Sys2Proof

open Machine

/-! ## Runs -/

/-- `s'` follows from `s` by one step. -/
def Steps (s s' : State) : Prop := step s = .next s'

/-- `s'` is reached from `s` by steps that each answer a next state. -/
inductive Reaches (s : State) : State → Prop where
  | here : Reaches s s
  | more {t u : State} : Reaches s t → Steps t u → Reaches s u

/-! ## Slots of a bundle -/

/-- The Wren of tile `t`. -/
def wrenOf (s : State) (t : Fin 16) : Wren := (s.tile t.val).wren

/-- Register `r` as the bundle of tile `t` reads it: as it stood before the bundle's first slot issued (R225). -/
def bundleX (s : State) (t : Fin 16) (r : Nat) : DWord :=
  readX (if (wrenOf s t).issued = 0 then (wrenOf s t).x else (wrenOf s t).snapX) r

/-- Its poison mark, as the bundle reads it (R229). -/
def bundleMark (s : State) (t : Fin 16) (r : Nat) : Bool :=
  decide (r ≠ 0) && spGet false (if (wrenOf s t).issued = 0 then (wrenOf s t).xMark else (wrenOf s t).snapMark) r

/-- The predicates as the bundle reads them. -/
def bundleP (s : State) (t : Fin 16) : BitVec 8 :=
  if (wrenOf s t).issued = 0 then (wrenOf s t).p else (wrenOf s t).snapP

/-- Slot `k` (0 scalar, 1 move, 2 tensor, 3 vector) of the bundle of tile `t` issues now: the die is out of reset, a
program runs, the slot has not issued, and where it is the first of its bundle the bundle neither waits nor halts
(R54, R225, R230, R231, R237, R239, R248, R562). -/
def SlotReady (s : State) (t : Fin 16) (k : Nat) (p : Prog) : Prop :=
  s.silent = false ∧ bit (wrenOf s t).issued.toNat k = false ∧ (wrenOf s t).prog = some p ∧
    ((wrenOf s t).issued = 0 → s.mayIssue t.val = true ∧ (wrenOf s t).held = none ∧ s.fate t.val = .issues)

/-- What the issue of slot `k` does to the bundle (R225): the registers stand as its first slot read them, and after the
fourth slot the Wren goes on to `target`, or to the next bundle. -/
def SlotBook (w w' : Wren) (k : Nat) (target : Option Nat) : Prop :=
  (w'.snapX, w'.snapMark, w'.snapP) = (if w.issued = 0 then (w.x, w.xMark, w.p) else (w.snapX, w.snapMark, w.snapP)) ∧
    (w'.issued, w'.pc, w'.target, w'.bundles) =
      (if setBit w.issued k true = 0xF then (0, target.getD (w.pc + 1), none, w.bundles + 1)
       else (setBit w.issued k true, w.pc, target, w.bundles))

/-- A Wren without what `SlotBook` tells of and without its registers. -/
def Machine.Wren.rest (w : Wren) : Wren :=
  { w with
    x := [], xMark := [], p := 0, snapX := [], snapMark := [], snapP := 0, issued := 0, pc := 0, target := none,
    bundles := 0 }

/-- Nothing but tile `t` differs. -/
def OnlyTile (t : Nat) (s s' : State) : Prop :=
  { s' with tiles := s.tiles } = s ∧ ∀ u, u ≠ t → s'.tile u = s.tile u

/-- Nothing but the Wren of tile `t` differs. -/
def OnlyWren (t : Nat) (s s' : State) : Prop :=
  OnlyTile t s s' ∧ (s'.tile t).arr = (s.tile t).arr ∧ (s'.tile t).vec = (s.tile t).vec

/-- The x registers and their marks are as before. -/
def SameX (w w' : Wren) : Prop := w'.x = w.x ∧ w'.xMark = w.xMark

/-! ## The Cistern -/

/-- The stored byte at a physical address. -/
def memByte (s : State) (a : Nat) : Byte := spGet Memory.default s.cis.mem a

/-- The 32-byte word `w` is stored with its right check bits (Table INT-1, Clean). -/
def Clean (s : State) (w : Nat) : Prop := s.syndrome w = 0

/-- The Cistern's contents and its check bits are in canonical form. -/
def CanonicalMemory (s : State) : Prop := Memory.wf s.cis.mem = true ∧ spWf 0 s.cis.synd = true

/-- The banks are as before but for the port each granted last (R85). -/
def SameBanks (s s' : State) : Prop := ∀ tr b, { s'.bank tr b with last := (s.bank tr b).last } = s.bank tr b

/-- Nothing but the stored words, the grants of the banks, the error log, its counters and the notices that tell of them
differs. -/
def OnlyAccesses (s s' : State) : Prop :=
  SameBanks s s' ∧ { s' with
    ports := s.ports
    top := { s'.top with unroutable := s.top.unroutable }
    rst := { s'.rst with
      noticeBuf := s.rst.noticeBuf
      noticeLost := s.rst.noticeLost }
    cis := { s'.cis with
      mem := s.cis.mem
      synd := s.cis.synd
      banks := s.cis.banks
      slots := s.cis.slots
      elog := s.cis.elog
      elogHead := s.cis.elogHead
      elogLost := s.cis.elogLost
      ce := s.cis.ce
      ue := s.cis.ue
      poisonReads := s.cis.poisonReads } } = s

/-- Memory and its check bits are as before. -/
def SameMemory (s s' : State) : Prop := s'.cis.mem = s.cis.mem ∧ s'.cis.synd = s.cis.synd

/-- Bank `b` of tract `tr` takes an unreserved slot in which its ports may be granted: the banks run, the tract is ON, no
zero walk runs there and the slot is not the reserved one (R82, R85, R98). -/
def SlotOpen (s : State) (tr b : Nat) : Prop :=
  s.banksRun = true ∧ s.tractOn tr = true ∧ s.walkOf tr = none ∧ (s.bank tr b).atReserved b = false

/-! ## Commands -/

/-- The packet `p` at the head of queue `q`, with `rest` behind it, dispatches now, into in-flight slot `k`: no command of a higher
class waits for its unit, and its context is not closing (R260, R268, R272, R273, R287, Table CTX-3). -/
structure DispatchReady (s : State) (q k : Nat) (p : Pkt) (rest : List Pkt) : Prop where
  head : (s.queue q).decoded = p :: rest
  may : s.mayDispatch q p = true
  cond : p.condFlag = true → (s.queue q).cond = true
  slot : s.freeSlot = some k
  allowed : privileged p.opcode = true → p.ctx = 0
  first : s.outranked q p = false
  live : (s.ctxOf p.ctx).state ≠ .closing

/-- The state as a packet dispatches: it has left its queue and holds its slot. -/
def atDispatch (s : State) (q k : Nat) (p : Pkt) : State := (s.takeHead q k p).enter k (.queue q) p

/-- A queue after its head packet has dispatched: FENCE, SEM_WAIT and COND hold it until they complete (R272). -/
def dispatched (x : Queue) (k : Nat) (p : Pkt) (rest : List Pkt) : Queue :=
  { x with
    decoded := rest
    looked := x.looked - 1
    hold := if p.opcode = 0x01 ∨ p.opcode = 0x02 ∨ p.opcode = 0x04 then some k else x.hold }

/-- The books of a dispatch: queue `q` becomes `x`, slot `k` holds `c`, the completions `done` wait behind those that
waited, and no other queue or slot differs. -/
structure Booked (s s' : State) (q k : Nat) (x : Queue) (c : Option Cmd) (done : List Compl) : Prop where
  queue : s'.queue q = x
  queues : ∀ r, r ≠ q → s'.queue r = s.queue r
  cmd : s'.cmd k = c
  cmds : ∀ j, j ≠ k → s'.cmd j = s.cmd j
  compl : s'.pmh.compl = s.pmh.compl ++ done
  serial : s'.pmh.serial = s.pmh.serial + 1

/-- The in-flight entry of a packet dispatched from queue `q` now. -/
def entryOf (s : State) (q : Nat) (p : Pkt) (j : Job) : Cmd :=
  { mkCmd (.queue q) p s.pmh.serial s.time.wave with job := j }

/-- The completion of a packet that ends in the wave of its dispatch (Table CMD-6). -/
def complOf (s : State) (q k : Nat) (p : Pkt) (st : Half) (reason : Byte) (data : List Byte) : Compl :=
  { slot := some k, ctx := p.ctx, queue := q, tag := p.tag, notify := p.notify, status := st, reason := reason, flags := 0,
    late := false, wave := s.time.wave, data := data }

/-- The head packet has dispatched and ended with this status, REASON and completion data. -/
def Ended (s s' : State) (q k : Nat) (p : Pkt) (rest : List Pkt) (st : Half) (reason : Byte) (data : List Byte) : Prop :=
  Booked s s' q k (dispatched (s.queue q) k p rest) (some (entryOf s q p .ended)) [complOf s q k p st reason data]

/-- The head packet has dispatched and is in flight with job `j`. -/
def InFlight (s s' : State) (q k : Nat) (p : Pkt) (rest : List Pkt) (j : Job) : Prop :=
  Booked s s' q k (dispatched (s.queue q) k p rest) (some (entryOf s q p j)) []

/-- The command `c` in slot `k`, which queue `q` sent, has ended with this REASON, these data and this status, or with that of
the data its dispatch read where that comes first (R123); no other command, no queue and no completion differs. -/
def Finished (s s' : State) (q k : Nat) (c : Cmd) (st : Half) (reason : Byte) (flags : BitVec 4) (data : List Byte) : Prop :=
  s'.cmd k = some { c with job := .ended, flags := c.flags ||| flags } ∧ (∀ j, j ≠ k → s'.cmd j = s.cmd j) ∧
    s'.queues = s.queues ∧
    s'.pmh.compl = s.pmh.compl ++ [
      { slot := some k, ctx := c.ctx, queue := q, tag := c.tag, notify := c.notify, status := withData c.data st,
        reason := reason, flags := c.flags ||| flags, late := false, wave := c.wave, data := data }]

/-- The Pumphouse keeps all but its commands and completions. -/
def SamePumphouse (s s' : State) : Prop :=
  { s'.pmh with
    cmds := s.pmh.cmds
    compl := s.pmh.compl
    serial := s.pmh.serial } = s.pmh

/-- Nothing outside the Pumphouse and the queues differs. -/
def OnlyPumphouse (s s' : State) : Prop :=
  { s' with
    queues := s.queues
    pmh := s.pmh } = s

/-- Nothing outside the Pumphouse, the queues and the ports differs. -/
def OnlyPorts (s s' : State) : Prop :=
  { s' with
    queues := s.queues
    pmh := s.pmh
    ports := s.ports } = s

/-- Nothing outside the Pumphouse, the queues, the stored bytes and their check bits, and the grants of the banks differs. -/
def OnlyMemory (s s' : State) : Prop :=
  SameBanks s s' ∧ { s' with
      queues := s.queues
      pmh := s.pmh
      cis := { s'.cis with
        mem := s.cis.mem
        synd := s.cis.synd
        banks := s.cis.banks
        slots := s.cis.slots } } = s

/-- Nothing but the grants of the banks differs. -/
def OnlyGrants (s s' : State) : Prop :=
  SameBanks s s' ∧ { s' with
    cis := { s'.cis with
      banks := s.cis.banks
      slots := s.cis.slots } } = s

/-- The flits of a channel that a port has sent or will send, oldest first. -/
def onChannel (x : Port) (vc : BitVec 2) : List Flit :=
  ((x.wire.map (fun w => w.flit)).filter (fun f => decide (f.vc = vc))) ++ x.egress.filter (fun f => decide (f.vc = vc))

/-- Port `p` takes the flits `fs`, in order within each channel; no other port differs. -/
def Offered (s s' : State) (p : Nat) (fs : List Flit) : Prop :=
  (∀ vc, onChannel (s'.port p) vc = onChannel (s.port p) vc ++ fs.filter (fun f => decide (f.vc = vc))) ∧
    ∀ r, r ≠ p → s'.port r = s.port r

/-- Every word of the lines is clean. -/
def CleanLines (s : State) (lines : List Nat) : Prop := ∀ a ∈ lines, ∀ k, k < 8 → Clean s (a / 32 + k)

/-- The bytes of `len` bytes of a handle from offset `off` on. -/
def handleBytes (s : State) (c h off len : Nat) : List Byte :=
  (List.range len).map (fun i => memByte s (s.phys c h (off + i)))

/-! ## Flits -/

/-- Physical port `p` takes the flits `fs` to send, in order within each channel; no other port takes any. -/
def Sent (s s' : State) (p : Nat) (fs : List Flit) : Prop :=
  ∀ r vc, onChannel (s'.port r) vc =
    onChannel (s.port r) vc ++ (if r = p then fs.filter (fun f => decide (f.vc = vc)) else [])

/-- The flit is the next in order at a port that trained, is for this die, and carries no NAK; the port is not leaving
(R434, R449, R475). -/
def FlitFor (s : State) (h : FlitHdr) : Prop :=
  s.receives h.port.val = true ∧ h.seq = (s.port h.port.val).rxSeq ∧ h.dst = s.dieId ∧ h.nak = false ∧
    (s.port h.port.val).leaving = false

/-- Nothing but the ports differs. -/
def OnlyWires (s s' : State) : Prop := { s' with ports := s.ports } = s

/-- The commands that bring a sequenced flit, with its header. -/
inductive Sequenced : Instr → FlitHdr → Prop where
  | regRd {h off count} : Sequenced (.regRd h off count) h
  | regWr {h off words} : Sequenced (.regWr h off words) h
  | timeFlit {h ns} : Sequenced (.timeFlit h ns) h
  | semSig {h sem v} : Sequenced (.semSig h sem v) h
  | semAck {h sem v st} : Sequenced (.semAck h sem v st) h
  | hello {h m} : Sequenced (.hello h m) h
  | helloAck {h m} : Sequenced (.helloAck h m) h
  | leaving {h} : Sequenced (.leaving h) h
  | wrSeg {h a l e n o k v} : Sequenced (.wrSeg h a l e n o k v) h
  | dataFlit {h z bs ms} : Sequenced (.dataFlit h z bs ms) h
  | rdSeg {h a o n} : Sequenced (.rdSeg h a o n) h
  | wrAck {h st r n} : Sequenced (.wrAck h st r n) h
  | rdEnd {h st r} : Sequenced (.rdEnd h st r) h
  | unreach {h} : Sequenced (.unreach h) h

end Sys2Proof
end

