-- ==== Sys2Proof/Certificates/Slice0/Obligations.lean ====
section
/-! DEFINITION. The statements about this model. -/

open Sys2Proof Sys2Proof.Machine

/-- A step with a command at the front of the queue is that command on the state with the queue's rest. -/
def Obligations.StepRunsTheFrontCommand : Prop :=
  ∀ (c : Instr) (rest : List Instr) (s : State),
    s.pending = c :: rest → step s = exec c { s with pending := rest }


/-! ## Bundles: scalar slot -/

/-- A scalar row that writes an x register (Table WRN-2): its opcode, its result from the registers it reads and its word,
and the registers whose marks its result takes (R229). -/
structure Sys2Proof.ScalarRow where
  row : Instr
  op : Nat
  value : (Nat → DWord) → Nat → DWord
  sources : Nat → List Nat

/-- x[RD] = x[RA] op x[RB]. -/
def Sys2Proof.aluRow (row : Instr) (op : Nat) (f : DWord → DWord → DWord) : ScalarRow :=
  ⟨row, op, fun x w => f (x (slRa w)) (x (slRb w)), fun w => [slRa w, slRb w]⟩

/-- The scalar rows that write an x register, with the arithmetic of R224 and Table WRN-2. -/
def Sys2Proof.scalarRows (t : Fin 16) : List ScalarRow := [
  aluRow (.add t) 0x01 (fun a b => BitVec.ofNat 64 (a.toNat + b.toNat)),
  aluRow (.sub t) 0x02 (fun a b => BitVec.ofInt 64 ((a.toNat : Int) - b.toNat)),
  aluRow (.mul t) 0x03 (fun a b => BitVec.ofNat 64 (a.toNat * b.toNat)),
  aluRow (.opAnd t) 0x04 (fun a b => BitVec.ofNat 64 (a.toNat &&& b.toNat)),
  aluRow (.opOr t) 0x05 (fun a b => BitVec.ofNat 64 (a.toNat ||| b.toNat)),
  aluRow (.opXor t) 0x06 (fun a b => BitVec.ofNat 64 (a.toNat ^^^ b.toNat)),
  aluRow (.shl t) 0x07 (fun a b => BitVec.ofNat 64 (a.toNat * 2 ^ (b.toNat % 64))),
  aluRow (.shr t) 0x08 (fun a b => BitVec.ofNat 64 (a.toNat / 2 ^ (b.toNat % 64))),
  aluRow (.sra t) 0x09 (fun a b => BitVec.ofInt 64 (a.toInt / 2 ^ (b.toNat % 64))),
  ⟨.addi t, 0x0A, fun x w => BitVec.ofInt 64 ((x (slRa w)).toInt + signed (bits w 20 12) 12), fun w => [slRa w]⟩,
  ⟨.limm t, 0x0B, fun x w => BitVec.ofNat 64 ((x (slRd w)).toNat * 2 ^ 12 + bits w 20 12), fun w => [slRd w]⟩]

/-- Every scalar row of Table WRN-2 that writes an x register issues where its slot is ready and its guard holds: it
writes its result and the mark of it to x[RD], where RD is not 0, and nothing else but the bundle's progress. -/
def Sys2Proof.ScalarArithmeticRule : Prop :=
  ∀ (t : Fin 16) (s : State) (p : Prog) (r : ScalarRow), r ∈ scalarRows t →
    SlotReady s t 0 p → slOp (wrenOf s t).scalar = r.op → guardOf (bundleP s t) (wrenOf s t).scalar = true →
    ∃ s', exec r.row s = .next s' ∧
      (∀ n, readX (wrenOf s' t).x n =
        if n = slRd (wrenOf s t).scalar ∧ n ≠ 0 then r.value (bundleX s t) (wrenOf s t).scalar
        else readX (wrenOf s t).x n) ∧
      (∀ n, (wrenOf s' t).marked n =
        if n = slRd (wrenOf s t).scalar ∧ n ≠ 0 then (r.sources (wrenOf s t).scalar).any (bundleMark s t)
        else (wrenOf s t).marked n) ∧
      (wrenOf s' t).p = (wrenOf s t).p ∧ (wrenOf s' t).rest = (wrenOf s t).rest ∧
      SlotBook (wrenOf s t) (wrenOf s' t) 0 (wrenOf s t).target ∧ OnlyWren t s s'

/-- The scalar rows that write a predicate (Table WRN-2): opcode and result from the x registers, the predicates and the
word. -/
def Sys2Proof.predicateRows (t : Fin 16) : List (Instr × Nat × ((Nat → DWord) → (Nat → Bool) → Nat → Bool)) := [
  (.cmpeq t, 0x10, fun x _ w => decide (x (slRa w) = x (slRb w))),
  (.cmplt t, 0x11, fun x _ w => decide ((x (slRa w)).toInt < (x (slRb w)).toInt)),
  (.cmpltu t, 0x12, fun x _ w => decide ((x (slRa w)).toNat < (x (slRb w)).toNat)),
  (.pand t, 0x13, fun _ q w => q (slPa w) && q (slPb w)),
  (.por t, 0x14, fun _ q w => q (slPa w) || q (slPb w)),
  (.pnot t, 0x15, fun _ q w => !q (slPa w))]

/-- Every compare and predicate row issues where its slot is ready and its guard holds: it writes p[PD], where PD is not
0, and nothing else but the bundle's progress. -/
def Sys2Proof.ScalarPredicatesRule : Prop :=
  ∀ (t : Fin 16) (s : State) (p : Prog) (r : Instr × Nat × ((Nat → DWord) → (Nat → Bool) → Nat → Bool)),
    r ∈ predicateRows t → SlotReady s t 0 p → slOp (wrenOf s t).scalar = r.2.1 →
    guardOf (bundleP s t) (wrenOf s t).scalar = true →
    ∃ s', exec r.1 s = .next s' ∧
      (∀ n, n < 8 → readP (wrenOf s' t).p n =
        if n = slPd (wrenOf s t).scalar ∧ n ≠ 0 then r.2.2 (bundleX s t) (readP (bundleP s t)) (wrenOf s t).scalar
        else readP (wrenOf s t).p n) ∧
      SameX (wrenOf s t) (wrenOf s' t) ∧ (wrenOf s' t).rest = (wrenOf s t).rest ∧
      SlotBook (wrenOf s t) (wrenOf s' t) 0 (wrenOf s t).target ∧ OnlyWren t s s'

/-- The scalar slot's arithmetic and its compares. -/
def Obligations.ScalarComputes : Prop := Sys2Proof.ScalarArithmeticRule ∧ Sys2Proof.ScalarPredicatesRule


/-- NOP only issues. BR whose guard holds makes TARGET the next bundle, one whose guard fails makes the next bundle the one
after, and a hint that disagrees with the outcome counts in WRN_MISPRED (R233, Table WRN-7). END whose guard holds ends
the program (R70). None writes a register or a predicate. -/
def Sys2Proof.ScalarControlRule : Prop :=
  ∀ (t : Fin 16) (s : State) (p : Prog), SlotReady s t 0 p →
    (slOp (wrenOf s t).scalar = 0 →
      ∃ s', exec (.scalarNop t) s = .next s' ∧ (wrenOf s' t).rest = (wrenOf s t).rest ∧
        SameX (wrenOf s t) (wrenOf s' t) ∧ (wrenOf s' t).p = (wrenOf s t).p ∧
        SlotBook (wrenOf s t) (wrenOf s' t) 0 (wrenOf s t).target ∧ OnlyWren t s s') ∧
    (slOp (wrenOf s t).scalar = 0x20 →
      ∃ s', exec (.br t) s = .next s' ∧
        (wrenOf s' t).rest = { (wrenOf s t).rest with
          mispred := if guardOf (bundleP s t) (wrenOf s t).scalar = bit (wrenOf s t).scalar 10 then (wrenOf s t).mispred
                     else (wrenOf s t).mispred + 1 } ∧
        SameX (wrenOf s t) (wrenOf s' t) ∧ (wrenOf s' t).p = (wrenOf s t).p ∧
        SlotBook (wrenOf s t) (wrenOf s' t) 0
          (if guardOf (bundleP s t) (wrenOf s t).scalar then some (bits (wrenOf s t).scalar 11 10) else none) ∧
        OnlyWren t s s') ∧
    (slOp (wrenOf s t).scalar = 0x21 → guardOf (bundleP s t) (wrenOf s t).scalar = true →
      ∃ s', exec (.opEnd t) s = .next s' ∧ (wrenOf s' t).rest = { (wrenOf s t).rest with ended := true } ∧
        SameX (wrenOf s t) (wrenOf s' t) ∧ (wrenOf s' t).p = (wrenOf s t).p ∧
        SlotBook (wrenOf s t) (wrenOf s' t) 0 (wrenOf s t).target ∧ OnlyWren t s s')

/-- The scalar and move rows that a false guard leaves without effect, with their slot and opcode. -/
def Sys2Proof.guardedRows (t : Fin 16) : List (Instr × Nat × Nat) :=
  (scalarRows t).map (fun r => (r.row, 0, r.op)) ++ (predicateRows t).map (fun r => (r.1, 0, r.2.1)) ++ [
    (.opEnd t, 0, 0x21), (.mnop t, 1, 0), (.nld t, 1, 1), (.nst t, 1, 2), (.tsig t, 1, 3), (.twait t, 1, 4), (.ttake t, 1, 5),
    (.dsig t, 1, 6), (.ifill t, 1, 7)]

/-- A scalar or move operation whose guard is false issues and has no effect. -/
def Sys2Proof.FalseGuardRule : Prop :=
  ∀ (t : Fin 16) (s : State) (p : Prog) (r : Instr × Nat × Nat), r ∈ guardedRows t → SlotReady s t r.2.1 p →
    slOp (bits (wrenOf s t).bundle (32 * r.2.1) 32) = r.2.2 →
    guardOf (bundleP s t) (bits (wrenOf s t).bundle (32 * r.2.1) 32) = false →
    ∃ s', exec r.1 s = .next s' ∧ (wrenOf s' t).rest = (wrenOf s t).rest ∧ SameX (wrenOf s t) (wrenOf s' t) ∧
      (wrenOf s' t).p = (wrenOf s t).p ∧ SlotBook (wrenOf s t) (wrenOf s' t) r.2.1 (wrenOf s t).target ∧ OnlyWren t s s'

/-- NOP, BR and END, and the rows that a false guard leaves without effect. -/
def Obligations.ScalarControl : Prop := Sys2Proof.ScalarControlRule ∧ Sys2Proof.FalseGuardRule

/-! ## Bundles: move slot -/

/-- The address that NLD, NST or IFILL of the move slot's word reads from x[RA] (R227). -/
def Sys2Proof.moveDesc (s : State) (t : Fin 16) : DWord := bundleX s t (slRa (wrenOf s t).move)

/-- Physical address of the narrow access: the offset of x[RA] plus IMM, through the handle's descriptor (R227). -/
def Sys2Proof.narrowAddr (s : State) (t : Fin 16) (p : Prog) : Nat :=
  s.phys p.ctx (fdHandle (moveDesc s t)) ((fdOff (moveDesc s t) : Int) + signed (bits (wrenOf s t).move 23 9) 9).toNat

/-- An access as it is posted at its bank, of tile `t`'s Wren. -/
def Sys2Proof.wrenAccess (s : State) (t : Fin 16) (p : Prog) (addr : Nat) (kind : AccessKind) : CisReq :=
  { id := s.nextId, tile := t, who := .wren, addr := addr, kind := kind, ctx := p.ctx,
    handle := fdHandle (moveDesc s t), label := (s.act.desc p.ctx (fdHandle (moveDesc s t))).label,
    arrive := s.arrival t addr }

/-- The load that the move slot's word names. -/
def Sys2Proof.narrowLoad (s : State) (t : Fin 16) (p : Prog) : NarrowLoad :=
  { id := s.nextId, rd := slRd (wrenOf s t).move, addr := narrowAddr s t p, size := slSize (wrenOf s t).move,
    sx := bit (wrenOf s t).move 22, handle := fdHandle (moveDesc s t),
    label := (s.act.desc p.ctx (fdHandle (moveDesc s t))).label }

/-- NLD that overlaps no store-buffer entry goes to the Cistern as a narrow read and awaits its data; one that lies wholly
inside the youngest entry, which alone overlaps it, takes that entry's bytes at once, extended as SX says, zero and marked
where the entry is poison (R229, R231). Neither changes memory. -/
def Sys2Proof.NarrowLoadIssuesRule : Prop :=
  ∀ (t : Fin 16) (s : State) (p : Prog), SlotReady s t 1 p → slOp (wrenOf s t).move = 1 →
    guardOf (bundleP s t) (wrenOf s t).move = true →
    let l := narrowLoad s t p
    ((wrenOf s t).overlaps l = [] →
      ∃ s', exec (.nld t) s = .next s' ∧
        (wrenOf s' t).rest = { (wrenOf s t).rest with loads := (wrenOf s t).loads ++ [l] } ∧
        SameX (wrenOf s t) (wrenOf s' t) ∧ (wrenOf s' t).p = (wrenOf s t).p ∧
        SlotBook (wrenOf s t) (wrenOf s' t) 1 (wrenOf s t).target ∧
        OnlyWren t { s with
          nextId := s.nextId + 1
          cis := { s.cis with reqs := s.cis.reqs ++ [wrenAccess s t p l.addr (.readNarrow l.size)] } } s') ∧
    (∀ e, (wrenOf s t).stores.getLast? = some e → (wrenOf s t).overlaps l = [e] → e.addr ≤ l.addr →
      l.addr + l.size ≤ e.addr + e.bytes.length →
      ∃ s', exec (.nld t) s = .next s' ∧
        (∀ n, readX (wrenOf s' t).x n =
          if n = l.rd ∧ n ≠ 0 then
            (if e.poison then 0 else loadValue l.size l.sx ((e.bytes.drop (l.addr - e.addr)).take l.size))
          else readX (wrenOf s t).x n) ∧
        (∀ n, (wrenOf s' t).marked n = if n = l.rd ∧ n ≠ 0 then e.poison else (wrenOf s t).marked n) ∧
        (wrenOf s' t).rest = (wrenOf s t).rest ∧ (wrenOf s' t).p = (wrenOf s t).p ∧
        SlotBook (wrenOf s t) (wrenOf s' t) 1 (wrenOf s t).target ∧ OnlyWren t s s')

/-- NST enters the store buffer and is presented to its bank as a narrow write of the low bytes of x[RS], poison where the
register is marked (R229, R230). IFILL presents COUNT + 1 line reads, awaits its lines in order, and the buffer records the
running context (R240, R241). Neither changes memory or a register at its issue. -/
def Sys2Proof.NarrowStoreAndFillIssueRule : Prop :=
  ∀ (t : Fin 16) (s : State) (p : Prog), SlotReady s t 1 p → guardOf (bundleP s t) (wrenOf s t).move = true →
    (slOp (wrenOf s t).move = 2 →
      let bytes := leBytes (slSize (wrenOf s t).move) (bundleX s t (slRd (wrenOf s t).move)).toNat
      let mark := bundleMark s t (slRd (wrenOf s t).move)
      ∃ s', exec (.nst t) s = .next s' ∧
        (wrenOf s' t).rest = { (wrenOf s t).rest with
          stores := (wrenOf s t).stores ++ [StoreEntry.mk s.nextId (narrowAddr s t p) bytes mark] } ∧
        SameX (wrenOf s t) (wrenOf s' t) ∧ (wrenOf s' t).p = (wrenOf s t).p ∧
        SlotBook (wrenOf s t) (wrenOf s' t) 1 (wrenOf s t).target ∧
        OnlyWren t { s with
          nextId := s.nextId + 1
          cis := { s.cis with reqs := s.cis.reqs ++ [wrenAccess s t p (narrowAddr s t p) (.writeNarrow bytes mark)] } } s') ∧
    (slOp (wrenOf s t).move = 7 →
      let n := bits (wrenOf s t).move 10 5 + 1
      ∃ s', exec (.ifill t) s = .next s' ∧
        (wrenOf s' t).rest = { (wrenOf s t).rest with
          fills := (wrenOf s t).fills ++
            (List.range n).map (fun i => FillLine.mk (s.nextId + i) (bits (wrenOf s t).move 20 10 + 16 * i))
          owner := some p.ctx } ∧
        SameX (wrenOf s t) (wrenOf s' t) ∧ (wrenOf s' t).p = (wrenOf s t).p ∧
        SlotBook (wrenOf s t) (wrenOf s' t) 1 (wrenOf s t).target ∧
        OnlyWren t { s with
          nextId := s.nextId + n
          cis := { s.cis with reqs := s.cis.reqs ++ (List.range n).map (fun i =>
            { wrenAccess s t p (s.phys p.ctx (fdHandle (moveDesc s t)) (fdOff (moveDesc s t) + 256 * i)) .readLine with
              id := s.nextId + i }) } } s')

/-- The move slot's narrow load, narrow stores and instruction fill. -/
def Obligations.NarrowAccessesIssue : Prop := Sys2Proof.NarrowLoadIssuesRule ∧ Sys2Proof.NarrowStoreAndFillIssueRule


/-- The move rows that act on semaphores, by opcode, with what each leaves in the Wren (Table WRN-3): a signal held until
earlier writes are acknowledged (R239), or a wait (R237). -/
def Sys2Proof.semaphoreRows (t : Fin 16) : List (Instr × Nat × (Nat → Wren → Wren)) := [
  (.mnop t, 0, fun _ w => w),
  (.tsig t, 3, fun m w => { w with
    sig := some { tile := some (Fin.ofNat 16 (bits m 16 4)), sem := bits m 10 6, value := BitVec.ofNat 32 (bits m 20 12) } }),
  (.twait t, 4, fun m w => { w with wait := some { sem := bits m 10 6, value := BitVec.ofNat 32 (bits m 20 12), take := false } }),
  (.ttake t, 5, fun m w => { w with wait := some { sem := bits m 10 6, value := BitVec.ofNat 32 (bits m 20 12), take := true } }),
  (.dsig t, 6, fun m w => { w with
    sig := some { tile := none, sem := bits m 10 8, value := BitVec.ofNat 32 (bits m 18 14) } })]

/-- MNOP only issues; TSIG and DSIG put the Wren's signal on hold, TWAIT and TTAKE put the Wren in wait, with the fields of
Table WRN-3, where the guard holds. No semaphore changes at issue. -/
def Obligations.SemaphoreSlotsIssue : Prop :=
  ∀ (t : Fin 16) (s : State) (p : Prog) (r : Instr × Nat × (Nat → Wren → Wren)), r ∈ semaphoreRows t →
    SlotReady s t 1 p → slOp (wrenOf s t).move = r.2.1 → guardOf (bundleP s t) (wrenOf s t).move = true →
    ∃ s', exec r.1 s = .next s' ∧ (wrenOf s' t).rest = r.2.2 (wrenOf s t).move (wrenOf s t).rest ∧
      SameX (wrenOf s t) (wrenOf s' t) ∧ (wrenOf s' t).p = (wrenOf s t).p ∧
      SlotBook (wrenOf s t) (wrenOf s' t) 1 (wrenOf s t).target ∧ OnlyWren t s s'

/-! ## Events of a Wren -/

/-- The die is out of reset and awake, and tile `t` has a bundle none of whose slots has issued. -/
def Sys2Proof.BetweenBundles (s : State) (t : Fin 16) : Prop := s.silent = false ∧ (wrenOf s t).issued = 0

/-- SIGNAL_LEAVE sends the held signal once the tile's earlier writes are acknowledged (R239); TILE_SEM_ARRIVE and
DIE_SEM_ARRIVE add its value to the semaphore, saturating at 0xFFFF_FFFF (R236, R238); TILE_WAIT_SATISFIED ends a wait
whose semaphore has reached VALUE, and TTAKE subtracts it (R237). -/
def Obligations.TileSignalsTravel : Prop :=
  ∀ (t : Fin 16) (s : State),
    (∀ g, BetweenBundles s t → (wrenOf s t).sig = some g → (s.tile t).writesDone = true →
      ∃ s', exec (.signalLeave t) s = .next s' ∧ wrenOf s' t = { wrenOf s t with sig := none } ∧
        OnlyWren t { s with
          nextId := s.nextId + 1
          pmh := { s.pmh with sigs := s.pmh.sigs ++ [{ id := s.nextId, source := t, tile := g.tile, sem := g.sem, value := g.value }] } }
          s') ∧
    (∀ g, s.silent = false → s.signal g.id = some g → g.tile = some t →
      ∃ s', exec (.tileSemArrive g.id) s = .next s' ∧
        (∀ n, (spGet 0 (wrenOf s' t).tsem n).toNat =
          if n = g.sem then min ((spGet 0 (wrenOf s t).tsem n).toNat + g.value.toNat) 0xFFFFFFFF
          else (spGet 0 (wrenOf s t).tsem n).toNat) ∧
        { wrenOf s' t with tsem := [] } = { wrenOf s t with tsem := [] } ∧
        OnlyWren t { s with pmh := { s.pmh with sigs := s.pmh.sigs.filter (fun x => decide (x.id ≠ g.id)) } } s') ∧
    (∀ g, s.silent = false → s.signal g.id = some g → g.tile = none →
      ∃ s', exec (.dieSemArrive g.id) s = .next s' ∧
        (∀ n, (s'.semOf n).toNat =
          if n = g.sem then min ((s.semOf n).toNat + g.value.toNat) 0xFFFFFFFF else (s.semOf n).toNat) ∧
        { s' with pmh := { s'.pmh with sem := [] } } = { s with pmh := { s.pmh with
          sem := [], sigs := s.pmh.sigs.filter (fun x => decide (x.id ≠ g.id)) } }) ∧
    (∀ x, BetweenBundles s t → (wrenOf s t).wait = some x → x.value.toNat ≤ (spGet 0 (wrenOf s t).tsem x.sem).toNat →
      ∃ s', exec (.tileWaitSatisfied t) s = .next s' ∧
        (∀ n, (spGet 0 (wrenOf s' t).tsem n).toNat =
          (spGet 0 (wrenOf s t).tsem n).toNat - (if n = x.sem ∧ x.take = true then x.value.toNat else 0)) ∧
        { wrenOf s' t with tsem := [] } = { wrenOf s t with tsem := [], wait := none } ∧ OnlyWren t s s')

/-- IFILL_LINE_LAND puts the oldest line of a fill, once its read has come back, into the instruction buffer at its bundle,
a poisoned or uncorrectable 32-byte word marking the two bundles it covers (R240). HELD_LOAD_ISSUE issues a held load, once
its last overlapping entry has drained, with the move slot of its bundle: the load reads the Cistern (R231). -/
def Obligations.FillsLandAndHeldLoadsIssue : Prop :=
  ∀ (t : Fin 16) (s : State),
    (∀ f rest r, s.silent = false → (wrenOf s t).fills = f :: rest → s.resp f.id = some r →
      ∃ s', exec (.ifillLineLand t) s = .next s' ∧
        (∀ b, spGet 0 (wrenOf s' t).ibuf b =
          if f.dest ≤ b ∧ b < f.dest + 16 then BitVec.ofNat 128 (fieldAt r.data (16 * (b - f.dest)) 16)
          else spGet 0 (wrenOf s t).ibuf b) ∧
        (∀ b, spGet stOK (wrenOf s' t).ibMark b =
          if f.dest ≤ b ∧ b < f.dest + 16 then
            (if r.ue.getD ((b - f.dest) / 2) false then stUncorrectable
             else if r.marks.getD ((b - f.dest) / 2) false then stPoison else stOK)
          else spGet stOK (wrenOf s t).ibMark b) ∧
        { wrenOf s' t with ibuf := [], ibMark := [] } =
          { wrenOf s t with ibuf := [], ibMark := [], fills := rest, data := worstData (wrenOf s t).data r.status } ∧
        OnlyWren t { s with cis := { s.cis with resps := s.cis.resps.filter (fun q => decide (q.id ≠ f.id)) } } s') ∧
    (∀ p h, SlotReady (s.setWren t (fun w => { w with held := none })) t 1 p → (wrenOf s t).issued = 0 →
      (wrenOf s t).held = some h → (wrenOf s t).kill = none → (wrenOf s t).overlaps h = [] →
      slOp (wrenOf s t).move = 1 → guardOf (wrenOf s t).p (wrenOf s t).move = true →
      (wrenOf s t).overlaps (narrowLoad s t p) = [] →
      ∃ s', exec (.heldLoadIssue t) s = .next s' ∧
        (wrenOf s' t).rest =
          { (wrenOf s t).rest with held := none, loads := (wrenOf s t).loads ++ [narrowLoad s t p] } ∧
        SameX (wrenOf s t) (wrenOf s' t) ∧ (wrenOf s' t).p = (wrenOf s t).p ∧
        SlotBook (wrenOf s t) (wrenOf s' t) 1 (wrenOf s t).target ∧
        OnlyWren t { s with
          nextId := s.nextId + 1
          cis := { s.cis with
            reqs := s.cis.reqs ++ [wrenAccess s t p (narrowAddr s t p) (.readNarrow (slSize (wrenOf s t).move))] } } s')

/-! ## Bundles: vector slot -/

/-- The flags of the results `f` of the elements below `n` that satisfy `p`. -/
def Sys2Proof.flagsOf {α : Type} (p : Nat → Bool) (f : Nat → Res α) (n : Nat) : Flags :=
  ((List.range n).filter p).foldl (fun a e => a ||| (f e).fl) 0

/-- A vector instruction has issued: the engine is busy with its 32 rows (R204), its flags have risen (R158), and but for
registers, marks, masks, tables and what VEC_AMAX takes nothing else in the engine, nothing in the array, no x register, no other tile
and nothing outside the tiles differs. -/
def Sys2Proof.VectorIssued (t : Fin 16) (s s' : State) (fl : Flags) : Prop :=
  let v := (s.tile t.val).vec
  let v' := (s'.tile t.val).vec
  (v'.busy, v'.rows, v'.flags, v'.qscale, v'.stalls) = (true, v.rows + 32, v.flags ||| fl, v.qscale, v.stalls) ∧
    (wrenOf s' t).rest = { (wrenOf s t).rest with raised := (wrenOf s t).raised ||| fl } ∧
    SameX (wrenOf s t) (wrenOf s' t) ∧ (wrenOf s' t).p = (wrenOf s t).p ∧
    SlotBook (wrenOf s t) (wrenOf s' t) 3 (wrenOf s t).target ∧ (s'.tile t.val).arr = (s.tile t.val).arr ∧
    OnlyTile t.val s s'

/-- Elements and row marks of the tile registers after an instruction that writes VD, or the pair it begins: an active
element takes its result, an inactive one reads zero where MZ is 1 and keeps its old contents where MZ is 0 (R205); a row is
marked where a source of it, or the mask's row, is, or where it keeps an old element of a marked row (R222, log 51). -/
def Sys2Proof.LanesWritten (v v' : Vec) (w : Nat) (wide : Bool) (value : Nat → Res DWord) (mark : Nat → Bool) : Prop :=
  (∀ n e, n < 32 → e < 4096 → v'.elem n e =
    if n = vsVd w ∨ (wide = true ∧ n = vsVd w + 1) then
      (if v.active w e then
        BitVec.ofNat 32 ((value e).out.toNat / (if n = vsVd w then 1 else 2 ^ 32))
       else if vsMz w then 0 else v.elem n e)
    else v.elem n e) ∧
  (∀ n r, n < 32 → r < 32 → v'.regMarked n r =
    if n = vsVd w ∨ (wide = true ∧ n = vsVd w + 1) then
      mark r || (vsMen w && v.regMarked (32 + vsMk w) r) ||
        (!vsMz w && (List.range 128).any (fun j => !v.active w (128 * r + j)) && v.regMarked n r)
    else v.regMarked n r)

/-- The greater magnitude of a word and of source values, by their FP32 bits (R156). -/
def Sys2Proof.greatest (a : Word) (xs : List Val) : Word := BitVec.ofNat 32 ((xs.map amaxBits).foldl max a.toNat)

/-- VEC_AMAX takes the source values `xs` in issue order (R157): at once where no conversion load is in flight, else
behind the last one in flight, which holds them. -/
def Sys2Proof.MaximumTaken (v v' : Vec) (xs : List Val) : Prop :=
  (v.loads.all (fun l => !l.orders) = true → v'.amax = greatest v.amax xs ∧ v'.loads = v.loads) ∧
  ∀ older l newer, v.loads = older ++ l :: newer → l.orders = true → newer.all (fun l => !l.orders) = true →
    v'.amax = v.amax ∧ v'.loads = older ++ { l with later := greatest l.later xs } :: newer

/-- A vector row that writes tile registers lane by lane: opcode, whether it writes a pair, the result of an element from
the x registers and their marks, the word and the engine, and the mark its sources give a row. -/
structure Sys2Proof.LaneRow where
  row : Instr
  op : Nat
  wide : Nat → Bool
  value : (Nat → DWord) → Nat → Vec → Nat → Res DWord
  mark : (Nat → Bool) → Nat → Vec → Nat → Bool

/-- A result in FP32, or in binary64 where D is 1, rounded once (R206). -/
def Sys2Proof.roundedTo (w : Nat) (v : Val) : Res DWord :=
  let r := (if vsD w then fmtFP64 else fmtFP32).roundTo v
  ⟨BitVec.ofNat 64 r.out, r.fl⟩

/-- A floating-point row over registers of the engine, numbered as `vectorRegs` numbers them. -/
def Sys2Proof.fpRow (row : Instr) (op : Nat) (srcs : Nat → List Nat) (f : Nat → Vec → Nat → Val) : LaneRow :=
  { row := row, op := op, wide := vsD, value := fun _ w v e => roundedTo w (f w v e),
    mark := fun _ w v r => (srcs w).any (fun n => v.regMarked n r || (decide (n < 32) && vsD w && v.regMarked (n + 1) r)) }

/-- The floating-point rows of Table VEC-2 (R206, R207, R215, R216). -/
def Sys2Proof.floatRows (t : Fin 16) : List LaneRow :=
  let a := fun (w : Nat) => [vsVa w]
  let ab := fun (w : Nat) => [vsVa w, vsVb w]
  let x := fun (w : Nat) (v : Vec) (e : Nat) => v.fp w (vsVa w) e
  let y := fun (w : Nat) (v : Vec) (e : Nat) => v.fp w (vsVb w) e
  let x32 := fun (w : Nat) (v : Vec) (e : Nat) => val32 (v.src (vsVa w) e)
  [fpRow (.vadd t) 0x01 ab (fun w v e => (x w v e).add (y w v e)),
   fpRow (.vsub t) 0x02 ab (fun w v e => (x w v e).add (y w v e).neg),
   fpRow (.vmul t) 0x03 ab (fun w v e => (x w v e).mul (y w v e)),
   fpRow (.vfma t) 0x04 (fun w => [vsVa w, vsVb w, vsVc w])
     (fun w v e => ((x w v e).mul (y w v e)).add (v.fp w (vsVc w) e)),
   fpRow (.vmin t) 0x05 ab (fun w v e => minMax false (x w v e) (y w v e)),
   fpRow (.vmax t) 0x06 ab (fun w v e => minMax true (x w v e) (y w v e)),
   fpRow (.vabs t) 0x07 a (fun w v e => (x w v e).abs),
   fpRow (.vneg t) 0x08 a (fun w v e => (x w v e).neg),
   fpRow (.vlut t) 0x20 (fun w => [vsVa w, 40 + vsVb w % 4])
     (fun w v e => lutVal (fun k => val32 (v.srcEntry (vsVb w % 4) k)) (x32 w v e)),
   fpRow (.vexp2 t) 0x21 a (fun w v e => exp2Val (x32 w v e)),
   fpRow (.vrcp t) 0x22 a (fun w v e => recipVal (x32 w v e)),
   fpRow (.vrsq t) 0x23 a (fun w v e => rsqrtVal (x32 w v e))]

/-- A row over 32-bit elements without floating point. -/
def Sys2Proof.wordRow (row : Instr) (op : Nat) (srcs : Nat → List Nat) (f : Nat → Vec → Nat → Res Word) : LaneRow :=
  { row := row, op := op, wide := fun _ => false,
    value := fun _ w v e => ⟨(f w v e).out.setWidth 64, (f w v e).fl⟩,
    mark := fun _ w v r => (srcs w).any (fun n => v.regMarked n r) }

/-- An INT32 result: the exact one, clamped to the format, with OF and NX where it was outside (R206, Table NUM-5). -/
def Sys2Proof.saturated (i : Int) : Res Word :=
  ⟨BitVec.ofInt 32 (max (-2 ^ 31) (min (2 ^ 31 - 1) i)), if -2 ^ 31 ≤ i ∧ i ≤ 2 ^ 31 - 1 then 0 else flOF ||| flNX⟩

/-- The word rows of Table VEC-2, VBCAST, VSPLAT, VEXPD and VSEL (R202, R206, R207, R221). -/
def Sys2Proof.wordRows (t : Fin 16) : List LaneRow :=
  let ab := fun (w : Nat) => [vsVa w, vsVb w]
  let x := fun (w : Nat) (v : Vec) (e : Nat) => v.src (vsVa w) e
  let y := fun (w : Nat) (v : Vec) (e : Nat) => v.src (vsVb w) e
  let bin := fun (row : Instr) (op : Nat) (f : Word → Word → Res Word) => wordRow row op ab (fun w v e => f (x w v e) (y w v e))
  [bin (.vand t) 0x0B (fun a b => ⟨a &&& b, 0⟩),
   bin (.vor t) 0x0C (fun a b => ⟨a ||| b, 0⟩),
   bin (.vxor t) 0x0D (fun a b => ⟨a ^^^ b, 0⟩),
   wordRow (.vnot t) 0x0E (fun w => [vsVa w]) (fun w v e => ⟨~~~ x w v e, 0⟩),
   bin (.vshl t) 0x0F (fun a b => ⟨BitVec.ofNat 32 (a.toNat * 2 ^ (b.toNat % 32)), 0⟩),
   bin (.vshr t) 0x10 (fun a b => ⟨BitVec.ofNat 32 (a.toNat / 2 ^ (b.toNat % 32)), 0⟩),
   bin (.vsra t) 0x11 (fun a b => ⟨BitVec.ofInt 32 (a.toInt / 2 ^ (b.toNat % 32)), 0⟩),
   bin (.viadd t) 0x12 (fun a b => saturated (a.toInt + b.toInt)),
   bin (.visub t) 0x13 (fun a b => saturated (a.toInt - b.toInt)),
   bin (.vimul t) 0x14 (fun a b => saturated (a.toInt * b.toInt)),
   { wordRow (.vbcast t) 0x16 (fun _ => []) (fun w v e => ⟨v.src (vsVa w) (e % 128), 0⟩) with
     mark := fun _ w v _ => v.regMarked (vsVa w) 0 },
   { row := .vsplat t, op := 0x17, wide := fun _ => false,
     value := fun xs w _ _ => ⟨BitVec.ofNat 64 ((xs (vsVa w)).toNat % 2 ^ 32), 0⟩,
     mark := fun marks w v r => marks (vsVa w) && (vsMz w || (List.range 128).any (fun j => v.active w (128 * r + j))) },
   wordRow (.vexpd t) 0x31 (fun w => [vsVa w]) (fun w v e =>
     ⟨v.src (vsVa w) (128 * (e / 128) +
       ((List.range (e % 128)).filter (fun j => v.active w (128 * (e / 128) + j))).length), 0⟩),
   { row := .vsel t, op := 0x0A, wide := vsD,
     value := fun _ w v e => ⟨v.src64 (vsD w) (if v.srcBit (vsVc w % 8) e then vsVa w else vsVb w) e, 0⟩,
     mark := fun _ w v r => v.regMarked (32 + vsVc w % 8) r || (vsVa w :: [vsVb w]).any (fun n =>
       v.regMarked n r || (vsD w && v.regMarked (n + 1) r)) }]

/-- What a lane row does at its issue; VEC_AMAX takes the source values `xs`. -/
def Sys2Proof.LaneRowIssues (t : Fin 16) (s : State) (r : LaneRow) (xs : List Val) : Prop :=
  let v := (s.tile t.val).vec
  let w := (wrenOf s t).vector
  ∃ s', exec r.row s = .next s' ∧
    LanesWritten v (s'.tile t.val).vec w (r.wide w) (r.value (bundleX s t) w v) (r.mark (bundleMark s t) w v) ∧
    MaximumTaken v (s'.tile t.val).vec xs ∧
    { (s'.tile t.val).vec with
      v := v.v, vMark := v.vMark, busy := v.busy, rows := v.rows, flags := v.flags, amax := v.amax, loads := v.loads } = v ∧
    VectorIssued t s s' (flagsOf (v.active w) (r.value (bundleX s t) w v) 4096)

/-- Every floating-point row of the vector slot issues where its slot is ready and writes VD (the pair where D is 1): each
active element is the exact result rounded once, inactive ones are as MZ says, marks follow the sources. -/
def Sys2Proof.VectorFloatRowsRule : Prop :=
  ∀ (t : Fin 16) (s : State) (p : Prog) (r : LaneRow), r ∈ floatRows t → SlotReady s t 3 p →
    vsOp (wrenOf s t).vector = r.op → LaneRowIssues t s r []

/-- Every word row of the vector slot, VBCAST, VSPLAT, VEXPD and VSEL issue where the slot is ready and write VD. -/
def Sys2Proof.VectorWordRowsRule : Prop :=
  ∀ (t : Fin 16) (s : State) (p : Prog) (r : LaneRow), r ∈ wordRows t → SlotReady s t 3 p →
    vsOp (wrenOf s t).vector = r.op → LaneRowIssues t s r []

/-- The vector slot's arithmetic over rows, in FP32 and on words.
Where the manual is silent this follows the model's choices (log 51, 52). -/
def Obligations.VectorRows : Prop := Sys2Proof.VectorFloatRowsRule ∧ Sys2Proof.VectorWordRowsRule


/-- VCVT converts each active element from the format of VB[3:0] to that of VC[3:0] by the conversion rules, and VEC_AMAX
takes the greatest magnitude of the source values in issue order (R156, R157, R208, R209).
Where the manual is silent this follows the model's choices (log 51, 52). -/
def Obligations.VectorConvertIssues : Prop :=
  ∀ (t : Fin 16) (s : State) (p : Prog), SlotReady s t 3 p → vsOp (wrenOf s t).vector = 0x15 →
    let v := (s.tile t.val).vec
    let w := (wrenOf s t).vector
    let wideA := decide (vsVb w % 16 = fFP64)
    let src := fun (e : Nat) => elemVal (vsVb w % 16) (bit (vsVb w) 4) (v.src64 wideA (vsVa w) e).toNat
    LaneRowIssues t s
      { row := .vcvt t, op := 0x15, wide := fun w => decide (vsVc w % 16 = fFP64),
        value := fun _ w _ e =>
          let x := elemStore (vsVc w % 16) (bit (vsVc w) 4) (src e)
          ⟨BitVec.ofNat 64 x.out, x.fl⟩,
        mark := fun _ w v r => v.regMarked (vsVa w) r || (wideA && v.regMarked (vsVa w + 1) r) }
      (((List.range 4096).filter (v.active w)).map src)

/-- The rows that write a mask register: opcode, sources numbered as `vectorRegs` numbers them, and the result of an
element. -/
def Sys2Proof.maskRows (t : Fin 16) : List (Instr × Nat × (Nat → List Nat) × (Nat → Vec → Nat → Res Bool)) :=
  let m := fun (row : Instr) (op : Nat) (f : Bool → Bool → Bool) =>
    (row, op, (fun (w : Nat) => [32 + vsVa w % 8, 32 + vsVb w % 8]),
      (fun (w : Nat) (v : Vec) (e : Nat) => (⟨f (v.srcBit (vsVa w % 8) e) (v.srcBit (vsVb w % 8) e), 0⟩ : Res Bool)))
  [(.vcmp t, 0x09, fun w => if vsD w then [vsVa w, vsVa w + 1, vsVb w, vsVb w + 1] else [vsVa w, vsVb w],
     fun w v e =>
       if bit (vsVc w) 3 && !vsD w then
         ⟨predOf (vsVc w % 8) (decide ((v.src (vsVa w) e).toInt < (v.src (vsVb w) e).toInt))
           (decide ((v.src (vsVa w) e).toInt = (v.src (vsVb w) e).toInt)) false, 0⟩
       else cmpVals (vsVc w % 8) (v.fp w (vsVa w) e) (v.fp w (vsVb w) e)),
   m (.mand t) 0x18 (fun a b => a && b), m (.mor t) 0x19 (fun a b => a || b), m (.mxor t) 0x1A (fun a b => a != b),
   (.mnot t, 0x1B, fun w => [32 + vsVa w % 8], fun w v e => ⟨!v.srcBit (vsVa w % 8) e, 0⟩)]

/-- VCMP, MAND, MOR, MXOR and MNOT issue where the slot is ready and write mask VD[2:0] under the mask in force; no tile
register changes. -/
def Sys2Proof.VectorMaskRowsRule : Prop :=
  ∀ (t : Fin 16) (s : State) (p : Prog) (r : Instr × Nat × (Nat → List Nat) × (Nat → Vec → Nat → Res Bool)),
    r ∈ maskRows t → SlotReady s t 3 p → vsOp (wrenOf s t).vector = r.2.1 →
    let v := (s.tile t.val).vec
    let w := (wrenOf s t).vector
    ∃ s', exec r.1 s = .next s' ∧
      (∀ n e, n < 8 → e < 4096 → (s'.tile t.val).vec.mbit n e =
        if n = vsVd w % 8 then (if v.active w e then (r.2.2.2 w v e).out else !vsMz w && v.mbit n e) else v.mbit n e) ∧
      (∀ n k, n < 8 → k < 32 → (s'.tile t.val).vec.regMarked (32 + n) k =
        if n = vsVd w % 8 then
          (r.2.2.1 w).any (fun a => v.regMarked a k) || (vsMen w && v.regMarked (32 + vsMk w) k) ||
            (!vsMz w && (List.range 128).any (fun j => !v.active w (128 * k + j)) && v.regMarked (32 + n) k)
        else v.regMarked (32 + n) k) ∧
      { (s'.tile t.val).vec with m := v.m, mMark := v.mMark, busy := v.busy, rows := v.rows, flags := v.flags } = v ∧
      VectorIssued t s s' (flagsOf (v.active w) (r.2.2.2 w v) 4096)

/-- The reductions: opcode, whether over the lanes of a row, and the result from the number of sources, whether the i-th is
active and the i-th (R218 to R220). -/
def Sys2Proof.reduceRows (t : Fin 16) : List (Instr × Nat × Bool × (Nat → (Nat → Bool) → (Nat → Word) → Res Word)) :=
  let vals := fun (n : Nat) (act : Nat → Bool) (x : Nat → Word) => ((List.range n).filter act).map (fun i => val32 (x i))
  let pairs := fun (n : Nat) (act : Nat → Bool) (x : Nat → Word) => ((List.range n).filter act).map (fun i => (i, val32 (x i)))
  let sum := fun (n : Nat) (act : Nat → Bool) (x : Nat → Word) =>
    treeSum (Nat.log2 n) ((List.range n).map (fun i => if act i then x i else 0x80000000))
  [(.vrsum t, 0x28, true, sum), (.vrmax t, 0x29, true, fun n a x => reduceMinMax true (vals n a x)),
   (.vrmin t, 0x2A, true, fun n a x => reduceMinMax false (vals n a x)),
   (.vrargmax t, 0x2B, true, fun n a x => reduceArgmax (pairs n a x)),
   (.vcsum t, 0x2C, false, sum), (.vcmax t, 0x2D, false, fun n a x => reduceMinMax true (vals n a x)),
   (.vcmin t, 0x2E, false, fun n a x => reduceMinMax false (vals n a x)),
   (.vcargmax t, 0x2F, false, fun n a x => reduceArgmax (pairs n a x))]

/-- A row reduction writes its result to every lane of its row, a column reduction writes lane j's to row 0; only active
elements take part, in a sum as −0 otherwise. Any marked source marks what it reaches (R218 to R222).
Where the manual is silent this follows the model's choices (log 51, 52). -/
def Obligations.VectorReductions : Prop :=
  ∀ (t : Fin 16) (s : State) (p : Prog) (q : Instr × Nat × Bool × (Nat → (Nat → Bool) → (Nat → Word) → Res Word)),
    q ∈ reduceRows t → SlotReady s t 3 p → vsOp (wrenOf s t).vector = q.2.1 →
    let v := (s.tile t.val).vec
    let w := (wrenOf s t).vector
    let src := fun (k : Nat) => v.regMarked (vsVa w) k || (vsMen w && v.regMarked (32 + vsMk w) k)
    let row := fun (k : Nat) => q.2.2.2 128 (fun j => v.active w (128 * k + j)) (fun j => v.src (vsVa w) (128 * k + j))
    let lane := fun (j : Nat) => q.2.2.2 32 (fun k => v.active w (128 * k + j)) (fun k => v.src (vsVa w) (128 * k + j))
    ∃ s', exec q.1 s = .next s' ∧
      (∀ n e, n < 32 → e < 4096 → (s'.tile t.val).vec.elem n e =
        if n = vsVd w ∧ q.2.2.1 = true then (row (e / 128)).out
        else if n = vsVd w ∧ e < 128 then (lane e).out else v.elem n e) ∧
      (∀ n k, n < 32 → k < 32 → (s'.tile t.val).vec.regMarked n k =
        if n = vsVd w ∧ q.2.2.1 = true then src k
        else if n = vsVd w ∧ k = 0 then (List.range 32).any src else v.regMarked n k) ∧
      { (s'.tile t.val).vec with v := v.v, vMark := v.vMark, busy := v.busy, rows := v.rows, flags := v.flags } = v ∧
      VectorIssued t s s' (if q.2.2.1 then flagsOf (fun _ => true) row 32 else flagsOf (fun _ => true) lane 128)

/-- VCOMP writes the active elements of each row of VA to the low lanes of VD, in order, zero above them, and their count to
lane 0 of VC (R221). -/
def Sys2Proof.VectorCompressIssuesRule : Prop :=
  ∀ (t : Fin 16) (s : State) (p : Prog), SlotReady s t 3 p → vsOp (wrenOf s t).vector = 0x30 →
    let v := (s.tile t.val).vec
    let w := (wrenOf s t).vector
    let act := fun (k : Nat) => (List.range 128).filter (fun j => v.active w (128 * k + j))
    let src := fun (k : Nat) => v.regMarked (vsVa w) k || (vsMen w && v.regMarked (32 + vsMk w) k)
    ∃ s', exec (.vcomp t) s = .next s' ∧
      (∀ n e, n < 32 → e < 4096 → (s'.tile t.val).vec.elem n e =
        if n = vsVc w ∧ e % 128 = 0 then BitVec.ofNat 32 (act (e / 128)).length
        else if n = vsVd w then
          ((act (e / 128)).map (fun j => v.src (vsVa w) (128 * (e / 128) + j))).getD (e % 128) 0
        else v.elem n e) ∧
      (∀ n k, n < 32 → k < 32 → (s'.tile t.val).vec.regMarked n k =
        if n = vsVd w then src k else if n = vsVc w then src k || v.regMarked n k else v.regMarked n k) ∧
      { (s'.tile t.val).vec with v := v.v, vMark := v.vMark, busy := v.busy, rows := v.rows, flags := v.flags } = v ∧
      VectorIssued t s s' 0

/-- The vector slot's masks, selects and compress. Where the manual is silent this follows the model's choices (log 51, 52). -/
def Obligations.VectorMasksAndCompress : Prop := Sys2Proof.VectorMaskRowsRule ∧ Sys2Proof.VectorCompressIssuesRule


/-- The vector loads: opcode, destination, element format, lines of the block, whether it takes a scale line, and rows counted. -/
def Sys2Proof.loadRows (t : Fin 16) :
    List (Instr × Nat × (Nat → VLoadDest) × (Nat → Nat) × (Nat → Nat) × Bool × Nat) := [
  (.vld t, 0x38, fun w => .reg (vsVd w), fun w => vsVc w % 16, fun w => elemBytes (vsVc w % 16) 4096 / 256, true, 32),
  (.vtld t, 0x3A, fun w => .table (vsVd w % 4), fun _ => fFP32, fun _ => 5, false, 0),
  (.mld t, 0x3B, fun w => .mask (vsVd w % 8), fun _ => fFP32, fun _ => 2, false, 32)]

/-- `n` line accesses of tile `t` from line offset `o` of the handle of descriptor `d`, numbered from `i`. -/
def Sys2Proof.lineAccesses (s : State) (t : Fin 16) (p : Prog) (who : Requester) (d : DWord) (i o n : Nat) (kind : Nat → AccessKind) :
    List CisReq :=
  (List.range n).map (fun k =>
    { id := i + k, tile := t, who := who, addr := s.phys p.ctx (fdHandle d) (o + 256 * k), kind := kind k, ctx := p.ctx,
      arrive := s.arrival t.val (s.phys p.ctx (fdHandle d) (o + 256 * k)), handle := fdHandle d, label := (s.act.desc p.ctx (fdHandle d)).label })

/-- Operand lines not yet arrived, numbered from `i`. -/
def Sys2Proof.awaited (part : OpPart) (i n : Nat) : List OpLine :=
  (List.range n).map (fun k => { id := i + k, part := part, idx := k, data := [], marks := [], arrived := false })

/-- VLD, VTLD and MLD present their line reads, VLD with SCALED also its scale line, and await them; no register changes at
issue (R212, R214). -/
def Sys2Proof.VectorLoadsIssueRule : Prop :=
  ∀ (t : Fin 16) (s : State) (p : Prog) (r : Instr × Nat × (Nat → VLoadDest) × (Nat → Nat) × (Nat → Nat) × Bool × Nat),
    r ∈ loadRows t → SlotReady s t 3 p → vsOp (wrenOf s t).vector = r.2.1 →
    let v := (s.tile t.val).vec
    let w := (wrenOf s t).vector
    let d := bundleX s t (vsVa w)
    let n := r.2.2.2.2.1 w
    let scaled := r.2.2.2.2.2.1 && fdScaled d
    let m := if scaled then 1 else 0
    ∃ s', exec r.1 s = .next s' ∧
      (∃ l, (s'.tile t.val).vec =
          { v with busy := true, rows := v.rows + BitVec.ofNat 32 r.2.2.2.2.2.2, loads := v.loads ++ [l] } ∧
        (l.dest, l.fmt, l.signed, l.scaled, l.mz, l.counts, l.later) =
          (r.2.2.1 w, r.2.2.2.1 w, bit (vsVc w) 4, scaled, vsMz w, true, 0) ∧
        (∀ e, e < 4096 → l.active e = v.active w e) ∧
        l.lines = awaited .a s.nextId n ++ awaited .sa (s.nextId + n) m) ∧
      (s'.tile t.val).arr = (s.tile t.val).arr ∧ (wrenOf s' t).rest = (wrenOf s t).rest ∧
      SameX (wrenOf s t) (wrenOf s' t) ∧ (wrenOf s' t).p = (wrenOf s t).p ∧
      SlotBook (wrenOf s t) (wrenOf s' t) 3 (wrenOf s t).target ∧
      OnlyTile t.val { s with
        nextId := s.nextId + n + m
        cis := { s.cis with
          reqs := s.cis.reqs ++ lineAccesses s t p .vec d s.nextId (fdOff d) n (fun _ => .readLine) ++
            lineAccesses s t p .vec d (s.nextId + n) (fdScale d) m (fun _ => .readLine) } } s'

/-- What VST and MST leave: the line writes `ws` of the block and `ss` of the scale line are presented and awaited, flags are
as given, VEC_AMAX takes the source values `xs`, and no register, mark or mask differs. -/
def Sys2Proof.StoreIssues (t : Fin 16) (p : Prog) (s s' : State) (ws ss : List AccessKind) (fl : Flags) (xs : List Val) : Prop :=
  let v := (s.tile t.val).vec
  let d := bundleX s t (vsVa (wrenOf s t).vector)
  let n := ws.length
  let m := ss.length
  OnlyTile t.val { s with
    nextId := s.nextId + n + m
    cis := { s.cis with
      reqs := s.cis.reqs ++ lineAccesses s t p .vec d s.nextId (fdOff d) n (fun k => ws.getD k .readLine) ++
        lineAccesses s t p .vec d (s.nextId + n) (fdScale d) m (fun k => ss.getD k .readLine) } } s' ∧
  MaximumTaken v (s'.tile t.val).vec xs ∧
  { (s'.tile t.val).vec with
    amax := v.amax
    loads := v.loads } =
  { v with
    busy := true
    rows := v.rows + 32
    flags := v.flags ||| fl } ∧
  (s'.tile t.val).arr = (s.tile t.val).arr ∧
  (wrenOf s' t).rest = { (wrenOf s t).rest with
    raised := (wrenOf s t).raised ||| fl
    vstores := (wrenOf s t).vstores ++ (List.range (n + m)).map (fun i => s.nextId + i) } ∧
  SameX (wrenOf s t) (wrenOf s' t) ∧ (wrenOf s' t).p = (wrenOf s t).p ∧
  SlotBook (wrenOf s t) (wrenOf s' t) 3 (wrenOf s t).target

/-- `ws` are line writes of the bytes `bs` under the word mask `mask`, none poison where no register row is marked. -/
def Sys2Proof.WritesOf (bs : List Byte) (mask : Word) (clean : Prop) (ws : List AccessKind) : Prop :=
  ∃ poison : Nat → Byte, (clean → ∀ k, poison k = 0) ∧
    ws = (List.range ((bs.length + 255) / 256)).map (fun k => .writeLine (padTo 256 (bs.drop (256 * k))) mask (poison k))

/-- VST presents a line write for each 256 bytes of the packed elements of its register, converted to the format of VC where
it differs; with SCALED it converts blocks of 32 lanes under VEC_QSCALE and presents the 128 scale bytes too. MST presents
the two lines of its mask. Memory changes only as the banks grant the writes, and no register changes (R154, R213, R214). -/
def Sys2Proof.VectorStoresIssueRule : Prop :=
  ∀ (t : Fin 16) (s : State) (p : Prog), SlotReady s t 3 p →
    let v := (s.tile t.val).vec
    let w := (wrenOf s t).vector
    let d := bundleX s t (vsVa w)
    let fmt := vsVc w % 16
    let clean := ∀ r, r < 32 → v.regMarked (vsVb w) r = false ∧ v.regMarked (vsVb w + 1) r = false ∧
      v.regMarked (32 + vsVd w % 8) r = false
    let xs := if fmt = fFP32 ∨ fmt = fInt32 then [] else (List.range 4096).map (v.stVal w)
    (vsOp w = 0x39 → fdScaled d = false → fmt ≤ fInt32 →
      let el := fun (e : Nat) =>
        if fmt = stSource w then (⟨(v.stBits w e).toNat, 0⟩ : Res Nat) else elemStore fmt (bit (vsVc w) 4) (v.stVal w e)
      ∃ s' ws, exec (.vst t) s = .next s' ∧
        WritesOf (packElems fmt ((List.range 4096).map (fun e => (el e).out))) 0xFFFFFFFF clean ws ∧
        StoreIssues t p s s' ws [] (flagsOf (fun _ => true) el 4096) xs) ∧
    (vsOp w = 0x39 → fdScaled d = true → fmt ≤ fE5M2 →
      let blk := fun (b : Nat) =>
        blockConvert fmt (bit (vsVc w) 4) (val32 v.qscale) ((List.range 32).map (fun i => v.stVal w (32 * b + i)))
      ∃ s' ws ss, exec (.vst t) s = .next s' ∧
        WritesOf (packElems fmt ((List.range 128).flatMap (fun b => (blk b).2.out))) 0xFFFFFFFF clean ws ∧
        WritesOf ((List.range 128).map (fun b => BitVec.ofNat 8 (blk b).1)) 0x0000FFFF True ss ∧
        StoreIssues t p s s' ws ss (flagsOf (fun _ => true) (fun b => (blk b).2) 128) xs) ∧
    (vsOp w = 0x3C →
      ∃ s' ws bs, exec (.mst t) s = .next s' ∧ bs.length = 512 ∧
        (∀ e, e < 4096 → bit (byteAt bs (e / 8)).toNat (e % 8) = v.srcBit (vsVd w % 8) e) ∧
        WritesOf bs 0xFFFFFFFF clean ws ∧ StoreIssues t p s s' ws [] 0 [])

/-- VNOP only issues; VECTOR_ROWS_ISSUED frees the engine for the next instruction (R204); VEC_STALLS
grows by an open number of waves (log 3). -/
def Sys2Proof.VectorEngineRule : Prop :=
  ∀ (t : Fin 16) (s : State),
    (∀ p, SlotReady s t 3 p → vsOp (wrenOf s t).vector = 0 →
      ∃ s', exec (.vnop t) s = .next s' ∧ (wrenOf s' t).rest = (wrenOf s t).rest ∧ SameX (wrenOf s t) (wrenOf s' t) ∧
        (wrenOf s' t).p = (wrenOf s t).p ∧ SlotBook (wrenOf s t) (wrenOf s' t) 3 (wrenOf s t).target ∧ OnlyWren t s s') ∧
    (s.silent = false → (s.tile t.val).vec.busy = true →
      ∃ s', exec (.vectorRowsIssued t) s = .next s' ∧ (∃ n, (s'.tile t.val).vec =
          { (s.tile t.val).vec with busy := false, stalls := (s.tile t.val).vec.stalls + n }) ∧
        wrenOf s' t = wrenOf s t ∧ (s'.tile t.val).arr = (s.tile t.val).arr ∧
        OnlyTile t.val { s with free := s.free + 1 } s')

/-- The vector slot's loads and stores, VNOP, and the engine that goes on.
Where the manual is silent this follows the model's choices (log 3, 52, 53). -/
def Obligations.VectorAccessesIssue : Prop :=
  Sys2Proof.VectorLoadsIssueRule ∧ Sys2Proof.VectorStoresIssueRule ∧ Sys2Proof.VectorEngineRule

/-! ## Bundles: tensor slot, and the Tensor Array -/

/-- The operand ranges of an array instruction in the order its feeders present them (R180, R186, R187, R560): requester,
part, descriptor, byte offset and lines. -/
def Sys2Proof.operandRanges (i : ArrInstr) : List (Requester × OpPart × DWord × Nat × Nat) :=
  [(.feederA, .a, i.xa, fdOff i.xa, i.size * i.rowBytes i.fa / 256),
   (.feederB, .b, i.xb, fdOff i.xb, i.size * i.rowBytes i.fb / 256)] ++
  (if fdScaled i.xa then [(.feederA, .sa, i.xa, fdScale i.xa, i.size * i.depth / 32 / 256)] else []) ++
  (if fdScaled i.xb then [(.feederB, .sb, i.xb, fdScale i.xb, i.size * i.depth / 32 / 256)] else []) ++
  (if i.drain && ddBias i.xd0 then [(.drain, .bias, i.xd2, fdOff i.xd2, lineUp (4 * i.size) / 256)] else [])

/-- The line reads of ranges, numbered from `n`. -/
def Sys2Proof.rangeAccesses (s : State) (t : Fin 16) (p : Prog) : Nat → List (Requester × OpPart × DWord × Nat × Nat) → List CisReq
  | _, [] => []
  | n, (who, _, d, o, k) :: l => lineAccesses s t p who d n o k (fun _ => .readLine) ++ rangeAccesses s t p (n + k) l

/-- The lines that they bring. -/
def Sys2Proof.rangeLines : Nat → List (Requester × OpPart × DWord × Nat × Nat) → List OpLine
  | _, [] => []
  | n, (_, part, _, _, k) :: l => awaited part n k ++ rangeLines (n + k) l

/-- Lines of ranges. -/
def Sys2Proof.rangeCount (l : List (Requester × OpPart × DWord × Nat × Nat)) : Nat := (l.map (fun r => r.2.2.2.2)).sum

/-- The tensor rows by opcode (Table ARR-1). -/
def Sys2Proof.tensorRows (t : Fin 16) : List (Instr × Nat) := [(.mtile t, 1), (.mtileS2 t, 2), (.mtileS3 t, 3), (.dtile t, 4)]

/-- MTILE, MTILE.S2, MTILE.S3 and DTILE issue as the array's pending instruction, with the fields of Table ARR-1 and the
descriptors that the bundle reads; their feeders present the operand reads, and the set they name takes their kind. TNOP only
issues. Nothing accumulates and memory does not change at issue (R180, R183, R192). -/
def Obligations.TensorSlotsIssue : Prop :=
  ∀ (t : Fin 16) (s : State) (p : Prog), SlotReady s t 2 p →
    (tsOp (wrenOf s t).tensor = 0 →
      ∃ s', exec (.tnop t) s = .next s' ∧ (wrenOf s' t).rest = (wrenOf s t).rest ∧ SameX (wrenOf s t) (wrenOf s' t) ∧
        (wrenOf s' t).p = (wrenOf s t).p ∧ SlotBook (wrenOf s t) (wrenOf s' t) 2 (wrenOf s t).target ∧ OnlyWren t s s') ∧
    (∀ r ∈ tensorRows t, tsOp (wrenOf s t).tensor = r.2 →
      let a := (s.tile t.val).arr
      let w := (wrenOf s t).tensor
      ∃ s' i, exec r.1 s = .next s' ∧
        (i.op, i.fa, i.fb, i.sa, i.sb, i.acc, i.drain, i.ctx) =
          (r.2, tsFa w, tsFb w, bit w 12, bit w 13, tsAcc w, tsDrain w, p.ctx) ∧
        (i.xa, i.xb) = (bundleX s t (tsXa w), bundleX s t (tsXb w)) ∧
        (tsDrain w = true → (i.xd0, i.xd1, i.xd2) =
          (bundleX s t (tsXd w), bundleX s t (tsXd w + 1), bundleX s t (tsXd w + 2))) ∧
        (i.init = true ↔ tsInit w = true ∧ spGet kindEmpty a.kind (tensorSet r.2 (tsAcc w)) ≠ kindEmpty) ∧
        i.lines = rangeLines s.nextId (operandRanges i) ∧
        { (s'.tile t.val).arr with kind := a.kind } = { a with pend := some i } ∧
        (∀ k, spGet kindEmpty (s'.tile t.val).arr.kind k =
          if k = tensorSet r.2 (tsAcc w) then
            tensorKind r.2 (tsFa w) (tsFb w) (fdScaled (bundleX s t (tsXa w)) || fdScaled (bundleX s t (tsXb w)))
          else spGet kindEmpty a.kind k) ∧
        (s'.tile t.val).vec = (s.tile t.val).vec ∧ (wrenOf s' t).rest = (wrenOf s t).rest ∧
        SameX (wrenOf s t) (wrenOf s' t) ∧ (wrenOf s' t).p = (wrenOf s t).p ∧
        SlotBook (wrenOf s t) (wrenOf s' t) 2 (wrenOf s t).target ∧
        OnlyTile t.val { s with
          nextId := s.nextId + rangeCount (operandRanges i)
          cis := { s.cis with reqs := s.cis.reqs ++ rangeAccesses s t p s.nextId (operandRanges i) } } s')

/-- Cell (r, j) of the array after an instruction of operation 1 to 3 (R163 to R176), from the starting value `x`. -/
def Sys2Proof.cellAfter (i : ArrInstr) (r j : Nat) (x : Word) : Res Word :=
  let a := rowVals i.fa i.sa (i.part .a) (i.rowBytes i.fa) r
  let b := rowVals i.fb i.sb (i.part .b) (i.rowBytes i.fb) j
  if i.op = 1 then
    mtileCell i.fa i.fb i.kind a b (rowScales (i.part .sa) (fdScaled i.xa) (i.depth / 32) r)
      (rowScales (i.part .sb) (fdScaled i.xb) (i.depth / 32) j) x
  else splitCell (decide (i.op = 3)) a b x

/-- The long-corner cell after a DTILE (R177). -/
def Sys2Proof.longCellAfter (i : ArrInstr) (r j : Nat) (x : DWord) : Res DWord :=
  dtileCell (rowVals fFP64 false (i.part .a) 1024 r) (rowVals fFP64 false (i.part .b) 1024 j) x

/-- Operand waves of an instruction (Table ARR-5). -/
def Sys2Proof.operandWaves (i : ArrInstr) : Nat := if i.op = 2 then 384 else if i.op = 3 then 768 else 128

/-- Every line of the operand parts has arrived; every line of the bias has. -/
def Sys2Proof.Fed (i : ArrInstr) : Prop := ∀ l ∈ i.lines, l.part ≠ .bias → l.arrived = true
def Sys2Proof.Biased (i : ArrInstr) : Prop := ∀ l ∈ i.lines, l.part = .bias → l.arrived = true

/-- The drains of an array that have formed no output yet wait for their bias. -/
def Sys2Proof.DrainsWait (a : Arr) : Prop := ∀ d ∈ a.drains, ∀ i, d.wait = some i → ¬ Biased i

/-- ARRAY_INSTR_END, once every line of A, of B and of their scales has arrived, in the frame in which the instruction fires
its last operand wave, leaves each cell of the instruction's set as the dot product over
its row of A and its column of B, from the old contents where INIT is 1 and from zero where it is 0; the other sets are as
before, its operand waves that were still to fire count, marks and flags
follow, and an instruction with DRAIN starts one drain, which forms no output before its bias has come (R158, R163, R179,
R191, R198, R560). -/
def Sys2Proof.ArrayInstructionEndsRule : Prop :=
  ∀ (t : Fin 16) (s : State) (i : ArrInstr) (empty : Byte), s.silent = false →
    (s.tile t.val).arr.run = some i → Fed i → DrainsWait (s.tile t.val).arr →
    let a := (s.tile t.val).arr
    operandWaves i ≤ (a.frame i empty).fired →
    let long := decide (i.op = opDTILE)
    let fl := if long then
        flagsOf (fun _ => true) (fun c =>
          longCellAfter i (c / 16) (c % 16) (if i.init then spGet 0 a.dacc (i.acc * 256 + c) else 0)) 256
      else
        flagsOf (fun _ => true) (fun c =>
          cellAfter i (c / 128) (c % 128) (if i.init then spGet 0 a.acc (i.acc * 16384 + c) else 0)) 16384
    ∃ s', exec (.arrayInstrEnd t empty) s = .next s' ∧
      let a' := (s'.tile t.val).arr
      (∀ n r j, r < 128 → j < 128 → spGet 0 a'.acc (n * 16384 + (128 * r + j)) =
        if n = i.acc ∧ long = false then
          (cellAfter i r j (if i.init then spGet 0 a.acc (n * 16384 + (128 * r + j)) else 0)).out
        else spGet 0 a.acc (n * 16384 + (128 * r + j))) ∧
      (∀ n r j, r < 16 → j < 16 → spGet 0 a'.dacc (n * 256 + (16 * r + j)) =
        if n = i.acc ∧ long = true then
          (longCellAfter i r j (if i.init then spGet 0 a.dacc (n * 256 + (16 * r + j)) else 0)).out
        else spGet 0 a.dacc (n * 256 + (16 * r + j))) ∧
      { a' with
        acc := a.acc, dacc := a.dacc, rowMark := a.rowMark, colMark := a.colMark, flags := a.flags, drains := a.drains } =
        { a.frame i empty with run := none } ∧
      a'.opWaves = a.opWaves + BitVec.ofNat 32 (operandWaves i - a.fired) ∧
      (∀ k, spGet 0 a'.pairWaves k = spGet 0 a.pairWaves k +
        (if k = 16 * i.fa + i.fb then BitVec.ofNat 32 (operandWaves i - a.fired) else 0)) ∧
      (∀ k, k < i.size →
        spGet false a'.rowMark (i.set * 128 + k) = ((i.init && spGet false a.rowMark (i.set * 128 + k)) ||
          rowMarked (i.partMarks .a) (i.rowBytes i.fa) k || rowMarked (i.partMarks .sa) (i.depth / 32) k) ∧
        spGet false a'.colMark (i.set * 128 + k) = ((i.init && spGet false a.colMark (i.set * 128 + k)) ||
          rowMarked (i.partMarks .b) (i.rowBytes i.fb) k || rowMarked (i.partMarks .sb) (i.depth / 32) k)) ∧
      a'.flags = a.flags ||| fl ∧ wrenOf s' t = { wrenOf s t with raised := (wrenOf s t).raised ||| fl } ∧
      (i.drain = false → a'.drains = a.drains ∧ s'.cis = s.cis ∧ s'.nextId = s.nextId) ∧
      (i.drain = true → ∃ d, a'.drains = a.drains ++ [d] ∧ (d.long, d.acc) = (long, i.acc) ∧ d.vreg.isSome = ddDest i.xd0 ∧
        (Biased i → d.wait = none) ∧
        (¬ Biased i → d.wait = some i ∧ (d.ids, d.values, d.flags) = ([], [], 0) ∧ s'.cis = s.cis ∧ s'.nextId = s.nextId)) ∧
      s'.cis.mem = s.cis.mem ∧ (s'.tile t.val).vec = (s.tile t.val).vec ∧
      OnlyTile t.val { s with
        nextId := s'.nextId
        cis := { s.cis with reqs := s'.cis.reqs } } s'

/-- What drain `d` of instruction `i` carries once it forms its outputs, `s` being the state before and `s'` after: each output
is the cell times the coarse scales, plus the bias where there
is one, in the destination format (R174, R177, R189). Into the Vector Engine they are the values of the drain; into the Cistern
they are the bytes of the line writes presented. -/
def Sys2Proof.CarriesCells (t : Fin 16) (s s' : State) (i : ArrInstr) (d : Drain) : Prop :=
  let a' := (s'.tile t.val).arr
  let scale := fun (lo : Nat) => if i.op = opDTILE then Val.one else val32 (BitVec.ofNat 32 (bits i.xd1.toNat lo 32))
  let cell := fun (c : Nat) =>
    if i.op = opDTILE then val64 (spGet 0 a'.dacc (i.acc * 256 + c))
    else if i.kind = kindInt32 then Val.ofInt (spGet 0 a'.acc (i.acc * 16384 + c)).toInt
    else val32 (spGet 0 a'.acc (i.acc * 16384 + c))
  let out := fun (c : Nat) =>
    let v := ((scale 0).mul (scale 32)).mul (cell c)
    elemStore (ddFmt i.xd0) (ddSigned i.xd0)
      (if ddBias i.xd0 then v.add (val32 (wordAt (i.part .bias) (4 * (c % i.size)))) else v)
  d.wait = none ∧ (d.long, d.acc) = (decide (i.op = opDTILE), i.acc) ∧
  d.flags = flagsOf (fun _ => true) out (i.size * i.size) ∧
  (ddDest i.xd0 = true → d.vreg = some (ddVreg i.xd0) ∧ s'.cis.reqs = s.cis.reqs ∧ s'.nextId = s.nextId ∧
    d.values = (List.range (i.size * i.size)).map (fun c => BitVec.ofNat 32 (out c).out)) ∧
  (ddDest i.xd0 = false →
    let bs := packElems (ddFmt i.xd0) ((List.range (i.size * i.size)).map (fun c => (out c).out))
    d.vreg = none ∧ d.ids = (List.range (bs.length / 256)).map (fun k => s.nextId + k) ∧
    ∃ poison : Nat → Byte, s'.cis.reqs = s.cis.reqs ++ (List.range (bs.length / 256)).map (fun k =>
      { id := s.nextId + k, tile := t, who := .drain,
        addr := s.phys i.ctx (fdHandle i.xd0) (fdOff i.xd0 + 256 * k),
        kind := .writeLine ((bs.drop (256 * k)).take 256) 0xFFFFFFFF (poison k), ctx := i.ctx,
        handle := fdHandle i.xd0, label := (s.act.desc i.ctx (fdHandle i.xd0)).label,
        arrive := s.arrival t.val (s.phys i.ctx (fdHandle i.xd0) (fdOff i.xd0 + 256 * k)) }))

/-- The drain of an instruction whose bias has come forms its outputs as the instruction ends. -/
def Sys2Proof.DrainCarriesTheCellsRule : Prop :=
  ∀ (t : Fin 16) (s : State) (i : ArrInstr) (empty : Byte), s.silent = false →
    (s.tile t.val).arr.run = some i → Fed i → Biased i → i.drain = true → DrainsWait (s.tile t.val).arr →
    operandWaves i ≤ ((s.tile t.val).arr.frame i empty).fired →
    ∃ s' d, exec (.arrayInstrEnd t empty) s = .next s' ∧
      (s'.tile t.val).arr.drains = (s.tile t.val).arr.drains ++ [d] ∧ CarriesCells t s s' i d

/-- The end of an array instruction and what a drain carries. -/
def Obligations.ArrayInstructionsAndDrainsEnd : Prop := Sys2Proof.ArrayInstructionEndsRule ∧ Sys2Proof.DrainCarriesTheCellsRule


/-- ARRAY_INSTR_START makes the pending instruction the running one where no stop is in force, none runs and no drain still
uses its set, at the given wave of the array's frame or where the one before it ended; a start of the main array from cold
counts and begins a ramp (R193, R195, R197, R490; log 77). ARRAY_GOES_COLD makes an idle array cold.
DRAIN_END ends the first drain whose writes are acknowledged: a drain into the Vector Engine then stands in its four tile
registers with its row marks, and its flags rise; the accumulators are as they were (R189, R194, R560). -/
def Obligations.ArraysStartAndDrainsEnd : Prop :=
  ∀ (t : Fin 16) (s : State), s.silent = false →
    let x := s.tile t.val
    let a := x.arr
    (∀ i, a.pend = some i → a.run = none → s.arrStopped t.val = false → a.draining i.set = false →
      ∀ wave : Fin 8, ∃ s', exec (.arrayInstrStart t wave) s = .next s' ∧
        (s'.tile t.val).arr = { a with
          run := some i
          pend := none
          place := max a.place wave.val
          fired := 0
          ramp := if a.cold = true ∧ i.op ≠ opDTILE then 0 else 64
          cold := a.cold && decide (i.op = opDTILE)
          coldStarts := if a.cold = true ∧ i.op ≠ opDTILE then a.coldStarts + 1 else a.coldStarts } ∧
        (s'.tile t.val).vec = x.vec ∧ wrenOf s' t = wrenOf s t ∧ OnlyTile t.val s s') ∧
    ((∀ i, a.run = some i → i.op = opDTILE) →
      ∃ s', exec (.arrayGoesCold t) s = .next s' ∧ (s'.tile t.val).arr = { a with cold := true } ∧
        (s'.tile t.val).vec = x.vec ∧ wrenOf s' t = wrenOf s t ∧ OnlyTile t.val s s') ∧
    (∀ pre post d, a.drains = pre ++ d :: post → (∀ y ∈ pre, x.drainDone y = false) → x.drainDone d = true →
      ∃ s', exec (.drainEnd t) s = .next s' ∧
        (s'.tile t.val).arr = { a with
          drains := pre ++ post
          flags := a.flags ||| d.flags } ∧
        wrenOf s' t = { wrenOf s t with raised := (wrenOf s t).raised ||| d.flags } ∧
        (d.vreg = none → (s'.tile t.val).vec = x.vec) ∧
        (∀ v, d.vreg = some v → d.values.length = 4 * 4096 → d.rowMarks.length = 4 * 32 →
          (∀ n e, e < 4096 → (s'.tile t.val).vec.elem n e =
            if v ≤ n ∧ n < v + 4 then d.values.getD (4096 * (n - v) + e) 0 else x.vec.elem n e) ∧
          (∀ n r, n < 32 → r < 32 → (s'.tile t.val).vec.regMarked n r =
            if v ≤ n ∧ n < v + 4 then d.rowMarks.getD (32 * (n - v) + r) false else x.vec.regMarked n r) ∧
          { (s'.tile t.val).vec with v := x.vec.v, vMark := x.vec.vMark } = x.vec) ∧
        OnlyTile t.val s s')

/-! ## Bundles that do not issue -/

/-- Every row that issues a slot, with its slot, and whether it names the slot's word. -/
def Sys2Proof.slotRows (t : Fin 16) : List (Instr × Nat × (Nat → Bool)) :=
  (scalarRows t).map (fun r => (r.row, 0, fun w => decide (slOp w = r.op))) ++
  (predicateRows t).map (fun r => (r.1, 0, fun w => decide (slOp w = r.2.1))) ++
  [(.scalarNop t, 0, fun w => decide (slOp w = 0)), (.br t, 0, fun w => decide (slOp w = 0x20)),
   (.opEnd t, 0, fun w => decide (slOp w = 0x21)), (.nld t, 1, fun w => decide (slOp w = 1)),
   (.nst t, 1, fun w => decide (slOp w = 2)), (.ifill t, 1, fun w => decide (slOp w = 7))] ++
  (semaphoreRows t).map (fun r => (r.1, 1, fun w => decide (slOp w = r.2.1))) ++
  (.tnop t, 2, fun w => decide (tsOp w = 0)) :: (tensorRows t).map (fun r => (r.1, 2, fun w => decide (tsOp w = r.2))) ++
  (floatRows t).map (fun r => (r.row, 3, fun w => decide (vsOp w = r.op))) ++
  (wordRows t).map (fun r => (r.row, 3, fun w => decide (vsOp w = r.op))) ++
  (maskRows t).map (fun r => (r.1, 3, fun w => decide (vsOp w = r.2.1))) ++
  (reduceRows t).map (fun r => (r.1, 3, fun w => decide (vsOp w = r.2.1))) ++
  (loadRows t).map (fun r => (r.1, 3, fun w => decide (vsOp w = r.2.1))) ++
  [(.vnop t, 3, fun w => decide (vsOp w = 0)), (.vcvt t, 3, fun w => decide (vsOp w = 0x15)),
   (.vcomp t, 3, fun w => decide (vsOp w = 0x30)), (.vst t, 3, fun w => decide (vsOp w = 0x39)),
   (.mst t, 3, fun w => decide (vsOp w = 0x3C))]

/-- The first slot of a bundle that a check halts does not issue: the tile halts before the bundle, with the check's status,
and every tile semaphore of the tiles that run the program reads 0xFFFF_FFFF (R226, R235, R240, R246, R562). Where the bundle
waits (R54, R230, R248) nothing changes. Where the manual is silent this follows the model's choices (log 50). -/
def Obligations.BundlesHaltOrWait : Prop :=
  ∀ (t : Fin 16) (s : State) (r : Instr × Nat × (Nat → Bool)), r ∈ slotRows t →
    r.2.2 (bits (wrenOf s t).bundle (32 * r.2.1) 32) = true → s.silent = false → (wrenOf s t).issued = 0 →
    s.mayIssue t.val = true → (wrenOf s t).held = none →
    (∀ f p, s.fate t.val = .halts f → (wrenOf s t).prog = some p →
      ∃ s', exec r.1 s = .next s' ∧
        ((wrenOf s' t).halted, (wrenOf s' t).haltStatus, (wrenOf s' t).haltPc, (wrenOf s' t).haltReason) =
          (true, f.status, (wrenOf s t).pc, f.order) ∧
        (bit p.tiles.toNat t.val = true → ∀ n, n < 64 → spGet 0 (wrenOf s' t).tsem n = 0xFFFFFFFF) ∧
        (∀ u : Fin 16, u ≠ t → { wrenOf s' u with tsem := [] } = { wrenOf s u with tsem := [] } ∧
          (bit p.tiles.toNat u.val = true → (∀ q, (wrenOf s u).prog = some q → q.slot = p.slot) →
            ∀ n, n < 64 → spGet 0 (wrenOf s' u).tsem n = 0xFFFFFFFF)) ∧
        (∀ u, (s'.tile u).arr = (s.tile u).arr ∧ (s'.tile u).vec = (s.tile u).vec) ∧
        SameX (wrenOf s t) (wrenOf s' t) ∧ (wrenOf s' t).p = (wrenOf s t).p ∧ (wrenOf s' t).pc = (wrenOf s t).pc ∧
        { s' with tiles := s.tiles } = s) ∧
    (s.fate t.val = .waits → exec r.1 s = .next s) ∧
    (∀ l, s.fate t.val = .holdsLoad l →
      ∃ s', exec r.1 s = .next s' ∧
        wrenOf s' t = { wrenOf s t with
          held := some l
          heldAt := s.time.wave
          loadHolds := (wrenOf s t).loadHolds + 1 } ∧ OnlyWren t s s')

/-! ## The Cistern: bank slots and integrity -/

/-- How many places after `last` the round-robin search of three meets `p` (R85, R86). -/
def Sys2Proof.afterGrant (last p : Nat) : Nat := (p + 2 - last) % 3

/-- The Wren of the bank's tile holds a load since three waves or more, and an entry that the load overlaps waits at this
bank (R232). -/
def Sys2Proof.HoldPrefersW (s : State) (tr b : Nat) : Prop :=
  let w := (s.tile (tractTile tr)).wren
  ∃ l, w.held = some l ∧ w.heldAt + 3 ≤ s.time.wave ∧
    ∃ e ∈ w.overlaps l, addrTract e.addr = tr ∧ addrBank e.addr = b ∧ ∃ r ∈ s.cis.reqs, r.id = e.id

/-- BANK_SLOT: where a request waits, the bank grants the port that the round-robin search meets first after the one granted
last, but port W first from the third wave of a hold on (R232); within port L the requester that its own search meets first,
within port X the request that came first, of one wave that of the lowest physical tile; the granted access leaves the queue
and its response is
under way. The slot counter goes on. Where none waits only the slot counter does (R82, R85, R86). -/
def Sys2Proof.BankSlotGrantsRoundRobinRule : Prop :=
  ∀ (tr : Fin 64) (b : Fin 16) (s : State), SlotOpen s tr.val b.val →
    let bk := s.bank tr.val b.val
    let waiting := s.cis.reqs.filter (s.waits tr.val b.val)
    (waiting = [] →
      ∃ s', exec (.bankSlot tr b) s = .next s' ∧ s'.bank tr.val b.val = { bk with slot := bk.slot + 1 } ∧
        s'.cis.reqs = s.cis.reqs ∧ s'.cis.resps = s.cis.resps ∧ SameMemory s s') ∧
    (waiting ≠ [] →
      ∃ s' r a, exec (.bankSlot tr b) s = .next s' ∧ r ∈ waiting ∧
        (¬(HoldPrefersW s tr.val b.val ∧ ∃ x ∈ waiting, x.port = 1) →
          ∀ x ∈ waiting, afterGrant bk.last.val r.port ≤ afterGrant bk.last.val x.port) ∧
        (HoldPrefersW s tr.val b.val → (∃ x ∈ waiting, x.port = 1) → r.port = 1) ∧
        (r.port = 2 → ∀ x ∈ waiting, x.port = 2 → r.arrive < x.arrive ∨
          (r.arrive = x.arrive ∧ s.fuse.physTile r.tile.val ≤ s.fuse.physTile x.tile.val)) ∧
        (r.port = 0 → ∀ x ∈ waiting, x.port = 0 → afterGrant bk.lastL.val r.sub ≤ afterGrant bk.lastL.val x.sub) ∧
        s'.cis.reqs = s.cis.reqs.filter (fun x => decide (x.id ≠ r.id)) ∧
        s'.cis.resps = s.cis.resps ++ [a] ∧ (a.id, a.tile) = (r.id, r.tile) ∧
        s'.bank tr.val b.val = { bk with
          slot := bk.slot + 1
          last := Fin.ofNat 3 r.port
          lastL := if r.port = 0 then Fin.ofNat 3 r.sub else bk.lastL })

/-- A granted write to clean words changes exactly the bytes it writes: those of a line write under its word mask, or the
bytes of a narrow write, and marked data leaves its words poisoned; a granted read of clean words changes no byte and brings the stored bytes, unmarked and OK
(R77 to R80, R118, R120, R122). -/
def Sys2Proof.BankSlotMovesTheDataRule : Prop :=
  ∀ (tr : Fin 64) (b : Fin 16) (s : State) (r : CisReq), SlotOpen s tr.val b.val → s.grant tr.val b.val = some r →
    (∀ data mask poison, r.kind = .writeLine data mask poison → r.addr % 256 = 0 →
      (∀ k, k < 8 → Clean s (r.addr / 32 + k)) →
      ∃ s', exec (.bankSlot tr b) s = .next s' ∧
        (∀ a, memByte s' a =
          if r.addr ≤ a ∧ a < r.addr + 256 ∧ bit mask.toNat ((a - r.addr) / 8) = true then byteAt data (a - r.addr)
          else memByte s a) ∧
        (∀ k, k < 8 → s'.syndrome (r.addr / 32 + k) =
          if bit poison.toNat k && (List.range 4).any (fun j => bit mask.toNat (4 * k + j)) then synPoison else 0) ∧
        s'.cis.resps = s.cis.resps ++ [{ id := r.id, tile := r.tile, write := true, data := [], marks := [], ue := [], status := stOK }]) ∧
    (∀ data mark, r.kind = .writeNarrow data mark → r.addr % 32 + data.length ≤ 32 → Clean s (r.addr / 32) →
      ∃ s', exec (.bankSlot tr b) s = .next s' ∧
        (∀ a, memByte s' a =
          if r.addr ≤ a ∧ a < r.addr + data.length then byteAt data (a - r.addr) else memByte s a) ∧
        s'.syndrome (r.addr / 32) = (if mark then synPoison else 0) ∧
        s'.cis.resps = s.cis.resps ++ [{ id := r.id, tile := r.tile, write := true, data := [], marks := [], ue := [], status := stOK }]) ∧
    (r.kind = .readLine → r.addr % 256 = 0 → (∀ k, k < 8 → Clean s (r.addr / 32 + k)) →
      ∃ s' ue, exec (.bankSlot tr b) s = .next s' ∧ SameMemory s s' ∧
        s'.cis.resps = s.cis.resps ++ [
          { id := r.id, tile := r.tile, write := false, data := (List.range 256).map (fun k => memByte s (r.addr + k)),
            marks := List.replicate 8 false, ue := ue, status := stOK }]) ∧
    (∀ n, r.kind = .readNarrow n → r.addr % 32 + n ≤ 32 → Clean s (r.addr / 32) →
      ∃ s' ue, exec (.bankSlot tr b) s = .next s' ∧ SameMemory s s' ∧
        s'.cis.resps = s.cis.resps ++ [
          { id := r.id, tile := r.tile, write := false, data := (List.range n).map (fun k => memByte s (r.addr + k)),
            marks := [false], ue := ue, status := stOK }])

/-- A bank slot: whom it grants and what it moves. -/
def Obligations.BankSlotsGrantAndMove : Prop := Sys2Proof.BankSlotGrantsRoundRobinRule ∧ Sys2Proof.BankSlotMovesTheDataRule


/-- A narrow read of a word that is not clean (Tables INT-1, INT-2): one bit in error is corrected in the data and in the
store and counts a CE; poison reads as marked zeros with DATA_POISON and counts; more than one bit in error reads as marked
zeros with DATA_UNCORRECTABLE, counts a UE and leaves the word poisoned. No other word changes. -/
def Sys2Proof.ReadsOfDamagedWordsRule : Prop :=
  ∀ (tr : Fin 64) (b : Fin 16) (s : State) (r : CisReq) (n : Nat), SlotOpen s tr.val b.val →
    s.grant tr.val b.val = some r → r.kind = .readNarrow n → r.addr % 32 + n ≤ 32 →
    let w := r.addr / 32
    let others := fun (s' : State) =>
      (∀ a, a / 32 ≠ w → memByte s' a = memByte s a) ∧ ∀ v, v ≠ w → s'.syndrome v = s.syndrome v
    (∀ d, wordState (s.syndrome w) = .correctable d →
      let good := match d with | none => s.stored w | some k => flipBit (s.stored w) k
      ∃ s' a, exec (.bankSlot tr b) s = .next s' ∧ s'.stored w = good ∧ s'.syndrome w = 0 ∧ others s' ∧
        s'.cis.ce = s.cis.ce + 1 ∧ s'.cis.ue = s.cis.ue ∧ s'.cis.resps = s.cis.resps ++ [a] ∧
        (a.data, a.marks, a.status) = ((good.drop (r.addr % 32)).take n, [false], stOK)) ∧
    (wordState (s.syndrome w) = .poisoned →
      ∃ s' a, exec (.bankSlot tr b) s = .next s' ∧ SameMemory s s' ∧ s'.cis.ce = s.cis.ce ∧ s'.cis.ue = s.cis.ue ∧
        s'.cis.poisonReads = s.cis.poisonReads + 1 ∧ s'.cis.resps = s.cis.resps ++ [a] ∧
        (a.data, a.marks, a.status) = (List.replicate n 0, [true], stPoison)) ∧
    (wordState (s.syndrome w) = .uncorrectable →
      ∃ s' a, exec (.bankSlot tr b) s = .next s' ∧ s'.stored w = s.stored w ∧ s'.syndrome w = synPoison ∧ others s' ∧
        s'.cis.ue = s.cis.ue + 1 ∧ s'.cis.ce = s.cis.ce ∧ s'.cis.resps = s.cis.resps ++ [a] ∧
        (a.data, a.marks, a.status) = (List.replicate n 0, [true], stUncorrectable))

/-- The integrity code: a word whose syndrome is the column of a data bit has that bit in error, one with a single bit has a
check bit in error, and all ones is poison; the columns are all different (R116 to R118). -/
def Sys2Proof.SyndromesNameTheBitRule : Prop :=
  columns.length = 256 ∧ columns.Nodup ∧
    (∀ i, i < 256 → wordState (BitVec.ofNat 10 (columns.getD i 0)) = .correctable (some i)) ∧
    (∀ i, i < 10 → wordState (BitVec.ofNat 10 (2 ^ i)) = .correctable none) ∧
    wordState 0 = .clean ∧ wordState 0x3FF = .poisoned

/-- Reads of damaged words, and the syndromes that tell them. -/
def Obligations.DamagedWords : Prop := Sys2Proof.ReadsOfDamagedWordsRule ∧ Sys2Proof.SyndromesNameTheBitRule


/-- CISTERN_WRITE_ACK frees the store-buffer entry, the VST line or the drain line that it names; CISTERN_READ_RETURN puts a
narrow load's data in x[RD], extended as SX says, marked and zero where a word of it is poison, gives an array
instruction the operand line it waits for, and, with the last line of its bias, lets a drain form its outputs (R88, R179, R229
to R231, R560). -/
def Obligations.CisternResponsesLand : Prop :=
  ∀ (s : State) (r : CisResp), s.silent = false → s.resp r.id = some r →
    let t := r.tile
    let out := { s with cis := { s.cis with resps := s.cis.resps.filter (fun x => decide (x.id ≠ r.id)) } }
    let arr := (s.tile t.val).arr
    let waits := fun (ds : List Drain) => ∀ d ∈ ds, ∀ i, d.wait = some i → ¬ Biased (i.take r)
    let taken := fun (d : Drain) => { d with wait := d.wait.map (fun i => i.take r) }
    (r.write = true →
      ∃ s', exec (.cisternWriteAck r.id) s = .next s' ∧
        wrenOf s' t = { wrenOf s t with
          stores := (wrenOf s t).stores.filter (fun e => decide (e.id ≠ r.id))
          vstores := (wrenOf s t).vstores.filter (fun e => decide (e ≠ r.id))
          data := worstData (wrenOf s t).data r.status } ∧
        (s'.tile t.val).arr = { (s.tile t.val).arr with
          drains := (s.tile t.val).arr.drains.map (fun d => { d with ids := d.ids.filter (fun e => decide (e ≠ r.id)) }) } ∧
        (s'.tile t.val).vec = (s.tile t.val).vec ∧ OnlyTile t.val out s') ∧
    (∀ l, r.write = false → (∀ f ∈ (wrenOf s t).fills, f.id ≠ r.id) → waits arr.drains →
      (wrenOf s t).loads.find? (fun l => decide (l.id = r.id)) = some l →
      ∃ s', exec (.cisternReadReturn r.id) s = .next s' ∧
        (∀ n, readX (wrenOf s' t).x n =
          if n = l.rd ∧ n ≠ 0 then (if r.marks.any id then 0 else loadValue l.size l.sx r.data) else readX (wrenOf s t).x n) ∧
        (∀ n, (wrenOf s' t).marked n = if n = l.rd ∧ n ≠ 0 then r.marks.any id else (wrenOf s t).marked n) ∧
        (wrenOf s' t).loads = (wrenOf s t).loads.filter (fun l => decide (l.id ≠ r.id)) ∧
        (wrenOf s' t).data = worstData (wrenOf s t).data r.status ∧ OnlyTile t.val out s') ∧
    (∀ i l, r.write = false → (∀ f ∈ (wrenOf s t).fills, f.id ≠ r.id) → waits arr.drains → arr.pend = some i ∨ arr.run = some i →
      l ∈ i.lines → l.id = r.id →
      ∃ s' i', exec (.cisternReadReturn r.id) s = .next s' ∧ (arr.pend = some i → (s'.tile t.val).arr.pend = some i') ∧
        (arr.run = some i → (s'.tile t.val).arr.run = some i') ∧
        { i' with lines := i.lines } = i ∧
        i'.lines = i.lines.map (fun l =>
          if l.id = r.id then
            { l with
              data := r.data
              marks := r.marks
              arrived := true }
          else l) ∧ OnlyTile t.val out s') ∧
    (∀ pre post i, r.write = false → (∀ f ∈ (wrenOf s t).fills, f.id ≠ r.id) → waits (pre ++ post) → Biased (i.take r) →
      arr.drains = pre ++
        { long := decide (i.op = opDTILE), acc := i.acc, wait := some i, ids := [],
          vreg := if ddDest i.xd0 then some (ddVreg i.xd0) else none, values := [], rowMarks := [], flags := 0 } :: post →
      ∃ s' d, exec (.cisternReadReturn r.id) s = .next s' ∧
        (s'.tile t.val).arr.drains = pre.map taken ++ d :: post.map taken ∧ CarriesCells t s s' (i.take r) d ∧
        OnlyTile t.val { out with
          nextId := s'.nextId
          cis := { out.cis with reqs := s'.cis.reqs } } s')

/-- A load in flight, after response `r`. -/
def Sys2Proof.loadAfter (r : CisResp) (l : VecLoad) : VecLoad := { l with lines := l.lines.map (fun x => x.take r) }

/-- When the last line of a VLD comes it fills its register, or pair: an active element is the block's element in register
form, an inactive one as MZ says; VEC_AMAX takes its source values, where it converts, and those of the conversions behind it,
after the loads before it that still wait (R157, R209); masks, tables, other registers and every other load are as before
(R205, R212).
Where the manual is silent this follows the model's choices (log 51). -/
def Obligations.VectorLoadLands : Prop :=
  ∀ (s : State) (r : CisResp) (pre post : List VecLoad) (l : VecLoad) (vd : Nat), s.silent = false →
    s.resp r.id = some r → r.write = false →
    let t := r.tile
    let v := (s.tile t.val).vec
    let c := loadAfter r l
    let wide := decide (l.fmt = fFP64)
    (∀ f ∈ (wrenOf s t).fills, f.id ≠ r.id) → v.loads = pre ++ l :: post → l.dest = .reg vd →
    c.lines.all (fun x => x.arrived) = true →
    (∀ o ∈ pre ++ post, (loadAfter r o).lines.all (fun x => x.arrived) = false) →
    ∃ s', exec (.cisternReadReturn r.id) s = .next s' ∧
      (∃ older, (s'.tile t.val).vec.loads = older ++ post.map (loadAfter r) ∧
        let own := if l.orders then ((List.range 4096).filter l.active).map c.val else []
        MaximumTaken { v with loads := pre.map (loadAfter r) } { (s'.tile t.val).vec with loads := older }
          [val32 (if l.orders then greatest l.later own else l.later)]) ∧
      (∀ n e, n < 32 → e < 4096 → (s'.tile t.val).vec.elem n e =
        if n = vd ∨ (wide = true ∧ n = vd + 1) then
          (if l.active e then BitVec.ofNat 32 ((c.elem e).out.toNat / (if n = vd then 1 else 2 ^ 32))
           else if l.mz then 0 else v.elem n e)
        else v.elem n e) ∧
      ((s'.tile t.val).vec.m, (s'.tile t.val).vec.mMark, (s'.tile t.val).vec.t, (s'.tile t.val).vec.tMark) =
        (v.m, v.mMark, v.t, v.tMark) ∧
      (s'.tile t.val).vec.flags = v.flags ||| flagsOf l.active c.elem 4096

/-- RESERVED_SLOT, where the bank has no repair work, refreshes the pointed row and advances the pointer, wrapping after row
511; outside a scrub pass it changes no byte, and the frame goes on, from index 0 after a restart (R82, R83, R109, R125). A
row repair whose row has been sensed is installed instead: the spare takes the row, the spare it had becomes BAD, and the
command ends OK with RESULT 0, the spare and the count of usable spares (R127, R132, Table INT-3). No other repair waits for
the bank. -/
def Obligations.ReservedSlotsRefreshAndRepair : Prop :=
  ∀ (tr : Fin 64) (b : Fin 16) (s : State), s.banksRun = true → s.tractOn tr.val = true → s.walkOf tr.val = none →
    let bk := s.bank tr.val b.val
    bk.atReserved b.val = true →
    (bk.repair = none → s.waitingRepair tr.val b.val = none →
      ∃ s', exec (.reservedSlot tr b) s = .next s' ∧
        let bk' := s'.bank tr.val b.val
        (bk'.refresh, bk'.restart, bk'.slot, bk'.last, bk'.lastL, bk'.repair, bk'.remap) =
          (bk.refresh + 1, false, if bk.restart then 0 else bk.slot + 1, bk.last, bk.lastL, none, bk.remap) ∧
        bk'.scrub = (match bk.scrub with | none => none | some n => if n + 1 < 4096 then some (n + 1) else none) ∧
        (bk.scrub = none → SameMemory s s') ∧
        (∀ n, bk.scrub = some n →
          let a := lineAddr tr.val b.val bk.refresh.toNat (n / 512)
          (∀ x, x / 256 ≠ a / 256 → memByte s' x = memByte s x) ∧
          ∀ k, k < 8 → s'.syndrome (a / 32 + k) = 0 ∨ s'.syndrome (a / 32 + k) = synPoison) ∧
        s'.cis.reqs = s.cis.reqs ∧ s'.cis.resps = s.cis.resps ∧ s'.pmh = s.pmh ∧ s'.tiles = s.tiles) ∧
    (∀ r c q, bk.repair = some r →
      (∀ e ∈ s.flying, e.1 ≠ r.slot → ∀ restore row, e.2.job ≠ .repair restore tr.val b.val row) → r.spare < 32 → bk.usable r.spare = true → s.cmd r.slot = some c → c.origin = .queue q →
      ∃ s' x, exec (.reservedSlot tr b) s = .next s' ∧
        let bk' := s'.bank tr.val b.val
        bk'.remapOf r.spare = { row := BitVec.ofNat 9 r.row.val, valid := true, source := 2, bad := false } ∧
        (∀ k, bk.spareOf r.row.val = some k → bk'.remapOf k = { Remap.reset with bad := true }) ∧
        (∀ k, k ≠ r.spare → bk.spareOf r.row.val ≠ some k → bk'.remapOf k = bk.remapOf k) ∧
        (bk'.repair, bk'.repaired, bk'.refresh) = (none, true, bk.refresh) ∧ SameMemory s s' ∧
        s'.pmh.compl = s.pmh.compl ++ [x] ∧
        (x.slot, x.ctx, x.tag, x.status, x.reason) = (some r.slot, c.ctx, c.tag, stOK, 0) ∧
        x.data = leBytes 1 0 ++ leBytes 1 ((bk'.spareOf r.row.val).getD 0xFF) ++ leBytes 1 bk'.freeCount)

/-! ## The Cistern: tracts, scrubs and zero walks -/

/-- SCRUB_PASS_START starts a pass at its first line in every bank of every tract that is ON, and in no other (R126).
TRACT_WAKE_END: a WAKING tract goes to CLEARING and a walk of its every line begins, whose effect the model lets it take at
once (R97 to R99, R106; log 75): the tract reads zero with right check bits and no other byte differs. -/
def Obligations.ScrubsAndWakingsBegin : Prop :=
  (∀ (s : State), s.banksRun = true → (∃ t, t < s.fuse.tractCount ∧ s.tractOn t = true) →
    ∃ s', exec .scrubPassStart s = .next s' ∧ s'.cis.scrubbing = true ∧
      (∀ t b, b < 16 → s'.bank t b =
        if t < s.fuse.tractCount ∧ s.tractOn t = true then { s.bank t b with scrub := some 0 } else s.bank t b) ∧
      { s' with cis := { s'.cis with banks := [], scrubbing := false } } =
        { s with cis := { s.cis with banks := [], scrubbing := false } }) ∧
  (∀ (tr : Fin 64) (s : State), s.silent = false → s.tractState tr.val = 1 → s.walkOf tr.val = none →
    ∃ s', exec (.tractWakeEnd tr) s = .next s' ∧ s'.tractState tr.val = 2 ∧
      s'.walkOf tr.val = some { all := true, granules := [], power := true } ∧
      (∀ t, t ≠ tr.val → s'.tractState t = s.tractState t ∧ s'.walkOf t = s.walkOf t) ∧
      (∀ a, memByte s' a = if a / 2 ^ 24 = tr.val then 0 else memByte s a) ∧
      (∀ v, s'.syndrome v = if v / 2 ^ 19 = tr.val then 0 else s.syndrome v) ∧
      { s' with cis := { s'.cis with tract := [], walk := [], mem := [], synd := [] } } =
        { s with cis := { s.cis with tract := [], walk := [], mem := [], synd := [] } })

/-- A walk clears its granules and ends. The walks of a swap: the granules that a context's descriptors of the new set own
and its old ones did not, in tracts that are ON, read zero with right check bits from the swap point on, and every other byte
is as it was where no word is damaged (R97, R100, R296; the walk takes its effect as it begins: log 75). ZERO_WALK_END ends
the walk and counts it; a tract it was to power is ON, where no TRACT_POWER waits to act on its tracts, and where also no step
script has a command in flight, no byte changes (R99, R106, R110). -/
def Obligations.ZeroWalkLeavesZeros : Prop :=
  (∀ (s : State) (p : Swap) (g : Nat), s.silent = false → s.cfg.swap = some p → s.swapHeld p = false →
    g ∈ newlyOwned s.act s.shd → g / 4096 < s.fuse.tractCount → s.tractOn (g / 4096) = true →
    ∃ s', exec .swapPoint s = .next s' ∧ (∃ w, s'.walkOf (g / 4096) = some w) ∧
      (∀ a, a / 4096 = g → memByte s' a = 0 ∧ s'.syndrome (a / 32) = 0) ∧
      ((∀ v, Clean s v) → ∀ a, a / 4096 ∉ newlyOwned s.act s.shd → memByte s' a = memByte s a)) ∧
  (∀ (tr : Fin 64) (s : State) (w : Walk), s.banksRun = true → s.walkOf tr.val = some w →
    ∃ s', exec (.zeroWalkEnd tr) s = .next s' ∧ s'.cis.zeroWalks = s.cis.zeroWalks + 1 ∧
      ((∀ e ∈ s.flying, ∀ on ts, e.2.job ≠ .tractWait on ts) →
        (w.power = true → s'.tractState tr.val = 3) ∧
        ((∀ e ∈ s.flying, ∀ c, e.2.origin ≠ .script c) → SameMemory s s')))

/-! ## The Pumphouse: packets and what becomes of them -/

/-- An earlier command that a FENCE of queue `q` waits for: of its queue with SCOPE 0, of its context with SCOPE 1 (R263). -/
def Sys2Proof.fenceAwaits (s : State) (q k : Nat) (p : Pkt) : Prop :=
  ∃ e ∈ s.flying, e.1 ≠ k ∧ e.2.serial < s.pmh.serial ∧
    (if p.byte 8 = 1 then e.2.ctx = p.ctx else e.2.origin = .queue q)

/-- Result of a COND's TEST (R267): at or above, below, equal, not equal. -/
def Sys2Proof.condOutcome (test : Nat) (sem value : Word) : Bool :=
  match test with
  | 0 => decide (value.toNat ≤ sem.toNat)
  | 1 => decide (sem.toNat < value.toNat)
  | 2 => decide (sem = value)
  | _ => decide (sem ≠ value)

/-- NOP, FENCE, SEM_WAIT, SEM_SIGNAL and COND at dispatch (R263, R266, R267, R272, R280). A NOP ends with OK, and without
NOTIFY it leaves no completion; a FENCE ends at once unless an earlier command of its scope is in flight; a SEM_WAIT goes
in flight with its threshold; a SEM_SIGNAL adds to its semaphore, saturating, and gives the new value; a COND writes its
queue's condition bit and moves its predictor by one, and a wrong guess is counted; it stays at the head of its queue while
its wave satisfies a SEM_WAIT of a lower queue on its semaphore (R270). Each changes nothing else. -/
def Obligations.ControlPacketsAct : Prop :=
  ∀ (q : Fin 512) (k : Nat) (p : Pkt) (rest : List Pkt) (s : State), DispatchReady s q.val k p rest →
    let value := wordAt p.bytes 12
    (p.opcode = 0x00 → ∃ s', exec (.nop q) s = .next s' ∧ OnlyPumphouse s s' ∧ SamePumphouse s s' ∧
      (p.notify = true → Ended s s' q.val k p rest stOK 0 []) ∧
      (p.notify = false → Booked s s' q.val k (dispatched (s.queue q.val) k p rest) none [])) ∧
    (p.opcode = 0x01 → p.byte 8 ≤ 1 → ∃ s', exec (.fence q) s = .next s' ∧ OnlyPumphouse s s' ∧ SamePumphouse s s' ∧
      (fenceAwaits s q.val k p → InFlight s s' q.val k p rest (.fence (decide (p.byte 8 = 1)))) ∧
      (¬fenceAwaits s q.val k p → Ended s s' q.val k p rest stOK 0 [])) ∧
    (p.opcode = 0x02 → p.byte 9 = 0 → s.semOk p.ctx (p.byte 8) = true →
      ∃ s', exec (.semWait q) s = .next s' ∧ OnlyPumphouse s s' ∧ SamePumphouse s s' ∧
        InFlight s s' q.val k p rest (.semWait (p.byte 8) false value)) ∧
    (p.opcode = 0x02 → p.byte 9 = 1 → s.semOk p.ctx (p.byte 8) = true →
      ∃ s', exec (.semWaitTake q) s = .next s' ∧ OnlyPumphouse s s' ∧ SamePumphouse s s' ∧
        InFlight s s' q.val k p rest (.semWait (p.byte 8) true value)) ∧
    (p.opcode = 0x03 → bit (p.byte 9) 0 = false → s.semOk p.ctx (p.byte 8) = true →
      ∃ s' v, exec (.semSignal q) s = .next s' ∧ OnlyPumphouse s s' ∧
        v.toNat = min ((s.semOf (p.byte 8)).toNat + value.toNat) (2 ^ 32 - 1) ∧ s'.semOf (p.byte 8) = v ∧
        (∀ n, n ≠ p.byte 8 → s'.semOf n = s.semOf n) ∧ SamePumphouse s { s' with pmh := { s'.pmh with sem := s.pmh.sem } } ∧
        Ended s s' q.val k p rest stOK 0 (leBytes 4 v.toNat)) ∧
    (p.opcode = 0x04 → p.byte 9 ≤ 3 → s.semOk p.ctx (p.byte 8) = true →
      let out := condOutcome (p.byte 9) (s.semOf (p.byte 8)) value
      let x := s.queue q.val
      let first := ∀ e ∈ s.flying, ∀ t thr, e.2.job = .semWait (p.byte 8) t thr → thr.toNat ≤ (s.semOf (p.byte 8)).toNat →
        q.val ≤ e.2.origin.queueNo
      (¬ first → exec (.cond q) s = .next s) ∧
      (first → ∃ s' g, exec (.cond q) s = .next s' ∧ OnlyPumphouse s s' ∧
        SamePumphouse s { s' with pmh := { s'.pmh with laMispred := s.pmh.laMispred } } ∧
        g.toNat = (if out then min 3 (x.pred.toNat + 1) else x.pred.toNat - 1) ∧
        s'.pmh.laMispred = (if decide (2 ≤ x.pred.toNat) = out then s.pmh.laMispred else s.pmh.laMispred + 1) ∧
        Booked s s' q.val k { dispatched x k p rest with
            cond := out
            pred := g } (some (entryOf s q.val p .ended))
          [complOf s q.val k p stOK 0 []]))

/-- The bytes of `n` ring units from unit `head` on (R250). -/
def Sys2Proof.ringBytes (s : State) (m : QMap) (head : Word) (n : Nat) : List Byte :=
  (List.range n).flatMap (fun i => handleBytes s m.ctx m.handle (m.unitOff (head + BitVec.ofNat 32 i).toNat) 64)

/-- The words of `n` ring units from unit `head` on are clean. -/
def Sys2Proof.CleanUnits (s : State) (m : QMap) (head : Word) (n : Nat) : Prop :=
  ∀ i, i < n → CleanLines s [s.phys m.ctx m.handle (m.unitOff (head + BitVec.ofNat 32 i).toNat / 256 * 256)]

/-- The packet whose header lookahead reads next: one beyond those it has read, decoded and not yet dispatched, or the first
that still stands in the ring. -/
def Sys2Proof.AheadIs (s : State) (q : Nat) (p : Pkt) : Prop :=
  let x := s.queue q
  let m := s.act.qmap q
  x.decoded[x.looked + 1]? = some p ∨
    (x.decoded.length = x.looked + 1 ∧ s.checkUnit m x.head = none ∧ ∃ n, 1 ≤ n ∧ n ≤ (x.tail - x.head).toNat ∧
      CleanUnits s m x.head n ∧ n = p.units ∧
      p = { bytes := ringBytes s m x.head n, ctx := m.ctx, cls := m.cls, order := 0 })

/-- A waiting FENCE ends when no earlier command of its scope is in flight any more, and a waiting SEM_WAIT when its
semaphore stands at THRESHOLD or above and no lower queue's wait on it is satisfied too: TAKE subtracts the threshold, and
the completion gives the semaphore's value (R263, R266, R270). A COND-flagged packet that meets a clear condition bit is
skipped: it leaves its queue and writes no completion (R268). Lookahead reads one more header of at most sixteen beyond the
queue's oldest packet not yet dispatched, decoded or still in the ring, and
prestages for a flagged packet only where the predictor stands at 2 or 3 (R279 to R281).
Where the manual is silent this follows the model's choices (log 42). -/
def Obligations.QueuesGoOn : Prop :=
  (∀ (k : Fin 1024) (q : Nat) (c : Cmd) (s : State), s.silent = false → s.cmd k.val = some c → c.origin = .queue q →
    (∀ scope, c.job = .fence scope →
      (∀ e ∈ s.flying, e.1 ≠ k.val → e.2.serial < c.serial →
        if scope then e.2.ctx ≠ c.ctx else e.2.origin ≠ c.origin) →
      ∃ s', exec (.fenceComplete k) s = .next s' ∧ OnlyPumphouse s s' ∧ SamePumphouse s s' ∧
        Finished s s' q k.val c stOK 0 0 []) ∧
    (∀ sem take thr, c.job = .semWait sem take thr → thr.toNat ≤ (s.semOf sem).toNat →
      (∀ e ∈ s.flying, ∀ t th, e.2.job = .semWait sem t th → th.toNat ≤ (s.semOf sem).toNat → q ≤ e.2.origin.queueNo) →
      ∃ s', exec (.semWaitSatisfied k) s = .next s' ∧ OnlyPumphouse s s' ∧
        s'.semOf sem = (if take then s.semOf sem - thr else s.semOf sem) ∧ (∀ n, n ≠ sem → s'.semOf n = s.semOf n) ∧
        { s'.pmh with
            cmds := s.pmh.cmds
            compl := s.pmh.compl
            sem := s.pmh.sem } = s.pmh ∧
        Finished s s' q k.val c stOK 0 0 (leBytes 4 (s'.semOf sem).toNat))) ∧
  (∀ (q : Fin 512) (p : Pkt) (s : State),
    (∀ rest, (s.queue q.val).decoded = p :: rest → s.mayDispatch q.val p = true → p.condFlag = true →
      (s.queue q.val).cond = false →
      ∃ s', exec (.packetSkip q) s = .next s' ∧ { s' with queues := s.queues } = s ∧
        s'.queue q.val = { s.queue q.val with
          decoded := rest
          looked := (s.queue q.val).looked - 1 } ∧ ∀ r, r ≠ q.val → s'.queue r = s.queue r) ∧
    (s.dispatchOpen = true → (s.act.qmap q.val).en = true → (s.queue q.val).looked < 16 → AheadIs s q.val p →
      ∃ s' n, exec (.lookaheadPrestage q) s = .next s' ∧
        { s' with
          queues := s.queues
          pmh := { s'.pmh with laPrestage := s.pmh.laPrestage } } = s ∧
        s'.queue q.val = { s.queue q.val with looked := (s.queue q.val).looked + 1 } ∧
        (∀ r, r ≠ q.val → s'.queue r = s.queue r) ∧ s'.pmh.laPrestage = s.pmh.laPrestage + BitVec.ofNat 32 n ∧
        n = if p.lookahead = true ∧ (p.condFlag = true → 2 ≤ (s.queue q.val).pred.toNat) then s.prestageLines p else 0))

/-- PACKET_DECODE: of the queues with a decodable packet the arbiter serves one, of class 0 where there is one, and within
its class the first from the queue after the last served; the packet's units leave the ring, and it waits for dispatch in
its queue, or where its header fails a check its completion waits instead (R253, R256 to R258, R262). Where the ring read of
its first unit fails, the queue goes FAULTED with that status and nothing leaves it (R254). The
words read are clean. Where the manual is silent this follows the model's choices (log 43, 44). -/
def Obligations.DecodingServesTheArbitersQueue : Prop :=
  ∀ (s : State),
    let cands := (List.range 512).filterMap s.candidate
    s.decodeOpen = true → cands ≠ [] → (∀ cls, spGet 0 s.pmh.lastQ cls ≤ 512) →
    ∃ c s', c ∈ cands ∧ exec .packetDecode s = .next s' ∧
      ((∃ x ∈ cands, x.cls = 0) → c.cls = 0) ∧
      (∀ x ∈ cands, x.cls = c.cls →
        (c.q + 512 - spGet 0 s.pmh.lastQ c.cls) % 512 ≤ (x.q + 512 - spGet 0 s.pmh.lastQ c.cls) % 512) ∧
      spGet 0 s'.pmh.lastQ c.cls = c.q + 1 ∧ s'.pmh.cmds = s.pmh.cmds ∧ (∀ r, r ≠ c.q → s'.queue r = s.queue r) ∧
      (c.units = none → ∃ st, s.unitsFault (s.act.qmap c.q) (s.queue c.q).head 1 = some st ∧
        s'.queue c.q = { s.queue c.q with
          faulted := true
          fstatus := st } ∧ SameMemory s s') ∧
      ∀ n, c.units = some n →
        let m := s.act.qmap c.q
        let x := s.queue c.q
        s.unitsFault m x.head n = none →
        CleanUnits s m x.head n →
        let bytes := ringBytes s m x.head n
        let p : Pkt := { bytes := bytes, ctx := m.ctx, cls := m.classOf (byteAt bytes 5).toNat, order := s.pmh.order }
        OnlyMemory s s' ∧ SameMemory s s' ∧ s'.pmh.order = s.pmh.order + 1 ∧
          (s.headerFault m p = none →
            s'.queue c.q = { x with
              head := x.head + BitVec.ofNat 32 n
              decoded := x.decoded ++ [p] } ∧ s'.pmh.compl = s.pmh.compl) ∧
          (∀ st, s.headerFault m p = some st →
            s'.queue c.q = { x with head := x.head + BitVec.ofNat 32 n } ∧
            s'.pmh.compl = s.pmh.compl ++ [
              { slot := none, ctx := m.ctx, queue := c.q, tag := p.tag, notify := p.notify, status := st, reason := 0,
                flags := 0, late := false, wave := s.time.wave, data := [] }])

/-- COMPLETION_WRITE: the oldest waiting completion of the context is written at its ring's tail as Table CMD-6 lays it
out, PHASE inverted on each pass; its command, if it has one, leaves flight and the queue it held goes on (R272, R273, R276).
A packet that failed its header check holds no slot: its record is written in the same way. Where the packet asked for a
notice, CMD_NOTIFY with its context and TAG leaves once the record is written (R278). Where the
ring is full the record waits, and CRING_FULL is told once (R277). The command has pinned no page,
and no close and no detach is under way. Where the manual is silent this follows the model's choices (log 43). -/
def Obligations.CompletionsAreWritten : Prop :=
  ∀ (c : Fin 16) (s : State) (pre post : List Compl) (x : Compl),
    let r := (s.ctxOf c.val).cring
    s.pmh.compl = pre ++ x :: post → x.ctx = c.val → (∀ y ∈ pre, y.ctx ≠ c.val) →
    s.silent = false → s.rst.standby = false → s.ringReady c.val r 32 = true →
    (r.room 32 = true → (∀ k y, x.slot = some k → s.cmd k = some y → y.pins = []) → s.rst.detach = none →
      (∀ e ∈ s.flying, e.2.opcode ≠ 0x3B) → x.data.length ≤ 12 →
      ∃ s' : State, exec (.completionWrite c) s = .next (if x.notify then
          s'.notify { cls := 1, code := 1, data := BitVec.ofNat 64 (c.val + 2 ^ 16 * x.tag.toNat) } else s') ∧
        (∀ i, i < 32 → memByte s' (s.phys c.val r.handle.toNat (r.slotOff 32) + i) =
          byteAt (leBytes 2 x.tag.toNat ++ leBytes 2 (x.queue + 2 ^ 15 * (1 - r.tail.toNat / r.records 32 % 2))
            ++ leBytes 2 x.status.toNat ++ [x.reason, BitVec.ofNat 8 (x.flags.toNat + if x.late then 16 else 0)]
            ++ leBytes 8 s.now.toNat ++ leBytes 4 (min (s.time.wave - x.wave) (2 ^ 32 - 1)) ++ x.data) i) ∧
        (∀ a, a / 32 ≠ s.phys c.val r.handle.toNat (r.slotOff 32) / 32 → memByte s' a = memByte s a) ∧
        s'.pmh.compl = pre ++ post ∧
        (x.slot = none → s'.pmh.cmds = s.pmh.cmds ∧ s'.queues = s.queues) ∧
        (∀ k, x.slot = some k → s'.cmd k = none ∧ (∀ j, j ≠ k → s'.cmd j = s.cmd j) ∧
          ∀ y q, s.cmd k = some y → y.origin = .queue q →
            s'.queue q = (if (s.queue q).hold = some k then { s.queue q with hold := none } else s.queue q) ∧
            ∀ j, j ≠ q → s'.queue j = s.queue j) ∧
        s'.ctxOf c.val = { s.ctxOf c.val with cring := { r with
          tail := r.tail + 1
          told := false } } ∧ ∀ d, d ≠ c.val → s'.ctxOf d = s.ctxOf d) ∧
    (r.room 32 = false → r.told = false →
      ∃ s', exec (.completionWrite c) s = .next s' ∧ s'.pmh = s.pmh ∧ s'.queues = s.queues ∧ SameMemory s s' ∧
        s'.ctxOf c.val = { s.ctxOf c.val with cring := { r with told := true } })

/-- COPY between two handles of this die and FILL (R264, R265, Table CIS-4): the destination's bytes become the source's,
or the pattern at the offset modulo 8, and their words clean; no other byte and no other check bit changes, a COPY with
SEMEN adds to its semaphore, and the command ends with OK and its length. The words read are clean and the destination's
lines are distinct. Where the manual is silent this follows the model's choices (log 9, 45). -/
def Obligations.CopyAndFillMoveBytes : Prop :=
  ∀ (q : Fin 512) (k : Nat) (p : Pkt) (rest : List Pkt) (s : State), DispatchReady s q.val k p rest →
    (p.opcode = 0x08 → bit (p.byte 12) 0 = false → bit (p.byte 12) 1 = false →
      let soff := p.u64 16
      let doff := p.u64 24
      let len := p.u64 32
      let semen := bit (p.byte 12) 3
      let src := s.physLines p.ctx (p.handle 10) soff len
      let dst := s.physLines p.ctx (p.handle 11) doff len
      soff % 256 = 0 → doff % 256 = 0 → len % 256 = 0 → 0 < len → len ≤ 2 ^ 30 →
      s.checkRange p.ctx (p.handle 10) .wr soff len = none → s.checkRange p.ctx (p.handle 11) .ww doff len = none →
      CleanLines s src → dst.Nodup → (∀ a ∈ src, a ∉ dst) → (semen = true → s.semOk p.ctx (p.byte 13) = true) →
      ∃ s', exec (.copy q) s = .next s' ∧
        handleBytes s' p.ctx (p.handle 11) doff len = handleBytes s p.ctx (p.handle 10) soff len ∧
        (∀ a, a / 256 * 256 ∉ dst → memByte s' a = memByte s a) ∧
        (∀ w, w / 8 * 256 ∈ dst → Clean s' w) ∧ (∀ w, w / 8 * 256 ∉ dst → s'.syndrome w = s.syndrome w) ∧
        OnlyMemory s s' ∧ SamePumphouse s { s' with pmh := { s'.pmh with sem := s.pmh.sem } } ∧
        (∀ n, (s'.semOf n).toNat = if semen = true ∧ n = p.byte 13
          then min ((s.semOf n).toNat + (wordAt p.bytes 40).toNat) (2 ^ 32 - 1) else (s.semOf n).toNat) ∧
        Ended s s' q.val k p rest stOK 0 (leBytes 8 len)) ∧
    (p.opcode = 0x09 →
      let off := p.u64 16
      let len := p.u64 24
      let dst := s.physLines p.ctx (p.handle 10) off len
      off % 256 = 0 → len % 256 = 0 → 0 < len → len ≤ 2 ^ 30 → s.checkRange p.ctx (p.handle 10) .ww off len = none →
      dst.Nodup →
      ∃ s', exec (.fill q) s = .next s' ∧
        handleBytes s' p.ctx (p.handle 10) off len = (List.range len).map (fun i => byteAt p.bytes (32 + i % 8)) ∧
        (∀ a, a / 256 * 256 ∉ dst → memByte s' a = memByte s a) ∧
        (∀ w, w / 8 * 256 ∈ dst → Clean s' w) ∧ (∀ w, w / 8 * 256 ∉ dst → s'.syndrome w = s.syndrome w) ∧
        OnlyMemory s s' ∧ SamePumphouse s s' ∧ Ended s s' q.val k p rest stOK 0 (leBytes 8 len))

/-- The flits of a write transfer: for each segment of 32 KiB a WR_SEG and then the DATA that carries its bytes (R440,
R441). -/
def Sys2Proof.writeFlits (s : State) (k : Nat) (p : Pkt) (zrc : Bool) (bytes : List Byte) : List Flit :=
  let n := (bytes.length + 32767) / 32768
  (List.range n).flatMap (fun i =>
    let part := (bytes.drop (32768 * i)).take 32768
    wrSegFlit s.dieId (halfAt p.bytes 8) (BitVec.ofNat 4 p.ctx) (BitVec.ofNat 10 k) i (p.handle 11) (decide (i + 1 = n))
        (bit (p.byte 12) 3) (byteAt p.bytes 13) (p.u64 24 + 32768 * i) part.length (wordAt p.bytes 40)
      :: dataFlits s.dieId (halfAt p.bytes 8) (BitVec.ofNat 4 p.ctx) (BitVec.ofNat 10 k) (BitVec.ofNat 15 i) zrc
        [] (part.length + 1) 0 part)

/-- The flits of a read transfer: an RD_SEG for each segment (R442). -/
def Sys2Proof.readFlits (s : State) (k : Nat) (p : Pkt) : List Flit :=
  (List.range ((p.u64 32 + 32767) / 32768)).map (fun i =>
    rdSegFlit s.dieId (halfAt p.bytes 8) (BitVec.ofNat 4 p.ctx) (BitVec.ofNat 10 k) i (p.handle 10)
      (p.u64 16 + 32768 * i) (min 32768 (p.u64 32 - 32768 * i)))

/-- Commands to another die at dispatch (R271, R440 to R442): a remote SEM_SIGNAL sends its SEM_SIG; a COPY with DREMOTE
reads its source and sends its write segments and their DATA; a COPY with SREMOTE sends its read requests, and what the die was
to discard of that partner's transfer in the same slot is forgotten (log 79). Each then waits
in flight for its partner's answers. The words read are clean. -/
def Obligations.RemoteCommandsLeave : Prop :=
  ∀ (q : Fin 512) (k : Nat) (p : Pkt) (rest : List Pkt) (port : Nat) (s : State), DispatchReady s q.val k p rest →
    (p.opcode = 0x03 → bit (p.byte 9) 0 = true → s.egressPort (halfAt p.bytes 10) = some port →
      ∃ s', exec (.semSignalRemote q) s = .next s' ∧ OnlyPorts s s' ∧ SamePumphouse s s' ∧
        Offered s s' port [
          { vc := 0, typ := 6, src := s.dieId, dst := halfAt p.bytes 10, ctx := BitVec.ofNat 4 p.ctx, xid := 0, segno := 0,
            zrc := false, payload := leBytes 1 (p.byte 8) ++ leBytes 3 0 ++ leBytes 4 (wordAt p.bytes 12).toNat }] ∧
        InFlight s s' q.val k p rest (.remoteSig port (halfAt p.bytes 10) (p.byte 8))) ∧
    (p.opcode = 0x08 → p.u64 16 % 256 = 0 → p.u64 24 % 256 = 0 → p.u64 32 % 256 = 0 → 0 < p.u64 32 → p.u64 32 ≤ 2 ^ 30 →
      s.egressPort (halfAt p.bytes 8) = some port →
      (bit (p.byte 12) 0 = false → bit (p.byte 12) 1 = true →
        s.checkRange p.ctx (p.handle 10) .wr (p.u64 16) (p.u64 32) = none →
        CleanLines s (s.physLines p.ctx (p.handle 10) (p.u64 16) (p.u64 32)) →
        ∃ s', exec (.copyDremote q) s = .next s' ∧ OnlyMemory s { s' with ports := s.ports } ∧ SameMemory s s' ∧
          SamePumphouse s s' ∧
          Offered s s' port (writeFlits s k p (bit (p.byte 12) 2 && (s.port port).zrcEn)
            (handleBytes s p.ctx (p.handle 10) (p.u64 16) (p.u64 32))) ∧
          InFlight s s' q.val k p rest (.xfer (mkXfer p port false stOK))) ∧
      (bit (p.byte 12) 0 = true → bit (p.byte 12) 1 = false →
        s.checkRange p.ctx (p.handle 11) .ww (p.u64 24) (p.u64 32) = none →
        (bit (p.byte 12) 3 = true → s.semOk p.ctx (p.byte 13) = true) →
        ∃ s', exec (.copySremote q) s = .next s' ∧ OnlyPorts s { s' with rxSegs := s.rxSegs } ∧ SamePumphouse s s' ∧
          s'.rxSegs = s.rxSegs.filter (fun r => !(r.dead && decide (r.src = halfAt p.bytes 8) && decide (r.xid.toNat = k))) ∧
          Offered s s' port (readFlits s k p) ∧
          InFlight s s' q.val k p rest (.xfer (mkXfer p port true stOK))))

/-- The rows of the privileged opcodes with what selects them, and what follows their dispatch of itself: a close and an
orderly detach that are under way go on. -/
def Sys2Proof.privilegedRows (q : Fin 512) (p : Pkt) : List (Instr × Bool × (State → State)) := [
  (.cfgWrite q, decide (p.opcode = 0x38), id), (.cfgSwap q, decide (p.opcode = 0x39), id),
  (.ctxOpen q, decide (p.opcode = 0x3A), id), (.ctxClose q, decide (p.opcode = 0x3B), State.closesGoOn),
  (.tractPowerOn q, decide (p.opcode = 0x3C) && decide (p.byte 8 ≠ 0), id),
  (.tractPowerOff q, decide (p.opcode = 0x3C) && decide (p.byte 8 = 0), id),
  (.repairRowLive q, decide (p.opcode = 0x3D) && decide (p.byte 8 ≠ 1), id),
  (.repairRowRestore q, decide (p.opcode = 0x3D) && decide (p.byte 8 = 1), id), (.telemetry q, decide (p.opcode = 0x48), id),
  (.detachOrderly q, decide (p.opcode = 0x4A) && decide (p.byte 8 ≠ 1), State.detachGoesOn),
  (.detachAbandon q, decide (p.opcode = 0x4A) && decide (p.byte 8 = 1), id)]

/-- A privileged packet of a context other than 0, its header checks passed and its turn come, ends with PERMISSION before
any effect: nothing but the Pumphouse's books differs (R287). -/
def Obligations.PrivilegedPacketsNeedContextZero : Prop :=
  ∀ (q : Fin 512) (k : Nat) (p : Pkt) (rest : List Pkt) (s : State),
    (s.queue q.val).decoded = p :: rest → s.mayDispatch q.val p = true → (p.condFlag = true → (s.queue q.val).cond = true) →
    s.freeSlot = some k → s.outranked q.val p = false → p.ctx ≠ 0 →
    ∀ r ∈ privilegedRows q p, r.2.1 = true → ∃ s', exec r.1 s = .next (r.2.2 s') ∧ OnlyPumphouse s s' ∧ SamePumphouse s s' ∧
      Ended s s' q.val k p rest stPermission 0 []

/-- A packet whose parameters fail changes nothing but the books: a semaphore outside the context's range ends with
PERMISSION; a reserved SCOPE, MODE or TEST and a bad length with BOUNDS; an offset off its line with ALIGN; a handle's
failed check with its status and its order as REASON (R264, R269, Table CMD-6).
Where the manual is silent this follows the model's choices (log 45). -/
def Obligations.FailingParametersChangeNothing : Prop :=
  ∀ (q : Fin 512) (k : Nat) (p : Pkt) (rest : List Pkt) (s : State), DispatchReady s q.val k p rest →
    let fails := fun (i : Instr) (st : Half) (reason : Byte) => ∃ s', exec i s = .next s' ∧ OnlyPumphouse s s' ∧
      SamePumphouse s s' ∧ Ended s s' q.val k p rest st reason []
    (s.semOk p.ctx (p.byte 8) = false →
      (p.opcode = 0x02 → p.byte 9 ≠ 1 → fails (.semWait q) stPermission 0) ∧
      (p.opcode = 0x02 → p.byte 9 = 1 → fails (.semWaitTake q) stPermission 0) ∧
      (p.opcode = 0x03 → bit (p.byte 9) 0 = false → fails (.semSignal q) stPermission 0) ∧
      (p.opcode = 0x04 → fails (.cond q) stPermission 0)) ∧
    (s.semOk p.ctx (p.byte 8) = true →
      (p.opcode = 0x02 → 1 < p.byte 9 → fails (.semWait q) stBounds 0) ∧
      (p.opcode = 0x04 → 3 < p.byte 9 → fails (.cond q) stBounds 0)) ∧
    (p.opcode = 0x01 → 1 < p.byte 8 → fails (.fence q) stBounds 0) ∧
    (p.opcode = 0x09 →
      (p.u64 16 % 256 ≠ 0 → fails (.fill q) stAlign 0) ∧
      (p.u64 16 % 256 = 0 → p.u64 24 = 0 ∨ p.u64 24 % 256 ≠ 0 ∨ 2 ^ 30 < p.u64 24 → fails (.fill q) stBounds 0) ∧
      (∀ f, p.u64 16 % 256 = 0 → p.u64 24 ≠ 0 → p.u64 24 % 256 = 0 → p.u64 24 ≤ 2 ^ 30 →
        s.checkRange p.ctx (p.handle 10) .ww (p.u64 16) (p.u64 24) = some f → fails (.fill q) f.status f.order))

/-- A tile without its instruction buffer, the buffer's owner and its claim. -/
def Sys2Proof.wrenRest (x : Tile) : Tile :=
  { x with wren := { x.wren with
      claim := none
      owner := none
      ibuf := []
      ibMark := [] } }

/-- RUN from dispatch to its end (R50, R70, R240, R243 to R247). A valid RUN goes in flight; with LOAD, once its tiles are
idle, its image fills the buffer of every tile of the set, which the context then owns; without LOAD it waits for idle tiles
whose buffers the context owns; it starts with x1 the rank, x2 the
tile, x3 to x6 the arguments and p0 set; and when the last tile has ended it ends with OK or the data status, FLAGS as
raised, once the signals that the tile sent have arrived (R274). Where the manual is silent this follows the model's choices (log 50, 55). -/
def Obligations.RunsLoadLaunchAndEnd : Prop :=
  (∀ (q : Fin 512) (k : Nat) (p : Pkt) (rest : List Pkt) (s : State), DispatchReady s q.val k p rest → p.opcode = 0x10 →
    let tiles := halfAt p.bytes 8
    let load := bit (p.byte 11) 0
    tiles ≠ 0 → tiles.toNat < 2 ^ s.fuse.tileCount → p.u16 18 ≤ 1023 →
    (load = true → 1 ≤ p.byte 16 ∧ p.byte 16 ≤ 64 ∧
      s.check p.ctx (p.handle 10) .wr (p.u32 12) (256 * p.byte 16) 256 = none) →
    (load = false → ∀ t ∈ maskList tiles.toNat 16, (s.tile t).wren.owner = some p.ctx) →
    ∃ s', exec (.run q) s = .next s' ∧ OnlyPumphouse s s' ∧ SamePumphouse s s' ∧
      InFlight s s' q.val k p rest (.run
        { tiles := tiles, phandle := BitVec.ofNat 6 (p.handle 10), poff := p.u32 12, load := load, plines := p.byte 16,
          entry := p.u16 18, args := [dwordAt p.bytes 24, dwordAt p.bytes 32, dwordAt p.bytes 40, dwordAt p.bytes 48],
          filled := !load, started := false, ended := 0, halts := [], flags := 0, data := stOK })) ∧
  (∀ (k : Fin 1024) (c : Cmd) (r : RunJob) (s : State), s.silent = false → s.cmd k.val = some c → c.job = .run r →
    (r.filled = false → s.tilesIdle r.tiles = true → s.yields k.val c r.tiles = false →
      CleanLines s ((List.range r.plines).map (fun i => s.phys c.ctx r.phandle.toNat (r.poff + 256 * i))) →
      r.poff % 256 = 0 →
      ∃ s', exec (.loadFillEnd k) s = .next s' ∧ OnlyMemory s { s' with tiles := s.tiles } ∧ SameMemory s s' ∧
        SamePumphouse s s' ∧ s'.queues = s.queues ∧ s'.pmh.compl = s.pmh.compl ∧
        s'.cmd k.val = some { c with job := .run { r with
          filled := true
          data := stOK } } ∧
        (∀ t, t ∈ maskList r.tiles.toNat 16 →
          (wrenRest (s'.tile t) = wrenRest (s.tile t)) ∧
          (s'.tile t).wren.claim = some k.val ∧ (s'.tile t).wren.owner = some c.ctx ∧
          ∀ i, i < 16 * r.plines → ∀ b, b < 16 →
            (spGet 0 (s'.tile t).wren.ibuf i).toNat / 2 ^ (8 * b) % 256 =
              (memByte s (s.phys c.ctx r.phandle.toNat (r.poff + 16 * i + b))).toNat) ∧
        ∀ t, t ∉ maskList r.tiles.toNat 16 → s'.tile t = s.tile t) ∧
    (r.filled = true → r.started = false →
      (r.load = false → s.tilesIdle r.tiles = true ∧ s.yields k.val c r.tiles = false ∧
        ∀ t ∈ maskList r.tiles.toNat 16, (s.tile t).wren.owner = some c.ctx) →
      ∃ s', exec (.tileProgramLaunch k) s = .next s' ∧ SameMemory s s' ∧
        s'.cmd k.val = some { c with job := .run { r with started := true } } ∧
        (∀ i t, (maskList r.tiles.toNat 16)[i]? = some t →
          let w := (s'.tile t).wren
          w.prog = some { slot := k.val, ctx := c.ctx, tiles := r.tiles, rank := i } ∧ w.pc = r.entry ∧ w.p = 1 ∧
            w.claim = none ∧ w.ibuf = (s.tile t).wren.ibuf ∧
            readX w.x 1 = BitVec.ofNat 64 i ∧ readX w.x 2 = BitVec.ofNat 64 t ∧
            (∀ a, a < 4 → readX w.x (3 + a) = r.args.getD a 0) ∧ (∀ a, 7 ≤ a → readX w.x a = 0) ∧ w.xMark = []) ∧
        ∀ t, t ∉ maskList r.tiles.toNat 16 → s'.tile t = s.tile t)) ∧
  (∀ (t : Fin 16) (k q : Nat) (c : Cmd) (r : RunJob) (pg : Prog) (s : State), s.silent = false →
    (wrenOf s t).prog = some pg → pg.slot = k → (wrenOf s t).ended = true → (wrenOf s t).halted = false →
    (s.tile t.val).quiet = true → (∀ g ∈ s.pmh.sigs, g.source ≠ t) → s.cmd k = some c → c.origin = .queue q → c.job = .run r → r.halts = [] →
    setBit r.ended t.val true = r.tiles →
    ∃ s', exec (.tileProgramEnd t) s = .next s' ∧ OnlyTile t.val { s with pmh := s'.pmh } s' ∧
      s'.tile t.val = { s.tile t.val with wren := { wrenOf s t with prog := none } } ∧
      Finished s s' q k c (worstData r.data (wrenOf s t).data) 0 (r.flags ||| (wrenOf s t).raised) (leBytes 4 0))

/-! ## Configuration, contexts, tracts and detach -/

/-- The words of a CFG_WRITE as the part takes them: bits of absent tracts and of the S series' streams read as zero. -/
def Sys2Proof.cfgWords (s : State) (p : Pkt) : List Word :=
  (List.range (p.u16 12)).map (fun i =>
    match cfgItem (p.u32 8 + 4 * i) with
    | some it => wordAt p.bytes (16 + 4 * i) &&& s.cfgAbsent it
    | none => wordAt p.bytes (16 + 4 * i))

/-- The offsets of a CFG_WRITE. -/
def Sys2Proof.cfgOffs (p : Pkt) : List Nat := (List.range (p.u16 12)).map (fun i => p.u32 8 + 4 * i)

/-- CFG_WRITE changes its words of the shadow set and no other, and the active set not at all, where every item it touches
passes its rule (R290, R291). A swap request and a CFG_SWAP make a swap pending for the contexts it affects (R292, R294); a
request before READY is refused (R515);
a swap whose timeout elapses fails whole with SWAP_TIMEOUT (R297). -/
def Obligations.ConfigurationIsWrittenAndRequested : Prop :=
  (∀ (q : Fin 512) (k : Nat) (p : Pkt) (rest : List Pkt) (s : State), DispatchReady s q.val k p rest → s.frozen = false →
    (p.opcode = 0x38 → p.u32 8 % 4 = 0 → 0 < p.u16 12 → p.u16 12 ≤ 252 → 16 + 4 * p.u16 12 ≤ 64 * p.units →
      (∀ o ∈ cfgOffs p, ∃ it, cfgItem o = some it ∧ ∀ x, it ≠ .range x 3) →
      s.cfgFault (s.shd.putAll (p.u32 8) (cfgWords s p)) (cfgOffs p) = none →
      ∃ s', exec (.cfgWrite q) s = .next s' ∧ { s' with
            queues := s.queues
            pmh := s.pmh
            shd := s.shd } = s ∧ SamePumphouse s s' ∧
        (∀ i it, i < p.u16 12 → cfgItem (p.u32 8 + 4 * i) = some it →
          s'.shd.word (p.u32 8 + 4 * i) = wordAt p.bytes (16 + 4 * i) &&& s.cfgAbsent it &&& it.mask) ∧
        (∀ o, o % 4 = 0 → o ∉ cfgOffs p → s'.shd.word o = s.shd.word o) ∧
        Ended s s' q.val k p rest stOK 0 []) ∧
    (p.opcode = 0x39 →
      ∃ s' t, exec (.cfgSwap q) s = .next s' ∧ { s' with
            queues := s.queues
            pmh := s.pmh
            cfg := s.cfg } = s ∧ SamePumphouse s s' ∧
        s'.cfg = { s.cfg with
          swap := some { slot := some k, affected := s.affected, micros := t }
          affected := s.affected
          timedOut := false } ∧
        t = (if p.u32 12 = 0 then max 1 s.cfg.timeout.toNat else p.u32 12) ∧
        InFlight s s' q.val k p rest .swap)) ∧
  (∀ (s : State), s.silent = false →
    (s.rst.ready = false → exec .swapRequest s = .next s) ∧
    (s.rst.ready = true → s.frozen = false →
      exec .swapRequest s = .next { s with cfg := { s.cfg with
        swap := some { slot := none, affected := s.affected, micros := max 1 s.cfg.timeout.toNat }
        affected := s.affected
        timedOut := false } }) ∧
    (∀ p, s.cfg.swap = some p → (∀ k c, p.slot = some k → s.cmd k = some c → ∃ q, c.origin = .queue q) →
      ∃ s', exec .swapTimeout s = .next s' ∧ { s' with
            pmh := s.pmh
            cfg := s.cfg } = s ∧ SamePumphouse s s' ∧
        s'.cfg = { s.cfg with
          swap := none
          timedOut := true } ∧
        (p.slot = none → s'.pmh = s.pmh) ∧
        ∀ k q c, p.slot = some k → s.cmd k = some c → c.origin = .queue q →
          Finished s s' q k c stSwapTimeout 0 0 (leBytes 2 p.affected.toNat ++ leBytes 2 0)))

/-- A queue at its reset values: what it has decoded stays to be dispatched, and a command that holds it goes on (R255). -/
def Sys2Proof.resetOf (x : Queue) : Queue :=
  { Queue.reset with decoded := x.decoded, looked := min x.looked (x.decoded.length - 1), hold := x.hold }

/-- SWAP_POINT: once no affected context has a command in flight or a program running, the shadow set becomes active whole;
each queue whose map entry changed is at its reset values but for what it has decoded, each customer that left a context's range has no budget, and
where no granule changed owner the swap ends at once, else the walks that clear them are under way (R100, R255, R294, R296,
R298, R364). Where the manual is silent this follows the model's choices (log 35). -/
def Obligations.SwapsActivateTheShadowSet : Prop :=
  ∀ (p : Swap) (s : State), s.silent = false → s.cfg.swap = some p →
    (∀ e ∈ s.flying, bit p.affected.toNat e.2.ctx = true → some e.1 = p.slot) →
    (∀ c, c < 16 → bit p.affected.toNat c = true → s.ctxRuns c = false) →
    let ts := s.walkTracts (newlyOwned s.act s.shd)
    ∃ s', exec .swapPoint s = .next s' ∧ s'.act = s.shd ∧ s'.shd = s.shd ∧ s'.cfg.swap = none ∧
      (∀ q, q < 512 → s'.queue q =
        if s.act.word (offQmap + 8 * q) ≠ s.shd.word (offQmap + 8 * q)
          ∨ s.act.word (offQmap + 8 * q + 4) ≠ s.shd.word (offQmap + 8 * q + 4) then resetOf (s.queue q) else s.queue q) ∧
      (∀ n x, x < 16 → (s.act.range x).hasCust n = true → (s.shd.range x).hasCust n = false →
        (spGet Customer.reset s'.srv.cust n).budget = 0) ∧
      (ts ≠ [] → s'.cfg.walking = some { slot := p.slot, affected := p.affected, tracts := ts, walks := ts.length } ∧
        s'.cfg.swaps = s.cfg.swaps ∧ s'.pmh.compl = s.pmh.compl ∧ ∀ t ∈ ts, (s'.walkOf t).isSome = true) ∧
      (ts = [] → s'.cfg.walking = none ∧ s'.cfg.swaps = s.cfg.swaps + 1 ∧
        ∀ k q c, p.slot = some k → s.cmd k = some c → c.origin = .queue q →
          s'.cmd k = some { c with job := .ended } ∧ s'.pmh.compl = s.pmh.compl ++ [
            { slot := some k, ctx := c.ctx, queue := q, tag := c.tag, notify := c.notify, status := withData c.data stOK,
              reason := 0, flags := c.flags, late := false, wave := c.wave, data := leBytes 2 p.affected.toNat ++ leBytes 2 0 }])

/-- CTX_OPEN opens a CLOSED context with its salt, an empty completion ring, an UNSET pool and budgets of 0 (R299).
CTX_CLOSE makes a context CLOSING, which discards the packets that it has not decoded, and stays in flight while a long
command of it
runs; where nothing of the context is left to wait for and no granule to clear, the context is CLOSED at once, without
descriptors, queues, entries, semaphore values, streams or salt; the segments that other dies were sending it have failed; a
tile whose last program was its is zeroed, and an instruction buffer that it filled is empty and without owner (R241, R255,
R285, R300 to R302, Table CTX-3).
Where the manual is silent this follows the model's choices (log 36, 37). -/
def Obligations.ContextsOpenAndClose : Prop :=
  ∀ (q : Fin 512) (k : Nat) (p : Pkt) (rest : List Pkt) (s : State), DispatchReady s q.val k p rest →
    let c := p.byte 8
    1 ≤ c → c ≤ 15 →
    (p.opcode = 0x3A → (s.ctxOf c).state = .closed →
      ∃ s', exec (.ctxOpen q) s = .next s' ∧ { s' with
            queues := s.queues
            pmh := s.pmh
            ctxs := s.ctxs
            kvp := s.kvp
            srv := { s'.srv with cust := s.srv.cust } } = s ∧ SamePumphouse s s' ∧
        s'.ctxOf c = { s.ctxOf c with
          state := .opened
          salt := dwordAt p.bytes 16
          cring := { (s.ctxOf c).cring with
            tail := 0
            told := false } } ∧
        (∀ d, d ≠ c → s'.ctxOf d = s.ctxOf d ∧ s'.pool d = s.pool d) ∧
        ((s'.pool c).live, (s'.pool c).held, (s'.pool c).free, (s'.pool c).stack) = (false, 0, 0, []) ∧
        (∀ n, spGet Customer.reset s'.srv.cust n =
          if (s.act.range c).hasCust n = true then { spGet Customer.reset s.srv.cust n with budget := 0 }
          else spGet Customer.reset s.srv.cust n) ∧
        Ended s s' q.val k p rest stOK 0 []) ∧
    (p.opcode = 0x3B → (s.ctxOf c).state = .opened → s.frozen = false → (∀ e ∈ s.flying, e.2.opcode ≠ 0x3B) →
      ((∃ e ∈ s.flying, e.1 ≠ k ∧ e.2.ctx = c ∧ s.longCmd e.2 = true) →
        ∃ s', exec (.ctxClose q) s = .next s' ∧ s'.ctxOf c = { s.ctxOf c with state := .closing } ∧
          (∀ r, r < 512 → (s.act.qmap r).ctx = c → r ≠ q.val →
            s'.queue r = { s.queue r with
              looked := min (s.queue r).looked ((s.queue r).decoded.length - 1)
              head := (s.queue r).tail }) ∧
          s'.cmd k = some (entryOf s q.val p (.close { target := c, row := 2, ended := 0, retired := 0, tracts := [], walks := 0 })) ∧
          s'.pmh.compl = s.pmh.compl ∧ SameMemory s s') ∧
      (s.ctxQuiet c = true → s.walkTracts (s.act.ownedBy c) = [] →
        ∃ s', exec (.ctxClose q) s = .next s' ∧
          s'.ctxOf c = { s.ctxOf c with
            state := .closed
            salt := 0
            closing := [] } ∧
          (∀ h, h < 64 → (s'.act.desc c h).valid = false ∧ (s'.shd.desc c h).valid = false) ∧
          (∀ d h, d < 16 → d ≠ c → h < 64 → s'.act.desc d h = s.act.desc d h) ∧
          (∀ r, r < 512 → r ≠ q.val → (s.act.qmap r).ctx = c → s'.queue r = resetOf (s.queue r)) ∧
          (∀ t, t < 16 →
            let x := s.tile t
            let x' := s'.tile t
            (x.wren.owner = some c → (x'.wren.ibuf, x'.wren.ibMark, x'.wren.owner) = ([], [], none)) ∧
            (x.wren.owner ≠ some c → (x'.wren.ibuf, x'.wren.ibMark, x'.wren.owner) = (x.wren.ibuf, x.wren.ibMark, x.wren.owner)) ∧
            (x.wren.lastCtx = some c → (x'.wren.x, x'.wren.xMark, x'.wren.p, x'.wren.tsem) = ([], [], 1, []) ∧
              (x'.arr.acc, x'.arr.dacc, x'.arr.kind, x'.vec.v, x'.vec.m, x'.vec.t) = ([], [], [], [], [], [])) ∧
            (x.wren.lastCtx ≠ some c → x'.wren.x = x.wren.x ∧ x'.arr = x.arr ∧ x'.vec = x.vec)) ∧
          (∀ r ∈ s'.rxSegs, r.ctx.toNat = c → r.dead = true) ∧
          (∀ n, (spGet Entry.reset s.srv.entries n).ctx = c → (spGet Entry.reset s'.srv.entries n).state = .free) ∧
          (∀ n, s'.semOf n = if (s.act.range c).hasSem n = true then 0 else s.semOf n) ∧
          (s'.pool c).live = false ∧ s'.cmd k = some (entryOf s q.val p .ended) ∧ SameMemory s s' ∧
          s'.pmh.compl = s.pmh.compl ++ [complOf s q.val k p stOK 0
            (leBytes 2 0 ++ leBytes 2 (s.entriesOf c).length ++ leBytes 2 0)]))

/-- TRACT_POWER and REPAIR_ROW (R104 to R106, R129, R131 to R134). Turning on a tract that is OFF starts its waking and
waits; one that is ON ends at once. Turning off an ON tract that no descriptor spans takes it to OFF and its data with it
(R103), and one that is
spanned ends with PERMISSION. A repair of a row in an ON tract waits for its bank, unless there is nothing to install: then it ends at once
and says so. Where the manual is silent this follows the model's choices (log 35). -/
def Obligations.TractPowerAndRepairs : Prop :=
  ∀ (q : Fin 512) (k : Nat) (p : Pkt) (rest : List Pkt) (s : State), DispatchReady s q.val k p rest →
    (p.opcode = 0x3C → p.byte 9 = 0 → p.byte 10 ≤ 63 → s.tractPresent (p.byte 10) = true →
      let tr := p.byte 10
      (p.byte 8 = 1 → s.tractFailed tr = false → s.tractState tr = 0 →
        ∃ s', exec (.tractPowerOn q) s = .next s' ∧ s'.tractState tr = 1 ∧
          (∀ t, t ≠ tr → s'.tractState t = s.tractState t) ∧ SameMemory s s' ∧ SamePumphouse s s' ∧
          { s' with
              queues := s.queues
              pmh := s.pmh
              cis := { s'.cis with tract := s.cis.tract } } = s ∧
          InFlight s s' q.val k p rest (.tractOn [tr])) ∧
      (p.byte 8 = 1 → s.tractFailed tr = false → s.tractState tr = 3 →
        ∃ s', exec (.tractPowerOn q) s = .next s' ∧ OnlyPumphouse s s' ∧ SamePumphouse s s' ∧
          Ended s s' q.val k p rest stOK 0 []) ∧
      (p.byte 8 = 0 → s.tractState tr = 3 → s.act.spanned tr = true →
        ∃ s', exec (.tractPowerOff q) s = .next s' ∧ OnlyPumphouse s s' ∧ SamePumphouse s s' ∧
          Ended s s' q.val k p rest stPermission 0 []) ∧
      (p.byte 8 = 0 → s.tractState tr = 3 → s.act.spanned tr = false → s.walkOf tr = none → s.repairsOf tr = [] →
        ∃ s', exec (.tractPowerOff q) s = .next s' ∧ s'.tractState tr = 0 ∧
          (∀ t, t ≠ tr → s'.tractState t = s.tractState t) ∧
          (∀ b, b < 16 → (s'.bank tr b).scrub = none ∧ (s'.bank tr b).repair = none) ∧
          (∀ a, memByte s' a = if a / 2 ^ 24 = tr then 0 else memByte s a) ∧
          (∀ v, s'.syndrome v = if v / 2 ^ 19 = tr then 0 else s.syndrome v) ∧ Ended s s' q.val k p rest stOK 0 [])) ∧
    (p.opcode = 0x3D → p.byte 10 ≤ 15 → p.byte 9 ≤ 63 → p.u16 12 ≤ 511 → s.tractPresent (p.byte 9) = true →
      s.tractState (p.byte 9) = 3 →
      let x := s.bank (p.byte 9) (p.byte 10)
      (p.byte 8 = 0 → ∃ s', exec (.repairRowLive q) s = .next s' ∧ OnlyPumphouse s s' ∧ SamePumphouse s s' ∧
        (x.freeSpare ≠ none → InFlight s s' q.val k p rest (.repair false (p.byte 9) (p.byte 10) (p.u16 12))) ∧
        (x.freeSpare = none → Ended s s' q.val k p rest stOK 0
          (leBytes 1 2 ++ leBytes 1 ((x.spareOf (p.u16 12)).getD 0xFF) ++ leBytes 1 x.freeCount))) ∧
      (p.byte 8 = 1 → ∃ s', exec (.repairRowRestore q) s = .next s' ∧ OnlyPumphouse s s' ∧ SamePumphouse s s' ∧
        (x.spareOf (p.u16 12) = none → x.freeSpare ≠ none →
          InFlight s s' q.val k p rest (.repair true (p.byte 9) (p.byte 10) (p.u16 12))) ∧
        (∀ n, x.spareOf (p.u16 12) = some n → Ended s s' q.val k p rest stOK 0
          (leBytes 1 1 ++ leBytes 1 n ++ leBytes 1 x.freeCount))))

/-- STANDBY: no Cistern contents and no tract ON, the VCORE and VCIS monitors masked, nothing else lost (R523). -/
def Sys2Proof.InStandby (s s' : State) : Prop :=
  s'.rst = { s.rst with
    standby := true
    phase := 6
    detach := none } ∧
  (∀ a, memByte s' a = Memory.default) ∧ (∀ w, s'.syndrome w = 0) ∧ (∀ t, s'.tractState t = 0) ∧
  s'.cis.banks = s.cis.banks ∧
  s'.pwr = { s.pwr with
    vcoreWarn := false
    vcisWarn := false } ∧
  { s' with
      queues := s.queues
      pmh := s.pmh
      rst := s.rst
      pwr := s.pwr
      cis := s.cis } = s

/-- DETACH (R519 to R523, Table RST-4). An orderly detach waits, for its BOUND or where that is 0 the register's, while other
commands are in flight and else has its completion at once; when its bound expires the tiles are held and the commands that wait end with REFUSE_CONTEXT; an
abandoned one, the ABANDON register and the last acknowledged LEAVING put the die in STANDBY.
Where the manual is silent this follows the model's choices (log 33). -/
def Obligations.DetachesEndInStandby : Prop :=
  (∀ (q : Fin 512) (k : Nat) (p : Pkt) (rest : List Pkt) (s : State), DispatchReady s q.val k p rest → p.opcode = 0x4A →
    (p.byte 8 = 0 → s.rst.detach = none →
      let micros := if p.u32 12 ≠ 0 then p.u32 12 else max 1 s.rst.detachBound.toNat
      ∃ s', exec (.detachOrderly q) s = .next s' ∧ { s' with
            queues := s.queues
            pmh := s.pmh
            rst := s.rst } = s ∧ SamePumphouse s s' ∧
        ((∃ e ∈ s.flying, e.1 ≠ k) →
          s'.rst = { s.rst with
            phase := 5
            detach := some { slot := k, bound := micros, finished := 0, ended := 0, stage := 2 } } ∧
          InFlight s s' q.val k p rest .detach) ∧
        ((∀ e ∈ s.flying, e.1 = k) →
          s'.rst = { s.rst with
            phase := 5
            detach := some { slot := k, bound := micros, finished := 0, ended := 0, stage := 4 } } ∧
          Ended s s' q.val k p rest stOK 0 (leBytes 2 0 ++ leBytes 2 0))) ∧
    (p.byte 8 = 1 →
      ∃ s', exec (.detachAbandon q) s = .next s' ∧ InStandby s s' ∧ SamePumphouse s s' ∧
        InFlight s s' q.val k p rest .detach)) ∧
  (∀ (d : Detach) (s : State), s.silent = false → s.rst.detach = some d →
    (d.stage = 2 → (∃ e ∈ s.flying, e.1 ≠ d.slot) →
      ∃ s' st n, exec .detachBoundExpire s = .next s' ∧ s'.pmh.tileHold = 0xFFFF ∧ (st = 3 ∨ st = 4) ∧
        s'.rst.detach = some { d with
          stage := st
          ended := ((s.slotsThat Cmd.lives).filter (fun j => decide (j ≠ d.slot))).length
          finished := n } ∧
        ∀ k q c sem take thr, k ≠ d.slot → s.cmd k = some c → c.origin = .queue q → c.job = .semWait sem take thr →
          s'.cmd k = some { c with job := .ended } ∧
          { slot := some k, ctx := c.ctx, queue := q, tag := c.tag, notify := c.notify, status := stRefuseContext,
            reason := 0, flags := c.flags, late := false, wave := c.wave, data := [] } ∈ s'.pmh.compl) ∧
    (d.stage = 5 → (∀ p, p < 9 → (s.port p).leaving = false) →
      ∃ s', exec .standbyEnter s = .next s' ∧ InStandby s s' ∧ s'.pmh = s.pmh ∧ s'.queues = s.queues) ∧
    (d.stage ≤ 3 → ∃ s', exec .abandon s = .next s' ∧ InStandby s s' ∧ s'.pmh = s.pmh ∧ s'.queues = s.queues))

/-! ## Pages and the prefix index -/

/-- The lines that `n` bytes at offset `off` of a handle touch. -/
def Sys2Proof.touchedLines (s : State) (c h off n : Nat) : List Nat :=
  (List.range (lineCount off n)).map (fun i => s.phys c h (off / 256 * 256 + 256 * i))

/-- The number of `n` bytes at offset `off` of a handle. -/
def Sys2Proof.numAt (s : State) (c h off n : Nat) : Nat := fieldAt (handleBytes s c h off n) 0 n

/-- Nothing outside the Pumphouse, the queues, the Cistern's words, grants and logs, the notices, the pools and the free values
differs. -/
def Sys2Proof.OnlyPages (s s' : State) : Prop :=
  SameBanks s s' ∧ { s' with
    queues := s.queues
    pmh := s.pmh
    ports := s.ports
    top := { s'.top with unroutable := s.top.unroutable }
    rst := { s'.rst with
      noticeBuf := s.rst.noticeBuf
      noticeLost := s.rst.noticeLost }
    cis := { s'.cis with
      mem := s.cis.mem
      synd := s.cis.synd
      banks := s.cis.banks
      slots := s.cis.slots
      elog := s.cis.elog
      elogHead := s.cis.elogHead
      elogLost := s.cis.elogLost
      ce := s.cis.ce
      ue := s.cis.ue
      poisonReads := s.cis.poisonReads }
    kvp := s.kvp
    free := s.free } = s

/-- No byte outside these lines differs. -/
def Sys2Proof.OnlyLines (s s' : State) (lines : List Nat) : Prop := ∀ a, a / 256 * 256 ∉ lines → memByte s' a = memByte s a

/-- The status of a command whose accesses met no damaged word, or a data status (R123). -/
def Sys2Proof.DataStatus (s : State) (st : Half) : Prop :=
  (st = stOK ∨ st = stPoison ∨ st = stUncorrectable) ∧ ((∀ w, Clean s w) → st = stOK)

/-- `Ended` with flags. -/
def Sys2Proof.EndedWith (s s' : State) (q k : Nat) (p : Pkt) (rest : List Pkt) (st : Half) (fl : Flags) (data : List Byte) : Prop :=
  Booked s s' q k (dispatched (s.queue q) k p rest)
    (some { entryOf s q p .ended with flags := fl }) [{ complOf s q k p st 0 data with flags := fl }]

/-- Lines of a pool's pages and of its page records (R327). -/
def Sys2Proof.pageLines (s : State) (c : Nat) : List Nat :=
  touchedLines s c (s.pool c).phandle.toNat (s.pool c).dataOff.toNat ((s.pool c).pages.toNat * (s.pool c).pageSize)
def Sys2Proof.recordLines (s : State) (c : Nat) : List Nat :=
  touchedLines s c (s.pool c).phandle.toNat (s.pool c).metaOff.toNat (8 * (s.pool c).pages.toNat)

/-- The bytes of a directory and its lines. -/
def Sys2Proof.dirBytes (d : Dir) : Nat := 64 + 4 * (d.layers * d.heads * d.blocks)
def Sys2Proof.dirLines (s : State) (c : Nat) (d : Dir) : List Nat := touchedLines s c d.h d.off (dirBytes d)

/-- The directory `d` stands at its offset with clean words, and its accesses pass Table CIS-4 (R333, R336). -/
structure Sys2Proof.DirReady (s : State) (c : Nat) (d : Dir) (write : Bool) : Prop where
  header : s.chk c d.h .wr d.off 64 = none
  layers : d.layers = numAt s c d.h d.off 2
  heads : d.heads = numAt s c d.h (d.off + 2) 2
  head0 : d.head0 = numAt s c d.h (d.off + 4) 2
  blocks : d.blocks = numAt s c d.h (d.off + 8) 4
  some : 1 ≤ d.blocks ∧ d.blocks ≤ 2048
  reads : s.chk c d.h .wr d.off (dirBytes d) = none
  writes : write = true → s.chk c d.h .ww d.off (dirBytes d) = none
  clean : CleanLines s (dirLines s c d)

/-- The entry of layer `l`, head `hh`, block `b` (R335). -/
def Sys2Proof.entAt (s : State) (c : Nat) (d : Dir) (e : Nat × Nat × Nat) : Nat :=
  numAt s c d.h (d.entryOff e.1 e.2.1 e.2.2) 4

/-- Entries of the given layers, heads and blocks, blocks fastest. -/
def Sys2Proof.entriesIn (layers heads blocks : List Nat) : List (Nat × Nat × Nat) :=
  layers.flatMap (fun l => heads.flatMap (fun hh => blocks.map (fun b => (l, hh, b))))

/-- Page ids that the next `n` allocations give: the free stack from its top, then fresh ids (R330). -/
def Sys2Proof.nextPages (p : Pool) (n : Nat) : List Nat :=
  p.stack.take n ++ (List.range (n - p.stack.length)).map (fun i => p.fresh + i)

/-- A pool after `n` allocations (Table KVP-3). -/
def Sys2Proof.tookPages (p : Pool) (n : Nat) : Pool :=
  { p with
    free := p.free - n
    held := p.held + n
    stack := p.stack.drop n
    fresh := p.fresh + (n - p.stack.length) }

/-- Context `c`'s pool becomes `x`; no other differs. -/
def Sys2Proof.PoolIs (s s' : State) (c : Nat) (x : Pool) : Prop := s'.pool c = x ∧ ∀ d, d ≠ c → s'.pool d = s.pool d

/-- Pages of the list, and no others, have gone on the free stack; nothing else of the pool but HELD and RECLAIM differs. -/
def Sys2Proof.PagesFreed (s s' : State) (c : Nat) (ids : List Nat) : Prop :=
  ∃ freed : List Nat, (∀ i ∈ freed, i ∈ ids) ∧
    PoolIs s s' c { s.pool c with
      stack := freed ++ (s.pool c).stack
      free := (s.pool c).free + freed.length
      held := (s'.pool c).held
      reclaim := (s'.pool c).reclaim }

/-- The page records stand on lines of their own, with clean words (R327). -/
def Sys2Proof.RecordsReady (s : State) (c : Nat) : Prop :=
  (s.pool c).metaOff.toNat % 256 = 0 ∧ (recordLines s c).Nodup ∧ CleanLines s (recordLines s c)

/-- No line of one list is one of the other. -/
def Sys2Proof.Apart (a b : List Nat) : Prop := ∀ l ∈ a, l ∉ b

/-- The pages whose last reference goes as one reference goes for each listing, in that order. -/
def Sys2Proof.zeroedBy (s : State) (c : Nat) (ids : List Nat) : List Nat :=
  ((List.range ids.length).filter (fun j =>
    decide (timesIn (ids.getD j 0) (ids.take (j + 1)) = s.pageRef c (ids.getD j 0)))).map (fun j => ids.getD j 0)

/-- Each listing has dropped one reference (Table KVP-3): a page whose last one it was is FREE, on top of the stack with NEXT
naming the page below it, or while pinned in RECLAIM; the rest of the pool is as `f` gives it. -/
def Sys2Proof.PagesDropped (s s' : State) (c : Nat) (ids : List Nat) (f : Pool → Pool) : Prop :=
  let p := s.pool c
  let gone := zeroedBy s c ids
  let freed := (gone.filter (fun i => decide (s.pagePin c i = 0))).reverse
  PoolIs s s' c (f { p with
    stack := freed ++ p.stack
    free := p.free + freed.length
    held := p.held - gone.length
    reclaim := p.reclaim + (gone.length - freed.length) }) ∧
  (∀ i, i < p.pages.toNat → s'.pageRef c i = s.pageRef c i - timesIn i ids ∧ s'.pagePin c i = s.pagePin c i) ∧
  ∀ m b, m < freed.length → (freed ++ p.stack)[m + 1]? = some b →
    numAt s' c p.phandle.toNat (p.recOff (freed.getD m 0) + 4) 4 = b % 2 ^ 32

/-- The entries of a directory that a trim of MODE `front` at `pos` covers and whose V is set (R341). -/
def Sys2Proof.trimmed (s : State) (c : Nat) (d : Dir) (front : Bool) (pos : Nat) : List (Nat × Nat × Nat) :=
  (entriesIn (List.range d.layers) d.headList ((trimBlocks front pos d.blocks).filter (s.localBlock c))).filter
    (fun e => entryV (entAt s c d e))

/-- The trim has dropped a reference for each of these entries and cleared them. -/
def Sys2Proof.Trimmed (s s' : State) (c : Nat) (d : Dir) (es : List (Nat × Nat × Nat)) : Prop :=
  OnlyLines s s' (dirLines s c d ++ recordLines s c) ∧
    PagesFreed s s' c (es.map (fun e => entryPage (entAt s c d e))) ∧
    (RecordsReady s c → Apart (dirLines s c d) (recordLines s c) →
      PagesDropped s s' c (es.map (fun e => entryPage (entAt s c d e))) id) ∧
    ((dirLines s c d).Nodup → (∀ a ∈ dirLines s c d, a ∉ recordLines s c) →
      ∀ e, e ∈ entriesIn (List.range d.layers) d.headList (List.range d.blocks) →
        entAt s' c d e = if e ∈ es then 0 else entAt s c d e)

/-- These pages have been taken: each has one reference and no pin, and every other record is as it was. -/
def Sys2Proof.TakenOnce (s s' : State) (c : Nat) (ids : List Nat) : Prop :=
  ∀ i, i < (s.pool c).pages.toNat →
    s'.pageRef c i = (if i ∈ ids then 1 else s.pageRef c i) ∧ s'.pagePin c i = (if i ∈ ids then 0 else s.pagePin c i)

/-- PAGE_ALLOC gives the pool's next pages, as a list or into the entries without V of the local blocks from FROM on;
a page taken has one reference and no pin;
PAGE_FREE drops a reference a listing, and a page whose last one it was goes on the free stack, or while pinned into
RECLAIM; KV_TRIM drops the references of the entries it covers, clears them and says how many (R330 to R332, R341 to R343,
Table KVP-3). What directories and lists the die reads is clean. Each of the five commands completes so for every state and
packet that meet these conditions.
Where the manual is silent this follows the model's choices (log 56, 57). -/
def Obligations.PagesAreTakenAndGivenBack : Prop :=
  ∀ (q : Fin 512) (k : Nat) (p : Pkt) (rest : List Pkt) (s : State), DispatchReady s q.val k p rest →
    s.poolFault p.ctx false = none →
    let c := p.ctx
    let x := s.pool c
    let n := p.u16 10
    (p.opcode = 0x2B → p.byte 9 = 0 → 1 ≤ n → n ≤ 1024 → n ≤ x.avail → s.chk c (p.handle 8) .ww (p.u64 16) (4 * n) = none →
      ∃ s' st, exec (.pageAllocList q) s = .next s' ∧ OnlyPages s s' ∧ SamePumphouse s s' ∧
        PoolIs s s' c (tookPages x n) ∧
        ((touchedLines s c (p.handle 8) (p.u64 16) (4 * n)).Nodup →
          handleBytes s' c (p.handle 8) (p.u64 16) (4 * n) = (nextPages x n).flatMap (leBytes 4)) ∧
        ((∀ i ∈ nextPages x n, i < x.pages.toNat) →
          OnlyLines s s' (touchedLines s c (p.handle 8) (p.u64 16) (4 * n) ++ pageLines s c ++ recordLines s c) ∧
          (RecordsReady s c → (nextPages x n).Nodup → Apart (pageLines s c) (recordLines s c) →
            Apart (touchedLines s c (p.handle 8) (p.u64 16) (4 * n)) (recordLines s c) →
            TakenOnce s s' c (nextPages x n))) ∧
        DataStatus s st ∧ Ended s s' q.val k p rest st 0 []) ∧
    (∀ d, d.h = p.handle 8 → d.off = p.u64 16 → DirReady s c d true →
      (p.opcode = 0x2B → p.byte 9 = 1 → (0 < n → p.u32 12 + n ≤ d.blocks) →
        let all := entriesIn (List.range d.layers) d.headList
          (((List.range n).map (fun i => p.u32 12 + i)).filter (s.localBlock c))
        let new := all.filter (fun e => !entryV (entAt s c d e))
        new.length ≤ x.avail →
        ∃ s' st, exec (.pageAllocDirectory q) s = .next s' ∧ OnlyPages s s' ∧ SamePumphouse s s' ∧
          PoolIs s s' c (tookPages x new.length) ∧
          ((∀ i ∈ nextPages x new.length, i < x.pages.toNat) →
            OnlyLines s s' (dirLines s c d ++ pageLines s c ++ recordLines s c) ∧
            ((dirLines s c d).Nodup → (∀ a ∈ dirLines s c d, a ∉ pageLines s c ∧ a ∉ recordLines s c) →
              (RecordsReady s c → (nextPages x new.length).Nodup → Apart (pageLines s c) (recordLines s c) →
                TakenOnce s s' c (nextPages x new.length)) ∧
              (∀ i e, new[i]? = some e → entAt s' c d e = 2 ^ 31 + (nextPages x new.length).getD i 0) ∧
              ∀ e ∈ all, e ∉ new → entAt s' c d e = entAt s c d e)) ∧
          DataStatus s st ∧ Ended s s' q.val k p rest st 0 []) ∧
      (p.opcode = 0x2A →
        (p.byte 9 = 0 → s.refsCover c ((trimmed s c d false (p.u32 12)).map (fun e => entryPage (entAt s c d e))) = true →
          ∃ s' st, exec (.kvTrimTail q) s = .next s' ∧ OnlyPages s s' ∧ SamePumphouse s s' ∧
            Trimmed s s' c d (trimmed s c d false (p.u32 12)) ∧ DataStatus s st ∧
            Ended s s' q.val k p rest st 0 (leBytes 4 (trimmed s c d false (p.u32 12)).length)) ∧
        (p.byte 9 = 1 → s.refsCover c ((trimmed s c d true (p.u32 12)).map (fun e => entryPage (entAt s c d e))) = true →
          ∃ s' st, exec (.kvTrimFront q) s = .next s' ∧ OnlyPages s s' ∧ SamePumphouse s s' ∧
            Trimmed s s' c d (trimmed s c d true (p.u32 12)) ∧ DataStatus s st ∧
            Ended s s' q.val k p rest st 0 (leBytes 4 (trimmed s c d true (p.u32 12)).length)))) ∧
    (p.opcode = 0x2C → 1 ≤ n → n ≤ 1024 → s.chk c (p.handle 8) .wr (p.u64 16) (4 * n) = none →
      CleanLines s (touchedLines s c (p.handle 8) (p.u64 16) (4 * n)) →
      let ids := (List.range n).map (fun i => numAt s c (p.handle 8) (p.u64 16 + 4 * i) 4)
      s.refsCover c ids = true →
      ∃ s' st, exec (.pageFree q) s = .next s' ∧ OnlyPages s s' ∧ SamePumphouse s s' ∧
        OnlyLines s s' (recordLines s c) ∧ PagesFreed s s' c ids ∧ (RecordsReady s c → PagesDropped s s' c ids id) ∧
        (∀ i, ids = [i] →
          (1 < s.pageRef c i → PoolIs s s' c x ∧
            (x.metaOff.toNat % 256 = 0 → CleanLines s (recordLines s c) →
              s'.pageRef c i = s.pageRef c i - 1 ∧ s'.pagePin c i = s.pagePin c i)) ∧
          (s.pageRef c i = 1 → s.pagePin c i = 0 → PoolIs s s' c { x with
            held := x.held - 1
            free := x.free + 1
            stack := i :: x.stack }) ∧
          (s.pageRef c i = 1 → 0 < s.pagePin c i → PoolIs s s' c { x with
            held := x.held - 1
            reclaim := x.reclaim + 1 })) ∧
        DataStatus s st ∧ Ended s s' q.val k p rest st 0 [])

/-- Entries that an append touches, and those without V among them (R337). -/
def Sys2Proof.appendEnts (s : State) (c : Nat) (a : Append) : List (Nat × Nat × Nat) :=
  entriesIn [a.layer] ((List.range a.nhead).map (fun i => a.headA + i)) (s.touched c a.pos a.npos)

/-- The element bytes and scale bytes of the source vector of `part` (0 keys, 1 values), head `hi`, position `j`. -/
def Sys2Proof.sourceVector (s : State) (c : Nat) (a : Append) (part hi j : Nat) : List Byte × List Byte :=
  let x := s.pool c
  let off := (if part = 0 then a.koff else a.voff) + (hi * a.npos + j) * x.dim * a.elemSize
  let bs := handleBytes s c a.sh off (x.dim * a.elemSize)
  let f := if a.fp32 then fFP32 else fBF16
  let e := x.encode (val32 (if part = 0 then a.qk else a.qv))
    ((List.range x.dim).map (fun i => elemVal f false (elemAt f bs i)))
  (e.1, e.2.1)

/-- The bytes of position `j` of part `part` (0 keys, 1 values) of page `n`: elements and scales (Table KVP-1). -/
def Sys2Proof.positionBytes (s : State) (c n part j : Nat) : List Byte × List Byte :=
  let x := s.pool c
  (handleBytes s c x.phandle.toNat (x.pageOff n + part * x.elems + j * (x.elems / 64)) (x.elems / 64),
    handleBytes s c x.phandle.toNat (x.pageOff n + 2 * x.elems + part * x.scales + j * (x.scales / 64)) (x.scales / 64))

/-- The lines that an append works on are apart and clean, and the pages it takes and finds are not the same page twice. -/
structure Sys2Proof.AppendApart (s : State) (c : Nat) (d : Dir) (es : List (Nat × Nat × Nat)) (taken : List Nat) : Prop where
  records : RecordsReady s c
  dir : (dirLines s c d).Nodup
  pages : (pageLines s c ++ recordLines s c).Nodup
  clean : CleanLines s (pageLines s c)
  apart : Apart (dirLines s c d) (pageLines s c ++ recordLines s c)
  inPool : ∀ i ∈ taken, i < (s.pool c).pages.toNat
  other : ∀ i ∈ taken, ∀ e ∈ es, entryV (entAt s c d e) = true → entryPage (entAt s c d e) ≠ i
  taken : taken.Nodup
  once : ((es.filter (fun e => entryV (entAt s c d e))).map (fun e => entryPage (entAt s c d e))).Nodup

/-- KV_APPEND takes a page for every touched entry without V and for every one whose page is shared, and says how many of
each. A shared page is copied: the new page has the positions before the append, of keys and of values, the entry names it and
the old page has one reference less. Then every vector stands in its page as converted (R337, R338, Table KVP-1). KV_ROLLBACK
sets LENGTH, trims the tail where asked, and waits while its request is in a running step; a NEWLEN above LENGTH is BOUNDS
(R340). Both complete so for every state and packet that meet these conditions.
Where the manual is silent this follows the model's choices (log 57). -/
def Obligations.AppendsAndRollbacks : Prop :=
  ∀ (q : Fin 512) (k : Nat) (p : Pkt) (rest : List Pkt) (s : State), DispatchReady s q.val k p rest →
    s.poolFault p.ctx false = none →
    let c := p.ctx
    let x := s.pool c
    let a := p.append
    (p.opcode = 0x28 → p.byte 10 ≤ 1 → 1 ≤ a.npos → a.npos ≤ 2048 →
      ∀ d, d.h = a.dh → d.off = a.doff → DirReady s c d true → a.inDir d = true →
      s.chk c a.sh .wr a.koff (a.nhead * a.npos * x.dim * a.elemSize) = none →
      s.chk c a.sh .wr a.voff (a.nhead * a.npos * x.dim * a.elemSize) = none →
      let es := appendEnts s c a
      (∀ e ∈ es, entryV (entAt s c d e) = true → s.pageHeld c (entryPage (entAt s c d e)) = true) →
      let new := es.filter (fun e => !entryV (entAt s c d e))
      let shared := es.filter (fun e => entryV (entAt s c d e) && decide (1 < s.pageRef c (entryPage (entAt s c d e))))
      new.length + shared.length ≤ x.avail →
      ∃ s' st fl copies, exec (.kvAppend q) s = .next s' ∧ OnlyPages s s' ∧ SamePumphouse s s' ∧
        copies ≤ (es.filter (fun e => entryV (entAt s c d e))).length ∧
        (let need := es.filter (fun e => !entryV (entAt s c d e) || decide (1 < s.pageRef c (entryPage (entAt s c d e))))
         let taken := nextPages x need.length
         AppendApart s c d es taken →
          copies = shared.length ∧ PoolIs s s' c { tookPages x need.length with cows := x.cows + shared.length } ∧
          (∀ m e, need[m]? = some e → entAt s' c d e = 2 ^ 31 + taken.getD m 0) ∧
          (∀ e ∈ es, e ∉ need → entAt s' c d e = entAt s c d e) ∧
          (∀ i, i < x.pages.toNat → s'.pageRef c i =
            if i ∈ taken then 1
            else if i ∈ shared.map (fun e => entryPage (entAt s c d e)) then s.pageRef c i - 1 else s.pageRef c i) ∧
          (∀ m e, need[m]? = some e → e ∈ shared → ∀ part j, part ≤ 1 → j < min 64 (a.pos - 64 * e.2.2) →
            positionBytes s' c (taken.getD m 0) part j = positionBytes s c (entryPage (entAt s c d e)) part j) ∧
          ((∀ part, part ≤ 1 →
              let lines := touchedLines s c a.sh (if part = 0 then a.koff else a.voff) (a.nhead * a.npos * x.dim * a.elemSize)
              CleanLines s lines ∧ Apart lines (dirLines s c d ++ pageLines s c ++ recordLines s c)) →
            ∀ part hi j, part ≤ 1 → hi < a.nhead → j < a.npos → s.localBlock c ((a.pos + j) / 64) = true →
              positionBytes s' c (entryPage (entAt s' c d (a.layer, a.headA + hi, (a.pos + j) / 64))) part ((a.pos + j) % 64) =
                sourceVector s c a part hi j)) ∧
        (new = es → PoolIs s s' c (tookPages x es.length)) ∧
        ((∀ i ∈ nextPages x es.length, i < x.pages.toNat) → new = es → (dirLines s c d).Nodup →
          (∀ l ∈ dirLines s c d, l ∉ pageLines s c ∧ l ∉ recordLines s c) →
          OnlyLines s s' (dirLines s c d ++ pageLines s c ++ recordLines s c)) ∧
        (∀ e i, es = [e] → new = [e] → a.npos = 1 → a.nhead = 1 → nextPages x 1 = [i] → i < x.pages.toNat →
          (dirLines s c d).Nodup → (pageLines s c ++ recordLines s c).Nodup →
          (∀ l ∈ dirLines s c d, l ∉ pageLines s c ∧ l ∉ recordLines s c) →
          (∀ part, part ≤ 1 → ∀ l ∈ touchedLines s c a.sh (if part = 0 then a.koff else a.voff) (x.dim * a.elemSize),
            CleanLines s [l] ∧ l ∉ dirLines s c d ∧ l ∉ pageLines s c ∧ l ∉ recordLines s c) →
          entAt s' c d e = 2 ^ 31 + i ∧
          ∀ part, part ≤ 1 →
            handleBytes s' c x.phandle.toNat (x.pageOff i + part * x.elems + a.pos % 64 * (x.elems / 64)) (x.elems / 64) =
              (sourceVector s c a part 0 0).1 ∧
            handleBytes s' c x.phandle.toNat (x.pageOff i + 2 * x.elems + part * x.scales + a.pos % 64 * (x.scales / 64))
              (x.scales / 64) = (sourceVector s c a part 0 0).2) ∧
        DataStatus s st ∧ EndedWith s s' q.val k p rest st fl (leBytes 2 new.length ++ leBytes 2 copies)) ∧
    (p.opcode = 0x29 → p.u16 8 ≤ 4095 →
      let e := s.entry (p.u16 8)
      let only := fun (s' : State) => OnlyPages s { s' with srv := { s'.srv with entries := s.srv.entries } } ∧
        ∀ r, r ≠ p.u16 8 → s'.entry r = s.entry r
      e.state ≠ .free → e.ctx = c →
      (e.state ≠ .done → e.length < p.u32 12 →
        ∃ s', exec (.kvRollback q) s = .next s' ∧ OnlyPumphouse s s' ∧ SamePumphouse s s' ∧
          Ended s s' q.val k p rest stBounds 0 []) ∧
      (e.inStep = true → e.state ≠ .done → p.u32 12 ≤ e.length →
        ∃ s', exec (.kvRollback q) s = .next s' ∧ OnlyPumphouse s s' ∧ SamePumphouse s s' ∧
          InFlight s s' q.val k p rest (.rollback (p.u16 8) (p.u32 12) (bit (p.byte 10) 0))) ∧
      (e.inStep = false → e.state ≠ .done → p.u32 12 ≤ e.length →
        (bit (p.byte 10) 0 = false →
          ∃ s', exec (.kvRollback q) s = .next s' ∧ only s' ∧ SameMemory s s' ∧ SamePumphouse s s' ∧ PoolIs s s' c x ∧
            s'.entry (p.u16 8) = { e with length := p.u32 12 } ∧ Ended s s' q.val k p rest stOK 0 []) ∧
        (∀ d, bit (p.byte 10) 0 = true → d.h = e.dhandle.toNat → d.off = e.diroff.toNat → DirReady s c d true →
          let es := trimmed s c d false (p.u32 12)
          s.refsCover c (es.map (fun e => entryPage (entAt s c d e))) = true →
          ∃ s' st, exec (.kvRollback q) s = .next s' ∧ only s' ∧ SamePumphouse s s' ∧ Trimmed s s' c d es ∧
            s'.entry (p.u16 8) = { e with length := p.u32 12 } ∧ DataStatus s st ∧ Ended s s' q.val k p rest st 0 [])))

/-- The key of block `i` of a token list (R344). -/
def Sys2Proof.keyOf (salt : DWord) (toks : List Byte) : Nat → DWord
  | 0 => blockKey 0 (blockTokens toks 0) salt
  | i + 1 => blockKey (keyOf salt toks i) (blockTokens toks (i + 1)) salt

/-- `nodes` are the live nodes that blocks 0, 1, … of the token list match, one after the other (R346). -/
def Sys2Proof.MatchedBy (s : State) (c : Nat) (toks : List Byte) (nodes : List Nat) : Prop :=
  ∀ i n, nodes[i]? = some n →
    s.matchBlock c (keyOf (s.ctxOf c).salt toks i) (if i = 0 then noNode else nodes.getD (i - 1) 0) (blockTokens toks i) = some n

/-- The last of the nodes, or the id that stands for none. -/
def Sys2Proof.lastNode (nodes : List Nat) : Nat := nodes.getLast?.getD noNode

/-- The lines of node `n` and of the buckets of an index (R345). -/
def Sys2Proof.nodeLines (s : State) (c n : Nat) : List Nat :=
  touchedLines s c (s.pool c).xhandle.toNat ((s.pool c).nodeOff n) (s.pool c).nodeBytes
def Sys2Proof.bucketLines (s : State) (c : Nat) : List Nat :=
  touchedLines s c (s.pool c).xhandle.toNat (s.pool c).bucketOff.toNat (4 * 2 ^ (s.pool c).bucketBits.toNat)

/-- Lines of an index: its nodes and its buckets (R345). -/
def Sys2Proof.indexLines (s : State) (c : Nat) : List Nat :=
  touchedLines s c (s.pool c).xhandle.toNat (s.pool c).pxOff.toNat ((s.pool c).nodes.toNat * (s.pool c).nodeBytes) ++
    bucketLines s c

/-- The index and the page records stand with clean words on lines of their own, and every node that lives or that the stack
names is one of the index, and every page that a live node names is one of the pool. -/
structure Sys2Proof.IndexReady (s : State) (c : Nat) : Prop where
  fresh : (s.pool c).nodeFresh ≤ (s.pool c).nodes.toNat
  stack : ∀ n ∈ (s.pool c).nodeStack, n < (s.pool c).nodes.toNat
  clean : CleanLines s (indexLines s c)
  records : RecordsReady s c
  apart : Apart (indexLines s c) (recordLines s c)
  pages : ∀ n, (s.pool c).nodeLive n = true → ∀ g ∈ entryPages (s.nodePages c n), g < (s.pool c).pages.toNat

/-- The pages that matched nodes give to the local ones of blocks 0, 1, … -/
def Sys2Proof.sharedPages (s : State) (c : Nat) (nodes : List Nat) : List Nat :=
  (List.range nodes.length).flatMap (fun b => if s.localBlock c b then entryPages (s.nodePages c (nodes.getD b 0)) else [])

/-- The pages that a directory's entries of local block `b` name. -/
def Sys2Proof.blockPages (s : State) (c : Nat) (d : Dir) (b : Nat) : List Nat :=
  if s.localBlock c b then entryPages ((entriesIn (List.range d.layers) d.headList [b]).map (entAt s c d)) else []

/-- PREFIX_LOOKUP and PREFIX_INSERT over a directory that stands ready and clean tokens (R344 to R349), and the removal of
a leaf (R350). A lookup says how many blocks matched and the last node; for each matched block that is local it enters the
node's pages and takes a reference on each, and it stops before a block whose pages' REF would pass 65,535. An insertion says
how many stood already, in matching nodes, how many it made and
the last node; a new node carries Table KVP-5's fields and heads its chain, and each page of a new node has one reference more;
where no node is free the command ends with
PAGE_EXHAUSTED, 2. A removed leaf leaves its chain, each of its pages loses a reference, its parent has one child less and the
node is on top of the node stack. The three commands complete so for every state and packet that meet these conditions.
Where the manual is silent this follows the model's choices (log 56, 58). -/
def Obligations.PrefixIndexFollowsItsChains : Prop :=
  ∀ (q : Fin 512) (k : Nat) (p : Pkt) (rest : List Pkt) (s : State), DispatchReady s q.val k p rest →
    s.poolFault p.ctx true = none → IndexReady s p.ctx →
    let c := p.ctx
    let x := s.pool c
    (∀ d, d.h = p.handle 8 → d.off = p.u64 16 → DirReady s c d (decide (p.opcode = 0x2D)) →
      d.layers = x.layers.toNat → d.heads = x.heads.toNat →
      let n := min (p.u32 12 / 64) d.blocks
      let toks := handleBytes s c (p.handle 9) (p.u64 24) (256 * n)
      let below := entriesIn (List.range d.layers) d.headList ((List.range n).filter (s.localBlock c))
      s.chk c (p.handle 9) .wr (p.u64 24) (256 * n) = none →
      CleanLines s (touchedLines s c (p.handle 9) (p.u64 24) (256 * n)) →
      (p.opcode = 0x2D → (∀ e ∈ below, entryV (entAt s c d e) = false) →
        ∃ s' st m node, exec (.prefixLookup q) s = .next s' ∧ OnlyPages s s' ∧ SamePumphouse s s' ∧ m ≤ n ∧
          (∀ e, s'.pool e = s.pool e) ∧
          (Apart (dirLines s c d) (indexLines s c ++ recordLines s c) → (dirLines s c d).Nodup →
            ∃ nodes, MatchedBy s c toks nodes ∧ m = nodes.length ∧ node = lastNode nodes ∧
              (∀ i, m < n → s.matchBlock c (keyOf (s.ctxOf c).salt toks m) (lastNode nodes) (blockTokens toks m) = some i →
                s.localBlock c m = true ∧ ∃ g ∈ entryPages (s.nodePages c i), 65535 <
                  s.pageRef c g + timesIn g (sharedPages s c nodes) + timesIn g (entryPages (s.nodePages c i))) ∧
              (∀ g, g < x.pages.toNat → s'.pageRef c g = s.pageRef c g + timesIn g (sharedPages s c nodes) ∧
                  s'.pagePin c g = s.pagePin c g) ∧
              (∀ b l hh, b < m → s.localBlock c b = true → l < d.layers → hh < d.heads →
                  entAt s' c d (l, d.head0 + hh, b) = (s.nodePages c (nodes.getD b 0)).getD (l * d.heads + hh) 0)) ∧
          (m = 0 → node = noNode ∧ SameMemory s s') ∧
          (n = 0 ∨ s.matchBlock c (keyOf (s.ctxOf c).salt toks 0) noNode (blockTokens toks 0) = none → m = 0) ∧
          (∀ i, n = 1 → s.matchBlock c (keyOf (s.ctxOf c).salt toks 0) noNode (blockTokens toks 0) = some i →
            (s.localBlock c 0 = false → m = 1 ∧ node = i ∧ SameMemory s s') ∧
            (s.localBlock c 0 = true → s.refsFit c (entryPages (s.nodePages c i)) = true →
              (∀ e ∈ entryPages (s.nodePages c i), e < x.pages.toNat) →
              m = 1 ∧ node = i ∧ OnlyLines s s' (dirLines s c d ++ recordLines s c) ∧
              ((dirLines s c d).Nodup → (∀ l ∈ dirLines s c d, l ∉ recordLines s c) →
                ∀ l hh, l < d.layers → hh < d.heads →
                  entAt s' c d (l, d.head0 + hh, 0) = (s.nodePages c i).getD (l * d.heads + hh) 0))) ∧
          DataStatus s st ∧ Ended s s' q.val k p rest st 0 (leBytes 4 m ++ leBytes 4 node)) ∧
      (p.opcode = 0x2E → p.byte 10 = 0 →
        (∀ e ∈ below, entryV (entAt s c d e) = true ∧ s.pageHeld c (entryPage (entAt s c d e)) = true) →
        ∃ s' st reason nodes made node, exec (.prefixInsert q) s = .next s' ∧ OnlyPages s s' ∧ SamePumphouse s s' ∧
          MatchedBy s c toks nodes ∧ nodes.length + made ≤ n ∧
          (nodes.length < n → s.matchBlock c (keyOf (s.ctxOf c).salt toks nodes.length) (lastNode nodes)
            (blockTokens toks nodes.length) = none) ∧
          (made = 0 → node = lastNode nodes ∧ SameMemory s s') ∧
          (s'.pool c).nodesLive = x.nodesLive + made ∧
          (let taken := (List.range made).flatMap (fun b => blockPages s c d (nodes.length + b))
           Apart (dirLines s c d) (indexLines s c ++ recordLines s c) → (∀ g ∈ taken, g < x.pages.toNat) →
            ∀ g, g < x.pages.toNat → s'.pageRef c g = s.pageRef c g + timesIn g taken ∧ s'.pagePin c g = s.pagePin c g) ∧
          (x.nodeFree = false → nodes.length < n → made = 0 ∧ st = stPageExhausted ∧ reason = 2) ∧
          (nodes.length = n → made = 0 ∧ st = stOK ∧ reason = 0) ∧
          (∀ i, n = 1 → nodes = [] → (x.nodeStack ++ (if x.nodeFresh < x.nodes.toNat then [x.nodeFresh] else [])).head? = some i →
            let es := if s.localBlock c 0 then (entriesIn (List.range d.layers) d.headList [0]).map (entAt s c d)
              else List.replicate (d.layers * d.heads) 0
            s.refsFit c (entryPages es) = true →
            made = 1 ∧ node = i ∧ reason = 0 ∧ DataStatus s st ∧
            (s'.pool c).nodeStack = x.nodeStack.drop 1 ∧
            (s'.pool c).nodeFresh = (if x.nodeStack = [] then x.nodeFresh + 1 else x.nodeFresh) ∧
            ((nodeLines s c i).Nodup → (bucketLines s c).Nodup →
              (∀ l ∈ nodeLines s c i, l ∉ bucketLines s c ∧ l ∉ recordLines s c) →
              (∀ l ∈ bucketLines s c, l ∉ recordLines s c) → (∀ e ∈ entryPages es, e < x.pages.toNat) →
              handleBytes s' c x.xhandle.toNat (x.nodeOff i) 24 =
                leBytes 8 (keyOf (s.ctxOf c).salt toks 0).toNat ++ leBytes 4 noNode
                  ++ leBytes 4 (s.bucketHead c (keyOf (s.ctxOf c).salt toks 0)) ++ leBytes 4 0 ++ leBytes 4 0 ∧
              handleBytes s' c x.xhandle.toNat (x.nodeOff i + 256) 256 = (blockTokens toks 0).flatMap (fun t => leBytes 4 t.toNat) ∧
              handleBytes s' c x.xhandle.toNat (x.nodeOff i + 512) (4 * es.length) = es.flatMap (leBytes 4) ∧
              handleBytes s' c x.xhandle.toNat (x.bucketAt (keyOf (s.ctxOf c).salt toks 0)) 4 = leBytes 4 i)) ∧
          Ended s s' q.val k p rest st reason (leBytes 4 nodes.length ++ leBytes 4 made ++ leBytes 4 node))) ∧
    (p.opcode = 0x2E → p.byte 10 = 1 → x.nodeLive (p.u32 32) = true → s.nodeChildren c (p.u32 32) = 0 →
      let n := p.u32 32
      let key := s.nodeKey c n
      ∃ s' st, exec (.prefixRemove q) s = .next s' ∧ OnlyPages s s' ∧ SamePumphouse s s' ∧
        (∃ freed : List Nat, (∀ i ∈ freed, i ∈ entryPages (s.nodePages c n)) ∧
          PoolIs s s' c { x with
            stack := freed ++ x.stack
            free := x.free + freed.length
            held := (s'.pool c).held
            reclaim := (s'.pool c).reclaim
            nodesLive := x.nodesLive - 1
            nodeStack := n :: x.nodeStack }) ∧
        (s.refsCover c (entryPages (s.nodePages c n)) = true →
          PagesDropped s s' c (entryPages (s.nodePages c n)) (fun y => { y with
            nodesLive := y.nodesLive - 1
            nodeStack := n :: y.nodeStack })) ∧
        (s.nodeParent c n < x.nodes.toNat → (indexLines s c).Nodup →
          s'.nodeChildren c (s.nodeParent c n) = s.nodeChildren c (s.nodeParent c n) - 1) ∧
        (s.bucketHead c key = n → s.nodePages c n = [] → s.nodeParent c n = noNode →
          OnlyLines s s' (bucketLines s c) ∧
          ((bucketLines s c).Nodup →
            handleBytes s' c x.xhandle.toNat (x.bucketAt key) 4 = leBytes 4 (s.nodeNext c n))) ∧
        DataStatus s st ∧ Ended s s' q.val k p rest st 0 [])

/-! ## Requests, budgets and steps -/

/-- Nothing outside the Pumphouse, the queues, the request table, the pools, the free values and the grants of the banks
differs. -/
def Sys2Proof.OnlyRequests (s s' : State) : Prop :=
  SameBanks s s' ∧ { s' with
    queues := s.queues
    pmh := s.pmh
    srv := s.srv
    kvp := s.kvp
    free := s.free
    cis := { s'.cis with
      banks := s.cis.banks
      slots := s.cis.slots } } = s

/-- Only entry `r`, the serials and no other part of the request table differ. -/
def Sys2Proof.OnlyEntry (s s' : State) (r : Nat) : Prop :=
  (∀ n, n ≠ r → s'.entry n = s.entry n) ∧
    { s'.srv with
      entries := s.srv.entries
      seq := s.srv.seq
      recs := s.srv.recs } = s.srv

/-- Customer `n` becomes `x`; no other differs. -/
def Sys2Proof.CustIs (s s' : State) (n : Nat) (x : Customer) : Prop := s'.cust n = x ∧ ∀ m, m ≠ n → s'.cust m = s.cust m

/-- REQ_ADMIT writes a new entry from its packet, adds RESERVE to the pool's reservation and says the entry and its SEQ
(R358, R359, Tables SRV-3, SRV-4); a field that no parameter names starts at zero, which is this model's choice (log 64).
REQ_CANCEL ends a request, or says that it was DONE, or waits for its step; one that must release pages fails where a pool
area fails its checks (R329); RELEASE frees a DONE entry (R377, R380); the STEP
of its record is free (log 61). BUDGET_REFILL adds RATE up to CAP (R362, R533). Each completes so for every state and packet
that meet these conditions. -/
def Obligations.RequestsAndBudgets : Prop :=
  (∀ (q : Fin 512) (k : Nat) (p : Pkt) (rest : List Pkt) (s : State), DispatchReady s q.val k p rest →
    let c := p.ctx
    let x := s.pool c
    (∀ r, p.opcode = 0x30 → s.admitFault c p.admission = none → s.freeEntry = some r → s.atMaxReq c = false → x.live = true →
      p.u32 32 ≤ x.avail →
      CleanLines s (touchedLines s c (p.handle 36) (p.u64 40 + 8) 4) →
      p.u32 12 + p.u32 20 - 1 ≤ 64 * numAt s c (p.handle 36) (p.u64 40 + 8) 4 →
      ∃ s', exec (.reqAdmit q) s = .next s' ∧ OnlyRequests s s' ∧ SamePumphouse s s' ∧ OnlyEntry s s' r ∧
        s'.srv.seq = s.srv.seq + 1 ∧ (∀ n, s'.recsOf n = s.recsOf n) ∧
        PoolIs s s' c { x with reserved := x.reserved + p.u32 32 } ∧
        s'.entry r = { Entry.reset with
          state := .admitted
          ctx := c
          customer := p.u16 8 % 1024
          priority := p.byte 10 % 8
          keepKv := bit (p.byte 10) 7
          nstop := p.byte 11 % 8
          length := p.u32 16
          promptLeft := p.u32 12 - p.u32 16
          newLeft := p.u32 20
          deadline := dwordAt p.bytes 24
          reserve := p.u32 32
          dhandle := BitVec.ofNat 6 (p.handle 36)
          phandle := BitVec.ofNat 6 (p.handle 37)
          penhandle := BitVec.ofNat 6 (p.handle 38)
          diroff := dwordAt p.bytes 40
          promptoff := dwordAt p.bytes 48
          penoff := dwordAt p.bytes 56
          seed := dwordAt p.bytes 64
          slot := p.u16 72
          stop := [wordAt p.bytes 80, wordAt p.bytes 84, wordAt p.bytes 88, wordAt p.bytes 92]
          seq := s.srv.seq } ∧
        Ended s s' q.val k p rest stOK 0 (leBytes 2 r ++ leBytes 4 s.srv.seq.toNat)) ∧
    (p.opcode = 0x31 → p.u16 8 ≤ 4095 →
      let r := p.u16 8
      let e := s.entry r
      e.state ≠ .free → e.ctx = c →
      (p.byte 10 = 1 → e.state = .done →
        ∃ s', exec (.reqRelease q) s = .next s' ∧ OnlyRequests s s' ∧ SamePumphouse s s' ∧ OnlyEntry s s' r ∧
          s'.kvp = s.kvp ∧ s'.entry r = { e with state := .free } ∧ Ended s s' q.val k p rest stOK 0 []) ∧
      (p.byte 10 = 0 → e.state = .done →
        ∃ s', exec (.reqCancel q) s = .next s' ∧ OnlyPumphouse s s' ∧ SamePumphouse s s' ∧
          Ended s s' q.val k p rest stOK 0 [0]) ∧
      (p.byte 10 = 0 → e.state ≠ .done → e.inStep = true →
        ∃ s', exec (.reqCancel q) s = .next s' ∧ OnlyRequests s s' ∧ SamePumphouse s s' ∧ OnlyEntry s s' r ∧
          s'.kvp = s.kvp ∧
          s'.entry r = { e with
            cancel := true
            state := .draining } ∧
          InFlight s s' q.val k p rest (.cancel r)) ∧
      (∀ f, p.byte 10 = 0 → e.state ≠ .done → e.inStep = false → e.keepKv = false → s.poolFault c false = some f →
        ∃ s', exec (.reqCancel q) s = .next s' ∧ OnlyPumphouse s s' ∧ SamePumphouse s s' ∧
          Ended s s' q.val k p rest f.status f.order []) ∧
      (p.byte 10 = 0 → e.state ≠ .done → e.inStep = false → (e.keepKv = false → s.poolFault c false = none) →
        ∃ s' st step, exec (.reqCancel q) s = .next s' ∧ SamePumphouse s s' ∧ OnlyEntry s s' r ∧
          s'.entry r = { e with
            state := .done
            reason := stCancelled
            reserve := 0 } ∧
          s'.recsOf c = s.recsOf c ++ [
            { bytes := leBytes 2 r ++ leBytes 2 (if e.late then 9 else 1) ++ leBytes 4 e.length ++ leBytes 4 0xFFFFFFFF
                ++ leBytes 2 stCancelled.toNat ++ leBytes 2 step,
              slots := [k] }] ∧
          (∀ d, d ≠ c → s'.recsOf d = s.recsOf d) ∧
          (e.keepKv = true → OnlyRequests s s' ∧ st = stOK ∧ PoolIs s s' c { x with reserved := x.reserved - e.reserve }) ∧
          (∀ d, e.keepKv = false → d.h = e.dhandle.toNat → d.off = e.diroff.toNat →
            DirReady s c d true →
            let es := trimmed s c d false 0
            s.refsCover c (es.map (fun e => entryPage (entAt s c d e))) = true →
            OnlyPages s { s' with srv := s.srv } ∧ DataStatus s st ∧ (s'.pool c).reserved = x.reserved - e.reserve ∧
              Trimmed s (s'.setPool c { s'.pool c with reserved := x.reserved }) c d es) ∧
          InFlight s s' q.val k p rest (.record st [1])))) ∧
  (∀ (s : State), s.silent = false → s.time.valid = true →
    ∃ s', exec .budgetRefill s = .next s' ∧ { s' with srv := { s'.srv with cust := s.srv.cust } } = s ∧
      ∀ n, s'.cust n =
        let y := s.cust n
        if n < 1024 ∧ 0 < s.act.rate n ∧ y.budget.toNat < s.act.cap n then
          let b := min (s.act.cap n) (y.budget.toNat + s.act.rate n)
          { y with
            budget := BitVec.ofNat 32 b
            refilled := y.refilled + BitVec.ofNat 32 (b - y.budget.toNat) }
        else y)

/-- BUDGET_ADD: MODE 0 adds AMOUNT, saturating at 0xFFFF_FFFF and whatever CAP is; MODE 1 sets BUDGET; the completion data
hold the resulting BUDGET. A customer outside the context's range fails with PERMISSION, and a MODE above 1 with BOUNDS,
without effect (R363). BUDGET_ADDED counts what an addition adds (R533). -/
def Obligations.BudgetAddAddsOrSets : Prop :=
  ∀ (q : Fin 512) (k : Nat) (p : Pkt) (rest : List Pkt) (s : State), DispatchReady s q.val k p rest → p.opcode = 0x33 →
    let y := s.cust (p.u16 8)
    let v := wordAt p.bytes 12
    let fails := fun (i : Instr) (st : Half) => ∃ s', exec i s = .next s' ∧ OnlyPumphouse s s' ∧ SamePumphouse s s' ∧
      Ended s s' q.val k p rest st 0 []
    ((s.act.range p.ctx).hasCust (p.u16 8) = true →
      (p.byte 10 = 0 →
        ∃ s' b, exec (.budgetAdd q) s = .next s' ∧ OnlyRequests s s' ∧ SamePumphouse s s' ∧ s'.kvp = s.kvp ∧
          { s'.srv with cust := s.srv.cust } = s.srv ∧ b.toNat = min (y.budget.toNat + v.toNat) 0xFFFFFFFF ∧
          CustIs s s' (p.u16 8) { y with
            budget := b
            added := y.added + (b - y.budget) } ∧
          Ended s s' q.val k p rest stOK 0 (leBytes 4 b.toNat)) ∧
      (p.byte 10 = 1 →
        ∃ s', exec (.budgetSet q) s = .next s' ∧ OnlyRequests s s' ∧ SamePumphouse s s' ∧ s'.kvp = s.kvp ∧
          { s'.srv with cust := s.srv.cust } = s.srv ∧ CustIs s s' (p.u16 8) { y with budget := v } ∧
          Ended s s' q.val k p rest stOK 0 (leBytes 4 v.toNat)) ∧
      (1 < p.byte 10 → fails (.budgetAdd q) stBounds)) ∧
    ((s.act.range p.ctx).hasCust (p.u16 8) = false →
      (p.byte 10 ≠ 1 → fails (.budgetAdd q) stPermission) ∧ (p.byte 10 = 1 → fails (.budgetSet q) stPermission))

/-- Context `c`'s STEP becomes `j`; no other differs. -/
def Sys2Proof.JobIs (s s' : State) (c : Nat) (j : Option StepJob) : Prop := s'.stepJob c = j ∧ ∀ d, d ≠ c → s'.stepJob d = s.stepJob d

/-- Nothing outside the Pumphouse, the STEPs in flight and the grants of the banks differs. -/
def Sys2Proof.OnlySteps (s s' : State) : Prop :=
  SameBanks s s' ∧ { s' with
    pmh := s.pmh
    srv := { s'.srv with jobs := s.srv.jobs }
    cis := { s'.cis with
      banks := s.cis.banks
      slots := s.cis.slots } } = s

/-- A swap that affects context `c` is pending: it waits for its point, or its walks run (R295, R296). -/
def Sys2Proof.SwapPending (s : State) (c : Nat) : Prop :=
  (∃ w, s.cfg.swap = some w ∧ bit w.affected.toNat c = true) ∨ ∃ w, s.cfg.walking = some w ∧ bit w.affected.toNat c = true

/-- A STEP of context `c` is in flight, in another slot than `k` (R365). -/
def Sys2Proof.StepInFlight (s : State) (k c : Nat) : Prop :=
  (s.stepJob c).isSome = true ∨ ∃ e ∈ s.flying, ∃ q, e.1 ≠ k ∧ e.2.ctx = c ∧ e.2.opcode = 0x32 ∧ e.2.origin = .queue q

/-- The rows of the requests that the build considers before request `r`. -/
def Sys2Proof.rowsBefore (s : State) (c : Nat) (rows : List StepRow) (r : Nat) : List StepRow :=
  rows.filter (fun x => decide (x.req ∈ (s.buildOrder c).takeWhile (fun n => decide (n ≠ r))))

/-- Tokens of rows. -/
def Sys2Proof.tokensOf (rows : List StepRow) : Nat := (rows.map (fun r => r.ntok)).sum

/-- The build considers the live requests, each once, in ascending PRIORITY, DEADLINE and age (R367). -/
def Sys2Proof.OrderedForBuild (s : State) (c : Nat) : Prop :=
  (∀ r, r ∈ s.buildOrder c ↔ r ∈ s.entriesOf c ∧ (s.entry r).state.live = true) ∧
    (s.buildOrder c).Pairwise (fun a b =>
      let x := s.entry a
      let y := s.entry b
      x.priority < y.priority ∨ (x.priority = y.priority ∧ (x.deadline.toNat < y.deadline.toNat ∨
        (x.deadline = y.deadline ∧ (x.seq - s.srv.seq).toNat ≤ (y.seq - s.srv.seq).toNat))))

/-- What the build comes to for request `r`, with the rows selected before it (R367, R369, Table SRV-2): no row for it where the
rows or the tokens are used up, where its customer's budget is short, or where its pages are short or its directory fails a
check; else a row of the tokens that it wants, and its entry says so. -/
def Sys2Proof.RowDecided (s s' : State) (c rowCap tokCap : Nat) (rows : List StepRow) (r : Nat) : Prop :=
  let e := s.entry r
  let pre := rowsBefore s c rows r
  let n := e.want (tokCap - tokensOf pre) (s.act.chunkMax c)
  let top := (pre.map (fun x => (s.entry x.req).priority)).foldl min 8
  let left := (s.cust e.customer).budget.toNat
    - tokensOf (pre.filter (fun x => decide ((s.entry x.req).customer = e.customer)))
  let passed := ∀ x ∈ rows, x.req ≠ r
  (pre.length = rowCap ∨ n = 0 → passed ∧
    s'.entry r = { e with reason := if top < e.priority then stDeferPriority else stDeferStepFull }) ∧
  (pre.length ≠ rowCap → n ≠ 0 → left < n → passed ∧ s'.entry r = { e with
    reason := stDeferBudget
    state := .budgetWait }) ∧
  (pre.length ≠ rowCap → n ≠ 0 → n ≤ left →
    (passed → (s'.entry r = { e with
        reason := if e.state = .pageWait then stDeferPageWait else stPageExhausted
        state := .pageWait } ∨ ∃ st, s'.entry r = { e with reason := st })) ∧
    ∀ x ∈ rows, x.req = r →
      x = { req := r, kind := if e.promptLeft = 0 then 0 else if e.promptLeft = n then 2 else 1, ntok := n,
            tokBase := tokensOf pre, pos := e.length } ∧
      (s'.entry r).reserve ≤ e.reserve ∧
      s'.entry r = { e with
        reason := stOK
        inStep := true
        before := e.state
        state := if 0 < e.promptLeft then .prefill else .decode
        reserve := (s'.entry r).reserve })

/-- The pages of a build that considers request `r` alone, over a directory that stands ready: its positions need one page for
each local entry without V and one for each shared page; they come first from RESERVE, then from the pages that are free and not
reserved; and the entries then name them (R337, R338, R368). The batch buffer's lines are apart from the pool's. -/
def Sys2Proof.PagesPrepared (s s' : State) (c n r : Nat) (rows : List StepRow) (batch : List Nat) : Prop :=
  let e := s.entry r
  let x := s.pool c
  ∀ d, d.h = e.dhandle.toNat → d.off = e.diroff.toNat → DirReady s c d true → (e.length + n - 1) / 64 < d.blocks →
    let es := entriesIn (List.range d.layers) d.headList (s.touched c e.length n)
    (∀ t ∈ es, entryV (entAt s c d t) = true → s.pageHeld c (entryPage (entAt s c d t)) = true) →
    let need := es.filter (fun t => !entryV (entAt s c d t) || decide (1 < s.pageRef c (entryPage (entAt s c d t))))
    let shared := need.filter (fun t => entryV (entAt s c d t))
    let taken := nextPages x need.length
    let used := min e.reserve need.length
    (e.reserve + x.avail < need.length → rows = [] ∧ PoolIs s s' c x ∧ s'.entry r = { e with
      reason := if e.state = .pageWait then stDeferPageWait else stPageExhausted
      state := .pageWait }) ∧
    (need.length ≤ e.reserve + x.avail → (∃ w, rows = [w]) ∧ (s'.entry r).reserve = e.reserve - used ∧
      (AppendApart s c d es taken → Apart batch (dirLines s c d ++ pageLines s c ++ recordLines s c) →
        PoolIs s s' c { tookPages x need.length with
          reserved := x.reserved - used
          cows := x.cows + shared.length } ∧
        (∀ m t, need[m]? = some t → entAt s' c d t = 2 ^ 31 + taken.getD m 0) ∧
        (∀ t ∈ es, t ∉ need → entAt s' c d t = entAt s c d t) ∧
        ∀ i, i < x.pages.toNat → s'.pageRef c i =
          if i ∈ taken then 1
          else if i ∈ shared.map (fun t => entryPage (entAt s c d t)) then s.pageRef c i - 1 else s.pageRef c i))

/-- The next packet of a context's step script, of `n` units. -/
def Sys2Proof.scriptPacket (s : State) (c : Nat) (j : StepJob) (n : Nat) : Pkt :=
  { bytes := handleBytes s c (s.act.scriptHandle c) (s.act.scriptOff c + 64 * j.unit) (64 * n), ctx := c
    cls := match s.cmd j.slot with | some y => y.cls | none => 0
    order := j.index }

/-- The STEP of slot `k`, sent by queue `q`, has its completion (R274, R379). -/
def Sys2Proof.StepEnded (s s' : State) (q k : Nat) (y : Cmd) (j : StepJob) (st : Half) (reason : Byte) (late : Bool) : Prop :=
  s'.cmd k = some { y with
      job := .ended
      flags := y.flags ||| j.flags } ∧
    s'.pmh.compl = s.pmh.compl ++ [
      { slot := some k, ctx := y.ctx, queue := q, tag := y.tag, notify := y.notify, status := withData y.data st,
        reason := reason, flags := y.flags ||| j.flags, late := late, wave := y.wave,
        data := (j.rows.length :: j.counts).flatMap (leBytes 2) }]

/-- A STEP's dispatch and build (R295, R365 to R370, Table SRV-5). While a swap of its context is pending it ends at once with
DEFER_SWAP; while another STEP of its context is in flight it waits; it ends with the failed check's status where the pool is
UNSET or an area fails, with BOUNDS without a script. The build takes the live requests in their order, decides each as
R367 to R369 say, keeps within the row and token caps, moves budget to RESERVED, writes the batch buffer and counts what it
deferred; the STEP is then in flight. -/
def Sys2Proof.StepsBuildRule : Prop :=
  ∀ (q : Fin 512) (k : Nat) (p : Pkt) (rest : List Pkt) (s : State), DispatchReady s q.val k p rest → p.opcode = 0x32 →
    let c := p.ctx
    let rowCap := capOf (p.u16 10) (s.act.rowCap c)
    let tokCap := capOf (p.u16 12) (s.act.tokCap c)
    let batch := touchedLines s c (p.handle 8) (p.u64 16) (64 + 128 * rowCap)
    let range := s.chk c (p.handle 8) .ww (p.u64 16) (64 + 128 * rowCap)
    let order := s.buildOrder c
    let fails := fun (st : Half) (reason : Byte) => ∃ s', exec (.step q) s = .next s' ∧ SamePumphouse s s' ∧
      OnlyPumphouse s { s' with srv := { s'.srv with steps := s.srv.steps } } ∧ s'.srv.steps = s.srv.steps + 1 ∧
      Ended s s' q.val k p rest st reason []
    (SwapPending s c → ∃ s', exec (.step q) s = .next s' ∧ OnlyPumphouse s s' ∧ SamePumphouse s s' ∧
      Ended s s' q.val k p rest stDeferSwap 0 []) ∧
    (¬SwapPending s c → StepInFlight s k c → exec (.step q) s = .next s) ∧
    (¬SwapPending s c → ¬StepInFlight s k c →
      (∀ f, s.poolFault c false = some f → fails f.status f.order) ∧
      (s.poolFault c false = none → s.act.scriptUnits c = 0 → fails stBounds 0) ∧
      (∀ f, s.poolFault c false = none → s.act.scriptUnits c ≠ 0 → range = some f → fails f.status f.order) ∧
      (s.poolFault c false = none → s.act.scriptUnits c ≠ 0 → range = none →
        ∃ s' j, exec (.step q) s = .next s' ∧ SamePumphouse s s' ∧ JobIs s s' c (some j) ∧ s'.srv.steps = s.srv.steps + 1 ∧
          j.slot = k ∧ j.stepSeq = s.srv.steps ∧ j.fail = none ∧ (j.unit, j.index, j.row, j.hold) = (0, 0, 0, none) ∧
          j.phase = (if j.rows = [] then .sampled else .script) ∧ j.rows.length ≤ rowCap ∧ j.tokens ≤ tokCap ∧
          tokensOf j.rows = j.tokens ∧
          (∀ r ∈ j.rows, (s.entry r.req).state.live = true ∧ r.pos = (s.entry r.req).length ∧ (s'.entry r.req).inStep = true) ∧
          (∀ n, (s'.cust n).budget + (s'.cust n).reserved = (s.cust n).budget + (s.cust n).reserved) ∧
          (order = [] → j.rows = [] ∧ (∀ n, s'.entry n = s.entry n) ∧ (∀ n, s'.pool n = s.pool n) ∧ OnlyLines s s' batch) ∧
          OrderedForBuild s c ∧ (∀ n, n ∉ order → s'.entry n = s.entry n) ∧
          (order.Nodup →
            (∀ r ∈ order, RowDecided s s' c rowCap tokCap j.rows r) ∧
            (∀ n, (s'.cust n).budget = (s.cust n).budget -
              BitVec.ofNat 32 (tokensOf (j.rows.filter (fun x => decide ((s.entry x.req).customer = n))))) ∧
            j.counts = [stDeferStepFull, stDeferBudget, stDeferPageWait, stDeferPriority, stPageExhausted].map
              (fun st => (order.filter (fun r => decide ((s'.entry r).reason = st))).length)) ∧
          (∀ x ∈ j.rows,
            let e := s.entry x.req
            (x.kind = 0 → e.promptLeft = 0 ∧ x.ntok = 1 + min e.ndraft (e.newLeft - 1)) ∧
            (x.kind = 1 → 64 ≤ x.ntok ∧ x.ntok % 64 = 0 ∧ x.ntok ≤ s.act.chunkMax c ∧ x.ntok < e.promptLeft) ∧
            (x.kind = 2 → x.ntok = e.promptLeft ∧ x.ntok ≤ s.act.chunkMax c)) ∧
          (∀ r, order = [r] →
            let n := (s.entry r).want tokCap (s.act.chunkMax c)
            0 < rowCap → 0 < n → n ≤ (s.cust (s.entry r).customer).budget.toNat → PagesPrepared s s' c n r j.rows batch) ∧
          (batch.Nodup →
            handleBytes s' c (p.handle 8) (p.u64 16) 8 =
              leBytes 2 j.rows.length ++ leBytes 2 j.tokens ++ leBytes 4 s.srv.steps.toNat ∧
            ∀ i r, j.rows[i]? = some r →
              handleBytes s' c (p.handle 8) (p.u64 16 + 64 + 128 * i) 12 =
                leBytes 2 r.req ++ leBytes 1 r.kind ++ leBytes 1 (if r.kind = 0 then r.ntok - 1 else 0) ++ leBytes 2 r.tokBase
                  ++ leBytes 2 r.ntok ++ leBytes 4 r.pos) ∧
          InFlight s s' q.val k p rest .step))

/-- A STEP's script (R371, R374, R375, R388). The script's packets dispatch in order, and one that fails a check ends the
script; when the script has ended, its commands too, the rows are sampled, unless it failed.
Where the manual is silent this follows the model's choices (log 60, 67). -/
def Sys2Proof.StepScriptsRule : Prop :=
  ∀ (c : Fin 16) (j : StepJob) (s : State), s.stepJob c.val = some j →
    (∀ k n, j.phase = .script → s.dispatchOpen = true → j.fail = none → j.hold = none →
      let h := s.act.scriptHandle c.val
      let off := s.act.scriptOff c.val + 64 * j.unit
      let p := scriptPacket s c.val j n
      n = numAt s c.val h (off + 1) 1 % 16 + 1 → j.unit + n ≤ s.act.scriptUnits c.val →
      s.chk c.val h .wr (s.act.scriptOff c.val) (64 * s.act.scriptUnits c.val) = none →
      CleanLines s (touchedLines s c.val h off (64 * n)) →
      (p.fence = true → ∀ e ∈ s.flying, e.2.origin ≠ .script c.val) → s.freeSlot = some k →
      let past := { j with
        unit := j.unit + n
        index := j.index + 1
        row := 0 }
      (∀ st, scriptFault p = some st →
        ∃ s', exec (.scriptPacketDispatch c) s = .next s' ∧ OnlySteps s s' ∧ s'.pmh = s.pmh ∧
          JobIs s s' c.val (some { j with fail := some (st, 1, j.index) })) ∧
      (scriptFault p = none → p.opcode = 0x00 →
        ∃ s', exec (.scriptPacketDispatch c) s = .next s' ∧ OnlySteps s s' ∧ SamePumphouse s s' ∧
          JobIs s s' c.val (some past) ∧ (∀ i, s'.cmd i = s.cmd i) ∧ s'.pmh.compl = s.pmh.compl) ∧
      (scriptFault p = none → p.opcode = 0x02 → s.semOk c.val (p.byte 8) = true → p.byte 9 ≤ 1 →
        ∃ s', exec (.scriptPacketDispatch c) s = .next s' ∧ OnlySteps s s' ∧ SamePumphouse s s' ∧
          JobIs s s' c.val (some { past with hold := some k }) ∧
          s'.cmd k = some { mkCmd (.script c.val) p s.pmh.serial s.time.wave with
            job := .semWait (p.byte 8) (decide (p.byte 9 = 1)) (wordAt p.bytes 12) } ∧
          (∀ i, i ≠ k → s'.cmd i = s.cmd i) ∧ s'.pmh.compl = s.pmh.compl)) ∧
    (j.phase = .script → s.silent = false → (∀ e ∈ s.flying, e.2.origin ≠ .script c.val) →
      (j.fail ≠ none → exec (.stepScriptEnd c) s = .next (s.setStepJob c.val (some { j with phase := .sampled }))) ∧
      (j.fail = none → s.act.scriptUnits c.val ≤ j.unit → j.slots.length = j.rows.length →
        let ranges := (j.rows.zip j.slots).flatMap (fun e => s.sampleRanges c.val e.1 e.2)
        ∃ s' j', exec (.stepScriptEnd c) s = .next s' ∧ JobIs s s' c.val (some j') ∧ s'.pmh = s.pmh ∧ s'.queues = s.queues ∧
          s'.srv.entries = s.srv.entries ∧ j'.phase = .sampled ∧ j'.rows = j.rows ∧
          (∀ f, firstFail ranges = some f → OnlySteps s s' ∧
            j' = { j with
              phase := .sampled
              fail := some (f.status, 2, 0xFFFF) }) ∧
          (firstFail ranges = none → j'.fail = none ∧ j'.samples.length = j.rows.length) ∧
          ((∀ r ∈ j.rows, r.kind = 1 ∨ (s.entry r.req).cancel = true) → firstFail ranges = none → SameMemory s s' ∧
            j' = { j with
              phase := .sampled
              samples := List.replicate j.rows.length .skipped
              draws := List.replicate j.rows.length 0 })))

/-- Tokens that a row emits (Table SRV-6 rules 4 and 5): the accepted drafts of a decode row, then the new token. -/
def Sys2Proof.emitted (e : Entry) (r : StepRow) (accepted : Nat) (token : Word) : List Word :=
  (if r.kind = 0 then (List.range accepted).map (fun i => e.draft.getD i 0) else []) ++ [token]

/-- The emitted token at place `i` ends the request: it is a stop token, or it brings NEWLEFT to 0. -/
def Sys2Proof.endsAt (e : Entry) (toks : List Word) (i : Nat) : Bool :=
  (e.stop.take e.nstop).contains (toks.getD i 0) || decide (e.newLeft ≤ i + 1)

/-- The output record of the emitted token at place `i` (Table SRV-7). -/
def Sys2Proof.emittedRecord (e : Entry) (r : StepRow) (accepted : Nat) (toks : List Word) (seq : Word) (i : Nat) : List Byte :=
  let stop := (e.stop.take e.nstop).contains (toks.getD i 0)
  let limit := decide (e.newLeft ≤ i + 1)
  let draft := decide (r.kind ≠ 2) && decide (i < accepted)
  let pos := if r.kind = 0 then e.length + 1 + i else e.length + r.ntok + i
  leBytes 2 r.req
    ++ leBytes 2 (b2n (stop || limit) + 2 * b2n stop + 4 * b2n limit + 8 * b2n e.late + 16 * b2n draft
      + 32 * b2n (decide (r.kind = 2)))
    ++ leBytes 4 pos ++ leBytes 4 (toks.getD i 0).toNat ++ leBytes 2 0 ++ leBytes 2 seq.toNat

/-- The final record of a request that ends without an emitted token (R377). -/
def Sys2Proof.endRecord (r len : Nat) (late : Bool) (st : Half) (seq : Word) : List Byte :=
  leBytes 2 r ++ leBytes 2 (if late then 9 else 1) ++ leBytes 4 len ++ leBytes 4 0xFFFFFFFF ++ leBytes 2 st.toNat
    ++ leBytes 2 seq.toNat

/-- A customer whose row of `n` reserved tokens keeps `a` of them (R376, R533). -/
def Sys2Proof.charged (m : Customer) (n a : Nat) : Customer :=
  let b := min (2 ^ 32 - 1) (m.budget.toNat + (n - a))
  { m with
    budget := BitVec.ofNat 32 b
    reserved := m.reserved - BitVec.ofNat 32 n
    charged := m.charged + BitVec.ofNat 32 (n - (b - m.budget.toNat)) }

/-- A STEP's bookkeeping (R374, R376, R377, R379, R381, Tables SRV-6, SRV-7): it moves each row on, or back where the step was
aborted; a cancelled row and one without a candidate end their request with one record; a sampled row emits its accepted drafts
and its new token, one record each, until one of them ends the request; a STEP without records completes.
Where the manual is silent this follows the model's choices (log 65, 66). -/
def Sys2Proof.StepBookkeepingRule : Prop :=
  ∀ (c : Fin 16) (j : StepJob) (s : State) (q : Nat) (y : Cmd), s.stepJob c.val = some j → j.phase = .sampled →
    s.silent = false → s.cmd j.slot = some y → y.origin = .queue q →
    (∀ e ∈ s.flying, ∀ r n t, e.2.job ≠ .rollback r n t) →
    let h := j.bhandle.toNat
    let batch := touchedLines s c.val h (j.boff + 8) 56
    CleanLines s batch →
    let status := match j.fail with | some f => f.1 | none => j.data
    let reason : Byte := match j.fail with | some f => f.2.1 | none => 0
    let late := fun (s' : State) => (s'.entriesOf c.val).any (fun n => (s'.entry n).late)
    (j.rows = [] →
      ∃ s', exec (.stepBookkeeping c) s = .next s' ∧ JobIs s s' c.val none ∧ OnlyLines s s' batch ∧
        (∀ n, s'.recsOf n = s.recsOf n) ∧
        (∀ n, s'.entry n = if n ∈ s.newlyLate c.val then { s.entry n with late := true } else s.entry n) ∧
        s'.srv.late = s.srv.late + BitVec.ofNat 32 (s.newlyLate c.val).length ∧
        (batch.Nodup → handleBytes s' c.val h (j.boff + 8) 56 =
          leBytes 2 (match j.fail with | some f => f.2.2 | none => 0xFFFF) ++ leBytes 2 0
            ++ leBytes 2 (s.newlyLate c.val).length ++ leBytes 50 0) ∧
        StepEnded s s' q j.slot y j status reason (late s')) ∧
    (∀ r sm d, j.rows = [r] → j.samples.getD 0 .skipped = sm → j.draws.getD 0 0 = d → s.newlyLate c.val = [] →
      let e := s.entry r.req
      let m := s.cust e.customer
      let cancels := s.cancelSlots r.req
      let counter := e.counter + BitVec.ofNat 32 d
      let others := fun (s' : State) => (∀ n, n ≠ r.req → s'.entry n = s.entry n) ∧ ∀ n, n ≠ c.val → s'.recsOf n = s.recsOf n
      let ends := fun (e' : Entry) (st : Half) (a : Nat) => ∃ s' j', exec (.stepBookkeeping c) s = .next s' ∧
        JobIs s s' c.val (some j') ∧ j'.phase = .records ∧ others s' ∧ s'.pmh = s.pmh ∧ s'.entry r.req = { e' with
          reserve := 0
          reason := st
          state := .done
          inStep := false
          ndraft := 0 } ∧
        CustIs s s' e.customer (charged m r.ntok a) ∧
        s'.recsOf c.val = s.recsOf c.val ++ [
          { bytes := endRecord r.req e'.length e.late st j.stepSeq, slots := j.slot :: cancels }] ∧
        (e.keepKv = true → OnlyLines s s' batch ∧ PoolIs s s' e.ctx { s.pool e.ctx with
          reserved := (s.pool e.ctx).reserved - e.reserve })
      (j.fail ≠ none → e.cancel = true → ends e stCancelled 0) ∧
      (j.fail = none → e.cancel = true → ends { e with counter := counter } stCancelled r.ntok) ∧
      (j.fail = none → e.cancel = false → r.kind ≠ 1 → sm = .noCandidate → ends { e with
        length := e.length + r.ntok
        promptLeft := if r.kind = 0 then e.promptLeft else e.promptLeft - r.ntok
        counter := counter } stNoCandidate r.ntok) ∧
      (j.fail ≠ none → e.cancel = false →
        ∃ s', exec (.stepBookkeeping c) s = .next s' ∧ JobIs s s' c.val none ∧ OnlyLines s s' batch ∧
          (∀ n, s'.recsOf n = s.recsOf n) ∧ others s' ∧
          s'.entry r.req = { e with
            state := e.before
            inStep := false
            ndraft := 0 } ∧
          CustIs s s' e.customer (charged m r.ntok 0) ∧ StepEnded s s' q j.slot y j status reason (late s')) ∧
      (j.fail = none → e.cancel = false → r.kind = 1 →
        ∃ s', exec (.stepBookkeeping c) s = .next s' ∧ JobIs s s' c.val none ∧ OnlyLines s s' batch ∧
          (∀ n, s'.recsOf n = s.recsOf n) ∧ others s' ∧
          s'.entry r.req = { e with
            length := e.length + r.ntok
            promptLeft := e.promptLeft - r.ntok
            counter := counter
            inStep := false
            ndraft := 0 } ∧
          CustIs s s' e.customer (charged m r.ntok r.ntok) ∧ StepEnded s s' q j.slot y j status reason (late s')) ∧
      (∀ a t n, j.fail = none → e.cancel = false → r.kind = 0 ∨ r.kind = 2 → sm = .picked a t →
        let toks := emitted e r a t
        let final := endsAt e toks (n - 1)
        let kept := if r.kind = 0 then n else r.ntok
        1 ≤ n → n ≤ toks.length → (∀ i, i + 1 < n → endsAt e toks i = false) → (n < toks.length → final = true) →
        ∃ s' j', exec (.stepBookkeeping c) s = .next s' ∧ JobIs s s' c.val (some j') ∧ j'.phase = .records ∧ s'.pmh = s.pmh ∧
          others s' ∧
          (let moved := { e with
            length := e.length + kept
            promptLeft := if r.kind = 2 then 0 else e.promptLeft
            newLeft := e.newLeft - n
            lastTok := toks.getD (n - 1) 0
            counter := counter
            inStep := false
            ndraft := 0
            state := .decode }
           s'.entry r.req = if final then { moved with
            reserve := 0
            reason := stOK
            state := .done } else moved) ∧
          CustIs s s' e.customer (charged m r.ntok kept) ∧
          s'.recsOf c.val = s.recsOf c.val ++ (List.range n).map (fun i =>
            { bytes := emittedRecord e r a toks j.stepSeq i,
              slots := j.slot :: (if final = true ∧ i + 1 = n then cancels else []) }) ∧
          (final = false → ∀ n, s'.pool n = s.pool n) ∧
          (final = true → e.keepKv = true → PoolIs s s' e.ctx { s.pool e.ctx with
            reserved := (s.pool e.ctx).reserved - e.reserve }) ∧
          (final = false ∨ e.keepKv = true →
            OnlyLines s s' (batch ++ touchedLines s c.val e.penhandle.toNat e.penoff.toNat penBytes))))

/-- The output ring (R378, R379): a record is written at its ring's tail, and completes the commands that wait for it alone; a full
ring keeps it waiting and is told once. -/
def Sys2Proof.OutputRecordsRule : Prop :=
  ∀ (c : Fin 16) (x : OutRec) (rest : List OutRec) (s : State),
    let r := (s.ctxOf c.val).oring
    s.recsOf c.val = x :: rest → s.silent = false → s.ringReady c.val r 16 = true →
    (r.room 16 = true → x.bytes.length = 16 →
      CleanLines s [s.phys c.val r.handle.toNat (r.slotOff 16 / 256 * 256)] →
      (x.slots = [] →
        ∃ s', exec (.outputRecordWrite c) s = .next s' ∧ s'.pmh = s.pmh ∧ s'.queues = s.queues ∧ s'.recsOf c.val = rest ∧
          handleBytes s' c.val r.handle.toNat (r.slotOff 16) 16 = x.bytes ∧
          OnlyLines s s' [s.phys c.val r.handle.toNat (r.slotOff 16) / 256 * 256] ∧
          s'.ctxOf c.val = { s.ctxOf c.val with oring := { r with
            tail := r.tail + 1
            told := false } } ∧ ∀ d, d ≠ c.val → s'.ctxOf d = s.ctxOf d) ∧
      (∀ k q y, x.slots = [k] → (∀ z ∈ rest, k ∉ z.slots) → s.cmd k = some y → y.origin = .queue q →
        ∃ s', exec (.outputRecordWrite c) s = .next s' ∧ s'.recsOf c.val = rest ∧
          handleBytes s' c.val r.handle.toNat (r.slotOff 16) 16 = x.bytes ∧
          s'.ctxOf c.val = { s.ctxOf c.val with oring := { r with
            tail := r.tail + 1
            told := false } } ∧
          SamePumphouse s s' ∧
          (∀ st d, y.job = .record st d → Finished s s' q k y st 0 0 d) ∧
          (∀ n, y.job = .cancel n → Finished s s' q k y stOK 0 0 [2]) ∧
          (∀ j, y.job = .step → s.stepJob c.val = some j → JobIs s s' c.val none ∧
            StepEnded s s' q k y j (match j.fail with | some f => f.1 | none => j.data)
              (match j.fail with | some f => f.2.1 | none => 0) j.late))) ∧
    (r.room 16 = false → r.told = false →
      ∃ s', exec (.outputRecordWrite c) s = .next s' ∧ s'.pmh = s.pmh ∧ s'.queues = s.queues ∧ SameMemory s s' ∧
        s'.recsOf c.val = s.recsOf c.val ∧
        s'.ctxOf c.val = { s.ctxOf c.val with oring := { r with told := true } })
/-- A STEP from its build to its output records (R365 to R379, Tables SRV-5 to SRV-7): the build, the script, the bookkeeping
and the output ring, each of which completes so for every state that meets its conditions.
Where the manual is silent this follows the model's choices (log 65, 66, 67). -/
def Obligations.StepsRunToTheirRecords : Prop :=
  Sys2Proof.StepsBuildRule ∧ Sys2Proof.StepScriptsRule ∧ Sys2Proof.StepBookkeepingRule ∧ Sys2Proof.OutputRecordsRule

/-! ## Sampling and attention -/

/-- The logits of one vector, its words clean (R388). -/
def Sys2Proof.logitsAt (s : State) (c h off vocab : Nat) : List Word :=
  (List.range vocab).map (fun i => BitVec.ofNat 32 (numAt s c h (off + 4 * i) 4))

/-- The valid entries of the penalty table that a row names, as (id, count) (R395). -/
def Sys2Proof.penaltiesAt (s : State) (c : Nat) (r : SampleRow) : List (Nat × Nat) :=
  match r.penh with
  | none => []
  | some h => (List.range (min (numAt s c h r.penoff 4) 4096)).map
      (fun i => (numAt s c h (r.penoff + 8 + 8 * i) 4, numAt s c h (r.penoff + 12 + 8 * i) 2))

/-- SAMPLE (R383, R389, R390, R395, R398): it completes, and every row's token stands in its descriptor, either 0xFFFF_FFFF or an id below VOCAB,
the completion and SMP_NOCAND count the rows without a candidate, and each row's token is the greedy candidate or a draw from
the candidate list of its logits and its penalty table. The descriptors' token words are the only memory that it writes.
Where the manual is silent this follows the model's choices (log 60). -/
def Obligations.SampleWritesItsTokens : Prop :=
  ∀ (q : Fin 512) (k : Nat) (p : Pkt) (rest : List Pkt) (s : State), DispatchReady s q.val k p rest → p.opcode = 0x34 →
    let c := p.ctx
    let n := p.u16 12
    let sp := slotParams (s.slotWords (p.u16 10))
    let row := fun i => sampleRowAt (handleBytes s c (p.handle 9) (p.u64 24) (32 * n)) i
    let lines := touchedLines s c (p.handle 9) (p.u64 24) (32 * n)
    s.slotOk (p.u16 10) c = true → 1 ≤ n → n ≤ 512 → s.chk c (p.handle 9) .wr (p.u64 24) (32 * n) = none →
    s.chk c (p.handle 9) .ww (p.u64 24) (32 * n) = none → CleanLines s lines →
    (∀ i, i < n → s.chkLogits c (p.handle 8) (p.u64 16 + i * sp.lstride) sp.vocab = none ∧
      ∀ h, (row i).penh = some h → s.chk c h .wr (row i).penoff penBytes = none) →
    ∃ (s' : State) (st : Half) (fl : Flags) (toks : List Nat), exec (.sample q) s = .next s' ∧ SamePumphouse s s' ∧
      OnlyPages s { s' with smp := s.smp } ∧ (∀ e, s'.pool e = s.pool e) ∧
      toks.length = n ∧ (∀ t ∈ toks, t = 0xFFFFFFFF ∨ t < sp.vocab) ∧
      (lines.Nodup → ∀ i, i < n →
        handleBytes s' c (p.handle 9) (p.u64 24 + 32 * i + 28) 4 = leBytes 4 (toks.getD i 0) ∧
        handleBytes s' c (p.handle 9) (p.u64 24 + 32 * i) 28 = handleBytes s c (p.handle 9) (p.u64 24 + 32 * i) 28) ∧
      s'.smp.noCand = s.smp.noCand + BitVec.ofNat 32 (toks.filter (fun t => decide (t = 0xFFFFFFFF))).length ∧
      s'.smp.draws = s.smp.draws + BitVec.ofNat 32 (if sp.greedy then 0 else
        (toks.filter (fun t => decide (t ≠ 0xFFFFFFFF))).length) ∧
      (s'.smp.slots, s'.smp.accepted, s'.smp.rejected, s'.smp.penOvf, s'.smp.badSlot) =
        (s.smp.slots, s.smp.accepted, s.smp.rejected, s.smp.penOvf, s.smp.badSlot) ∧
      (lines.Nodup → ∀ i, i < n →
        let logits := touchedLines s c (p.handle 8) (p.u64 16 + i * sp.lstride) (4 * sp.vocab)
        let table := match (row i).penh with | none => [] | some h => touchedLines s c h (row i).penoff penBytes
        CleanLines s (logits ++ table) → Apart (logits ++ table) lines →
        let l := (sp.candidates (penaltiesAt s c (row i)) (logitsAt s c (p.handle 8) (p.u64 16 + i * sp.lstride) sp.vocab)).out
        toks.getD i 0 = match l with
          | [] => 0xFFFFFFFF
          | a :: _ => if sp.greedy then a.id else (drawFrom l (uniform (row i).seed (row i).pos 1 (row i).tag)).out) ∧
      ((∀ w, Clean s w) → OnlyLines s s' lines) ∧
      DataStatus s st ∧
      EndedWith s s' q.val k p rest st fl (leBytes 2 (toks.filter (fun t => decide (t = 0xFFFFFFFF))).length)

/-- The units of tile flags and attention counters may differ, and nothing else outside what `OnlyPages` tells of. -/
def Sys2Proof.OnlyAttention (s s' : State) : Prop := OnlyPages s { s' with
  tiles := s.tiles
  att := s.att }

/-- Each tile keeps all but its flags. -/
def Sys2Proof.SameTiles (s s' : State) : Prop :=
  ∀ t, { s'.tile t with
      arr := { (s'.tile t).arr with flags := (s.tile t).arr.flags }
      vec := { (s'.tile t).vec with flags := (s.tile t).vec.flags } } = s.tile t

/-- Key `pos` of page `n`: its elements and scale bytes of keys and of values (Table KVP-1). -/
def Sys2Proof.keyAt (s : State) (c n pos : Nat) : KeyIn :=
  let x := s.pool c
  let part := fun i => positionBytes s c n i (pos % 64)
  let elems := fun (bs : List Byte) =>
    (List.range x.dim).map (fun i => elemVal (kvElemFmt x.fmt.toNat) true (elemAt (kvElemFmt x.fmt.toNat) bs i))
  { pos := pos, k := elems (part 0).1, ks := (part 0).2.map BitVec.toNat, v := elems (part 1).1
    vs := (part 1).2.map BitVec.toNat, bad := false }

/-- Segment numbers of a row (R311). -/
def Sys2Proof.segsAt (s : State) (c : Nat) (a : Attn) (r : ARow) : List Byte :=
  if a.segment then handleBytes s c a.auxh (a.segOff r) (2 * r.segCount) else []

/-- Coarse scale `i` of key-value head `h` of a FATTN (R318): 0 of keys, 1 of values. -/
def Sys2Proof.coarseAt (s : State) (c : Nat) (a : Attn) (h i : Nat) : Val :=
  if a.kvfmt = 0 then .one else val32 (BitVec.ofNat 32 (numAt s c a.auxh (a.sctoff + 8 * (a.kvh0 + h) + 4 * i) 4))

/-- The unit of row `r` and head `h` over its visited pages: masks, scales and blocks of 128 keys (R306, R311, R314, R321). -/
def Sys2Proof.unitAt (s : State) (c : Nat) (a : Attn) (r : ARow) (h : Nat) (pages : List (Nat × Nat)) : UnitIn :=
  { a := a, r := r, h := h, ck := coarseAt s c a h 0, cv := coarseAt s c a h 1, segs := segsAt s c a r
    maps := (List.range (if a.bitmap then r.npos else 0)).map
      (fun j => (handleBytes s c a.auxh (r.auxoff + j * r.bitmapRow) r.bitmapRow, false))
    blocks := blocksOf (pages.map (fun bp =>
      (List.range (min 64 (r.keylen - 64 * bp.1))).map (fun p => keyAt s c bp.2 (64 * bp.1 + p))))
    bad := false }

/-- The rotated query `i` of the unit (R307, R308). -/
def Sys2Proof.queryAt (s : State) (c : Nat) (u : UnitIn) (i : Nat) : List Val :=
  let a := u.a
  let bs := handleBytes s c a.qh (u.r.qoff + 2 * (u.h * a.queries u.r + i) * a.dim) (2 * a.dim)
  let q := (List.range a.dim).map (fun e => elemVal a.queryFmt false (elemAt a.queryFmt bs e))
  let entries := handleBytes s c a.rph (a.ropeOff (a.rotary u.segs (u.r.qpos0 + i / a.group))) (4 * a.dim)
  if a.rope then (resTable (a.rotate q entries) a.dim).out else q

/-- What query `i` of the unit stores (R309, R314 to R316). -/
def Sys2Proof.outAt (s : State) (c : Nat) (u : UnitIn) (i : Nat) : RowOut := u.attend (i / u.a.group) (queryAt s c u i)

/-- The pages, with their blocks, of row `i` and head `h` among those that a FATTN resolved, row by row and head by head. -/
def Sys2Proof.pagesAt (s : State) (c : Nat) (a : Attn) (rows : List ARow) (pages : List Nat) (i h : Nat) (r : ARow) : List (Nat × Nat) :=
  let before := (((rows.take i).filter (fun x => !x.tooLong)).map (fun x => a.nkvh * (s.visited c x).length)).sum
  (s.visited c r).zip (pages.drop (before + h * (s.visited c r).length))

/-- The units of the rows that R313 does not fail, each with its query rows' numbers. -/
def Sys2Proof.unitsOf (s : State) (c : Nat) (a : Attn) (rows : List ARow) (pages : List Nat) : List UnitIn :=
  (List.range rows.length).flatMap (fun i => match rows[i]? with
    | some r => if r.tooLong then [] else (List.range a.nkvh).map (fun h => unitAt s c a r h (pagesAt s c a rows pages i h r))
    | none => [])

/-- Lines that the arithmetic of a FATTN reads for its live rows, and the bytes that it writes. -/
def Sys2Proof.attnLines (s : State) (c : Nat) (a : Attn) (live : List ARow) : List Nat :=
  pageLines s c ++ (if a.kvfmt = 0 then [] else touchedLines s c a.auxh (a.sctoff + 8 * a.kvh0) (8 * a.nkvh)) ++
    live.flatMap (fun r => touchedLines s c a.qh r.qoff (2 * (a.nkvh * a.queries r) * a.dim) ++
      touchedLines s c a.auxh r.auxoff (a.bitmapBytes r) ++
      (if a.segment then touchedLines s c a.auxh (a.segOff r) (2 * r.segCount) else []) ++
      (if a.rope then (List.range r.npos).flatMap (fun j =>
        touchedLines s c a.rph (a.ropeOff (a.rotary (segsAt s c a r) (r.qpos0 + j))) (4 * a.dim)) else []))
def Sys2Proof.attnCells (s : State) (c : Nat) (a : Attn) (live : List ARow) : List Nat :=
  live.flatMap (fun r =>
    (List.range (elemBytes a.storeFmt (a.nkvh * a.queries r * a.dim))).map (fun i => s.phys c a.oh (r.ooff + i)) ++
      (if a.partialOut then (List.range (8 * (a.nkvh * a.queries r))).map (fun i => s.phys c a.oh (r.soff + i)) else []))

/-- All that a FATTN reads is clean, it writes no byte twice and none of a line that it reads, and the page records stand apart. -/
structure Sys2Proof.AttnReady (s : State) (c : Nat) (a : Attn) (live : List ARow) : Prop where
  reads : CleanLines s (attnLines s c a live)
  writes : CleanLines s ((attnCells s c a live).map (fun x => x / 256 * 256))
  once : (attnCells s c a live).Nodup
  apart : Apart ((attnCells s c a live).map (fun x => x / 256 * 256)) (attnLines s c a live ++ recordLines s c)
  records : RecordsReady s c ∧ Apart (recordLines s c) (attnLines s c a live)

/-- A query row stands in memory where R307 and R316 put it: its elements in the output format, and for a partial result *m* and
*l*. -/
def Sys2Proof.RowStored (s' : State) (c : Nat) (u : UnitIn) (i : Nat) (o : RowOut) : Prop :=
  let a := u.a
  let n := u.h * a.queries u.r + i
  let size := elemBytes a.storeFmt a.dim
  handleBytes s' c a.oh (u.r.ooff + n * size) size = (storeRow a.storeFmt o.vals).1 ∧
    (a.partialOut = true → handleBytes s' c a.oh (u.r.soff + 8 * n) 8 = leBytes 4 o.m.toNat ++ leBytes 4 o.l.toNat)

/-- Attention over one key of BF16 pages whose score is finite is that key's value (R309, R314, R315): where every element of the
value is a normal number, query row `i` stores it, and a partial result has the score as *m* and 1 as *l*. -/
def Sys2Proof.OneKeyIsItsValue (s s' : State) (c : Nat) (u : UnitIn) (page i : Nat) : Prop :=
  let a := u.a
  let k := keyAt s c page 0
  let score := (a.score .one (queryAt s c u i) k).out
  let raw := fun e => elemAt fBF16 (positionBytes s c page 1 0).1 e
  let n := u.h * a.queries u.r + i
  let size := elemBytes a.storeFmt a.dim
  u.visible (i / a.group) 0 = true → (bits score.toNat 23 8) ≠ 255 →
    (∀ e, e < a.dim → 1 ≤ bits (raw e) 7 8 ∧ bits (raw e) 7 8 ≤ 254) →
    handleBytes s' c a.oh (u.r.ooff + n * size) size =
      packElems a.storeFmt ((List.range a.dim).map (fun e => ((fmtFloat a.storeFmt).roundTo (elemVal fBF16 true (raw e))).out)) ∧
    (a.partialOut = true → handleBytes s' c a.oh (u.r.soff + 8 * n) 8 = leBytes 4 score.toNat ++ leBytes 4 0x3F800000)

/-- Input `i` of query row `q` of a merge: *m*, *l* and the elements (R323). -/
def Sys2Proof.partAt (s : State) (c : Nat) (m : Merge) (q i : Nat) : Part :=
  let stat := fun n => BitVec.ofNat 32 (numAt s c m.ih (m.soff + i * m.sstride + 8 * q + 4 * n) 4)
  { m := stat 0, l := stat 1
    u := (List.range m.dim).map (fun e => BitVec.ofNat 32 (numAt s c m.ih (m.ioff + i * m.istride + 4 * q * m.dim + 4 * e) 4)) }

/-- Lines that a merge reads and those that it writes. -/
def Sys2Proof.mergeLines (s : State) (c : Nat) (m : Merge) : List Nat :=
  (List.range m.nin).flatMap (fun i => touchedLines s c m.ih (m.ioff + i * m.istride) (4 * m.nq * m.dim) ++
    touchedLines s c m.ih (m.soff + i * m.sstride) (8 * m.nq))
def Sys2Proof.mergeOut (s : State) (c : Nat) (m : Merge) : List Nat :=
  touchedLines s c m.oh m.ooff (elemBytes m.storeFmt (m.nq * m.dim)) ++
    (if m.partialOut then touchedLines s c m.oh m.osoff (8 * m.nq) else [])

/-- FATTN and MERGE_LSE (R304 to R307, R309, R313 to R316, R323, R325, R332, R336). A FATTN whose checks pass pins its pages and,
while a tile of its set is busy or held, waits; with its tiles idle it completes: it writes this die's output, each query row the
softmax of its visible keys over their values, and nothing else; it counts its empty, failed and NaN rows and
says them in its completion, the rows that R313 fails making its status LENGTH_LIMIT; a row without keys stores zeros and
counts as empty, and one key's attention is its value. A MERGE_LSE waits or completes likewise: it writes each query row's merge of
its parts and nothing else, and a query whose parts are all empty stores zeros.
Where the manual is silent this follows the model's choices (log 62). -/
def Obligations.AttentionCountsItsRows : Prop :=
  ∀ (q : Fin 512) (k : Nat) (p : Pkt) (rest : List Pkt) (s : State), DispatchReady s q.val k p rest →
    let c := p.ctx
    let d := atDispatch s q.val k p
    let busy := d.stopped = true ∨ d.pmh.tileHold &&& halfAt p.bytes 8 ≠ 0 ∨ d.tilesIdle (halfAt p.bytes 8) = false ∨
      d.yields k (entryOf s q.val p .ended) (halfAt p.bytes 8) = true
    (p.opcode = 0x20 →
      let a := attnOf p.bytes
      let rows := (List.range a.nrows).map (arowAt (handleBytes s c a.rh a.rtoff (64 * a.nrows)))
      let live := rows.filter (fun r => !r.tooLong)
      let failed := (rows.filter ARow.tooLong).length
      let lowest := ((List.range a.nrows).find? (fun i => match rows[i]? with | some r => r.tooLong | none => false)).getD 0xFFFF
      let checks := (Io.of d).attnChecks c a
      ∀ pages, d.attnFault c a = none → checks.1 = .ok pages → a.remote = false →
        (∀ l ∈ touchedLines s c a.rh a.rtoff (64 * a.nrows), CleanLines s [l] ∧ l ∉ recordLines s c) →
        (∀ i ∈ pages, checks.2.s.pagePin c i + timesIn i pages ≤ 65535) →
        (busy →
          ∃ s', exec (.fattn q) s = .next s' ∧ OnlyPages s s' ∧ SamePumphouse s s' ∧ (∀ e, s'.pool e = s.pool e) ∧
            (RecordsReady s c → SameMemory d checks.2.s →
              OnlyLines s s' (recordLines s c) ∧
              ∀ i ∈ pages, s'.pagePin c i = s.pagePin c i + timesIn i pages ∧ s'.pageRef c i = s.pageRef c i) ∧
            Booked s s' q.val k (dispatched (s.queue q.val) k p rest)
              (some { entryOf s q.val p (.attend p.bytes) with
                pins := pages
                data := checks.2.st }) []) ∧
        (¬busy →
          ∃ s' st fl empty nan, exec (.fattn q) s = .next s' ∧ OnlyAttention s s' ∧ SameTiles s s' ∧ SamePumphouse s s' ∧
            (∀ e, s'.pool e = s.pool e) ∧
            s'.att = { s.att with
              emptyRows := s.att.emptyRows + BitVec.ofNat 32 empty
              lenFail := s.att.lenFail + BitVec.ofNat 32 failed
              nanRows := s.att.nanRows + BitVec.ofNat 32 nan } ∧
            ((∀ w, Clean s w) → st = if failed = 0 then stOK else stLengthLimit) ∧
            (failed = a.nrows → empty = 0 ∧ nan = 0 ∧ fl = 0 ∧ (pages = [] → SameMemory s s')) ∧
            (∀ r, rows = [r] → r.tooLong = false → r.keylen = 0 → empty = a.nkvh * a.queries r ∧ nan = 0 ∧
              (a.partialOut = false →
                (touchedLines s c a.oh r.ooff (elemBytes a.storeFmt (a.nkvh * a.queries r * a.dim))).Nodup →
                handleBytes s' c a.oh r.ooff (elemBytes a.storeFmt (a.nkvh * a.queries r * a.dim)) =
                  List.replicate (elemBytes a.storeFmt (a.nkvh * a.queries r * a.dim)) 0)) ∧
            (AttnReady s c a live → SameMemory d checks.2.s →
              let units := unitsOf s c a rows pages
              let outs := units.flatMap (fun u => (List.range (a.queries u.r)).map (outAt s c u))
              empty = (outs.filter (fun o => o.empty)).length ∧ nan = (outs.filter (fun o => o.nan)).length ∧
              (∀ u ∈ units, ∀ i, i < a.queries u.r → RowStored s' c u i (outAt s c u i)) ∧
              (∀ x, x ∉ attnCells s c a live → x / 256 * 256 ∉ recordLines s c → memByte s' x = memByte s x) ∧
              (∀ r, rows = [r] → r.tooLong = false → r.keylen = 1 → a.kvfmt = 0 → ∀ u ∈ units, ∀ i, i < a.queries r →
                ∀ page, pages[u.h]? = some page → OneKeyIsItsValue s s' c u page i)) ∧
            Booked s s' q.val k (dispatched (s.queue q.val) k p rest)
              (some { entryOf s q.val p .ended with
                pins := pages
                data := checks.2.st
                flags := fl })
              [{ complOf s q.val k p st 0 (leBytes 4 empty ++ leBytes 2 failed ++ leBytes 2 lowest ++ leBytes 4 nan) with
                flags := fl }])) ∧
    (p.opcode = 0x21 →
      let m := mergeOf p.bytes
      d.mergeFault c m = none →
      (busy →
        ∃ s', exec (.mergeLse q) s = .next s' ∧ OnlyPumphouse s s' ∧ SamePumphouse s s' ∧
          InFlight s s' q.val k p rest (.attend p.bytes)) ∧
      (¬busy →
        ∃ s' st fl empty, exec (.mergeLse q) s = .next s' ∧ OnlyAttention s s' ∧ SameTiles s s' ∧ SamePumphouse s s' ∧
          (∀ e, s'.pool e = s.pool e) ∧ s'.att = { s.att with emptyRows := s.att.emptyRows + BitVec.ofNat 32 empty } ∧
          empty ≤ m.nq ∧ DataStatus s st ∧
          (CleanLines s (mergeLines s c m ++ mergeOut s c m) → (mergeOut s c m).Nodup →
            Apart (mergeLines s c m) (mergeOut s c m) →
            let out := fun q => mergeRow m.dim m.partialOut ((List.range m.nin).map (partAt s c m q))
            let size := elemBytes m.storeFmt m.dim
            st = stOK ∧ empty = ((List.range m.nq).filter (fun q => (out q).empty)).length ∧ OnlyLines s s' (mergeOut s c m) ∧
            ∀ q, q < m.nq →
              handleBytes s' c m.oh (m.ooff + q * size) size = (storeRow m.storeFmt (out q).vals).1 ∧
              (m.partialOut = true →
                handleBytes s' c m.oh (m.osoff + 8 * q) 8 = leBytes 4 (out q).m.toNat ++ leBytes 4 (out q).l.toNat)) ∧
          (m.nq = 1 →
            (∀ i, i < m.nin →
              CleanLines s (touchedLines s c m.ih (m.soff + i * m.sstride) 8) ∧
              CleanLines s (touchedLines s c m.ih (m.ioff + i * m.istride) (4 * m.dim)) ∧
              numAt s c m.ih (m.soff + i * m.sstride) 4 = 0xFF800000 ∧
              (val32 (BitVec.ofNat 32 (numAt s c m.ih (m.soff + i * m.sstride + 4) 4))).isNan = false) →
            empty = 1 ∧ fl = 0 ∧
            (m.partialOut = false → (touchedLines s c m.oh m.ooff (elemBytes m.storeFmt m.dim)).Nodup →
              handleBytes s' c m.oh m.ooff (elemBytes m.storeFmt m.dim) =
                List.replicate (elemBytes m.storeFmt m.dim) 0)) ∧
          EndedWith s s' q.val k p rest st fl (leBytes 4 empty ++ leBytes 2 0 ++ leBytes 2 0xFFFF ++ leBytes 4 0)))

/-! ## Registers -/

/-- Writes of single registers, the die READY and in no reset. A doorbell moves a queue's tail within what the ring can
cover, and is else counted and told (R251); arming gives a pool that is not LIVE its pages, or an error code (R328); a
confirmation lets a port that waits go ACTIVE (R474); the map and the expectation are kept (R470, R473); the tile hold and a
draft word are stored (R282, R354; a reserved NDRAFT is not, log 66); a shadow register passes its rule or stays, is lost while a
swap is pending, and a word with no bit of its own ignores the write (R17, R288, R293); LNK_CTRL.EN disables a port or trains it
(R457). Where the manual is silent this follows the model's choices (log 66, 72). -/
def Obligations.RegisterWritesAct : Prop :=
  ∀ (s : State), s.silent = false → s.rst.ready = true →
    (∀ (q : Fin 512) (tail : Word),
      let m := s.act.qmap q.val
      let x := s.queue q.val
      exec (.queueDoorbell q tail) s = .next (
        if m.en = true ∧ (tail - x.head).toNat ≤ m.units ∧ (x.tail - x.head).toNat ≤ (tail - x.head).toNat then
          s.setQueue q.val { x with tail := tail }
        else ({ s with pmh := { s.pmh with qerrors := s.pmh.qerrors + 1 } } : State).notify (ntQueueOverrun q.val))) ∧
    (∀ (c : Fin 16),
      let p := s.pool c.val
      let reserved := p.fmt = 3 ∨ p.headdim = 3 ∨ 20 < p.bucketBits.toNat ∨ p.dataOff.toNat % 256 ≠ 0 ∨ p.metaOff.toNat % 256 ≠ 0
      let outside := ∃ a ∈ p.areas true, (s.act.desc c.val a.1).bytes < a.2.1 + a.2.2
      ∃ s', exec (.poolArm c) s = .next s' ∧ (∀ d, d ≠ c.val → s'.pool d = s.pool d) ∧ s'.pmh = s.pmh ∧
        (p.live = true → s' = s) ∧
        (p.live = false → reserved → s'.pool c.val = { p with armErr := 2 }) ∧
        (p.live = false → ¬reserved → outside → s'.pool c.val = { p with armErr := 1 }) ∧
        (p.live = false → ¬reserved → ¬outside →
          let p' := s'.pool c.val
          (p'.live, p'.armErr, p'.free, p'.held, p'.fresh, p'.stack, p'.nodesLive) =
            (true, 0, p.pages.toNat, 0, 0, [], 0))) ∧
    (∀ (mask : BitVec 9) (lp : Nat), lp < 9 → maskList mask.toNat 9 = [lp] →
      ∃ s', exec (.portConfirm mask) s = .next s' ∧ bit s'.top.mismatch.toNat lp = false ∧
        bit s'.top.suspended.toNat lp = true ∧
        ((s.port (physPort s.top.orient lp)).state = .ctrlOnly → (s'.port (physPort s.top.orient lp)).state = .active) ∧
        s'.pmh = s.pmh ∧ SameMemory s s') ∧
    (∀ (w : Word), ∃ s', exec (.topMapWrite w) s = .next s' ∧ s'.top.mapv = bit w.toNat 31 ∧
      s'.top.module.toNat = (if s.top.mapv = true then s.top.module.toNat else w.toNat % 4096) ∧ s'.pmh = s.pmh ∧
      SameMemory s s') ∧
    (∀ (p : Fin 9) (w : Word), ∃ s', exec (.topExpectWrite p w) s = .next s' ∧
      spGet 0 s'.top.expect p.val = w &&& 0x810FFFFF ∧
      (∀ r, r ≠ p.val → spGet 0 s'.top.expect r = spGet 0 s.top.expect r) ∧ s'.pmh = s.pmh ∧ SameMemory s s') ∧
    (∀ (w : Half), exec (.tileHold w) s = .next { s with pmh := { s.pmh with tileHold := w } }) ∧
    (∀ (e : Fin 4096) (word : Fin 32) (w : Word), word.val = 7 ∨ 24 ≤ word.val →
      let x := s.entry e.val
      (x.inStep = true → exec (.draftWrite e word w) s =
        .next { s with srv := { s.srv with draftLost := s.srv.draftLost + 1 } }) ∧
      (x.inStep = false → ∃ s', exec (.draftWrite e word w) s = .next s' ∧
        { s' with srv := { s'.srv with entries := s.srv.entries } } = s ∧ (∀ n, n ≠ e.val → s'.entry n = s.entry n) ∧
        { s'.entry e.val with
          ndraft := x.ndraft
          draft := x.draft } = x ∧
        (s'.entry e.val).ndraft = (if word.val = 7 ∧ w.toNat / 2 ^ 28 ≤ 8 then w.toNat / 2 ^ 28 else x.ndraft) ∧
        ∀ k, k < 8 → (s'.entry e.val).draft.getD k 0 = if word.val = 24 + k then w else x.draft.getD k 0)) ∧
    (∀ (off : BitVec 24) (w : Word) (it : CfgItem), off.toNat % 4 = 0 → cfgItem off.toNat = some it →
      let c := s.shd.put off.toNat (w &&& s.cfgAbsent it)
      exec (.shadowRegisterWrite off w) s = .next (
        if it.mask &&& s.cfgAbsent it = 0 then s
        else if s.cfg.swap.isSome = true ∨ s.cfg.walking.isSome = true then { s with cfg := { s.cfg with wlost := true } }
        else if (s.itemFault c it).isSome = true then s
        else { s with shd := c })) ∧
    (∀ (p : Fin 9) (w : Word), s.fuse.portPresent p.val = true →
      ∃ s', exec (.linkEnable p w) s = .next s' ∧ (s'.port p.val).en = bit w.toNat 0 ∧
        (s'.port p.val).zrcEn = bit w.toNat 3 ∧ (s'.port p.val).hubOff = bit w.toNat 4 ∧
        (s'.port p.val).state = (if (s.port p.val).en = true ∧ bit w.toNat 0 = false then .disabled
          else if (s.port p.val).en = false ∧ bit w.toNat 0 = true ∧ s.rst.fuseDone = true ∧ s.portUsable p.val = true
            then .training else (s.port p.val).state))

/-- The REG_RSP of a register access (Table LNK-3). -/
def Sys2Proof.regRsp (s : State) (off count : Nat) (st : Half) (words : List Word) : Flit :=
  { vc := 0, typ := 3, src := s.dieId, dst := s.dieId, ctx := 0, xid := 0, segno := 0, zrc := false,
    payload := leBytes 4 off ++ leBytes 2 count ++ leBytes 2 st.toNat ++ words.flatMap (fun w => leBytes 4 w.toNat) }

/-- The state as a sequenced flit has been taken in order, before it acts. -/
def Sys2Proof.takenAt (s : State) (h : FlitHdr) (f : Flit) : State :=
  s.setPort h.port.val (((s.port h.port.val).takeFields h).takeInOrder f)

/-- The REG_WR flit. -/
def Sys2Proof.regWrFlit (h : FlitHdr) (off : Word) (ws : List Word) : Flit :=
  mkFlit h 0 2 false (leBytes 4 off.toNat ++ [BitVec.ofNat 8 ws.length, 0, 0, 0] ++ ws.flatMap (fun w => leBytes 4 w.toNat))

/-- The status of a register flit's checks, in their order: only the hub may send one; the offset is a multiple of 4; 1 to 56 words
within the control space; before READY no write beyond the ID, RST, PWR, TOP and LNK blocks (R439, R515, R541; log 73). -/
def Sys2Proof.regStatus (s : State) (h : FlitHdr) (off count : Nat) (write : Bool) : Half :=
  if h.src ≠ s.dieId then stPermission
  else if off % 4 ≠ 0 then stAlign
  else if count = 0 ∨ 56 < count ∨ 2 ^ 24 < off + 4 * count then stBounds
  else if write = true ∧ s.rst.ready = false ∧ 0x80000 < off + 4 * count then stRefuseContext
  else stOK

/-- REG_RD and REG_WR over the whole control space (R439, R515, R541). A REG_RD answers its checks' status and, where that is OK,
the words that the offsets read, and changes nothing; only LNK_CREDITS and LNK_RXFLITS of the port it came on tell of the flit
itself. A REG_WR whose checks fail writes nothing and is answered with its status; else its words are written at ascending
offsets and it is answered; one that sets RST_CTRL.WARM then resets the die (R507). -/
def Sys2Proof.RegisterFlitsRule : Prop :=
  ∀ (h : FlitHdr) (s : State), FlitFor s h →
    (∀ (off : Word) (count : Byte) (port : Nat), s.egressPort h.src = some port →
      let st := regStatus s h off.toNat count.toNat false
      ∃ s' words, exec (.regRd h off count) s = .next s' ∧ OnlyWires s s' ∧
        Sent s s' port [{ regRsp s off.toNat count.toNat st words with dst := h.src }] ∧
        (st ≠ stOK → words = []) ∧
        (st = stOK → words.length = count.toNat ∧ ∀ i, i < count.toNat →
          s.lnkAt (off.toNat + 4 * i) ≠ some (h.port.val, 0x08) → s.lnkAt (off.toNat + 4 * i) ≠ some (h.port.val, 0x24) →
          words.getD i 0 = s.ctrlRead (off.toNat + 4 * i))) ∧
    (∀ (off : Word) (ws : List Word) (port : Nat), s.egressPort h.src = some port →
      regStatus s h off.toNat ws.length true ≠ stOK →
      ∃ s', exec (.regWr h off ws) s = .next s' ∧ OnlyWires s s' ∧
        Sent s s' port [{ regRsp s off.toNat ws.length (regStatus s h off.toNat ws.length true) [] with dst := h.src }]) ∧
    (∀ (off : Word) (ws : List Word) (port : Nat), regStatus s h off.toNat ws.length true = stOK →
      let t := (List.range ws.length).foldl (fun u i => u.ctrlWrite (off.toNat + 4 * i) (ws.getD i 0))
        (takenAt s h (regWrFlit h off ws))
      let warm := off.toNat ≤ 0x10008 ∧ bit (ws.getD ((0x10008 - off.toNat) / 4) 0).toNat 0 = true
      t.silent = false → t.egressPort h.src = some port →
      ∃ s', exec (.regWr h off ws) s = .next s' ∧
        (¬warm → OnlyWires t s' ∧ Sent t s' port [{ regRsp t off.toNat ws.length stOK [] with dst := h.src }]) ∧
        (warm → s'.rst.held = some .warm)) ∧
    (∀ (n : Nat) (w : Word) (port : Nat), h.src = s.dieId → n < 256 → s.rst.ready = true →
      s.egressPort s.dieId = some port →
      ∃ s', exec (.regWr h (BitVec.ofNat 32 (0x104000 + 4 * n)) [w]) s = .next s' ∧
        { s' with
          ports := s.ports
          pmh := { s'.pmh with sem := s.pmh.sem } } = s ∧
        (∀ k, s'.semOf k = if k = n then w else s.semOf k) ∧ Sent s s' port [regRsp s (0x104000 + 4 * n) 1 stOK []])

/-- Registers that keep what is written to their bits and read it back, as (offset, bits): the RW words of the register tables
whose writes do nothing else. -/
def Sys2Proof.plainRegisters (s : State) : List (Nat × Word) :=
  [(0x10014, 0xFFFFFF), (0x30014, 0xFFFFFFFF), (0x30018, 0xFFFFFFFF), (0x30108, 0xFFFF), (0x30110, 0xFFFF), (0x80114, 0xFFFF),
    (0x8011C, 0x7F), (0x103080, 0xFFFF), (0x180000, 1), (0x18000C, 0xFFFFFF)]
  ++ (if s.rst.idLoaded then [(0x30, 0xFFFFFFFF)] else [])
  ++ (List.range 9).map (fun p => (0x30040 + 4 * p, 0x810FFFFF))
  ++ ((List.range 8).filter s.fuse.portPresent).map (fun p => (0x40010 + 0x8000 * p, 0xFFFF))
  ++ (List.range 256).map (fun n => (0x104000 + 4 * n, 0xFFFFFFFF))
  ++ (List.range 16).flatMap (fun c => [(0x103100 + 0x20 * c, 0xF3F), (0x103104 + 0x20 * c, 0x3FFFF), (0x103108 + 0x20 * c, 0xFFFFFFFF),
    (0x281000 + 0x20 * c, 0xF3F), (0x281004 + 0x20 * c, 0x3FFFF), (0x281008 + 0x20 * c, 0xFFFFFFFF)])
  ++ ((List.range 16).filter (fun c => !(s.pool c).live)).flatMap (fun c =>
    [(0x04, 0xFFFFF), (0x08, 0x3FFFFFFF), (0x0C, 0x3FFFFFFF), (0x10, 0x1F3F), (0x14, 0xFFFFF), (0x18, 0x3FFFFFFF), (0x1C, 0x3FFFFFFF),
      (0x20, 0xFFFFFFFF)].map (fun r => (0x300000 + 0x100 * c + r.1, r.2)))
  ++ (List.range 1024).flatMap (fun n => (List.range 14).map (fun k => (0x340000 + 0x40 * n + 4 * k,
    if k = 0 then 0x7FFFF3F1 else if k = 1 then 0x7FF else if k = 8 then 0x3F3F else 0xFFFFFFFF)))
  ++ (List.range s.fuse.tileCount).flatMap (fun t => [(0x404044 + 0x10000 * t, 0x7FFFFFFF), (0x404048 + 0x10000 * t, 0xFFFFFFFF)])
  ++ (if s.fuse.lark then (List.range 64).flatMap (fun q => [(0x602000 + 4 * q, 0xFFFFFFFF), (0x602200 + 4 * q, 0xFFFFFFFF)]) else [])

/-- Words that read zero and ignore writes: reserved ranges of the control space, and the blocks of absent tiles, ports and Lark
(R17, R19, R38, Table PHY-1). -/
def Sys2Proof.AbsentWord (s : State) (off : Nat) : Prop :=
  (0x500000 ≤ off ∧ off < 0x600000) ∨ 0x800000 ≤ off ∨
    (∃ t, s.fuse.tileCount ≤ t ∧ t < 16 ∧ 0x400000 + 0x10000 * t ≤ off ∧ off < 0x410000 + 0x10000 * t) ∨
    (∃ p, p < 8 ∧ s.fuse.portPresent p = false ∧ 0x40000 + 0x8000 * p ≤ off ∧ off < 0x44000 + 0x8000 * p) ∨
    (s.fuse.portPresent 8 = false ∧ 0x7C000 ≤ off ∧ off < 0x80000) ∨ (s.fuse.lark = false ∧ 0x600000 ≤ off ∧ off < 0x800000)

/-- Words that a write does not change (RO): identity, status and counters (R16). -/
def Sys2Proof.readOnlyWords : List (Nat × Nat) :=
  [(0x00, 0x14), (0x18, 0x30), (0x10000, 0x10004), (0x1000C, 0x10014), (0x10018, 0x20000), (0x30000, 0x30008), (0x3000C, 0x30010),
    (0x3001C, 0x30040), (0x30080, 0x300C4), (0x300C8, 0x30108), (0x3010C, 0x30110), (0x80000, 0x80010), (0x80030, 0x80100),
    (0x80104, 0x80114), (0x80118, 0x8011C), (0x80120, 0xC0000), (0x102000, 0x102800), (0x105000, 0x105014), (0x180010, 0x180014),
    (0x180100, 0x180108), (0x282000, 0x282018), (0x294000, 0x298000), (0x350000, 0x350018), (0x380100, 0x38010C)]

/-- The register map (R16, R17, R19, R38, R158, R541, Table PHY-1): absent and reserved words read zero and ignore writes; a
read-only word ignores them; a plain register reads back the bits written; a tile's flag words clear the bits written as 1. -/
def Sys2Proof.RegisterMapRule : Prop :=
  ∀ (s : State) (w : Word),
    (∀ off, off % 4 = 0 → AbsentWord s off → s.ctrlRead off = 0 ∧ s.ctrlWrite off w = s) ∧
    (∀ r ∈ readOnlyWords, ∀ off, off % 4 = 0 → r.1 ≤ off → off < r.2 → s.ctrlWrite off w = s) ∧
    (∀ r ∈ plainRegisters s, (s.ctrlWrite r.1 w).ctrlRead r.1 = w &&& r.2) ∧
    (∀ t, t < s.fuse.tileCount → ∀ off, off = 0x400040 + 0x10000 * t ∨ off = 0x404040 + 0x10000 * t →
      (s.ctrlWrite off w).ctrlRead off = s.ctrlRead off &&& ~~~w)

/-- What a flit of the hub or of a peer does where it is the next in order and for this die.
TIME sets the base of package time (R479); SEM_SIG adds to its semaphore and is acknowledged (R441, R446); SEM_ACK
completes the signal it answers (R271); HELLO and HELLO_ACK give the port its partner (R471, R473); LEAVING takes the port
OFFLINE (R457). Where the manual is silent this follows the model's choices (log 73). -/
def Sys2Proof.CtrlFlitsRule : Prop :=
  ∀ (h : FlitHdr) (s : State), FlitFor s h →
    (∀ ns : DWord,
      let base := ns + BitVec.ofNat 64 s.time.adj.toNat
      ∃ s', exec (.timeFlit h ns) s = .next s' ∧ { s' with
            ports := s.ports
            time := s.time } = s ∧
        (s'.time.valid, s'.time.base, s'.time.interp, s'.time.lostSent) = (true, base, 0, false) ∧
        s'.time.last.toNat = max s.time.last.toNat base.toNat ∧
        ((s'.port h.port.val).rxSeq, (s'.port h.port.val).rxAny, (s'.port h.port.val).rxFlits) =
          (h.seq + 1, true, (s.port h.port.val).rxFlits + 1)) ∧
    (∀ (sem : Byte) (v : Word) (port : Nat), s.egressPort h.src = some port →
      let st := if s.isOpen h.ctx.toNat = false then stRefuseContext
        else if (s.act.range h.ctx.toNat).hasSem sem.toNat = false then stPermission else stOK
      ∃ s', exec (.semSig h sem v) s = .next s' ∧ { s' with
            ports := s.ports
            pmh := { s'.pmh with sem := s.pmh.sem } } = s ∧
        (s'.semOf sem.toNat).toNat =
          (if st = stOK then min ((s.semOf sem.toNat).toNat + v.toNat) (2 ^ 32 - 1) else (s.semOf sem.toNat).toNat) ∧
        (∀ n, n ≠ sem.toNat → s'.semOf n = s.semOf n) ∧
        Sent s s' port [
          { vc := 0, typ := 7, src := s.dieId, dst := h.src, ctx := h.ctx, xid := 0, segno := 0, zrc := false,
            payload := [sem, 0, 0, 0] ++ leBytes 4 (s'.semOf sem.toNat).toNat ++ leBytes 2 st.toNat }]) ∧
    (∀ (sem : Byte) (v : Word) (st : Half) (k q : Nat) (c : Cmd), s.awaitedSig h.src sem.toNat = some k →
      s.cmd k = some c → c.origin = .queue q →
      ∃ s', exec (.semAck h sem v st) s = .next s' ∧ Finished s s' q k c st 0 0 (leBytes 4 v.toNat) ∧
        { s' with
          ports := s.ports
          pmh := s.pmh } = s) ∧
    (∀ (m : Hello) (ack : Bool),
      let i := if ack then Instr.helloAck h m else Instr.hello h m
      ∃ s', exec i s = .next s' ∧
        let x := s'.port h.port.val
        x.partner = some m ∧ x.heard = true ∧ s'.pmh = s.pmh ∧ SameMemory s s' ∧
        (ack = false → (s.linkFlit 9 (helloBytes (s.ownHello h.port.val))) ∈ onChannel x 0) ∧
        (x.unacked = 0 → s.partnerFails h.port.val m = false →
          bit s.top.mismatch.toNat (logicalPort s.top.orient h.port.val) = false → x.state = .active) ∧
        (x.unacked = 0 → s.partnerFails h.port.val m = true →
          bit s.top.suspended.toNat (logicalPort s.top.orient h.port.val) = false →
          x.state = .ctrlOnly ∧ bit s'.top.mismatch.toNat (logicalPort s.top.orient h.port.val) = true)) ∧
    (∃ s', exec (.leaving h) s = .next s' ∧ (s'.port h.port.val).state = .offline ∧ (s'.port h.port.val).partner = none ∧
      (s'.port h.port.val).retry = [])

/-- Registers over CTRL and the other CTRL flits: REG_RD and REG_WR over the whole control space, what its words read and keep, and
what TIME, semaphore and discovery flits do. Each completes so for every state that meets its conditions.
Where the manual is silent this follows the model's choices (log 73). -/
def Obligations.ControlFlitsAct : Prop :=
  Sys2Proof.RegisterFlitsRule ∧ Sys2Proof.RegisterMapRule ∧ Sys2Proof.CtrlFlitsRule

/-! ## Segments and the life of a port -/

/-- The bytes of a token stream of a compressed DATA flit (R458): a token up to 0x1C and its 8-byte words, or a token from 0x80 on
that stands for words of zeros. -/
inductive Sys2Proof.TokenStream : List Byte → List Byte → Prop where
  | done : TokenStream [] []
  | words {c : Byte} {ws rest out : List Byte} : c.toNat ≤ 0x1C → ws.length = 8 * (c.toNat + 1) → TokenStream rest out →
      TokenStream (c :: (ws ++ rest)) (ws ++ out)
  | zeros {c : Byte} {rest out : List Byte} : 0x80 ≤ c.toNat → TokenStream rest out →
      TokenStream (c :: rest) (List.replicate (8 * (c.toNat - 0x7F)) 0 ++ out)

/-- The payload of a DATA flit carries these bytes, raw or compressed (R458). -/
def Sys2Proof.Carries (zrc : Bool) (payload bs : List Byte) : Prop :=
  if zrc = true then TokenStream payload bs ∧ bs.length ≤ 2048 else bs = payload

/-- The RSP answer to a segment: 1 WR_ACK, 2 RD_END (Table LNK-3). -/
def Sys2Proof.segAnswer (s : State) (r : RxSeg) (st : Half) (reason : Byte) (n : Nat) : Flit :=
  { vc := 2, typ := 1, src := s.dieId, dst := r.src, ctx := r.ctx, xid := r.xid, segno := r.segno, zrc := false,
    payload := leBytes 2 st.toNat ++ [reason, 0] ++ leBytes 4 n }

/-- The open segments but the one of this flit. -/
def Sys2Proof.otherSegs (s : State) (h : FlitHdr) : List RxSeg :=
  s.rxSegs.filter (fun r => !(decide (r.src = h.src) && decide (r.xid = h.xid) && decide (r.segno = h.segno)))

/-- Other segments of the flit's transfer that are open. -/
def Sys2Proof.openOthers (s : State) (h : FlitHdr) : List RxSeg :=
  (otherSegs s h).filter (fun r => decide (r.src = h.src) && decide (r.xid = h.xid) && !r.dead)

/-- The bytes `bs` at offset `o` of a handle stand in memory, in clean words but those that `marks` names, which are poisoned, and
nothing else differs there; `marks` counts words from the one at offset `o`. -/
def Sys2Proof.BytesLanded (s s' : State) (c hd o : Nat) (bs : List Byte) (marks : Nat → Bool) : Prop :=
  let cells := (List.range bs.length).map (fun i => s.phys c hd (o + i))
  handleBytes s' c hd o bs.length = bs ∧ (∀ x, x ∉ cells → memByte s' x = memByte s x) ∧
    (∀ i, i < bs.length → s'.syndrome (s.phys c hd (o + i) / 32) = if marks (i / 32) then 0x3FF else 0) ∧
    ∀ w, (∀ x ∈ cells, x / 32 ≠ w) → s'.syndrome w = s.syndrome w

/-- Nothing but memory, the ports, the segments of other dies and the semaphores differs. -/
def Sys2Proof.OnlySegments (s s' : State) : Prop :=
  OnlyMemory s { s' with
    ports := s.ports
    rxSegs := s.rxSegs } ∧ s'.queues = s.queues ∧ { s'.pmh with sem := s.pmh.sem } = s.pmh

/-- A segment of a write transfer opens (R440, R441, Table CIS-4). A WR_SEG supersedes its key, and with SEGNO 0 the transfer before
(log 79); one that passes its checks opens its segment, one of no bytes is answered at once, and one that fails is answered with
the check's status and REASON, and what follows of it will be discarded. -/
def Sys2Proof.WriteSegmentsOpenRule : Prop :=
  ∀ (h : FlitHdr) (s : State), FlitFor s h →
    ∀ (handle : Byte) (last semen : Bool) (sem : Byte) (off : DWord) (len semval : Word),
      let kept := s.rxSegs.filter (fun r =>
        !(decide (r.src = h.src) && decide (r.xid = h.xid) && (decide (h.segno = 0) || decide (r.segno = h.segno))))
      let r : RxSeg :=
        { src := h.src, xid := h.xid, segno := h.segno, ctx := h.ctx, handle := BitVec.ofNat 6 handle.toNat, last := last,
          semen := semen, sem := sem, off := off.toNat, len := len.toNat, semval := semval, port := h.port, pos := 0, buf := [],
          marks := [], dead := false, status := stOK }
      let only := fun (s' : State) => { s' with
        ports := s.ports
        rxSegs := s.rxSegs } = s
      let check := s.check h.ctx.toNat handle.toNat .xw off.toNat len.toNat 256
      (check = none → len ≠ 0 →
        ∃ s', exec (.wrSeg h handle last semen sem off len semval) s = .next s' ∧ only s' ∧ s'.rxSegs = kept ++ [r]) ∧
      (∀ port, check = none → len = 0 → semen = false → s.egressPort h.src = some port →
        (∀ x ∈ kept, (x.src, x.xid) = (h.src, h.xid) → x.dead = false → x.pos ≠ x.len) →
        ∃ s', exec (.wrSeg h handle last semen sem off len semval) s = .next s' ∧ only s' ∧ s'.rxSegs = kept ∧
          Sent s s' port [segAnswer s r stOK 0 0]) ∧
      (∀ f port, check = some f → s.egressPort h.src = some port →
        ∃ s', exec (.wrSeg h handle last semen sem off len semval) s = .next s' ∧ only s' ∧
          s'.rxSegs = kept ++ [{ r with dead := true }] ∧ Sent s s' port [segAnswer s r f.status f.order 0])

/-- DATA of an open write segment (R265, R269, R285, R441, R446, R458, R459), raw or compressed, whatever part of its lines it
brings. Its bytes join those that wait for the rest of their line; whole lines, or all of them where the segment is complete, are
checked again and written, words announced as poisoned written as poison (log 79); a failed check ends the segment. A complete segment is
answered with its length, and a last one with SEMEN adds its value first, or answers PERMISSION, once the others of its transfer are
answered. A malformed flit ends the segment with BOUNDS, REASON 5, and is counted; the rest of an ended segment is discarded. -/
def Sys2Proof.SegmentDataRule : Prop :=
  ∀ (h : FlitHdr) (s : State), FlitFor s h →
    ∀ (zrc : Bool) (payload : List Byte) (marks : List Nat) (r : RxSeg) (port : Nat), payload.length ≤ 236 →
      s.egressPort h.src = some port → r ∈ s.rxSegs → (r.src, r.xid, r.segno) = (h.src, h.xid, h.segno) →
      (∀ x ∈ s.rxSegs, (x.src, x.xid, x.segno) = (h.src, h.xid, h.segno) → x = r) →
      let left := r.len - r.pos
      let done := r.pos - r.buf.length
      let run := exec (.dataFlit h zrc payload marks) s
      let still := ∀ x ∈ openOthers s h, x.pos ≠ x.len
      (r.dead = false → r.buf.length ≤ r.pos → r.pos ≤ r.len →
        (∀ bs, Carries zrc payload bs → bs.length ≤ left →
          let buf := r.buf ++ bs
          let m := if r.pos + bs.length = r.len then buf.length else buf.length / 256 * 256
          let c := r.ctx.toNat
          let hd := r.handle.toNat
          let o := r.off + done
          let check := if m = 0 then none else s.check c hd .xw o m 256
          let bad := fun w => (r.marks ++ marks).contains (done / 32 + w)
          let grown := { r with
            pos := r.pos + bs.length
            buf := buf.drop m
            marks := r.marks ++ marks }
          (∀ f, check = some f → still →
            ∃ s', run = .next s' ∧ OnlySegments s s' ∧ SameMemory s s' ∧ (∀ n, s'.semOf n = s.semOf n) ∧
              s'.rxSegs = otherSegs s h ++ [{ r with
                pos := r.pos + bs.length
                buf := []
                marks := []
                dead := true }] ∧
              Sent s s' port [segAnswer s r f.status f.order done]) ∧
          (check = none → o % 256 = 0 → ((List.range m).map (fun i => s.phys c hd (o + i))).Nodup →
            CleanLines s (touchedLines s c hd o m) →
            (grown.pos ≠ r.len →
              ∃ s', run = .next s' ∧ OnlySegments s s' ∧ BytesLanded s s' c hd o (buf.take m) bad ∧
                s'.rxSegs = otherSegs s h ++ [grown] ∧ (∀ n, s'.semOf n = s.semOf n) ∧ Sent s s' port []) ∧
            (grown.pos = r.len → r.last = true ∧ r.semen = true → openOthers s h ≠ [] →
              ∃ s', run = .next s' ∧ OnlySegments s s' ∧ BytesLanded s s' c hd o (buf.take m) bad ∧
                s'.rxSegs = otherSegs s h ++ [grown] ∧ (∀ n, s'.semOf n = s.semOf n) ∧ Sent s s' port []) ∧
            (grown.pos = r.len → (r.last = true ∧ r.semen = true → openOthers s h = []) →
              let signals := r.last && r.semen
              let has := (s.act.range c).hasSem r.sem.toNat
              let ack := segAnswer s r (if signals && !has then stPermission else r.status) 0 r.len
              (still →
                ∃ s', run = .next s' ∧ OnlySegments s s' ∧ BytesLanded s s' c hd o (buf.take m) bad ∧ s'.rxSegs = otherSegs s h ∧
                  (∀ n, (s'.semOf n).toNat = if signals = true ∧ has = true ∧ n = r.sem.toNat
                    then min ((s.semOf n).toNat + r.semval.toNat) (2 ^ 32 - 1) else (s.semOf n).toNat) ∧
                  Sent s s' port [ack]) ∧
              (∀ y, signals = false → openOthers s h = [y] → y.pos = y.len → y.last = true → y.semen = true →
                (s.act.range y.ctx.toNat).hasSem y.sem.toNat = true →
                (∀ x ∈ otherSegs s h, (x.src, x.xid, x.segno) = (y.src, y.xid, y.segno) → x = y) →
                ∃ s', run = .next s' ∧ OnlySegments s s' ∧ BytesLanded s s' c hd o (buf.take m) bad ∧
                  s'.rxSegs = (otherSegs s h).filter (fun x => decide (x ≠ y)) ∧
                  (∀ n, (s'.semOf n).toNat = if n = y.sem.toNat then min ((s.semOf n).toNat + y.semval.toNat) (2 ^ 32 - 1)
                    else (s.semOf n).toNat) ∧
                  Sent s s' port [ack, segAnswer s y y.status 0 y.len])))) ∧
        ((∀ bs, Carries zrc payload bs → left < bs.length) → still →
          ∃ s', run = .next s' ∧ OnlySegments s s' ∧ SameMemory s s' ∧ (∀ n, s'.semOf n = s.semOf n) ∧
            (s'.port h.port.val).protErr = (s.port h.port.val).protErr + 1 ∧
            s'.rxSegs = otherSegs s h ++ [{ r with
              buf := []
              marks := []
              dead := true }] ∧
            Sent s s' port [segAnswer s r stBounds 5 done])) ∧
      (r.dead = true → ∃ s', run = .next s' ∧ Sent s s' port [] ∧ { s' with
          ports := s.ports
          rxSegs := s.rxSegs } = s ∧
        ∀ bs, Carries zrc payload bs → bs.length ≤ left →
          s'.rxSegs = otherSegs s h ++ (if r.pos + bs.length = r.len then [] else [{ r with pos := r.pos + bs.length }]))

/-- Answers to segments (R265, R440 to R443, R454, R459). An RD_SEG is answered with its DATA and RD_END, or with its failed check;
DATA of this die's own read is written in whole lines, or all of it where the segment is complete, and one that is malformed ends its
segment with BOUNDS, REASON 5; the last answer of a transfer of one segment
completes its command, and UNREACH completes it with PARTNER_LOST. -/
def Sys2Proof.SegmentAnswersRule : Prop :=
  ∀ (h : FlitHdr) (s : State), FlitFor s h →
    (∀ (handle : Byte) (off : DWord) (len : Word) (port : Nat), s.egressPort h.src = some port →
      let check := s.check h.ctx.toNat handle.toNat .xr off.toNat len.toNat 256
      let rdEnd := fun (st : Half) (reason : Byte) =>
        { idleFlit with
          vc := 2
          typ := 2
          src := s.dieId
          dst := h.src
          ctx := h.ctx
          xid := h.xid
          segno := h.segno
          payload := leBytes 2 st.toNat ++ [reason] }
      (∀ f, check = some f → ∃ s', exec (.rdSeg h handle off len) s = .next s' ∧ OnlyWires s s' ∧
        Sent s s' port [rdEnd f.status f.order]) ∧
      (check = none → CleanLines s (touchedLines s h.ctx.toNat handle.toNat off.toNat len.toNat) →
        ∃ s', exec (.rdSeg h handle off len) s = .next s' ∧ OnlyGrants s { s' with ports := s.ports } ∧
          Sent s s' port (dataFlits s.dieId h.src h.ctx h.xid h.segno false [] (len.toNat + 1) 0
            (handleBytes s h.ctx.toNat handle.toNat off.toNat len.toNat) ++ [rdEnd stOK 0]))) ∧
    (∀ (c : Cmd) (x : Xfer) (zrc : Bool) (payload : List Byte) (marks : List Nat), s.cmd h.xid.toNat = some c → c.job = .xfer x →
      x.isRead = true → x.peer = h.src → h.segno.toNat < x.segs.length → payload.length ≤ 236 →
      (∀ r ∈ s.rxSegs, (r.src, r.xid, r.segno) ≠ (h.src, h.xid, h.segno)) →
      let n := h.segno.toNat
      let g := x.segs.getD n Seg.empty
      let len := min 32768 (x.len - 32768 * n)
      let run := exec (.dataFlit h zrc payload marks) s
      g.ended = false → g.pos ≤ len →
      (∀ bs, Carries zrc payload bs → bs.length ≤ len - g.pos →
        let buf := g.buf ++ bs
        let m := if g.pos + bs.length = len then buf.length else buf.length / 256 * 256
        let o := x.off + 32768 * n + g.bytes
        o % 256 = 0 → g.bytes % 32 = 0 → ((List.range m).map (fun i => s.phys c.ctx x.handle.toNat (o + i))).Nodup →
        CleanLines s (touchedLines s c.ctx x.handle.toNat o m) →
        ∃ s', run = .next s' ∧ OnlyMemory s { s' with ports := s.ports } ∧
          BytesLanded s s' c.ctx x.handle.toNat o (buf.take m) (fun w => (g.marks ++ marks).contains (g.bytes / 32 + w)) ∧
          s'.cmd h.xid.toNat = some { c with job := .xfer { x with segs := x.segs.set n { g with
            pos := g.pos + bs.length
            buf := buf.drop m
            bytes := g.bytes + m
            marks := g.marks ++ marks } } } ∧
          (∀ k, k ≠ h.xid.toNat → s'.cmd k = s.cmd k) ∧ s'.pmh.compl = s.pmh.compl) ∧
      (∀ q, (∀ bs, Carries zrc payload bs → len - g.pos < bs.length) → x.segs = [g] → c.origin = .queue q → x.data = none →
        ∃ s', run = .next s' ∧ { s' with
            ports := s.ports
            pmh := s.pmh } = s ∧
          (s'.port h.port.val).protErr = (s.port h.port.val).protErr + 1 ∧
          Finished s s' q h.xid.toNat c stBounds 5 0 (leBytes 8 g.bytes))) ∧
    (∀ (c : Cmd) (x : Xfer) (g : Seg) (q : Nat), s.cmd h.xid.toNat = some c → c.origin = .queue q → c.job = .xfer x →
      x.segs = [g] → g.ended = false → x.data = none → x.semen = false → h.segno = 0 →
      let frame := fun (s' : State) => { s' with
        ports := s.ports
        pmh := s.pmh } = s
      (∀ st reason n, x.isRead = false → x.peer = h.src →
        ∃ s', exec (.wrAck h st reason n) s = .next s' ∧ frame s' ∧
          Finished s s' q h.xid.toNat c (if st = stOK then x.okStatus else st) (if st = stOK then 0 else reason) 0
            (leBytes 8 n.toNat)) ∧
      (∀ st reason, x.isRead = true → x.peer = h.src →
        ∃ s', exec (.rdEnd h st reason) s = .next s' ∧ frame s' ∧
          Finished s s' q h.xid.toNat c (if st = stOK then x.okStatus else st) (if st = stOK then 0 else reason) 0
            (leBytes 8 g.bytes)) ∧
      (x.isRead = false →
        (∃ s', exec (.unreach h) s = .next s' ∧ frame s' ∧
          Finished s s' q h.xid.toNat c stPartnerLost 0 0 (leBytes 8 g.bytes)) ∧
        ∃ s', exec (.e2eTimeout (h.xid.toFin)) s = .next s' ∧ { s' with pmh := s.pmh } = s ∧
          Finished s s' q h.xid.toNat c stPartnerLost 0 0 (leBytes 8 g.bytes)))

/-- Segments of transfers: how they open, what their DATA does, and what ends them. Each clause completes so for every state that
meets its conditions. Where the manual is silent this follows the model's choices (log 73, 79). -/
def Obligations.SegmentsMoveBytes : Prop :=
  Sys2Proof.WriteSegmentsOpenRule ∧ Sys2Proof.SegmentDataRule ∧ Sys2Proof.SegmentAnswersRule

/-- The header that the 256 bytes of a flit carry, on port `p` (Table LNK-1). -/
def Sys2Proof.headerOf (p : Fin 9) (w : WireFlit) : FlitHdr :=
  { port := p, seq := w.seq, ackSeq := w.ackSeq, ackV := w.ackV, nak := w.nak, crvc := w.crvc, crtot := w.crtot, src := w.flit.src,
    dst := w.flit.dst, ctx := w.flit.ctx, xid := w.flit.xid, segno := w.flit.segno }

/-- The 256 bytes of a flit (R433, R434, R449, Tables LNK-1, LNK-3): bytes whose CRC fails are counted and dropped with one NAK; the
bytes of an idle flit, of DATA and of a SEM_SIG act as those flits do. -/
def Sys2Proof.FlitBytesRule : Prop :=
  ∀ (p : Fin 9) (s : State),
    (∀ bs : List Byte, bs.length ≠ 256 ∨ bs.drop 252 ≠ leBytes 4 (crc32c (bs.take 252)).toNat → s.receives p.val = true →
      let x := { s.port p.val with crcErr := (s.port p.val).crcErr + 1 }
      exec (.flitCrcFail p bs) s = .next (s.setPort p.val (if x.nakOpen then x else { x.sendIdle true with nakOpen := true }))) ∧
    ∀ w : WireFlit, w.flit.payload.length ≤ 236 → w.bytes.length = 256 ∧
      (w.flit.typ = 0 → exec (.flitCrcFail p w.bytes) s = exec (.idleFlit (headerOf p w)) s) ∧
      (w.flit.vc = 3 → w.flit.typ = 1 →
        exec (.flitCrcFail p w.bytes) s = exec (.dataFlit (headerOf p w) w.flit.zrc w.flit.payload []) s) ∧
      (∀ (sem : Byte) (v : Word), w.flit.vc = 0 → w.flit.typ = 6 → w.flit.zrc = false →
        w.flit.payload = [sem, 0, 0, 0] ++ leBytes 4 v.toNat →
        exec (.flitCrcFail p w.bytes) s = exec (.semSig (headerOf p w) sem v) s)

/-- A port's life (Table LNK-4, R431, R434, R436, R437, R448 to R453, R456, R462, R471, R512, R518). A sequenced flit out of order is
dropped with one NAK, and one that was taken before the last RETRAIN gives its credits back (log 79); an idle flit's acknowledgement releases the buffer up to it; a
port with nothing to send sends an idle flit; on a timeout it replays what is not acknowledged and may be sent now (R438, R501), and after
sixteen replays of one SEQ, or when its partner does, it retrains; a wellhead
that trained is in CTRLONLY with full credits and has sent HELLO, and the shaft port trains by one good idle flit each way; and one that fails or hears nothing is DOWN without buffer
or partner, its signals under way ended. Where the manual is silent this follows the model's choices (log 72, 79). -/
def Sys2Proof.PortLifeRule : Prop :=
  ∀ (p : Fin 9) (s : State), s.silent = false →
    let x := s.port p.val
    let nak := if x.nakOpen then x else { x.sendIdle true with nakOpen := true }
    let lp := logicalPort s.top.orient p.val
    let sendable := x.retry.filter (fun e => (decide (x.state = .active) || decide (e.2.vc = 0)) &&
      !(decide (e.2.vc = 3) && (s.pwr.vcoreWarn || s.pwr.vcisWarn)))
    let trained := fun (s' : State) => let y := s'.port p.val
      y.state = .ctrlOnly ∧ y.trained = true ∧ y.unacked = 1 ∧ y.gotTot = [] ∧ y.partner = none ∧
        bit s'.top.suspended.toNat lp = false ∧ s.linkFlit 8 (helloBytes (s.ownHello p.val)) ∈ onChannel y 0 ∧
        s'.pmh = s.pmh ∧ SameMemory s s'
    let fails := fun (i : Instr) (st : Half) => ∃ s', exec i s = .next s' ∧
      let y := s'.port p.val
      (y.state, y.downs, y.partner, y.retry, y.egress) = (.down, x.downs + 1, none, [], []) ∧
        ∀ k q c peer sem, s.cmd k = some c → c.origin = .queue q → c.job = .remoteSig p.val peer sem →
          s'.cmd k = some { c with job := .ended } ∧
          { slot := some k, ctx := c.ctx, queue := q, tag := c.tag, notify := c.notify, status := withData c.data st, reason := 0,
            flags := c.flags, late := false, wave := c.wave, data := [] } ∈ s'.pmh.compl
    (x.alive = true → s.fuse.portPresent p.val = true →
      (∀ i h, Sequenced i h → h.port = p → h.seq ≠ x.rxSeq → h.seq ∉ x.again → exec i s = .next (s.setPort p.val nak)) ∧
      (∀ h zrc bs marks, h.port = p → h.seq ≠ x.rxSeq → h.seq ∈ x.again → (x.rxSeq - h.seq).toNat ≤ 64 →
        ∃ s', exec (.dataFlit h zrc bs marks) s = .next s' ∧ OnlyWires s s' ∧ (∀ r, r ≠ p.val → s'.port r = s.port r) ∧
          (s'.port p.val).again = x.again.filter (fun q => decide (q ≠ h.seq)) ∧ (s'.port p.val).rxSeq = x.rxSeq ∧
          (∀ vc, spGet 0 (s'.port p.val).retTot vc = spGet 0 x.retTot vc +
            (if vc = 3 then BitVec.ofNat 11 ((16 + bs.length + 63) / 64) else 0))) ∧
      (∀ h pre f post, h.port = p → h.nak = false → h.ackV = true → x.leaving = false → x.egress = [] →
        x.retry = pre ++ (h.ackSeq, f) :: post → (∀ e ∈ pre, e.1 ≠ h.ackSeq) →
        ∃ s', exec (.idleFlit h) s = .next s' ∧ OnlyWires s s' ∧ (∀ r, r ≠ p.val → s'.port r = s.port r) ∧
          (s'.port p.val).retry = post ∧
          (s'.port p.val).replayed = x.replayed.filter (fun r => post.any (fun e => decide (e.1.toNat = r.1))) ∧
          (s'.port p.val).rxSeq = x.rxSeq ∧ spGet 0 (s'.port p.val).gotTot h.crvc.toNat = h.crtot)) ∧
    (x.alive = true →
      exec (.keepaliveIdleSend p) s = .next (s.setPort p.val (x.sendIdle false)) ∧ fails (.linkDown p) stPartnerLost ∧
      (s.pins.thermtrip = true ∨ sendable = [] → exec (.replayTimeout p) s = .next (s.setPort p.val x)) ∧
      (s.pins.thermtrip = false → sendable ≠ [] →
        ∃ s', exec (.replayTimeout p) s = .next s' ∧ OnlyWires s s' ∧ (∀ r, r ≠ p.val → s'.port r = s.port r) ∧
          let y := s'.port p.val
          (y.wire.drop x.wire.length).map (fun w => (w.seq, w.flit)) = sendable ∧ y.wire.take x.wire.length = x.wire ∧
            (y.retry, y.replays) = (x.retry, x.replays + 1) ∧
            ∀ n, spGet 0 y.replayed n = spGet 0 x.replayed n + (sendable.filter (fun e => decide (e.1.toNat = n))).length) ∧
      (∀ partner, partner = true ∨ (∃ e ∈ x.retry, 16 ≤ spGet 0 x.replayed e.1.toNat) →
        ∃ s', exec (.retrainEnter p partner) s = .next s' ∧ (s'.port p.val).state = .retrain ∧
          (s'.port p.val).retrains = x.retrains + 1 ∧ (s'.port p.val).retry = x.retry ∧ s'.pmh = s.pmh ∧ SameMemory s s')) ∧
    (x.state = .ctrlOnly → 0 < x.unacked →
      ∃ s', exec (.helloResend p) s = .next s' ∧ OnlyWires s s' ∧
        Sent s s' p.val [s.linkFlit 8 (helloBytes (s.ownHello p.val))] ∧ (s'.port p.val).unacked = x.unacked + 1) ∧
    (x.state = .retrain →
      fails (.retrainTimeout p) stRetryExhausted ∧
      ∀ rate half rep, ∃ s', exec (.retrainDone p rate half rep) s = .next s' ∧
        (s'.port p.val).state = (if x.heard = true ∧ x.unacked = 0 ∧ bit s.top.mismatch.toNat lp = false then .active
          else .ctrlOnly) ∧
        (s'.port p.val).replayed = [] ∧ s'.pmh = s.pmh ∧ SameMemory s s') ∧
    (x.state = .training →
      fails (.trainingTimeout p) stPartnerLost ∧
      (∀ rate half rep, p.val ≠ 8 → ∃ s', exec (.linkTrained p rate half rep) s = .next s' ∧ trained s' ∧
        (s'.port p.val).rate.toNat = min rate.toNat (min x.maxRate.toNat 2) ∧
        ((s'.port p.val).half, (s'.port p.val).repaired) = (half, rep)) ∧
      (p.val = 8 →
        (∀ rate half rep, exec (.linkTrained p rate half rep) s = .next s) ∧
        (x.idleHeard = false → exec (.keepaliveIdleSend p) s = .next (s.setPort 8 { x.sendIdle false with idleSent := true })) ∧
        (x.idleHeard = true → ∃ s', exec (.keepaliveIdleSend p) s = .next s' ∧ trained s' ∧
          ((s'.port 8).rate, (s'.port 8).half, (s'.port 8).repaired) = (0, false, 0)) ∧
        (∀ h, h.port = p → x.idleSent = false → exec (.idleFlit h) s = .next (s.setPort 8 { x with idleHeard := true })) ∧
        ∀ h, h.port = p → x.idleSent = true → ∃ s', exec (.idleFlit h) s = .next s' ∧ trained s' ∧
          ((s'.port 8).rate, (s'.port 8).half, (s'.port 8).repaired) = (0, false, 0))) ∧
    (x.state = .down → x.en = true → x.hubOff = false →
      ∃ s', exec (.trainingRetry p) s = .next s' ∧ OnlyWires s s' ∧ (s'.port p.val).state = .training ∧
        ((s'.port p.val).txSeq, (s'.port p.val).rxSeq, (s'.port p.val).sent, (s'.port p.val).partner) = (0, 0, [], none) ∧
        ∀ r, r ≠ p.val → s'.port r = s.port r)

/-- The bytes of flits and a port's life. Each clause completes so for every state that meets its conditions.
Where the manual is silent this follows the model's choices (log 72). -/
def Obligations.PortsTrainReplayAndFail : Prop := Sys2Proof.FlitBytesRule ∧ Sys2Proof.PortLifeRule

/-! ## Supplies, heat and the governor -/

/-- The monitors of VCORE and VCIS (R484, R486, R487): a warning begins a hold, which is told where none was in force; the
last warning's end ends it, counts it, tells it and lets the Lark engines go on. VLINK's warning holds nothing and is told
once (R488). The monitors of VCORE and VCIS act outside STANDBY, VLINK's always (R523). -/
def Obligations.SupplyWarningsHoldTheDie : Prop :=
  ∀ (vcis : Bool) (mv : Half) (s : State),
    let p := s.pwr
    (s.rst.standby = false → ∃ t : State, exec (.supplyWarningAssert vcis mv) s =
        .next (if s.supplyHold then t else t.notify (ntSupplyHold (p.vcoreWarn || !vcis) (p.vcisWarn || vcis))) ∧
      { t with pwr := s.pwr } = s ∧ (t.pwr.vcoreWarn, t.pwr.vcisWarn) = (p.vcoreWarn || !vcis, p.vcisWarn || vcis) ∧
      (t.pwr.vcore, t.pwr.vcis) = (if vcis then (p.vcore, mv) else (mv, p.vcis)) ∧ t.pwr.telHold = true ∧
      (t.pwr.holds, t.pwr.capPower, t.pwr.capThermal, t.pwr.capStack) = (p.holds, p.capPower, p.capThermal, p.capStack)) ∧
    (s.rst.standby = false → (if vcis then p.vcoreWarn else p.vcisWarn) = true →
      ∃ t, exec (.supplyWarningDeassert vcis mv) s = .next t ∧ { t with pwr := s.pwr } = s ∧
        (t.pwr.vcoreWarn, t.pwr.vcisWarn, t.pwr.holds) = (vcis, !vcis, p.holds) ∧
        (t.pwr.coreBrown, t.pwr.cisBrown) = (if vcis then (p.coreBrown, false) else (false, p.cisBrown)) ∧
        (t.pwr.vcore, t.pwr.vcis) = (if vcis then (p.vcore, mv) else (mv, p.vcis))) ∧
    (s.rst.standby = false → (p.vcoreWarn, p.vcisWarn) = (!vcis, vcis) → s.rst.held = none → p.halt = false → s.pins.thermtrip = false →
      ∃ s', exec (.supplyWarningDeassert vcis mv) s = .next s' ∧ s'.supplyHold = false ∧
        s'.pwr.holds = p.holds + 1 ∧ (s'.pwr.lowWindows, s'.pwr.highWindows) = (0, p.highWindows) ∧
        (∀ e, (s'.engine e).stopped = false) ∧ s'.pmh = s.pmh ∧ s'.queues = s.queues ∧ s'.tiles = s.tiles ∧
        SameMemory s s') ∧
    exec (.vlinkWarning mv) s =
      .next (if p.vlinkWarn then { s with pwr := { p with
          vlink := mv
          vlinkWarn := true } }
        else ({ s with pwr := { p with
          vlink := mv
          vlinkWarn := true } } : State).notify (ntSupplyLink mv)) ∧
    exec (.vlinkWarningDeassert mv) s = .next { s with pwr := { p with
      vlink := mv
      vlinkWarn := false } }

/-- Heat (R463, R490, R494, R499 to R504, Tables PWR-1 and PWR-3). A sensor sample is kept for the sensors the die has;
THERMAL_HALT begins at 115 C and lasts until the hottest sensor is below 112 C, which counts it, and at 125 C THERMTRIP_N
asserts. THERMAL_CAP_TICK lowers the THERMAL cap by one eighth above TGOV, raises it below TGOV less HYST, and else leaves it;
STACK_CAP_TICK does the same for the STACK cap of an upper die against its latest report; a report that fails to come caps it
at 4/8, and a valid word ends that. The lower die sends its hottest sensor with the word's number.
Where the manual is silent this follows the model's choices (log 31). -/
def Obligations.HeatStopsAndCaps : Prop :=
  ∀ (s : State), s.silent = false →
    (∀ temps : List (BitVec 10), ∃ s', exec (.sensorSample temps) s = .next s' ∧
      (∀ n, n < 18 → spGet none s'.pwr.temp n = if s.fuse.sensor n = true then temps[n]? else none) ∧
      (∀ n, 18 ≤ n → spGet none s'.pwr.temp n = spGet none s.pwr.temp n) ∧
      s'.pwr.halt = (if (115 + 40) * 4 ≤ s'.pwr.tmax then true else if s'.pwr.tmax < (112 + 40) * 4 then false
        else s.pwr.halt) ∧
      s'.pwr.halts = (if s.pwr.halt = true ∧ s'.pwr.halt = false then s.pwr.halts + 1 else s.pwr.halts) ∧
      s'.pins.thermtrip = (s.pins.thermtrip || decide ((125 + 40) * 4 ≤ s'.pwr.tmax)) ∧
      (s'.pwr.capPower, s'.pwr.capThermal) = (s.pwr.capPower, s.pwr.capThermal) ∧ s'.pmh = s.pmh ∧ s'.tiles = s.tiles ∧
      SameMemory s s') ∧
    (s.stopped = false → s.pwr.sensed = true → s.pwr.tmax < (115 + 40) * 4 →
      let c := s.pwr.capThermal.toNat
      ∃ s', exec .thermalCapTick s = .next s' ∧ { s' with pwr := s.pwr } = s ∧
        s'.pwr.capThermal.toNat =
          (if (s.act.tgov + 40) * 4 < s.pwr.tmax then max 1 (c - 1)
           else if s.pwr.tmax < (s.act.tgov - s.act.hyst + 40) * 4 then (if 8 ≤ c then 8 else c + 1) else c) ∧
        (s'.pwr.capPower, s'.pwr.capStack) = (s.pwr.capPower, s.pwr.capStack)) ∧
    (s.stopped = false → s.effTier = 2 → s.pwr.reported = true → s.pwr.stackMiss = false →
      let c := s.pwr.capStack.toNat
      let t := s.pwr.lower.toNat % 1024
      ∃ s', exec .stackCapTick s = .next s' ∧ { s' with pwr := s.pwr } = s ∧
        s'.pwr.capStack.toNat =
          (if (s.act.tstack + 40) * 4 < t then max 1 (c - 1)
           else if t ≤ (s.act.tstack - s.act.hyst + 40) * 4 then (if 8 ≤ c then 8 else c + 1) else c) ∧
        (s'.pwr.capPower, s'.pwr.capThermal) = (s.pwr.capPower, s.pwr.capThermal)) ∧
    (s.effTier = 2 →
      (∃ s', exec .stackReportTimeout s = .next s' ∧ { s' with pwr := s.pwr } = s ∧ s'.pwr.stackMiss = true ∧
        s'.pwr.capStack = (if s.stopped = true ∨ s.pwr.capStack.toNat ≤ 4 then s.pwr.capStack else 4)) ∧
      ∀ w, bit w.toNat 10 = true → exec (.thermalSidebandWord w) s = .next { s with pwr := { s.pwr with
        lower := w
        stackMiss := false
        reported := true } }) ∧
    (s.effTier = 1 →
      exec .thermalSidebandSend s = .next { s with pwr := { s.pwr with
        sbWire := s.pwr.sbWire ++ [BitVec.ofNat 16 (s.pwr.tmax + (if s.pwr.sensed then 1024 else 0) + 4096 * s.pwr.sbSeq.toNat)]
        sbSeq := s.pwr.sbSeq + 1 } })

/-- The end of a governor window (R489, R492, R493, R495): the estimate is the static term and the energies of the events
counted since the last, the new limit is in force; above the limit the
POWER cap falls by one eighth to no less than 1/8, the fourth window in a row at or below 7/8 of it raises it, and during a
stop it stands. The tenth window in a row above the limit at a cap of 1/8, stops included, sets OVERLIMIT, which the first one
within the limit clears. A frame of an array ends with its waves counted, and the next one's duty is the smallest cap: of the 8
waves of a frame, as many eighths as the duty carry operands and the others idle (R490); an empty queue makes the former
bubbles (R179). A telemetry period sends what it saw and begins anew
(R497), package time that stays away is told once (R481), and TELEMETRY writes the PWR registers as one line (R498).
Where the manual is silent this follows the model's choices (log 30, 32, 77, 78). -/
def Obligations.GovernorAndTelemetry : Prop :=
  (∀ (mv : Half) (s : State), s.silent = false →
    let p := s.pwr
    let limit := p.limitNext.getD p.limit
    let q := { s with pwr := p.sense false mv }
    let est := BitVec.ofNat 16 (min 0xFFFF ((Config.staticPower mv.toNat p.tmax +
      ((List.range 260).map (fun k => Config.eventEnergy k * (q.activity k - spGet 0 p.counted k).toNat)).sum) / 2 ^ 20))
    let high := if limit.toNat < est.toNat ∧ p.capPower = 1 then p.highWindows + 1 else 0
    let above := p.overlimit && decide (limit.toNat < est.toNat)
    ∃ s', exec (.powerWindowEnd mv) s = .next s' ∧ s'.pwr.vcore = mv ∧
      (∀ k, k < 260 → spGet 0 s'.pwr.counted k = s.activity k) ∧
      (s'.pwr.highWindows, s'.pwr.overlimit) = (high, above || decide (10 ≤ high)) ∧
      s'.pwr.overlimits = (if above = false ∧ 10 ≤ high then p.overlimits + 1 else p.overlimits) ∧
      (s'.pwr.limit, s'.pwr.limitNext, s'.pwr.estimate) = (limit, none, est) ∧
      (s'.pwr.telSum, s'.pwr.telCount) = (p.telSum + est.toNat, p.telCount + 1) ∧
      s'.pwr.capPower.toNat = (if s.stopped = true then p.capPower.toNat
        else if limit.toNat < est.toNat then max 1 (p.capPower.toNat - 1)
        else if 8 * est.toNat ≤ 7 * limit.toNat ∧ 4 ≤ p.lowWindows + 1 then min 8 (p.capPower.toNat + 1)
        else p.capPower.toNat) ∧
      s'.pwr.lowWindows = (if s.stopped = true then p.lowWindows else
        (if limit.toNat < est.toNat then 0 else if 8 * est.toNat ≤ 7 * limit.toNat then
          (if 4 ≤ p.lowWindows + 1 then 0 else p.lowWindows + 1) else 0)) ∧
      (s'.pwr.capThermal, s'.pwr.capStack, s'.pwr.halt) = (p.capThermal, p.capStack, p.halt) ∧
      s'.pmh = s.pmh ∧ s'.tiles = s.tiles ∧ SameMemory s s') ∧
  (∀ (t : Fin 16) (empty : Byte) (s : State), s.silent = false → s.rst.ready = true → t.val < s.fuse.tileCount →
    let a := (s.tile t.val).arr
    let duty := BitVec.ofNat 4 (min s.pwr.capPower.toNat (min s.pwr.capThermal.toNat s.pwr.capStack.toNat))
    ∃ s', exec (.governorFrame t empty) s = .next s' ∧ OnlyTile t.val s s' ∧
      let a' := (s'.tile t.val).arr
      s'.tile t.val = { s.tile t.val with arr := a' } ∧ (a'.duty, a'.place) = (duty, 0) ∧
      (a.run = none → a' = { a with
        duty := duty
        place := 0 }) ∧
      (∀ i, a.run = some i → (∀ n, n < operandWaves i → i.holds n = true) → a.fired + 8 ≤ operandWaves i → a.place = 0 →
        a.ramp = 64 → a.duty.toNat ≤ 8 →
        let k := a.duty.toNat
        a'.govIdle = a.govIdle + BitVec.ofNat 32 (8 - k) ∧
        (empty = 0 → (a'.fired, a'.opWaves, a'.bubbles) = (a.fired + k, a.opWaves + BitVec.ofNat 32 k, a.bubbles)) ∧
        (empty = 0xFF → (a'.fired, a'.opWaves, a'.bubbles) = (a.fired, a.opWaves, a.bubbles + BitVec.ofNat 32 k)))) ∧
  (∀ (pace : Half) (s : State), s.silent = false →
    ∃ t : State, exec (.telemetryPeriod pace) s = .next (t.notify (ntTelemetry (s.pwr.telemetry pace))) ∧
      { t with pwr := s.pwr } = s ∧
      (t.pwr.telSum, t.pwr.telCount, t.pwr.telVcore) = (0, 0, s.pwr.vcore) ∧
      (t.pwr.telHold, t.pwr.telHalt) = (s.supplyHold, s.pwr.halt)) ∧
  (∀ (s : State), s.time.valid = true → s.time.lostSent = false →
    exec .timeLost s = .next (({ s with time := { s.time with lostSent := true } } : State).notify (ntTimeLost s.time.last))) ∧
  (∀ (q : Fin 512) (k : Nat) (p : Pkt) (rest : List Pkt) (s : State), DispatchReady s q.val k p rest → p.opcode = 0x48 →
    s.check p.ctx (p.handle 8) .ww (p.u64 16) 256 256 = none →
    let a := s.phys p.ctx (p.handle 8) (p.u64 16)
    ∃ s', exec (.telemetry q) s = .next s' ∧ OnlyMemory s s' ∧ SamePumphouse s s' ∧
      (∀ i j, i < 64 → j < 4 → (memByte s' (a + (4 * i + j))).toNat =
        s.pwrWord (if s.cfg.view then s.shd else s.act) (4 * i) / 2 ^ (8 * j) % 256) ∧
      (∀ x, x / 256 ≠ a / 256 → memByte s' x = memByte s x) ∧ Ended s s' q.val k p rest stOK 0 [])

/-! ## Resets and bring-up -/

/-- The die stands in reset of a kind (Table RST-3): every register is at its reset value but those of the domains that the
table keeps, and the commands that wait are the model's own. -/
def Sys2Proof.InReset (s s' : State) (kind : ResetKind) (cause : BitVec 5) (count : Word) : Prop :=
  s'.rst = { Rst.reset with
    held := some kind
    kind := kind
    cause := cause
    count := count } ∧
  s'.fuse = s.fuse ∧ s'.time = { Time.reset with wave := s.time.wave } ∧
  (∀ p, { s'.port p with wire := [] } = Port.reset) ∧
  (∀ tr b, { s'.bank tr b with remap := [] } = Bank.reset ∧ (s'.bank tr b).remap = (s.bank tr b).remap) ∧
  { s' with
      pending := []
      free := 0
      nextId := 0
      time := Time.reset
      fuse := Fuse.reset
      pins := Pins.reset
      rst := Rst.reset
      pwr := Pwr.reset
      top := Top.reset
      ports := []
      cis := { s'.cis with banks := [] }
      tap := Tap.reset } = State.reset

/-- The resets of Table RST-1 (R506 to R508, R485). A cold reset resets the VAUX domain and the TAP as well and counts from
0; a pin, brown-out or warm reset that finds the die running adds its cause and counts one, and keeps the straps, the
monitors and the TAP, whose gated test state ends with TESTOK (R558). Pins whose levels call for no reset only change.
Where the manual is silent this follows the model's choices (log 31, 34, 38). -/
def Obligations.ResetsKeepWhatTheTableKeeps : Prop :=
  ∀ (s : State),
    (∃ s', exec .coldReset s = .next s' ∧ InReset s s' .cold 1 0 ∧ s'.tap = Tap.reset ∧
      s'.pwr = { Pwr.reset with sbWire := s.pwr.sbWire } ∧ (s'.pins.pwrgdAux, s'.pins.thermtrip) = (false, false)) ∧
    (s.rst.held = none →
      let cause := fun (n : Nat) => setBit s.rst.cause n true
      let keeps := fun (s' : State) => s'.top = { Top.reset with
          orient := s.top.orient
          tier := s.top.tier
          site := s.top.site } ∧ s'.pwr.temp = s.pwr.temp ∧ s'.pwr.limit = Pwr.reset.limit
      (∀ core rstN, s.pins.pwrgdAux = true → (core = false ∨ rstN = false) →
        ∃ s', exec (.pinReset true core rstN) s = .next s' ∧
        InReset s s' .pin (cause 1) (s.rst.count + 1) ∧ keeps s' ∧
        s'.pins = { s.pins with
          pwrgdCore := core
          rstN := rstN } ∧
        ((s.pins.rstN = true ∨ s.pins.pwrgdCore = false ∨ core = true) → s'.tap = s.tap) ∧
        ((s.pins.rstN, s.pins.pwrgdCore, core) = (false, true, false) → s'.tap = { s.tap with
          ir := if s.tap.ir ∈ ([0x00, 0x03, 0x04, 0x11, 0x13, 0x14, 0x31] : List Byte) then 0xFF else s.tap.ir
          bsr := 0
          wrapIr := []
          wrapDr := []
          dwr := 0
          marchPass := 0 })) ∧
      (∀ vcis, s.rst.standby = false → ∃ s', exec (.brownoutReset vcis) s = .next s' ∧
        InReset s s' .brownout (cause (if vcis then 3 else 2)) (s.rst.count + 1) ∧ keeps s' ∧
        s'.tap = s.tap ∧ s'.pins = s.pins ∧
        (s'.pwr.vcoreWarn, s'.pwr.coreBrown) = (s.pwr.vcoreWarn || !vcis, s.pwr.coreBrown || !vcis) ∧
        (s'.pwr.vcisWarn, s'.pwr.cisBrown) = (s.pwr.vcisWarn || vcis, s.pwr.cisBrown || vcis)) ∧
      (s.rst.standby = false → ∃ s', exec .warmReset s = .next s' ∧
        InReset s s' .warm (cause 4) (s.rst.count + 1) ∧ keeps s' ∧ s'.tap = s.tap ∧ s'.pins = s.pins)) ∧
    (s.pins.pwrgdAux = true → ∃ s', exec (.pinReset true true true) s = .next s' ∧
      { s' with
        pins := s.pins
        tap := s.tap } = s ∧
      s'.pins = { s.pins with
        pwrgdCore := true
        rstN := true }) ∧
    (s.pins.pwrgdAux = true → ∀ core rstN, ∃ s', exec (.pinReset false core rstN) s = .next s' ∧
      InReset s s' .cold 1 0 ∧ s'.tap = Tap.reset ∧ s'.pins = { s.pins with
        pwrgdAux := false
        pwrgdCore := core
        rstN := rstN
        thermtrip := false })

/-- Bring-up (Table RST-2, R25, R128, R464, R506, R511 to R517): leaving reset, once each rail that reset the die has
recovered, latches the straps after a cold or pin reset, and no test setting persists (R558);
a good fuse load shows the ID registers and starts the training of every bonded and enabled port; the self-test gives a
failing row to the lowest usable spare or fails its tract, and every other tract begins its zero fill; the discovery window
ends when every port has trained; and READY opens context 0.
Where the manual is silent this follows the model's choices (log 34). -/
def Obligations.BringUpReachesReady : Prop :=
  (∀ (orient : BitVec 3) (tier : BitVec 2) (site : BitVec 4) (kind : ResetKind) (s : State), s.rst.held = some kind →
    (s.pwr.coreBrown, s.pwr.cisBrown) = (false, false) →
    let latch := kind = .cold ∨ kind = .pin
    ∃ s', exec (.leaveReset orient tier site) s = .next s' ∧ s'.rst.held = none ∧
      (s'.pins.pwrgdAux, s'.pins.pwrgdCore, s'.pins.rstN) = (true, true, true) ∧
      (latch → (s'.top.orient, s'.top.tier, s'.top.site) = (orient, tier, site)) ∧
      (¬latch → (s'.top.orient, s'.top.tier, s'.top.site) = (s.top.orient, s.top.tier, s.top.site)) ∧
      (s'.effTier = 2 → (s'.pwr.capStack, s'.pwr.stackMiss) = (4, true)) ∧
      s'.idStrapErr = (s.fuse.planar && (decide (s'.top.tier = 1) || decide (s'.top.tier = 2))) ∧ s'.pmh = s.pmh ∧
      s'.tap = (if latch then { s'.tap with
        bsr := 0
        wrapSel := 0
        wrapIr := []
        wrapDr := []
        scr := false
        dwr := 0
        marchPass := 0 } else s.tap) ∧
      SameMemory s s') ∧
  (∀ (orient : BitVec 3) (tier : BitVec 2) (site : BitVec 4) (s : State),
    (s.rst.held = none ∨ s.pwr.coreBrown = true ∨ s.pwr.cisBrown = true) → exec (.leaveReset orient tier site) s = .next s) ∧
  (∀ (s : State), s.silent = false → s.rst.fuseDone = false → s.fuse.imageOk = true → s.rst.kind ≠ .warm →
    ∃ s', exec .fuseLoadDone s = .next s' ∧ s'.rst = { s.rst with
        fuseDone := true
        idLoaded := true
        phase := 1 } ∧
      (∀ p, p < 9 → (s'.port p).state = if s.portUsable p = true ∧ (s.port p).en = true then .training
        else (s.port p).state) ∧ SameMemory s s') ∧
  (∀ (s : State), s.silent = false → s.rst.fuseDone = false → s.fuse.imageOk = false →
    ∃ s', exec .fuseLoadDone s = .next s' ∧ s'.rst = { s.rst with
      fuseDone := true
      fuseErr := true
      phase := 3 }) ∧
  (∀ (fails : List BankFail) (s : State), s.silent = false → s.rst.fuseDone = true → s.rst.fuseErr = false →
    s.rst.testDone = false →
    ∃ s', exec (.selfTestDone fails) s = .next s' ∧ s'.rst.testDone = true ∧ SameMemory s s' ∧
      (∀ tr, tr < s.fuse.tractCount → s'.tractFailed tr = false →
        s'.tractState tr = 2 ∧ ∃ w, s'.walkOf tr = some w ∧ w.all = true ∧ w.power = true) ∧
      (∀ f r, fails = [f] → f.rows = [r] → f.spares = [] → f.tract.val < s.fuse.tractCount →
        let x := s.bank f.tract.val f.bank.val
        x.spareOf r.val = none →
        (∀ k, x.freeSpare = some k → (s'.bank f.tract.val f.bank.val).remapOf k =
          { row := BitVec.ofNat 9 r.val, valid := true, source := 1, bad := false }) ∧
        (x.freeSpare = none → s'.tractFailed f.tract.val = true))) ∧
  (∀ (s : State), s.silent = false → s.rst.fuseDone = true → s.rst.windowDone = false →
    (∀ p, p < 9 → s.portUsable p = true → (s.port p).en = true → (s.port p).trained = true) →
    ∃ s', exec .discoveryWindowEnd s = .next s' ∧ s'.rst.windowDone = true ∧ SameMemory s s' ∧ s'.pmh = s.pmh) ∧
  (∀ (us : Half) (s : State), s.silent = false → s.rst.ready = false → s.rst.fuseErr = false → s.rst.zeroDone = true →
    s.rst.windowDone = true →
    ∃ s', exec (.ready us) s = .next s' ∧ (s'.rst.ready, s'.rst.phase, s'.rst.readyUs) = (true, 4, us) ∧
      s'.ctxOf 0 = { s.ctxOf 0 with state := .opened } ∧ (∀ c, c ≠ 0 → s'.ctxOf c = s.ctxOf c) ∧ SameMemory s s' ∧
      s'.pmh = s.pmh)

/-! ## Test access -/

/-- What Capture-IR shifts out (R551): 01, the state of TESTOK and zeros. -/
def Sys2Proof.captureOf (ok : Bool) : List Bool := [true, false, ok, false, false, false, false, false]

/-- What TDO gives in one load and scan whose data register shifts out `out`: in a chain the upper die's path comes before
each (R557; free, log 29). -/
def Sys2Proof.tdoOf (s : State) (out : List Bool) : List Bool :=
  let cap := captureOf (!s.pins.rstN && s.pins.pwrgdCore)
  if s.chained then Config.upperTap s.free ++ cap ++ Config.upperTap (s.free + 1) ++ out else cap ++ out

/-- Free values that it takes. -/
def Sys2Proof.tdoFree (s : State) : Nat := if s.chained then s.free + 2 else s.free

/-- The TAP's instructions (R551 to R557, Table PHY-7), the TAP on: each leaves its instruction selected, its data register
captured to TDO and the new value shifted in; the gated ones do so with TESTOK 1. Cell 13 is captured under the instruction
that has just been loaded. TAP_RESET selects IDCODE, and TRST_N low keeps the TAP off. What the fuse image, the shaft cells
and an upper die's path hold is free.
Where the manual is silent this follows the model's choices (log 29, 41). -/
def Obligations.TestAccessScans : Prop :=
  ∀ (s : State),
    (exec (.tapReset none) s = .next { s with tap := { s.tap with ir := 1 } } ∧
      exec (.tapReset (some true)) s = .next { s with pins := { s.pins with trstN := true } } ∧
      exec (.tapReset (some false)) s = .next { s with
        pins := { s.pins with trstN := false }
        tap := { s.tap with ir := 1 } }) ∧
    (s.pins.pwrgdAux = false ∨ s.pins.trstN = false →
      exec .idcode s = .next s ∧ exec .fuseread s = .next s ∧ (∀ d, exec (.extest d) s = .next s) ∧
      (∀ d, exec (.samplePreload d) s = .next s) ∧ (∀ d, exec (.clamp d) s = .next s) ∧ (∀ d, exec (.highz d) s = .next s) ∧
      (∀ c d, exec (.bypass c d) s = .next s) ∧ (∀ m, exec (.march m) s = .next s) ∧
      (∀ d, exec (.wrapsel d) s = .next s) ∧ (∀ d, exec (.wrapdr d) s = .next s) ∧
      (∀ d, exec (.wrapir d) s = .next s) ∧ (∀ d, exec (.scrsel d) s = .next s) ∧ ∀ d, exec (.dwrext d) s = .next s) ∧
    (s.pins.pwrgdAux = true → s.pins.trstN = true →
    let ok := !s.pins.rstN && s.pins.pwrgdCore
    let scan := fun (i : Instr) (ir : Byte) (out : List Bool) (t : Tap) =>
      exec i s = .next { s with
        free := tdoFree s
        tap := { t with
          ir := ir
          tdo := tdoOf s out } }
    let p := s.pins
    let cells := fun (low : Bool) => [p.pwrgdAux, p.pwrgdCore, p.rstN] ++ bitList p.orient.toNat 3 ++ bitList p.tier.toNat 2
      ++ bitList p.site.toNat 4 ++ [p.thermtrip, !low]
    scan .idcode 0x01 (bitList s.fuse.idcode.toNat 32) s.tap ∧
    (∀ d, scan (.samplePreload d) 0x02 (cells p.thermtrip) { s.tap with bsr := d }) ∧
    (∀ d, scan (.wrapsel d) 0x10 (bitList s.tap.wrapSel.toNat 16) { s.tap with wrapSel := d &&& s.fuse.tileMask }) ∧
    scan .fuseread 0x12 (bitList Config.fuseImage.toNat 4096) s.tap ∧
    (∀ d, scan (.scrsel d) 0x30 [s.tap.scr && s.shaftPartner] { s.tap with scr := d && s.shaftPartner }) ∧
    (ok = true →
      (∀ d, scan (.extest d) 0x00 (cells (p.thermtrip || bit s.tap.bsr.toNat 12)) { s.tap with bsr := d }) ∧
      (∀ d, scan (.clamp d) 0x03 [false] { s.tap with bypass := d }) ∧
      (∀ d, scan (.highz d) 0x04 [false] { s.tap with bypass := d }) ∧
      (∀ m, scan (.march m) 0x11 (bitList m.toNat 1024) { s.tap with marchPass := m }) ∧
      (∀ d, exec (.dwrext d) s = .next { s with
        free := tdoFree s + 1
        tap := { s.tap with
          ir := 0x31
          dwr := d
          tdo := tdoOf s (bitList (Config.shaftCells s.free).toNat 128) } }) ∧
      (∀ d p, s.selected = [p] → s.tap.wsOf p = 0 → exec (.wrapdr d) s = .next { s with
        free := tdoFree s + 1
        tap := { s.tap with
          ir := 0x13
          tdo := tdoOf s ((false :: d).take d.length) } }) ∧
      (∀ c p, s.selected = [p] →
        scan (.wrapir [c]) 0x14 (bitList (spGet 0 s.tap.wrapIr p).toNat 4) { s.tap with wrapIr := spSet 0 s.tap.wrapIr p c }) ∧
      (∀ p : Fin 16, p.val ∈ s.selected →
        let selects := fun (i : Instr) (code : BitVec 4) => ∃ s', exec i s = .next s' ∧
          s'.tap.ir = 0x14 ∧ spGet 0 s'.tap.wrapIr p.val = code ∧
          (∀ r, r ≠ p.val → spGet 0 s'.tap.wrapIr r = spGet 0 s.tap.wrapIr r ∧
            spGet [] s'.tap.wrapDr r = spGet [] s.tap.wrapDr r) ∧
          { s' with
            free := s.free
            tap := s.tap } = s
        selects (.wsBypass p) 0 ∧ selects (.wsExtest p) 1 ∧ selects (.wsIntest p) 2 ∧ selects (.wsBist p) 3)))

/-- TAP codes without an instruction of their own, and gated instructions while TESTOK is 0, act as BYPASS: the bypass
register takes the bit and nothing but the TAP changes. An ungated instruction changes nothing but the TAP (R552).
Where the manual is silent this follows the model's choices (log 29). -/
def Obligations.OtherTestCodesActAsBypass : Prop :=
  ∀ (s : State), s.pins.pwrgdAux = true → s.pins.trstN = true →
    let ok := !s.pins.rstN && s.pins.pwrgdCore
    let bypassed := fun (i : Instr) (d : List Bool) =>
      exec i s = .next { s with
        free := tdoFree s
        tap := { s.tap with
          ir := 0xFF
          tdo := tdoOf s ((false :: d).take d.length)
          bypass := d.getLast?.getD s.tap.bypass } }
    (∀ (code : Byte) (d : Bool), code ∉ ([0x01, 0x02, 0x10, 0x12, 0x30] : List Byte) →
      (code ∈ ([0x00, 0x03, 0x04, 0x11, 0x13, 0x14, 0x31] : List Byte) → ok = false) → bypassed (.bypass code d) [d]) ∧
    (ok = false →
      (∀ d, bypassed (.extest d) (bitList d.toNat 14)) ∧ (∀ d, bypassed (.clamp d) [d]) ∧ (∀ d, bypassed (.highz d) [d]) ∧
      (∀ m, bypassed (.march m) []) ∧ (∀ d, bypassed (.wrapdr d) d) ∧
      (∀ c, bypassed (.wrapir c) (c.flatMap (fun x => bitList x.toNat 4))) ∧
      (∀ d, bypassed (.dwrext d) (bitList d.toNat 128))) ∧
    ∀ i : Instr, (i = .idcode ∨ (∃ d, i = .samplePreload d) ∨ (∃ d, i = .wrapsel d) ∨ i = .fuseread ∨ (∃ d, i = .scrsel d) ∨
        ∃ d, i = .bypass 0xFF d) →
      ∃ t, exec i s = .next { s with
        free := tdoFree s
        tap := t }

/-! ## Lark -/

/-- Nothing outside the Pumphouse, the queues, Lark's streams and frames and the grants of the banks differs. -/
def Sys2Proof.OnlyLark (s s' : State) : Prop :=
  SameBanks s s' ∧ { s' with
    queues := s.queues
    pmh := s.pmh
    cis := { s'.cis with
      banks := s.cis.banks
      slots := s.cis.slots }
    lrk := { s'.lrk with
      streams := s.lrk.streams
      frames := s.lrk.frames
      nextFrame := s.lrk.nextFrame } } = s

/-- Only stream `n` differs. -/
def Sys2Proof.OnlyStream (s s' : State) (n : Nat) : Prop := ∀ m, m ≠ n → s'.stream m = s.stream m

/-- The frame `f` waits behind those dispatched before it, and its stream counts each of its buffers (R407, R412). -/
def Sys2Proof.FrameQueued (s s' : State) (q k : Nat) (p : Pkt) (rest : List Pkt) (f : Frame) : Prop :=
  s'.lrk.frames = s.lrk.frames ++ [f] ∧ s'.lrk.nextFrame = s.lrk.nextFrame + 1 ∧ f.id = s.lrk.nextFrame ∧ f.slot = k ∧
    f.ctx = p.ctx ∧ f.cls = p.cls ∧ f.bytes = p.bytes ∧ f.data = stOK ∧ f.started = false ∧
    (∀ m b, ((s'.stream m).bufAt b).mark = ((s.stream m).bufAt b).mark ∧
      ((s'.stream m).bufAt b).valid = ((s.stream m).bufAt b).valid ∧
      ((s'.stream m).bufAt b).refcnt = ((s.stream m).bufAt b).refcnt + if f.stream = some m ∧ b ∈ f.bufs then 1 else 0) ∧
    (∀ m, { s'.stream m with buf := (s.stream m).buf } = s.stream m) ∧
    InFlight s s' q k p rest (.lark f.id)

/-- LARK_STREAM opens a stream from its packet, marks buffers and closes a stream without frames (R406, R408, R411, Table
LRK-3); a LARK_DECODE, LARK_ENCODE or LARK_PREFORM whose checks pass waits as a frame that names its target, its
references and the slots that are missing (R407, R409, R410, R412, R416, R423). A syntax block whose value counts disagree with
its length fails with BOUNDS, and one with an element outside Table LRK-1 with UNSUPPORTED_TOOL (R401, R403). The syntax block's
words are clean. Where each element and record stands is the standards' (log 26).
Where the manual is silent this follows the model's choices (log 71). -/
def Obligations.LarkPacketsAct : Prop :=
  ∀ (q : Fin 512) (k : Nat) (p : Pkt) (rest : List Pkt) (s : State), DispatchReady s q.val k p rest →
    let c := p.ctx
    (p.opcode = 0x43 → (s.act.range c).hasStream (p.byte 9) = true →
      let n := p.byte 9
      let x := s.stream n
      (p.byte 8 = 0 → x.opened = false → levelOk (p.byte 10) (p.u16 12) (p.u16 14) = true → (streamOf p).openOk = true →
        s.poolRange c (streamOf p) = none →
        ∃ s', exec (.larkStreamOpen q) s = .next s' ∧ OnlyLark s s' ∧ SamePumphouse s s' ∧ OnlyStream s s' n ∧
          s'.lrk.frames = s.lrk.frames ∧
          s'.stream n = {
            opened := true, mode := p.byte 10, bufs := p.byte 11, width := p.u16 12, height := p.u16 14, depth := p.byte 16
            grain := decide (p.byte 10 = 1) && bit (p.byte 17) 0, handle := BitVec.ofNat 6 (p.byte 18), poolOff := p.u64 24
            bufBytes := p.u32 32, baseQp := p.byte 40, qpOff := [i8At p 41, i8At p 42, i8At p 43], qpMin := p.byte 44
            qpMax := p.byte 45, qpStep := p.byte 46, winFrames := p.byte 47, winBits := p.u32 48, hist := []
            interSeen := false, field := [], buf := [] } ∧
          Ended s s' q.val k p rest stOK 0 []) ∧
      (p.byte 8 = 1 → x.opened = true → p.byte 14 ≤ 3 →
        (∀ f ∈ s.framesOf n, ∀ b, f.target = some b → b < x.bufs → bit (p.u16 12) b = false) →
        ∃ s', exec (.larkStreamMark q) s = .next s' ∧ OnlyLark s s' ∧ SamePumphouse s s' ∧ OnlyStream s s' n ∧
          s'.lrk.frames = s.lrk.frames ∧ { s'.stream n with buf := x.buf } = x ∧
          (∀ b, (s'.stream n).bufAt b = if b < x.bufs ∧ bit (p.u16 12) b = true then
            { x.bufAt b with
              mark := BitVec.ofNat 2 (p.byte 14)
              valid := (x.bufAt b).valid && decide (p.byte 14 ≠ 0) }
            else x.bufAt b) ∧
          Ended s s' q.val k p rest stOK 0 []) ∧
      (p.byte 8 = 2 → x.opened = true → s.framesOf n = [] →
        ∃ s', exec (.larkStreamClose q) s = .next s' ∧ OnlyLark s s' ∧ SamePumphouse s s' ∧ OnlyStream s s' n ∧
          s'.lrk.frames = s.lrk.frames ∧
          s'.stream n = { x with
            opened := false
            buf := [] } ∧
          Ended s s' q.val k p rest stOK 0 [])) ∧
    (let n := p.byte 8
      let x := s.stream n
      let t := p.byte 9
      (s.act.range c).hasStream n = true → x.opened = true → (s.framesOf n).length < 8 → t < x.bufs →
      (x.bufAt t).mark = 0 → (x.bufAt t).refcnt = 0 → s.poolRange c x = none →
      (p.opcode = 0x40 → x.mode ≤ 1 → 1 ≤ p.byte 12 → p.byte 12 ≤ 3 →
        let head := handleBytes s c (p.handle 11) (p.u64 32) 64
        let len := max 64 (Config.syntaxLength head)
        let sx := handleBytes s c (p.handle 11) (p.u64 32) len
        s.chk c (p.handle 10) .wr (p.u64 24) (p.u32 16) = none → s.checkRange c (p.handle 11) .wr (p.u64 32) 64 = none →
        s.checkRange c (p.handle 11) .wr (p.u64 32) len = none →
        (x.grain = true → s.checkRange c (p.handle 13) .ww (p.u64 40) x.layout.picture = none) →
        CleanLines s (touchedLines s c (p.handle 11) (p.u64 32) len) → fieldAt sx 0 4 = x.mode →
        (syntaxOf sx = none → ∃ s', exec (.larkDecode q) s = .next s' ∧ OnlyLark s s' ∧ SamePumphouse s s' ∧ s'.lrk = s.lrk ∧
          Ended s s' q.val k p rest stBounds 0 []) ∧
        ∀ y, syntaxOf sx = some y →
        let listed :=
          if x.mode = 0 then
            y.elem .profileIdc ∈ [1, 2, 3] ∧ y.elem .chromaFormatIdc = 1 ∧ y.elem .bitDepthLumaMinus8 ≤ 2 ∧
              y.elem .bitDepthChromaMinus8 ≤ 2 ∧ y.elem .fieldSeqFlag = 0 ∧ y.elem .spsRangeExtension = 0 ∧
              y.elem .spsMultilayerExtension = 0 ∧ y.elem .sps3dExtension = 0 ∧ y.elem .spsSccExtension = 0 ∧
              y.elem .ppsRangeExtension = 0 ∧ y.elem .ppsMultilayerExtension = 0 ∧ y.elem .pps3dExtension = 0 ∧
              y.elem .ppsSccExtension = 0
          else
            y.elem .seqProfile = 0 ∧ y.elem .twelveBit = 0 ∧ y.elem .allowScreenContentTools = 0 ∧
              (y.elem .monoChrome = 1 ∨ (y.elem .subsamplingX = 1 ∧ y.elem .subsamplingY = 1))
        let slots := if x.mode = 1 then 7 else 16
        (¬listed → ∃ s', exec (.larkDecode q) s = .next s' ∧ OnlyLark s s' ∧ SamePumphouse s s' ∧ s'.lrk = s.lrk ∧
          Ended s s' q.val k p rest stUnsupportedTool 0 []) ∧
        (listed → ∃ s' f, exec (.larkDecode q) s = .next s' ∧ OnlyLark s s' ∧ SamePumphouse s s' ∧ FrameQueued s s' q.val k p rest f ∧
          f.kind = .decode ∧ f.stream = some n ∧ f.target = some t ∧ f.bufs.Nodup ∧
          (∀ b, b ∈ f.bufs ↔ b = t ∨ (b < x.bufs ∧ ∃ i, i < slots ∧ p.byte (48 + i) = b)) ∧
          ∀ i, bit f.missing.toNat i = (decide (i < slots) &&
            if p.byte (48 + i) = 0xFF then bit (Config.slotsNeeded sx).toNat i else !x.readable (p.byte (48 + i))))) ∧
      (p.opcode = 0x41 → x.mode = 2 → 1 ≤ p.byte 13 → p.byte 13 ≤ 3 → p.byte 12 ≤ 2 →
        p.byte 14 = (if x.depth = 10 then 1 else 0) →
        (geometryOf p.bytes 48 (p.byte 15) false x.width x.height).fits (p.u16 44) (p.u16 46) = true →
        s.checkRange c (p.handle 10) .wr (p.u64 16) (layoutOf (p.u16 44) (p.u16 46) x.depth).picture = none →
        s.chk c (p.handle 11) .ww (p.u64 24) (p.u32 32) = none →
        ∃ s' f, exec (.larkEncode q) s = .next s' ∧ OnlyLark s s' ∧ SamePumphouse s s' ∧ FrameQueued s s' q.val k p rest f ∧
          f.kind = .encode ∧ f.stream = some n ∧ f.target = some t ∧ f.bufs.Nodup ∧
          (∀ b, b ∈ f.bufs ↔ b = t ∨ (b < x.bufs ∧ ∃ i, i < 4 * p.byte 12 ∧ p.byte (56 + i) = b)) ∧
          ∀ i, i < 4 * p.byte 12 →
            bit f.missing.toNat i = (decide (p.byte (56 + i) ≠ 0xFF) && !x.readable (p.byte (56 + i))))) ∧
    (p.opcode = 0x42 →
      let a := preformOf (s.stream (p.byte 80)) p.bytes
      s.preformSource p = none → a.bad (p.byte 14) = false → s.chk c a.handle .wr a.off a.inBytes = none →
      s.chk c a.out .ww a.outOff a.outBytes = none →
      ∃ s' f, exec (.larkPreform q) s = .next s' ∧ OnlyLark s s' ∧ SamePumphouse s s' ∧ FrameQueued s s' q.val k p rest f ∧
        f.kind = .preform ∧ f.stream = (if p.byte 80 = 0xFF then none else some (p.byte 80)) ∧ f.target = none ∧
        f.bufs = (if p.byte 81 = 0xFF then [] else [p.byte 81]) ∧ f.missing = 0)

/-- Nothing but Lark differs. -/
def Sys2Proof.SameButLark (s s' : State) : Prop := { s' with lrk := s.lrk } = s

/-- Only engine `e` differs. -/
def Sys2Proof.OnlyEngine (s s' : State) (e : Nat) : Prop := ∀ d, d ≠ e → s'.engine d = s.engine d

/-- The frame `f` has left its stream's queue and engine `e`, and its buffers but `t` count one frame less; the stream
keeps all but its buffers, its rate history and its candidate field (R407, R411, R530). -/
def Sys2Proof.FrameGone (s s' : State) (e : Nat) (f : Frame) (t : Option Nat) : Prop :=
  s'.frame f.id = none ∧ (∀ g, g ≠ f.id → s'.frame g = s.frame g) ∧
    s'.engine e = { s.engine e with
      frame := none
      toSuspend := false
      suspended := if (s.engine e).suspended = some f.id then none else (s.engine e).suspended } ∧
    (∀ d, d ≠ e → (s.engine d).frame ≠ some f.id → (s.engine d).suspended ≠ some f.id → s'.engine d = s.engine d) ∧
    (∀ m, f.stream ≠ some m → s'.stream m = s.stream m) ∧
    ∀ m, f.stream = some m →
      { s'.stream m with
        buf := (s.stream m).buf
        hist := (s.stream m).hist
        interSeen := (s.stream m).interSeen
        field := (s.stream m).field } = s.stream m ∧
      ∀ b, (s'.stream m).bufAt b = { (s.stream m).bufAt b with
        refcnt := ((s.stream m).bufAt b).refcnt - (if b ∈ f.bufs then 1 else 0)
        mark := if t = some b then ((s'.stream m).bufAt b).mark else ((s.stream m).bufAt b).mark
        valid := if t = some b then true else ((s.stream m).bufAt b).valid }

/-- Of the ready frames of a pipeline one of the lowest class starts on a free engine; where a class-0 frame finds none,
one engine of the highest class above 0 is told to suspend (R427). An engine suspends at its boundary, resumes when no
class-0 frame is ready, and stops with the die (R427, R428). -/
def Sys2Proof.FramesRunRule : Prop :=
  (∀ (pl : Fin 3) (s : State), s.silent = false → s.stopped = false →
    let ready := s.readyFrames pl.val
    let engines := pipeEngines pl.val
    (∃ f ∈ ready, f.cls < 8) →
    ∃ f s', f ∈ ready ∧ (∀ g ∈ ready, f.cls ≤ g.cls) ∧ exec (.larkFrameStart pl) s = .next s' ∧ SameButLark s s' ∧
      s'.lrk.streams = s.lrk.streams ∧
      ((∃ e ∈ engines, (s.engine e).frame = none ∧ (s.engine e).suspended = none) →
        ∃ e ∈ engines, (s.engine e).frame = none ∧ s'.engine e = { s.engine e with frame := some f.id } ∧ OnlyEngine s s' e ∧
          s'.lrk.frames = s.lrk.frames.map (fun x => { x with started := x.started || decide (x.id = f.id) })) ∧
      ((∀ e ∈ engines, (s.engine e).frame ≠ none) → f.cls = 0 → (∀ e ∈ engines, (s.engine e).toSuspend = false) →
        ∀ e0 ∈ engines, ∀ c0, s.engineClass e0 = some c0 → 1 ≤ c0 → c0 ≤ 7 → (s.engine e0).suspended = none →
        ∃ e ∈ engines, ∃ c, s.engineClass e = some c ∧ c0 ≤ c ∧ s'.engine e = { s.engine e with toSuspend := true } ∧
          OnlyEngine s s' e ∧ s'.lrk.frames = s.lrk.frames)) ∧
  (∀ (s : State) (f : Frame), (s.ctxOf f.ctx).state = .closing → ∀ pl, f ∉ s.readyFrames pl) ∧
  (∀ (e : Fin 6) (s : State), s.silent = false →
    let g := s.engine e.val
    (∀ f, g.stopped = false → g.toSuspend = true → g.frame = some f →
      ∃ s', exec (.larkFrameSuspend e) s = .next s' ∧ SameButLark s s' ∧ OnlyEngine s s' e.val ∧
        s'.engine e.val = { g with
          frame := none
          suspended := some f
          toSuspend := false } ∧
        { s'.lrk with engines := s.lrk.engines } = { s.lrk with preempts := s.lrk.preempts + 1 }) ∧
    (∀ f, s.stopped = false → g.frame = none → g.suspended = some f → (∀ x ∈ s.readyFrames (enginePipe e.val), x.cls ≠ 0) →
      ∃ s', exec (.larkFrameResume e) s = .next s' ∧ SameButLark s s' ∧ OnlyEngine s s' e.val ∧
        s'.engine e.val = { g with
          frame := some f
          suspended := none } ∧
        { s'.lrk with engines := s.lrk.engines } = s.lrk) ∧
    (s.stopped = true →
      ∃ s', exec (.larkEngineStop e) s = .next s' ∧ SameButLark s s' ∧ OnlyEngine s s' e.val ∧
        s'.engine e.val = { g with stopped := true } ∧ { s'.lrk with engines := s.lrk.engines } = s.lrk))

/-- The frame `f` of a command from queue `q` runs on engine `e`, which no stop holds; `y` is the command's entry. -/
structure Sys2Proof.FrameRuns (s : State) (e : Nat) (f : Frame) (q : Nat) (y : Cmd) : Prop where
  awake : s.silent = false
  going : (s.engine e).stopped = false
  runs : (s.engine e).frame = some f.id
  frame : s.frame f.id = some f
  cmd : s.cmd f.slot = some y
  origin : y.origin = .queue q
  bufs : f.bufs.Nodup

/-- A decode that ends gives its buffers back and completes: its target takes its mark and holds the decoded picture, the
picture with grain stands in the grain buffer, the counters go on, and the completion says its concealed CTUs, missing slots and
bad segments, with the first status of R415 that applies (R409, R411, R412, R415). Where the manual is silent this follows the
model's choices (log 26). -/
def Sys2Proof.DecodeEndsRule : Prop :=
  ∀ (e : Fin 6) (s : State) (f : Frame) (q : Nat) (y : Cmd) (n t : Nat), FrameRuns s e.val f q y → f.kind = .decode →
    f.stream = some n → f.target = some t → t ∈ f.bufs →
    let p : Pkt := { bytes := f.bytes, ctx := f.ctx, cls := f.cls, order := 0 }
    let x := s.stream n
    let r := ((Io.of s).decode f.ctx x p f.missing).1
    let target := touchedLines s f.ctx x.handle.toNat (x.bufOff t) x.layout.total
    let grained := if x.grain then touchedLines s f.ctx (p.handle 13) (p.u64 40) x.layout.picture else []
    ∃ s' d, exec (.larkFrameEnd e) s = .next s' ∧ OnlyPages s { s' with lrk := s.lrk } ∧ SamePumphouse s s' ∧
      FrameGone s s' e.val f (some t) ∧ ((s'.stream n).bufAt t).mark = BitVec.ofNat 2 (p.byte 12) ∧
      ((s'.stream n).hist, (s'.stream n).interSeen, (s'.stream n).field) = (x.hist, x.interSeen, x.field) ∧
      s'.lrk.decPix = s.lrk.decPix + x.width * x.height ∧
      s'.lrk.samples = s.lrk.samples + BitVec.ofNat 32 (x.width * x.height) ∧
      s'.lrk.concealed = s.lrk.concealed + BitVec.ofNat 32 r.concealed ∧ s'.lrk.preempts = s.lrk.preempts ∧
      DataStatus s d ∧
      ((∀ w, Clean s w) → OnlyLines s s' (target ++ grained) ∧
        ((target ++ grained).Nodup →
          handleBytes s' f.ctx x.handle.toNat (x.bufOff t) x.layout.total = r.bytes ∧
          (x.grain = true → handleBytes s' f.ctx (p.handle 13) (p.u64 40) x.layout.picture = r.grained))) ∧
      Finished s s' q f.slot y
        (if worstData f.data d ≠ stOK then worstData f.data d else if f.missing ≠ 0 then stRefMissing
          else if r.bad ≠ 0 then stSyntaxConcealed else stOK) 0 0
        (leBytes 4 r.concealed ++ leBytes 2 f.missing.toNat ++ leBytes 2 r.bad)

/-- Slot `i` of a decode is present: its buffer is in the pool and not missing (R410). -/
def Sys2Proof.slotPresent (x : Stream) (p : Pkt) (missing : Half) (i : Nat) : Prop :=
  i < (if x.mode = 1 then 7 else 16) ∧ bit missing.toNat i = false ∧ p.byte (48 + i) < x.bufs

/-- |DIST| of a slot (Table LRK-5). -/
def Sys2Proof.slotDistance (p : Pkt) (i : Nat) : Nat := (signed (p.u16 (64 + 2 * i)) 16).natAbs

/-- Segment `i`, whose payload is `g`, meets an error at place `k` of its CTUs: what its decoding meets, or a poisoned word of
its payload (R413). -/
def Sys2Proof.meetsError (d : DecodeIn) (poison : Nat → Bool) (i : Nat) (g : Segment) (k : Nat) : Prop :=
  Config.erringCtu d i = some k ∨ ∃ j, j < g.len ∧ poison (g.off + j) = true ∧ Config.ctuAtByte d i (g.off + j) = k

/-- What a decode comes to. From the first error of a segment on, its CTUs are concealed (R413). A sample of a concealed CTU, or of
a block predicted from a missing slot, is that of the nearest reference, or 2^(DEPTH − 1) where no slot is present; the loop
filters run over the whole picture, absent chroma is grey, and such a block's motion is zero (R406, R414). A CTU's error-map
bit tells that it was concealed, filled, or read poison, in which case the words it writes are marked (R406, R415). What the
HEVC and AV1 standards compute is a free value of what it is computed from.
Where the manual is silent this follows the model's choices (log 26). -/
def Sys2Proof.DecodingRule : Prop :=
  ∀ (s : State) (c : Nat) (x : Stream) (p : Pkt) (missing : Half),
    let pre := (s.readBytes c (p.handle 11) (p.u64 32) 64).bytes
    let sx := (s.readBytes c (p.handle 11) (p.u64 32) (max 64 (Config.syntaxLength pre))).bytes
    let pay := s.readBytes c (p.handle 10) (p.u64 24) (p.u32 16)
    let poison := fun j => pay.marks.getD ((p.u64 24 % 256 + j) / 32) false
    let y := (syntaxOf sx).getD { kind := x.mode, parts := [], segs := [] }
    let l := x.layout
    let size := y.ctuSize
    let cols := (x.width + size - 1) / size
    let count := cols * ((x.height + size - 1) / size)
    let ctuOf := fun (a : Nat × Nat) => a.2 / size * cols + a.1 / size
    let inside := fun (i : Nat) => i < l.picture ∧ (l.lumaAt i).1 < x.width ∧ (l.lumaAt i).2 < x.height
    let r := ((Io.of s).decode c x p missing).1
    ∃ (d : DecodeIn) (hidden : List Nat) (nearest : Option Nat) (pics : List (List Byte)) (base : List Byte)
        (poisoned : Nat → Bool),
      let lost := fun (a : Nat × Nat) => ctuOf a ∈ hidden ∨ Config.blockSlots d hidden a.1 a.2 &&& missing ≠ 0
      (d.sx, d.payload) = (sx, pay.bytes) ∧ r.bytes.length = l.total ∧ base.length = l.picture ∧
      (∀ a, a ∈ hidden ↔ ∃ i g k, y.segs[i]? = some g ∧ meetsError d poison i g k ∧
        (∀ j, meetsError d poison i g j → k ≤ j) ∧ a ∈ (Config.segmentCtus sx i).drop k) ∧
      (∃ bad : List Nat, bad.Nodup ∧ r.bad = bad.length ∧
        ∀ i, i ∈ bad ↔ ∃ g k, y.segs[i]? = some g ∧ meetsError d poison i g k) ∧
      r.concealed = (List.range count).countP (fun a => decide (a ∈ hidden)) ∧
      (nearest = none → ∀ i, ¬ slotPresent x p missing i) ∧
      (∀ i, nearest = some i → slotPresent x p missing i ∧ ∀ j, slotPresent x p missing j →
        slotDistance p i < slotDistance p j ∨ (slotDistance p i = slotDistance p j ∧ i ≤ j)) ∧
      ((∀ w, Clean s w) → (∀ a, poisoned a = false) ∧ ∀ i j, nearest = some j → inside i → lost (l.lumaAt i) →
        byteAt (pics.getD j []) i = memByte s (s.phys c x.handle.toNat (x.bufOff (p.byte (48 + j)) + i))) ∧
      (∀ i, inside i → lost (l.lumaAt i) →
        byteAt base i = match nearest with
          | some j => byteAt (pics.getD j []) i
          | none => greyByte x.depth i) ∧
      (∀ i, inside i → ¬lost (l.lumaAt i) → byteAt base i = maskSample x.depth i (Config.reconByte d hidden pics i)) ∧
      (∀ i, i < l.picture → byteAt r.bytes i =
        if y.mono = true ∧ l.yBytes ≤ i then greyByte x.depth i else maskSample x.depth i (Config.filterByte d base i)) ∧
      (∀ b j, j < 16 → b < l.w64 * l.h64 / 256 → 16 * (b % (l.w64 / 16)) < x.width → 16 * (b / (l.w64 / 16)) < x.height →
        lost (16 * (b % (l.w64 / 16)), 16 * (b / (l.w64 / 16))) → byteAt r.bytes (l.side + 16 * b + j) = 0) ∧
      (∀ a, a < count → a / 8 < 65536 →
        (bit (byteAt r.bytes (l.errorMap + a / 8)).toNat (a % 8) = true ↔
          a ∈ hidden ∨ poisoned a = true ∨ ∃ i, inside i ∧ ctuOf (l.lumaAt i) = a ∧ lost (l.lumaAt i))) ∧
      (∀ w, r.marks.getD w false = true ↔
        ∃ i, i / 32 = w ∧ inside i ∧ ctuOf (l.lumaAt i) < count ∧ poisoned (ctuOf (l.lumaAt i)) = true) ∧
      r.grained = (List.range l.picture).map (fun i =>
        maskSample x.depth i (Config.grainByte sx (r.bytes.take l.picture) i))

/-- An encode that ends gives its buffers back and completes with its payload bytes, the QPs of its first and last rows,
OVERCAP and REFMISS; its bits enter the history, and after an inter frame the candidate field is new. A payload above
OUTCAP ends with BOUNDS and REASON 4, and the target stays as it was marked (R409, R417 to R419). Where the manual is silent this
follows the model's choices (log 27, 71). -/
def Sys2Proof.EncodeEndsRule : Prop :=
  ∀ (e : Fin 6) (s : State) (f : Frame) (q : Nat) (y : Cmd) (n t : Nat), FrameRuns s e.val f q y → f.kind = .encode →
    f.stream = some n → f.target = some t → t ∈ f.bufs →
    let p : Pkt := { bytes := f.bytes, ctx := f.ctx, cls := f.cls, order := 0 }
    let x := s.stream n
    let r := ((Io.of s).encode f.ctx x p f.missing).1
    let bytes := (r.used.toNat - p.u32 36 + 7) / 8
    let out := touchedLines s f.ctx (p.handle 11) (p.u64 24) bytes
    let target := touchedLines s f.ctx x.handle.toNat (x.bufOff t) x.layout.total
    ∃ s' st, exec (.larkFrameEnd e) s = .next s' ∧ OnlyPages s { s' with lrk := s.lrk } ∧ SamePumphouse s s' ∧
      (bytes ≤ p.u32 32 →
        FrameGone s s' e.val f (some t) ∧ ((s'.stream n).bufAt t).mark = BitVec.ofNat 2 (p.byte 13) ∧
        (s'.stream n).hist = (r.used.toNat :: x.hist).take 64 ∧
        ((s'.stream n).interSeen, (s'.stream n).field) =
          (if r.e.ftype = 0 then (x.interSeen, x.field) else (true, x.nextField r.found)) ∧
        s'.lrk.samples = s.lrk.samples + BitVec.ofNat 32 (x.width * x.height) ∧ DataStatus s st ∧
        ((∀ w, Clean s w) → OnlyLines s s' (out ++ target) ∧
          ((out ++ target).Nodup →
            handleBytes s' f.ctx (p.handle 11) (p.u64 24) bytes = (List.range bytes).map (Config.encodeByte r.e r.choices) ∧
            handleBytes s' f.ctx x.handle.toNat (x.bufOff t) x.layout.picture =
              (List.range x.layout.picture).map (fun i => maskSample x.depth i (Config.encodePicture r.e r.choices i)) ∧
            ∀ i, i < (x.ctbs.count + 7) / 8 → i < 65536 →
              memByte s' (s.phys f.ctx x.handle.toNat (x.bufOff t + x.layout.errorMap + i)) = 0)) ∧
        Finished s s' q f.slot y st 0 0 (leBytes 4 bytes ++ [BitVec.ofInt 8 (r.qps.head?.getD 0),
          BitVec.ofInt 8 (r.qps.getLast?.getD 0),
          (if x.budget < r.used then 1 else 0) + (if f.missing ≠ 0 then 2 else 0)])) ∧
      (p.u32 32 < bytes → FrameGone s s' e.val f none ∧
        ((s'.stream n).hist, (s'.stream n).interSeen, (s'.stream n).field) = (x.hist, x.interSeen, x.field) ∧
        Finished s s' q f.slot y stBounds 4 0 [])

/-- What an encode comes to. It searches each reference against its input on the stream's grid, a missing one replaced by the
nearest present one; without any the frame is coded as I (R416, R417). A row's QP follows R418 from the bits that the rows
before it wrote: BASEQP with the type's offset, one step up where the rows are ahead of the budget, QPMAX once it is used.
Where the manual is silent this follows the model's choices (log 27, 71). -/
def Sys2Proof.EncodingRule : Prop :=
  ∀ (s : State) (c : Nat) (x : Stream) (p : Pkt) (missing : Half),
    let r := ((Io.of s).encode c x p missing).1
    let rows := (x.height + 31) / 32
    let budget : Int := (x.winBits : Int) - ((x.hist.take (x.winFrames - 1)).sum : Nat)
    let inLayout := layoutOf (p.u16 44) (p.u16 46) x.depth
    let refs := encodeBufs x p.bytes missing
    (r.e.width, r.e.height, r.e.depth, r.e.ftype) = (x.width, x.height, x.depth, if refs = [] then 0 else p.byte 12) ∧
    r.e.vectors = r.found.map (fun v => v.map (fun b => b.1)) ∧ r.e.refs.length = refs.length ∧
    ((∀ w, Clean s w) →
      r.e.planes = encodePlanes s x p.bytes (handleBytes s c (p.handle 10) (p.u64 16) inLayout.picture) ∧
      r.e.refs = refs.map (fun b => handleBytes s c x.handle.toNat (x.bufOff b) x.layout.picture) ∧
      r.found = x.search (r.e.planes.headD []) (signed (p.u16 40) 16, signed (p.u16 42) 16)
        (refs.map (fun b => handleBytes s c x.handle.toNat (x.bufOff b) x.layout.total))) ∧
    ∃ (qp used : Nat → Int) (choices : Nat → List (Nat × EncodeMode)),
      (x.qpMin ≤ x.qpMax → qp 0 = max x.qpMin (min x.qpMax (x.baseQp + x.qpOff.getD r.e.ftype 0))) ∧ used 0 = p.u32 36 ∧ choices 0 = [] ∧
      (∀ i, i < rows →
        let row := encodeRow r.e s.lambda (choices i) i (qp i).toNat
        used (i + 1) = used i + row.1 ∧ choices (i + 1) = row.2 ∧
        qp (i + 1) = if budget ≤ used (i + 1) then x.qpMax
          else if budget * (i + 1) < used (i + 1) * rows then min (qp i + x.qpStep) x.qpMax else qp i) ∧
      r.qps = (List.range rows).map qp ∧ r.used = used rows ∧ r.choices = choices rows

/-- The places of a list of references that stay present, and what stands for place `i` where it is missing (R410, R417):
the present place nearest to it. -/
def Sys2Proof.ReferencesReplacedRule : Prop :=
  ∀ (x : Stream) (p : Pkt) (missing : Half), p.byte 12 ≤ 2 →
    let places := List.range (4 * p.byte 12)
    let present := fun i => i < 4 * p.byte 12 ∧ bit missing.toNat i = false ∧ p.byte (56 + i) < x.bufs
    ∃ stands : Nat → Option Nat, encodeBufs x p.bytes missing = places.filterMap stands ∧
      (∀ i, present i → stands i = some (p.byte (56 + i))) ∧
      (∀ i, i < 4 * p.byte 12 → bit missing.toNat i = false → x.bufs ≤ p.byte (56 + i) → stands i = none) ∧
      ∀ i, i < 4 * p.byte 12 → bit missing.toNat i = true →
        ((∀ j, ¬present j) → stands i = none) ∧
        ∀ k, present k → ∃ j, present j ∧ stands i = some (p.byte (56 + j)) ∧
          ((j : Int) - i).natAbs ≤ ((k : Int) - i).natAbs

/-- Vectors that lie one step apart, in raster order. -/
def Sys2Proof.neighbours (d : Int) (v : Int × Int) : List (Int × Int) :=
  [(v.1 - d, v.2 - d), (v.1, v.2 - d), (v.1 + d, v.2 - d), (v.1 - d, v.2), (v.1 + d, v.2), (v.1 - d, v.2 + d), (v.1, v.2 + d),
    (v.1 + d, v.2 + d)]

/-- `v` is the first of lowest cost in a list. -/
def Sys2Proof.FirstLowest (cost : Int × Int → Nat) (l : List (Int × Int)) (v : Int × Int) : Prop :=
  ∃ pre post, l = pre ++ v :: post ∧ (∀ w ∈ pre, cost v < cost w) ∧ ∀ w ∈ post, cost v ≤ cost w

/-- One move of the small diamond: to the first of lowest cost among the four neighbours within ±8 samples of `o`, where that
costs less. -/
def Sys2Proof.DiamondMove (cost : Int × Int → Nat) (o v w : Int × Int) : Prop :=
  let near := ([(v.1, v.2 - 4), (v.1 + 4, v.2), (v.1, v.2 + 4), (v.1 - 4, v.2)] : List (Int × Int)).filter (fun a =>
    decide ((a.1 - o.1).natAbs ≤ 32) && decide ((a.2 - o.2).natAbs ≤ 32))
  FirstLowest cost near w ∧ cost w < cost v

/-- Motion search in quarter samples: the candidates of Table LRK-9, of which zero and GMV always stand and the others from the
second inter frame on; the first of lowest SAD; at most 8 moves of the small diamond, fewer only where no neighbour costs
less; then the half-sample and the quarter-sample neighbours, the centre first (R419). Of several references the field keeps
the vector of lowest SAD, the lower one on ties. A coding block takes the first mode of lowest J in the order skip, merge,
inter, intra (R420). Where the manual is silent this follows the model's choices (log 27, 71). -/
def Sys2Proof.SearchAndModesRule : Prop :=
  (∀ (x : Stream) (cur : Plane) (gmv : Int × Int) (pic : List Byte) (bx bY : Nat),
    let cost := blockSad x cur pic bx bY
    let cand := x.candidates gmv pic bx bY
    (0, 0) ∈ cand ∧ (roundMv gmv.1, roundMv gmv.2) ∈ cand ∧ cand.Nodup ∧
    (x.field = [] → x.interSeen = false → ∀ v ∈ cand, v = (0, 0) ∨ v = (roundMv gmv.1, roundMv gmv.2)) ∧
    (∀ v : Int, (roundMv v) % 4 = 0 ∧ (roundMv v - v).natAbs ≤ 2 ∧ ((roundMv v - v).natAbs = 2 → v.natAbs ≤ (roundMv v).natAbs)) ∧
    ∃ best whole half : Int × Int, ∃ path : List (Int × Int),
      FirstLowest cost cand best ∧ path.length ≤ 9 ∧ path.head? = some best ∧ path.getLast? = some whole ∧
      path.IsChain (DiamondMove cost best) ∧ (path.length < 9 → ∀ w, ¬DiamondMove cost best whole w) ∧
      FirstLowest cost (whole :: neighbours 2 whole) half ∧
      FirstLowest cost (half :: neighbours 1 half) (x.searchBlock cur gmv pic bx bY).1 ∧
      (x.searchBlock cur gmv pic bx bY).2 = cost (x.searchBlock cur gmv pic bx bY).1) ∧
  (∀ (x : Stream) (found : List (List ((Int × Int) × Nat))) (i : Nat), found ≠ [] →
    (∀ v ∈ found, v.length = x.blockCols * x.blockRows) → i < x.blockCols * x.blockRows →
    ∃ (r : Nat) (v : List ((Int × Int) × Nat)) (m : (Int × Int) × Nat), found[r]? = some v ∧ v[i]? = some m ∧
      (x.nextField found)[i]? = some m.1 ∧
      ∀ r' v' m', found[r']? = some v' → v'[i]? = some m' → m.2 < m'.2 ∨ (m.2 = m'.2 ∧ r ≤ r')) ∧
  (∀ (e : EncodeIn) (lambda : Word) (qp : Nat) (z : List (Nat × EncodeMode) × Nat),
    let modes := (if e.ftype = 0 then [] else
      EncodeMode.skip :: (List.range 5).map EncodeMode.merge ++ (List.range e.refs.length).map EncodeMode.inter)
        ++ (List.range 35).map EncodeMode.intra
    let J := fun m => 256 * (Config.modeCost e z.1 qp m).1 + lambda.toNat * (Config.modeCost e z.1 qp m).2
    ∃ m pre post, modes = pre ++ m :: post ∧ (∀ a ∈ pre, J m < J a) ∧ (∀ a ∈ post, J m ≤ J a) ∧
      codeBlock e lambda qp z = (z.1 ++ [(qp, m)], z.2 + (Config.modeCost e z.1 qp m).2))

/-- A Preform that ends gives its buffer back and completes with its flags; its output holds the elements of its picture, and
no other line differs (R421 to R426). -/
def Sys2Proof.PreformEndsRule : Prop :=
  ∀ (e : Fin 6) (s : State) (f : Frame) (q : Nat) (y : Cmd), FrameRuns s e.val f q y → f.kind = .preform →
    let a := preformOf (match f.stream with | some n => s.stream n | none => Stream.reset) f.bytes
    CleanLines s (touchedLines s f.ctx a.handle a.off a.inBytes) →
    let r := a.compute f.bytes (a.planes s (handleBytes s f.ctx a.handle a.off a.inBytes))
    let out := touchedLines s f.ctx a.out a.outOff a.outBytes
    ∃ s' st, exec (.larkFrameEnd e) s = .next s' ∧ OnlyPages s { s' with lrk := s.lrk } ∧ SamePumphouse s s' ∧
      FrameGone s s' e.val f none ∧ (∀ n, ((s'.stream n).hist, (s'.stream n).interSeen, (s'.stream n).field) =
        ((s.stream n).hist, (s.stream n).interSeen, (s.stream n).field)) ∧
      s'.lrk.samples = s.lrk.samples + BitVec.ofNat 32 (a.geo.outW * a.geo.outH) ∧ OnlyLines s s' out ∧
      (out.Nodup → handleBytes s' f.ctx a.out a.outOff a.outBytes = r.out.flatMap (leBytes a.elemSize)) ∧
      DataStatus s st ∧ Finished s s' q f.slot y st 0 r.fl []

/-- Lark's engines run frames, and what each kind of frame comes to at its end: LARK_FRAME_START, LARK_FRAME_SUSPEND,
LARK_FRAME_RESUME, LARK_ENGINE_STOP and LARK_FRAME_END each complete so for every state that meets their conditions.
Where the manual is silent this follows the model's choices (log 26, 27, 69, 70, 71). -/
def Obligations.LarkEnginesRunFrames : Prop :=
  Sys2Proof.FramesRunRule ∧ Sys2Proof.DecodeEndsRule ∧ Sys2Proof.DecodingRule ∧ Sys2Proof.EncodeEndsRule ∧
    Sys2Proof.EncodingRule ∧ Sys2Proof.ReferencesReplacedRule ∧ Sys2Proof.SearchAndModesRule ∧ Sys2Proof.PreformEndsRule

/-! ## The whole die -/

/-- Every step, whatever the command, keeps the Cistern's contents and check bits in canonical form, so that equal contents
are equal data. -/
def Obligations.MemoryStaysCanonical : Prop :=
  ∀ (s s' : State), CanonicalMemory s → step s = .next s' → CanonicalMemory s'

/-- Reset leaves no command waiting, canonical memory that reads zero with no word in error, every tile without a program
and its registers zero, every queue, port, context, tract, pool and stream as its table says, and the reset values that the
register tables give (21 R518, R526, Tables RST-3 and RST-5; 12 R289). The die stands in a cold reset: this model's choice
(log 5). Where the manual is silent this follows the model's choices (log 4, 11). -/
def Obligations.ResetLeavesTheTablesValues : Prop :=
  let s := State.reset
  CanonicalMemory s ∧ s.pending = [] ∧ s.rst.held = some .cold ∧ s.rst.ready = false ∧ s.rst.standby = false ∧
    (s.rst.cause, s.rst.detachBound) = (1, 1000) ∧ s.flying = [] ∧ s.pmh.compl = [] ∧
    (∀ a, memByte s a = 0) ∧ (∀ w, Clean s w) ∧ (∀ t, s.tractState t = 0 ∧ s.walkOf t = none) ∧
    (∀ t, (s.tile t).wren.prog = none ∧ (s.tile t).wren.p = 1 ∧ (s.tile t).vec.qscale = 0x3F800000 ∧
      (s.tile t).vec.busy = false ∧ (s.tile t).arr.run = none ∧ (s.tile t).arr.duty = 8) ∧
    (∀ t r, readX (s.tile t).wren.x r = 0) ∧
    (∀ q, (s.queue q).head = 0 ∧ (s.queue q).tail = 0 ∧ (s.queue q).cond = true ∧ (s.queue q).pred = 1 ∧
      (s.queue q).decoded = []) ∧
    (∀ p, (s.port p).en = true ∧ (s.port p).maxRate = 2 ∧ (s.port p).zrcEn = true ∧ (s.port p).hubOff = false ∧
      (s.port p).e2e = 100 ∧ (s.port p).state = .disabled) ∧
    (∀ c, (s.ctxOf c).state = .closed ∧ (s.ctxOf c).salt = 0) ∧ (∀ o, s.act.word o = s.shd.word o) ∧
    s.cfg.timeout = 10000 ∧ s.cis.scrubRate = 1000 ∧ s.cis.ceNotify = 0 ∧
    (s.pwr.limit, s.pwr.capPower, s.pwr.capThermal, s.pwr.capStack) = (720, 8, 8, 8) ∧
    (∀ n, s.slotWord n 3 = 0x3F800000 ∧ s.slotWord n 5 = 0x3F800000 ∧ s.slotWord n 0 = 0) ∧
    (∀ n, (s.entry n).state = .free ∧ (s.cust n).budget = 0) ∧ (∀ c, (s.pool c).live = false) ∧
    (∀ n, (s.stream n).opened = false) ∧ s.tap.ir = 1
end

