-- ==== Sys2Proof/Laws/Sparse.lean ====
section
/-!
SUPPORT. What a sparse map holds after an update, whether or not it is in canonical form, and that every update keeps
the canonical form.
-/

namespace Sys2Proof.Machine

variable {α : Type} {d : α} {m r : Sparse α} {b c i j k n : Nat} {v : α} {f : Nat → α}

/-! ## Contents -/

@[simp] theorem spGet_nil : spGet d [] i = d := rfl

theorem spGet_cons {w : α} : spGet d ((k, w) :: m) i = if i = k then w else spGet d m i := rfl

@[simp] theorem spGet_spIns_same : spGet d (spIns m i v) i = v := by
  induction m with
  | nil => simp [spIns, spGet]
  | cons e m ih =>
    obtain ⟨k, w⟩ := e
    simp only [spIns]
    split
    · simp [spGet]
    · split <;> simp_all [spGet]

theorem spGet_spIns_other (h : j ≠ i) : spGet d (spIns m i v) j = spGet d m j := by
  induction m with
  | nil => simp [spIns, spGet, h]
  | cons e m ih =>
    obtain ⟨k, w⟩ := e
    simp only [spIns]
    split
    · simp [spGet, h]
    · split
      · subst_vars; simp [spGet, h]
      · simp only [spGet]; rw [ih]

theorem spGet_filter (p : Nat → Bool) :
    spGet d (m.filter (fun e => p e.1)) i = if p i then spGet d m i else d := by
  induction m with
  | nil => simp [spGet]
  | cons e m ih =>
    obtain ⟨k, w⟩ := e
    rw [List.filter_cons]
    by_cases hp : p k <;> by_cases h : i = k <;> simp_all [spGet]

/-- The first of two maps that has an entry. -/
theorem spGet_append (h : ∀ e ∈ m, i ≠ e.1) : spGet d (m ++ r) i = spGet d r i := by
  induction m with
  | nil => rfl
  | cons e m ih => simp_all [spGet]

theorem spGet_append_filter (p : Nat → Bool) (h : p i = true → spGet d r i = d) :
    spGet d (m.filter (fun e => p e.1) ++ r) i = if p i then spGet d m i else spGet d r i := by
  induction m with
  | nil => by_cases hp : p i <;> simp_all
  | cons e m ih =>
    obtain ⟨k, w⟩ := e
    rw [List.filter_cons]
    by_cases hp : p k <;> by_cases h : i = k <;> simp_all [spGet]

variable [DecidableEq α]

/-- What an update leaves at its key. -/
@[simp] theorem spGet_spSet_same : spGet d (spSet d m i v) i = v := by
  unfold spSet
  split
  · rw [spGet_filter (fun k => decide (k ≠ i))]; simp [*]
  · exact spGet_spIns_same

/-- An update leaves every other key alone. -/
theorem spGet_spSet_other (h : j ≠ i) : spGet d (spSet d m i v) j = spGet d m j := by
  unfold spSet
  split
  · rw [spGet_filter (fun k => decide (k ≠ i))]; simp [h]
  · exact spGet_spIns_other h

/-- Both cases of an update. -/
theorem spGet_spSet : spGet d (spSet d m i v) j = if j = i then v else spGet d m j := by
  split
  · subst_vars; exact spGet_spSet_same
  · exact spGet_spSet_other (by assumption)

@[simp] theorem spGet_spModify_same {g : α → α} : spGet d (spModify d m i g) i = g (spGet d m i) :=
  spGet_spSet_same

theorem spGet_spModify_other {g : α → α} (h : j ≠ i) : spGet d (spModify d m i g) j = spGet d m j :=
  spGet_spSet_other h

theorem spGet_spSpan :
    spGet d (spSpan d b f n m) i = if b ≤ i ∧ i < b + n ∧ f (i - b) ≠ d then f (i - b) else spGet d m i := by
  induction n generalizing m with
  | zero => simp [spSpan]; omega
  | succ n ih =>
    rw [spSpan, ih]
    by_cases h3 : i = b + n
    · subst h3
      by_cases hf : f n = d <;> simp [hf, spGet]
    · have e : (b ≤ i ∧ i < b + n) ↔ (b ≤ i ∧ i < b + (n + 1)) := by omega
      by_cases hf : f n = d <;> simp only [hf, if_true, if_false, spGet, h3, ← and_assoc, e]

/-- What a range update leaves at every key. -/
theorem spGet_spSetRange :
    spGet d (spSetRange d m b n f) i = if b ≤ i ∧ i < b + n then f (i - b) else spGet d m i := by
  have h3 : spGet d (m.filter (fun e => decide (b + n ≤ e.1))) i = if b + n ≤ i then spGet d m i else d := by
    rw [spGet_filter (fun k => decide (b + n ≤ k))]; simp
  unfold spSetRange
  rw [spGet_append_filter (fun k => decide (k < b))]
  · rw [spGet_spSpan, h3]
    by_cases h1 : i < b
    · simp [h1, show ¬ b ≤ i by omega]
    · by_cases h2 : i < b + n
      · by_cases hf : f (i - b) = d <;> simp [h1, h2, hf, show b ≤ i by omega, show ¬ b + n ≤ i by omega]
      · simp [h1, h2, show b ≤ i by omega, show b + n ≤ i by omega]
  · intro hp
    simp only [decide_eq_true_eq] at hp
    rw [spGet_spSpan, h3]
    simp [show ¬ b ≤ i by omega, show ¬ b + n ≤ i by omega]

theorem spGet_spEntries {vs : List α} (hi : i < b ∨ b + vs.length ≤ i) : spGet d (spEntries d b vs ++ r) i = spGet d r i := by
  induction vs generalizing b with
  | nil => rfl
  | cons a vs ih =>
    simp only [List.length_cons] at hi
    unfold spEntries
    split
    · exact ih (by omega)
    · simp only [List.cons_append, spGet, show i ≠ b by omega, if_false]; exact ih (by omega)

/-! ## Canonical form -/

omit [DecidableEq α] in
theorem spAbove_mono (h : spAbove c m = true) (hb : b ≤ c) : spAbove b m = true := by
  cases m with
  | nil => rfl
  | cons e m =>
    obtain ⟨k, w⟩ := e
    simp only [spAbove, Bool.and_eq_true, decide_eq_true_eq] at *
    exact ⟨by omega, h.2⟩

omit [DecidableEq α] in
theorem spAbove_filter (p : Nat × α → Bool) (h : spAbove b m = true) : spAbove b (m.filter p) = true := by
  induction m generalizing b with
  | nil => rfl
  | cons e m ih =>
    obtain ⟨k, w⟩ := e
    simp only [spAbove, Bool.and_eq_true, decide_eq_true_eq] at h
    rw [List.filter_cons]
    split
    · simp only [spAbove, Bool.and_eq_true, decide_eq_true_eq]; exact ⟨h.1, ih h.2⟩
    · exact ih (spAbove_mono h.2 (by omega))

omit [DecidableEq α] in
theorem spAbove_spIns (h : spAbove b m = true) (hi : b < i) : spAbove b (spIns m i v) = true := by
  induction m generalizing b with
  | nil => simp [spIns, spAbove, hi]
  | cons e m ih =>
    obtain ⟨k, w⟩ := e
    simp only [spAbove, Bool.and_eq_true, decide_eq_true_eq] at h
    simp only [spIns]
    split
    · simp [spAbove, h.2, *]
    · split
      · subst_vars; simp [spAbove, hi, h.2]
      · simp only [spAbove, Bool.and_eq_true, decide_eq_true_eq]; exact ⟨h.1, ih h.2 (by omega)⟩

@[simp] theorem spWf_nil : spWf d ([] : Sparse α) = true := rfl

theorem spWf_filter (p : Nat × α → Bool) (hm : spWf d m = true) : spWf d (m.filter p) = true := by
  induction m with
  | nil => rfl
  | cons e m ih =>
    obtain ⟨k, w⟩ := e
    simp only [spWf, Bool.and_eq_true, decide_eq_true_eq] at hm
    rw [List.filter_cons]
    split
    · simp only [spWf, Bool.and_eq_true, decide_eq_true_eq]
      exact ⟨⟨hm.1.1, spAbove_filter p hm.1.2⟩, ih hm.2⟩
    · exact ih hm.2

theorem spWf_spIns (hm : spWf d m = true) (hv : v ≠ d) : spWf d (spIns m i v) = true := by
  induction m with
  | nil => simp [spIns, spWf, spAbove, hv]
  | cons e m ih =>
    obtain ⟨k, w⟩ := e
    simp only [spWf, Bool.and_eq_true, decide_eq_true_eq] at hm
    simp only [spIns]
    split
    · rename_i h
      simp [spWf, spAbove, hv, hm, h]
    · split
      · subst_vars; simp [spWf, hv, hm]
      · simp only [spWf, Bool.and_eq_true, decide_eq_true_eq]
        exact ⟨⟨hm.1.1, spAbove_spIns hm.1.2 (by omega)⟩, ih hm.2⟩

theorem spWf_spSet (hm : spWf d m = true) : spWf d (spSet d m i v) = true := by
  unfold spSet
  split
  · exact spWf_filter _ hm
  · exact spWf_spIns hm (by assumption)

theorem spWf_spModify {g : α → α} (hm : spWf d m = true) : spWf d (spModify d m i g) = true := spWf_spSet hm

/-- Every key of `m` is at or above `b`. -/
def spFrom (b : Nat) (m : Sparse α) : Prop := ∀ c, c < b → spAbove c m = true

theorem spFrom_filter (hm : spWf d m = true) : spFrom b (m.filter (fun e => decide (b ≤ e.1))) := by
  intro c hc
  induction m with
  | nil => rfl
  | cons e m ih =>
    obtain ⟨k, w⟩ := e
    simp only [spWf, Bool.and_eq_true, decide_eq_true_eq] at hm
    rw [List.filter_cons]
    split
    · rename_i h
      simp only [decide_eq_true_eq] at h
      simp only [spAbove, Bool.and_eq_true, decide_eq_true_eq]
      exact ⟨by omega, spAbove_filter _ hm.1.2⟩
    · exact ih hm.2

theorem spSpan_step (hm : spWf d m = true) (h : spFrom (b + n + 1) m) :
    spWf d (if f n = d then m else (b + n, f n) :: m) = true ∧
      spFrom (b + n) (if f n = d then m else (b + n, f n) :: m) := by
  split
  · exact ⟨hm, fun c hc => h c (by omega)⟩
  · rename_i hf
    refine ⟨?_, fun c hc => ?_⟩
    · simp only [spWf, Bool.and_eq_true, decide_eq_true_eq]
      exact ⟨⟨hf, h _ (by omega)⟩, hm⟩
    · simp only [spAbove, Bool.and_eq_true, decide_eq_true_eq]
      exact ⟨hc, h _ (by omega)⟩

theorem spWf_spSpan (hm : spWf d m = true) (h : spFrom (b + n) m) :
    spWf d (spSpan d b f n m) = true ∧ spFrom b (spSpan d b f n m) := by
  induction n generalizing m with
  | zero => exact ⟨hm, h⟩
  | succ n ih => exact ih (spSpan_step hm h).1 (spSpan_step hm h).2

theorem spWf_spEntries {vs : List α} (hm : spWf d m = true) (h : spFrom (b + vs.length) m) :
    spWf d (spEntries d b vs ++ m) = true ∧ spFrom b (spEntries d b vs ++ m) := by
  induction vs generalizing b with
  | nil => exact ⟨hm, h⟩
  | cons a vs ih =>
    have h' : spFrom (b + 1 + vs.length) m := by
      intro c hc; exact h c (by simp only [List.length_cons]; omega)
    have ⟨h1, h2⟩ := ih h'
    unfold spEntries
    split
    · exact ⟨h1, fun c hc => h2 c (by omega)⟩
    · rename_i ha
      simp only [List.cons_append]
      refine ⟨?_, fun c hc => ?_⟩
      · simp only [spWf, Bool.and_eq_true, decide_eq_true_eq]
        exact ⟨⟨ha, h2 _ (by omega)⟩, h1⟩
      · simp only [spAbove, Bool.and_eq_true, decide_eq_true_eq]
        exact ⟨hc, h2 _ (by omega)⟩

omit [DecidableEq α] in
theorem spAbove_append (hm : spAbove c m = true) (hr : spFrom b r) (h : ∀ e ∈ m, e.1 < b) (hc : c < b) :
    spAbove c (m ++ r) = true := by
  induction m generalizing c with
  | nil => exact hr c hc
  | cons e m ih =>
    obtain ⟨k, w⟩ := e
    simp only [spAbove, Bool.and_eq_true, decide_eq_true_eq, List.cons_append] at *
    exact ⟨hm.1, ih hm.2 (fun e he => h e (List.mem_cons_of_mem _ he)) (h _ (List.mem_cons_self ..))⟩

theorem spWf_append_below (hm : spWf d m = true) (hr : spWf d r = true) (hb : spFrom b r) :
    spWf d (m.filter (fun e => decide (e.1 < b)) ++ r) = true := by
  induction m with
  | nil => exact hr
  | cons e m ih =>
    obtain ⟨k, w⟩ := e
    simp only [spWf, Bool.and_eq_true, decide_eq_true_eq] at hm
    rw [List.filter_cons]
    split
    · rename_i hk
      simp only [decide_eq_true_eq] at hk
      simp only [List.cons_append, spWf, Bool.and_eq_true, decide_eq_true_eq]
      exact ⟨⟨hm.1.1, spAbove_append (spAbove_filter _ hm.1.2) hb (by simp) hk⟩, ih hm.2⟩
    · exact ih hm.2

theorem spWf_spSetRange (hm : spWf d m = true) : spWf d (spSetRange d m b n f) = true := by
  have hw : spWf d (m.filter (fun e => decide (b + n ≤ e.1))) = true := spWf_filter _ hm
  have hF : spFrom (b + n) (m.filter (fun e => decide (b + n ≤ e.1))) := spFrom_filter hm
  exact spWf_append_below hm (spWf_spSpan hw hF).1 (spWf_spSpan hw hF).2

theorem spWf_spSetList {vs : List α} (hm : spWf d m = true) : spWf d (spSetList d m b vs) = true := by
  have hw : spWf d (m.filter (fun e => decide (b + vs.length ≤ e.1))) = true := spWf_filter _ hm
  have hF : spFrom (b + vs.length) (m.filter (fun e => decide (b + vs.length ≤ e.1))) := spFrom_filter hm
  exact spWf_append_below hm (spWf_spEntries hw hF).1 (spWf_spEntries hw hF).2

end Sys2Proof.Machine
end

