-- ==== Sys2Proof/Laws/State.lean ====
section
/-!
SUPPORT. What each update of a part of State leaves: the part it writes reads as written, and every other field is as
before.
-/

namespace Sys2Proof.Machine

section

variable (s : State) (c : Nat) (x : Pool)

@[simp] theorem State.setPool_pending : (s.setPool c x).pending = s.pending := rfl
@[simp] theorem State.setPool_free : (s.setPool c x).free = s.free := rfl
@[simp] theorem State.setPool_nextId : (s.setPool c x).nextId = s.nextId := rfl
@[simp] theorem State.setPool_time : (s.setPool c x).time = s.time := rfl
@[simp] theorem State.setPool_fuse : (s.setPool c x).fuse = s.fuse := rfl
@[simp] theorem State.setPool_pins : (s.setPool c x).pins = s.pins := rfl
@[simp] theorem State.setPool_idScratch : (s.setPool c x).idScratch = s.idScratch := rfl
@[simp] theorem State.setPool_idStrapErr : (s.setPool c x).idStrapErr = s.idStrapErr := rfl
@[simp] theorem State.setPool_rst : (s.setPool c x).rst = s.rst := rfl
@[simp] theorem State.setPool_pwr : (s.setPool c x).pwr = s.pwr := rfl
@[simp] theorem State.setPool_top : (s.setPool c x).top = s.top := rfl
@[simp] theorem State.setPool_ports : (s.setPool c x).ports = s.ports := rfl
@[simp] theorem State.setPool_rxSegs : (s.setPool c x).rxSegs = s.rxSegs := rfl
@[simp] theorem State.setPool_cis : (s.setPool c x).cis = s.cis := rfl
@[simp] theorem State.setPool_act : (s.setPool c x).act = s.act := rfl
@[simp] theorem State.setPool_shd : (s.setPool c x).shd = s.shd := rfl
@[simp] theorem State.setPool_cfg : (s.setPool c x).cfg = s.cfg := rfl
@[simp] theorem State.setPool_ctxs : (s.setPool c x).ctxs = s.ctxs := rfl
@[simp] theorem State.setPool_ctxCloses : (s.setPool c x).ctxCloses = s.ctxCloses := rfl
@[simp] theorem State.setPool_queues : (s.setPool c x).queues = s.queues := rfl
@[simp] theorem State.setPool_pmh : (s.setPool c x).pmh = s.pmh := rfl
@[simp] theorem State.setPool_tiles : (s.setPool c x).tiles = s.tiles := rfl
@[simp] theorem State.setPool_srv : (s.setPool c x).srv = s.srv := rfl
@[simp] theorem State.setPool_smp : (s.setPool c x).smp = s.smp := rfl
@[simp] theorem State.setPool_att : (s.setPool c x).att = s.att := rfl
@[simp] theorem State.setPool_lrk : (s.setPool c x).lrk = s.lrk := rfl
@[simp] theorem State.setPool_tap : (s.setPool c x).tap = s.tap := rfl

end

section

variable (s : State) (q : Nat) (x : Queue)

@[simp] theorem State.setQueue_pending : (s.setQueue q x).pending = s.pending := rfl
@[simp] theorem State.setQueue_free : (s.setQueue q x).free = s.free := rfl
@[simp] theorem State.setQueue_nextId : (s.setQueue q x).nextId = s.nextId := rfl
@[simp] theorem State.setQueue_time : (s.setQueue q x).time = s.time := rfl
@[simp] theorem State.setQueue_fuse : (s.setQueue q x).fuse = s.fuse := rfl
@[simp] theorem State.setQueue_pins : (s.setQueue q x).pins = s.pins := rfl
@[simp] theorem State.setQueue_idScratch : (s.setQueue q x).idScratch = s.idScratch := rfl
@[simp] theorem State.setQueue_idStrapErr : (s.setQueue q x).idStrapErr = s.idStrapErr := rfl
@[simp] theorem State.setQueue_rst : (s.setQueue q x).rst = s.rst := rfl
@[simp] theorem State.setQueue_pwr : (s.setQueue q x).pwr = s.pwr := rfl
@[simp] theorem State.setQueue_top : (s.setQueue q x).top = s.top := rfl
@[simp] theorem State.setQueue_ports : (s.setQueue q x).ports = s.ports := rfl
@[simp] theorem State.setQueue_rxSegs : (s.setQueue q x).rxSegs = s.rxSegs := rfl
@[simp] theorem State.setQueue_cis : (s.setQueue q x).cis = s.cis := rfl
@[simp] theorem State.setQueue_act : (s.setQueue q x).act = s.act := rfl
@[simp] theorem State.setQueue_shd : (s.setQueue q x).shd = s.shd := rfl
@[simp] theorem State.setQueue_cfg : (s.setQueue q x).cfg = s.cfg := rfl
@[simp] theorem State.setQueue_ctxs : (s.setQueue q x).ctxs = s.ctxs := rfl
@[simp] theorem State.setQueue_ctxCloses : (s.setQueue q x).ctxCloses = s.ctxCloses := rfl
@[simp] theorem State.setQueue_pmh : (s.setQueue q x).pmh = s.pmh := rfl
@[simp] theorem State.setQueue_tiles : (s.setQueue q x).tiles = s.tiles := rfl
@[simp] theorem State.setQueue_srv : (s.setQueue q x).srv = s.srv := rfl
@[simp] theorem State.setQueue_kvp : (s.setQueue q x).kvp = s.kvp := rfl
@[simp] theorem State.setQueue_smp : (s.setQueue q x).smp = s.smp := rfl
@[simp] theorem State.setQueue_att : (s.setQueue q x).att = s.att := rfl
@[simp] theorem State.setQueue_lrk : (s.setQueue q x).lrk = s.lrk := rfl
@[simp] theorem State.setQueue_tap : (s.setQueue q x).tap = s.tap := rfl

end

section

variable (s : State) (c : Nat) (x : Ctx)

@[simp] theorem State.setCtx_pending : (s.setCtx c x).pending = s.pending := rfl
@[simp] theorem State.setCtx_free : (s.setCtx c x).free = s.free := rfl
@[simp] theorem State.setCtx_nextId : (s.setCtx c x).nextId = s.nextId := rfl
@[simp] theorem State.setCtx_time : (s.setCtx c x).time = s.time := rfl
@[simp] theorem State.setCtx_fuse : (s.setCtx c x).fuse = s.fuse := rfl
@[simp] theorem State.setCtx_pins : (s.setCtx c x).pins = s.pins := rfl
@[simp] theorem State.setCtx_idScratch : (s.setCtx c x).idScratch = s.idScratch := rfl
@[simp] theorem State.setCtx_idStrapErr : (s.setCtx c x).idStrapErr = s.idStrapErr := rfl
@[simp] theorem State.setCtx_rst : (s.setCtx c x).rst = s.rst := rfl
@[simp] theorem State.setCtx_pwr : (s.setCtx c x).pwr = s.pwr := rfl
@[simp] theorem State.setCtx_top : (s.setCtx c x).top = s.top := rfl
@[simp] theorem State.setCtx_ports : (s.setCtx c x).ports = s.ports := rfl
@[simp] theorem State.setCtx_rxSegs : (s.setCtx c x).rxSegs = s.rxSegs := rfl
@[simp] theorem State.setCtx_cis : (s.setCtx c x).cis = s.cis := rfl
@[simp] theorem State.setCtx_act : (s.setCtx c x).act = s.act := rfl
@[simp] theorem State.setCtx_shd : (s.setCtx c x).shd = s.shd := rfl
@[simp] theorem State.setCtx_cfg : (s.setCtx c x).cfg = s.cfg := rfl
@[simp] theorem State.setCtx_ctxCloses : (s.setCtx c x).ctxCloses = s.ctxCloses := rfl
@[simp] theorem State.setCtx_queues : (s.setCtx c x).queues = s.queues := rfl
@[simp] theorem State.setCtx_pmh : (s.setCtx c x).pmh = s.pmh := rfl
@[simp] theorem State.setCtx_tiles : (s.setCtx c x).tiles = s.tiles := rfl
@[simp] theorem State.setCtx_srv : (s.setCtx c x).srv = s.srv := rfl
@[simp] theorem State.setCtx_kvp : (s.setCtx c x).kvp = s.kvp := rfl
@[simp] theorem State.setCtx_smp : (s.setCtx c x).smp = s.smp := rfl
@[simp] theorem State.setCtx_att : (s.setCtx c x).att = s.att := rfl
@[simp] theorem State.setCtx_lrk : (s.setCtx c x).lrk = s.lrk := rfl
@[simp] theorem State.setCtx_tap : (s.setCtx c x).tap = s.tap := rfl

end

section

variable (s : State) (t : Nat) (x : Tile)

@[simp] theorem State.setTile_pending : (s.setTile t x).pending = s.pending := rfl
@[simp] theorem State.setTile_free : (s.setTile t x).free = s.free := rfl
@[simp] theorem State.setTile_nextId : (s.setTile t x).nextId = s.nextId := rfl
@[simp] theorem State.setTile_time : (s.setTile t x).time = s.time := rfl
@[simp] theorem State.setTile_fuse : (s.setTile t x).fuse = s.fuse := rfl
@[simp] theorem State.setTile_pins : (s.setTile t x).pins = s.pins := rfl
@[simp] theorem State.setTile_idScratch : (s.setTile t x).idScratch = s.idScratch := rfl
@[simp] theorem State.setTile_idStrapErr : (s.setTile t x).idStrapErr = s.idStrapErr := rfl
@[simp] theorem State.setTile_rst : (s.setTile t x).rst = s.rst := rfl
@[simp] theorem State.setTile_pwr : (s.setTile t x).pwr = s.pwr := rfl
@[simp] theorem State.setTile_top : (s.setTile t x).top = s.top := rfl
@[simp] theorem State.setTile_ports : (s.setTile t x).ports = s.ports := rfl
@[simp] theorem State.setTile_rxSegs : (s.setTile t x).rxSegs = s.rxSegs := rfl
@[simp] theorem State.setTile_cis : (s.setTile t x).cis = s.cis := rfl
@[simp] theorem State.setTile_act : (s.setTile t x).act = s.act := rfl
@[simp] theorem State.setTile_shd : (s.setTile t x).shd = s.shd := rfl
@[simp] theorem State.setTile_cfg : (s.setTile t x).cfg = s.cfg := rfl
@[simp] theorem State.setTile_ctxs : (s.setTile t x).ctxs = s.ctxs := rfl
@[simp] theorem State.setTile_ctxCloses : (s.setTile t x).ctxCloses = s.ctxCloses := rfl
@[simp] theorem State.setTile_queues : (s.setTile t x).queues = s.queues := rfl
@[simp] theorem State.setTile_pmh : (s.setTile t x).pmh = s.pmh := rfl
@[simp] theorem State.setTile_srv : (s.setTile t x).srv = s.srv := rfl
@[simp] theorem State.setTile_kvp : (s.setTile t x).kvp = s.kvp := rfl
@[simp] theorem State.setTile_smp : (s.setTile t x).smp = s.smp := rfl
@[simp] theorem State.setTile_att : (s.setTile t x).att = s.att := rfl
@[simp] theorem State.setTile_lrk : (s.setTile t x).lrk = s.lrk := rfl
@[simp] theorem State.setTile_tap : (s.setTile t x).tap = s.tap := rfl

end

section

variable (s : State) (t : Nat) (f : Wren → Wren)

@[simp] theorem State.setWren_pending : (s.setWren t f).pending = s.pending := rfl
@[simp] theorem State.setWren_free : (s.setWren t f).free = s.free := rfl
@[simp] theorem State.setWren_nextId : (s.setWren t f).nextId = s.nextId := rfl
@[simp] theorem State.setWren_time : (s.setWren t f).time = s.time := rfl
@[simp] theorem State.setWren_fuse : (s.setWren t f).fuse = s.fuse := rfl
@[simp] theorem State.setWren_pins : (s.setWren t f).pins = s.pins := rfl
@[simp] theorem State.setWren_idScratch : (s.setWren t f).idScratch = s.idScratch := rfl
@[simp] theorem State.setWren_idStrapErr : (s.setWren t f).idStrapErr = s.idStrapErr := rfl
@[simp] theorem State.setWren_rst : (s.setWren t f).rst = s.rst := rfl
@[simp] theorem State.setWren_pwr : (s.setWren t f).pwr = s.pwr := rfl
@[simp] theorem State.setWren_top : (s.setWren t f).top = s.top := rfl
@[simp] theorem State.setWren_ports : (s.setWren t f).ports = s.ports := rfl
@[simp] theorem State.setWren_rxSegs : (s.setWren t f).rxSegs = s.rxSegs := rfl
@[simp] theorem State.setWren_cis : (s.setWren t f).cis = s.cis := rfl
@[simp] theorem State.setWren_act : (s.setWren t f).act = s.act := rfl
@[simp] theorem State.setWren_shd : (s.setWren t f).shd = s.shd := rfl
@[simp] theorem State.setWren_cfg : (s.setWren t f).cfg = s.cfg := rfl
@[simp] theorem State.setWren_ctxs : (s.setWren t f).ctxs = s.ctxs := rfl
@[simp] theorem State.setWren_ctxCloses : (s.setWren t f).ctxCloses = s.ctxCloses := rfl
@[simp] theorem State.setWren_queues : (s.setWren t f).queues = s.queues := rfl
@[simp] theorem State.setWren_pmh : (s.setWren t f).pmh = s.pmh := rfl
@[simp] theorem State.setWren_srv : (s.setWren t f).srv = s.srv := rfl
@[simp] theorem State.setWren_kvp : (s.setWren t f).kvp = s.kvp := rfl
@[simp] theorem State.setWren_smp : (s.setWren t f).smp = s.smp := rfl
@[simp] theorem State.setWren_att : (s.setWren t f).att = s.att := rfl
@[simp] theorem State.setWren_lrk : (s.setWren t f).lrk = s.lrk := rfl
@[simp] theorem State.setWren_tap : (s.setWren t f).tap = s.tap := rfl

end

section

variable (s : State) (t : Nat) (f : Arr → Arr)

@[simp] theorem State.setArr_pending : (s.setArr t f).pending = s.pending := rfl
@[simp] theorem State.setArr_free : (s.setArr t f).free = s.free := rfl
@[simp] theorem State.setArr_nextId : (s.setArr t f).nextId = s.nextId := rfl
@[simp] theorem State.setArr_time : (s.setArr t f).time = s.time := rfl
@[simp] theorem State.setArr_fuse : (s.setArr t f).fuse = s.fuse := rfl
@[simp] theorem State.setArr_pins : (s.setArr t f).pins = s.pins := rfl
@[simp] theorem State.setArr_idScratch : (s.setArr t f).idScratch = s.idScratch := rfl
@[simp] theorem State.setArr_idStrapErr : (s.setArr t f).idStrapErr = s.idStrapErr := rfl
@[simp] theorem State.setArr_rst : (s.setArr t f).rst = s.rst := rfl
@[simp] theorem State.setArr_pwr : (s.setArr t f).pwr = s.pwr := rfl
@[simp] theorem State.setArr_top : (s.setArr t f).top = s.top := rfl
@[simp] theorem State.setArr_ports : (s.setArr t f).ports = s.ports := rfl
@[simp] theorem State.setArr_rxSegs : (s.setArr t f).rxSegs = s.rxSegs := rfl
@[simp] theorem State.setArr_cis : (s.setArr t f).cis = s.cis := rfl
@[simp] theorem State.setArr_act : (s.setArr t f).act = s.act := rfl
@[simp] theorem State.setArr_shd : (s.setArr t f).shd = s.shd := rfl
@[simp] theorem State.setArr_cfg : (s.setArr t f).cfg = s.cfg := rfl
@[simp] theorem State.setArr_ctxs : (s.setArr t f).ctxs = s.ctxs := rfl
@[simp] theorem State.setArr_ctxCloses : (s.setArr t f).ctxCloses = s.ctxCloses := rfl
@[simp] theorem State.setArr_queues : (s.setArr t f).queues = s.queues := rfl
@[simp] theorem State.setArr_pmh : (s.setArr t f).pmh = s.pmh := rfl
@[simp] theorem State.setArr_srv : (s.setArr t f).srv = s.srv := rfl
@[simp] theorem State.setArr_kvp : (s.setArr t f).kvp = s.kvp := rfl
@[simp] theorem State.setArr_smp : (s.setArr t f).smp = s.smp := rfl
@[simp] theorem State.setArr_att : (s.setArr t f).att = s.att := rfl
@[simp] theorem State.setArr_lrk : (s.setArr t f).lrk = s.lrk := rfl
@[simp] theorem State.setArr_tap : (s.setArr t f).tap = s.tap := rfl

end

section

variable (s : State) (t : Nat) (f : Vec → Vec)

@[simp] theorem State.setVec_pending : (s.setVec t f).pending = s.pending := rfl
@[simp] theorem State.setVec_free : (s.setVec t f).free = s.free := rfl
@[simp] theorem State.setVec_nextId : (s.setVec t f).nextId = s.nextId := rfl
@[simp] theorem State.setVec_time : (s.setVec t f).time = s.time := rfl
@[simp] theorem State.setVec_fuse : (s.setVec t f).fuse = s.fuse := rfl
@[simp] theorem State.setVec_pins : (s.setVec t f).pins = s.pins := rfl
@[simp] theorem State.setVec_idScratch : (s.setVec t f).idScratch = s.idScratch := rfl
@[simp] theorem State.setVec_idStrapErr : (s.setVec t f).idStrapErr = s.idStrapErr := rfl
@[simp] theorem State.setVec_rst : (s.setVec t f).rst = s.rst := rfl
@[simp] theorem State.setVec_pwr : (s.setVec t f).pwr = s.pwr := rfl
@[simp] theorem State.setVec_top : (s.setVec t f).top = s.top := rfl
@[simp] theorem State.setVec_ports : (s.setVec t f).ports = s.ports := rfl
@[simp] theorem State.setVec_rxSegs : (s.setVec t f).rxSegs = s.rxSegs := rfl
@[simp] theorem State.setVec_cis : (s.setVec t f).cis = s.cis := rfl
@[simp] theorem State.setVec_act : (s.setVec t f).act = s.act := rfl
@[simp] theorem State.setVec_shd : (s.setVec t f).shd = s.shd := rfl
@[simp] theorem State.setVec_cfg : (s.setVec t f).cfg = s.cfg := rfl
@[simp] theorem State.setVec_ctxs : (s.setVec t f).ctxs = s.ctxs := rfl
@[simp] theorem State.setVec_ctxCloses : (s.setVec t f).ctxCloses = s.ctxCloses := rfl
@[simp] theorem State.setVec_queues : (s.setVec t f).queues = s.queues := rfl
@[simp] theorem State.setVec_pmh : (s.setVec t f).pmh = s.pmh := rfl
@[simp] theorem State.setVec_srv : (s.setVec t f).srv = s.srv := rfl
@[simp] theorem State.setVec_kvp : (s.setVec t f).kvp = s.kvp := rfl
@[simp] theorem State.setVec_smp : (s.setVec t f).smp = s.smp := rfl
@[simp] theorem State.setVec_att : (s.setVec t f).att = s.att := rfl
@[simp] theorem State.setVec_lrk : (s.setVec t f).lrk = s.lrk := rfl
@[simp] theorem State.setVec_tap : (s.setVec t f).tap = s.tap := rfl

end

section

variable (s : State) (p : Nat) (x : Port)

@[simp] theorem State.setPort_pending : (s.setPort p x).pending = s.pending := rfl
@[simp] theorem State.setPort_free : (s.setPort p x).free = s.free := rfl
@[simp] theorem State.setPort_nextId : (s.setPort p x).nextId = s.nextId := rfl
@[simp] theorem State.setPort_time : (s.setPort p x).time = s.time := rfl
@[simp] theorem State.setPort_fuse : (s.setPort p x).fuse = s.fuse := rfl
@[simp] theorem State.setPort_pins : (s.setPort p x).pins = s.pins := rfl
@[simp] theorem State.setPort_idScratch : (s.setPort p x).idScratch = s.idScratch := rfl
@[simp] theorem State.setPort_idStrapErr : (s.setPort p x).idStrapErr = s.idStrapErr := rfl
@[simp] theorem State.setPort_rst : (s.setPort p x).rst = s.rst := rfl
@[simp] theorem State.setPort_pwr : (s.setPort p x).pwr = s.pwr := rfl
@[simp] theorem State.setPort_top : (s.setPort p x).top = s.top := rfl
@[simp] theorem State.setPort_rxSegs : (s.setPort p x).rxSegs = s.rxSegs := rfl
@[simp] theorem State.setPort_cis : (s.setPort p x).cis = s.cis := rfl
@[simp] theorem State.setPort_act : (s.setPort p x).act = s.act := rfl
@[simp] theorem State.setPort_shd : (s.setPort p x).shd = s.shd := rfl
@[simp] theorem State.setPort_cfg : (s.setPort p x).cfg = s.cfg := rfl
@[simp] theorem State.setPort_ctxs : (s.setPort p x).ctxs = s.ctxs := rfl
@[simp] theorem State.setPort_ctxCloses : (s.setPort p x).ctxCloses = s.ctxCloses := rfl
@[simp] theorem State.setPort_queues : (s.setPort p x).queues = s.queues := rfl
@[simp] theorem State.setPort_pmh : (s.setPort p x).pmh = s.pmh := rfl
@[simp] theorem State.setPort_tiles : (s.setPort p x).tiles = s.tiles := rfl
@[simp] theorem State.setPort_srv : (s.setPort p x).srv = s.srv := rfl
@[simp] theorem State.setPort_kvp : (s.setPort p x).kvp = s.kvp := rfl
@[simp] theorem State.setPort_smp : (s.setPort p x).smp = s.smp := rfl
@[simp] theorem State.setPort_att : (s.setPort p x).att = s.att := rfl
@[simp] theorem State.setPort_lrk : (s.setPort p x).lrk = s.lrk := rfl
@[simp] theorem State.setPort_tap : (s.setPort p x).tap = s.tap := rfl

end

section

variable (s : State) (x : Tap)

@[simp] theorem State.withTap_pending : (s.withTap x).pending = s.pending := rfl
@[simp] theorem State.withTap_free : (s.withTap x).free = s.free := rfl
@[simp] theorem State.withTap_nextId : (s.withTap x).nextId = s.nextId := rfl
@[simp] theorem State.withTap_time : (s.withTap x).time = s.time := rfl
@[simp] theorem State.withTap_fuse : (s.withTap x).fuse = s.fuse := rfl
@[simp] theorem State.withTap_pins : (s.withTap x).pins = s.pins := rfl
@[simp] theorem State.withTap_idScratch : (s.withTap x).idScratch = s.idScratch := rfl
@[simp] theorem State.withTap_idStrapErr : (s.withTap x).idStrapErr = s.idStrapErr := rfl
@[simp] theorem State.withTap_rst : (s.withTap x).rst = s.rst := rfl
@[simp] theorem State.withTap_pwr : (s.withTap x).pwr = s.pwr := rfl
@[simp] theorem State.withTap_top : (s.withTap x).top = s.top := rfl
@[simp] theorem State.withTap_ports : (s.withTap x).ports = s.ports := rfl
@[simp] theorem State.withTap_rxSegs : (s.withTap x).rxSegs = s.rxSegs := rfl
@[simp] theorem State.withTap_cis : (s.withTap x).cis = s.cis := rfl
@[simp] theorem State.withTap_act : (s.withTap x).act = s.act := rfl
@[simp] theorem State.withTap_shd : (s.withTap x).shd = s.shd := rfl
@[simp] theorem State.withTap_cfg : (s.withTap x).cfg = s.cfg := rfl
@[simp] theorem State.withTap_ctxs : (s.withTap x).ctxs = s.ctxs := rfl
@[simp] theorem State.withTap_ctxCloses : (s.withTap x).ctxCloses = s.ctxCloses := rfl
@[simp] theorem State.withTap_queues : (s.withTap x).queues = s.queues := rfl
@[simp] theorem State.withTap_pmh : (s.withTap x).pmh = s.pmh := rfl
@[simp] theorem State.withTap_tiles : (s.withTap x).tiles = s.tiles := rfl
@[simp] theorem State.withTap_srv : (s.withTap x).srv = s.srv := rfl
@[simp] theorem State.withTap_kvp : (s.withTap x).kvp = s.kvp := rfl
@[simp] theorem State.withTap_smp : (s.withTap x).smp = s.smp := rfl
@[simp] theorem State.withTap_att : (s.withTap x).att = s.att := rfl
@[simp] theorem State.withTap_lrk : (s.withTap x).lrk = s.lrk := rfl

end

section

variable (s : State) (tr b : Nat) (x : Bank)

@[simp] theorem State.setBank_pending : (s.setBank tr b x).pending = s.pending := rfl
@[simp] theorem State.setBank_free : (s.setBank tr b x).free = s.free := rfl
@[simp] theorem State.setBank_nextId : (s.setBank tr b x).nextId = s.nextId := rfl
@[simp] theorem State.setBank_time : (s.setBank tr b x).time = s.time := rfl
@[simp] theorem State.setBank_fuse : (s.setBank tr b x).fuse = s.fuse := rfl
@[simp] theorem State.setBank_pins : (s.setBank tr b x).pins = s.pins := rfl
@[simp] theorem State.setBank_idScratch : (s.setBank tr b x).idScratch = s.idScratch := rfl
@[simp] theorem State.setBank_idStrapErr : (s.setBank tr b x).idStrapErr = s.idStrapErr := rfl
@[simp] theorem State.setBank_rst : (s.setBank tr b x).rst = s.rst := rfl
@[simp] theorem State.setBank_pwr : (s.setBank tr b x).pwr = s.pwr := rfl
@[simp] theorem State.setBank_top : (s.setBank tr b x).top = s.top := rfl
@[simp] theorem State.setBank_ports : (s.setBank tr b x).ports = s.ports := rfl
@[simp] theorem State.setBank_rxSegs : (s.setBank tr b x).rxSegs = s.rxSegs := rfl
@[simp] theorem State.setBank_act : (s.setBank tr b x).act = s.act := rfl
@[simp] theorem State.setBank_shd : (s.setBank tr b x).shd = s.shd := rfl
@[simp] theorem State.setBank_cfg : (s.setBank tr b x).cfg = s.cfg := rfl
@[simp] theorem State.setBank_ctxs : (s.setBank tr b x).ctxs = s.ctxs := rfl
@[simp] theorem State.setBank_ctxCloses : (s.setBank tr b x).ctxCloses = s.ctxCloses := rfl
@[simp] theorem State.setBank_queues : (s.setBank tr b x).queues = s.queues := rfl
@[simp] theorem State.setBank_pmh : (s.setBank tr b x).pmh = s.pmh := rfl
@[simp] theorem State.setBank_tiles : (s.setBank tr b x).tiles = s.tiles := rfl
@[simp] theorem State.setBank_srv : (s.setBank tr b x).srv = s.srv := rfl
@[simp] theorem State.setBank_kvp : (s.setBank tr b x).kvp = s.kvp := rfl
@[simp] theorem State.setBank_smp : (s.setBank tr b x).smp = s.smp := rfl
@[simp] theorem State.setBank_att : (s.setBank tr b x).att = s.att := rfl
@[simp] theorem State.setBank_lrk : (s.setBank tr b x).lrk = s.lrk := rfl
@[simp] theorem State.setBank_tap : (s.setBank tr b x).tap = s.tap := rfl
@[simp] theorem State.setBank_cis_mem : (s.setBank tr b x).cis.mem = s.cis.mem := rfl
@[simp] theorem State.setBank_cis_synd : (s.setBank tr b x).cis.synd = s.cis.synd := rfl
@[simp] theorem State.setBank_cis_tract : (s.setBank tr b x).cis.tract = s.cis.tract := rfl
@[simp] theorem State.setBank_cis_walk : (s.setBank tr b x).cis.walk = s.cis.walk := rfl
@[simp] theorem State.setBank_cis_zeroWalks : (s.setBank tr b x).cis.zeroWalks = s.cis.zeroWalks := rfl
@[simp] theorem State.setBank_cis_tractFail : (s.setBank tr b x).cis.tractFail = s.cis.tractFail := rfl
@[simp] theorem State.setBank_cis_slots : (s.setBank tr b x).cis.slots = s.cis.slots := rfl
@[simp] theorem State.setBank_cis_reqs : (s.setBank tr b x).cis.reqs = s.cis.reqs := rfl
@[simp] theorem State.setBank_cis_resps : (s.setBank tr b x).cis.resps = s.cis.resps := rfl
@[simp] theorem State.setBank_cis_elog : (s.setBank tr b x).cis.elog = s.cis.elog := rfl
@[simp] theorem State.setBank_cis_elogHead : (s.setBank tr b x).cis.elogHead = s.cis.elogHead := rfl
@[simp] theorem State.setBank_cis_elogTail : (s.setBank tr b x).cis.elogTail = s.cis.elogTail := rfl
@[simp] theorem State.setBank_cis_elogLost : (s.setBank tr b x).cis.elogLost = s.cis.elogLost := rfl
@[simp] theorem State.setBank_cis_ce : (s.setBank tr b x).cis.ce = s.cis.ce := rfl
@[simp] theorem State.setBank_cis_ue : (s.setBank tr b x).cis.ue = s.cis.ue := rfl
@[simp] theorem State.setBank_cis_poisonReads : (s.setBank tr b x).cis.poisonReads = s.cis.poisonReads := rfl
@[simp] theorem State.setBank_cis_scrubPasses : (s.setBank tr b x).cis.scrubPasses = s.cis.scrubPasses := rfl
@[simp] theorem State.setBank_cis_scrubbing : (s.setBank tr b x).cis.scrubbing = s.cis.scrubbing := rfl
@[simp] theorem State.setBank_cis_scrubRate : (s.setBank tr b x).cis.scrubRate = s.cis.scrubRate := rfl
@[simp] theorem State.setBank_cis_ceNotify : (s.setBank tr b x).cis.ceNotify = s.cis.ceNotify := rfl

end

section

variable (s : State) (tr code : Nat)

@[simp] theorem State.setTract_pending : (s.setTract tr code).pending = s.pending := rfl
@[simp] theorem State.setTract_free : (s.setTract tr code).free = s.free := rfl
@[simp] theorem State.setTract_nextId : (s.setTract tr code).nextId = s.nextId := rfl
@[simp] theorem State.setTract_time : (s.setTract tr code).time = s.time := rfl
@[simp] theorem State.setTract_fuse : (s.setTract tr code).fuse = s.fuse := rfl
@[simp] theorem State.setTract_pins : (s.setTract tr code).pins = s.pins := rfl
@[simp] theorem State.setTract_idScratch : (s.setTract tr code).idScratch = s.idScratch := rfl
@[simp] theorem State.setTract_idStrapErr : (s.setTract tr code).idStrapErr = s.idStrapErr := rfl
@[simp] theorem State.setTract_rst : (s.setTract tr code).rst = s.rst := rfl
@[simp] theorem State.setTract_pwr : (s.setTract tr code).pwr = s.pwr := rfl
@[simp] theorem State.setTract_top : (s.setTract tr code).top = s.top := rfl
@[simp] theorem State.setTract_ports : (s.setTract tr code).ports = s.ports := rfl
@[simp] theorem State.setTract_rxSegs : (s.setTract tr code).rxSegs = s.rxSegs := rfl
@[simp] theorem State.setTract_act : (s.setTract tr code).act = s.act := rfl
@[simp] theorem State.setTract_shd : (s.setTract tr code).shd = s.shd := rfl
@[simp] theorem State.setTract_cfg : (s.setTract tr code).cfg = s.cfg := rfl
@[simp] theorem State.setTract_ctxs : (s.setTract tr code).ctxs = s.ctxs := rfl
@[simp] theorem State.setTract_ctxCloses : (s.setTract tr code).ctxCloses = s.ctxCloses := rfl
@[simp] theorem State.setTract_queues : (s.setTract tr code).queues = s.queues := rfl
@[simp] theorem State.setTract_pmh : (s.setTract tr code).pmh = s.pmh := rfl
@[simp] theorem State.setTract_tiles : (s.setTract tr code).tiles = s.tiles := rfl
@[simp] theorem State.setTract_srv : (s.setTract tr code).srv = s.srv := rfl
@[simp] theorem State.setTract_kvp : (s.setTract tr code).kvp = s.kvp := rfl
@[simp] theorem State.setTract_smp : (s.setTract tr code).smp = s.smp := rfl
@[simp] theorem State.setTract_att : (s.setTract tr code).att = s.att := rfl
@[simp] theorem State.setTract_lrk : (s.setTract tr code).lrk = s.lrk := rfl
@[simp] theorem State.setTract_tap : (s.setTract tr code).tap = s.tap := rfl
@[simp] theorem State.setTract_cis_mem : (s.setTract tr code).cis.mem = s.cis.mem := rfl
@[simp] theorem State.setTract_cis_synd : (s.setTract tr code).cis.synd = s.cis.synd := rfl
@[simp] theorem State.setTract_cis_walk : (s.setTract tr code).cis.walk = s.cis.walk := rfl
@[simp] theorem State.setTract_cis_zeroWalks : (s.setTract tr code).cis.zeroWalks = s.cis.zeroWalks := rfl
@[simp] theorem State.setTract_cis_tractFail : (s.setTract tr code).cis.tractFail = s.cis.tractFail := rfl
@[simp] theorem State.setTract_cis_banks : (s.setTract tr code).cis.banks = s.cis.banks := rfl
@[simp] theorem State.setTract_cis_slots : (s.setTract tr code).cis.slots = s.cis.slots := rfl
@[simp] theorem State.setTract_cis_reqs : (s.setTract tr code).cis.reqs = s.cis.reqs := rfl
@[simp] theorem State.setTract_cis_resps : (s.setTract tr code).cis.resps = s.cis.resps := rfl
@[simp] theorem State.setTract_cis_elog : (s.setTract tr code).cis.elog = s.cis.elog := rfl
@[simp] theorem State.setTract_cis_elogHead : (s.setTract tr code).cis.elogHead = s.cis.elogHead := rfl
@[simp] theorem State.setTract_cis_elogTail : (s.setTract tr code).cis.elogTail = s.cis.elogTail := rfl
@[simp] theorem State.setTract_cis_elogLost : (s.setTract tr code).cis.elogLost = s.cis.elogLost := rfl
@[simp] theorem State.setTract_cis_ce : (s.setTract tr code).cis.ce = s.cis.ce := rfl
@[simp] theorem State.setTract_cis_ue : (s.setTract tr code).cis.ue = s.cis.ue := rfl
@[simp] theorem State.setTract_cis_poisonReads : (s.setTract tr code).cis.poisonReads = s.cis.poisonReads := rfl
@[simp] theorem State.setTract_cis_scrubPasses : (s.setTract tr code).cis.scrubPasses = s.cis.scrubPasses := rfl
@[simp] theorem State.setTract_cis_scrubbing : (s.setTract tr code).cis.scrubbing = s.cis.scrubbing := rfl
@[simp] theorem State.setTract_cis_scrubRate : (s.setTract tr code).cis.scrubRate = s.cis.scrubRate := rfl
@[simp] theorem State.setTract_cis_ceNotify : (s.setTract tr code).cis.ceNotify = s.cis.ceNotify := rfl

end

section

variable (s : State) (tr : Nat) (w : Option Walk)

@[simp] theorem State.setWalk_pending : (s.setWalk tr w).pending = s.pending := rfl
@[simp] theorem State.setWalk_free : (s.setWalk tr w).free = s.free := rfl
@[simp] theorem State.setWalk_nextId : (s.setWalk tr w).nextId = s.nextId := rfl
@[simp] theorem State.setWalk_time : (s.setWalk tr w).time = s.time := rfl
@[simp] theorem State.setWalk_fuse : (s.setWalk tr w).fuse = s.fuse := rfl
@[simp] theorem State.setWalk_pins : (s.setWalk tr w).pins = s.pins := rfl
@[simp] theorem State.setWalk_idScratch : (s.setWalk tr w).idScratch = s.idScratch := rfl
@[simp] theorem State.setWalk_idStrapErr : (s.setWalk tr w).idStrapErr = s.idStrapErr := rfl
@[simp] theorem State.setWalk_rst : (s.setWalk tr w).rst = s.rst := rfl
@[simp] theorem State.setWalk_pwr : (s.setWalk tr w).pwr = s.pwr := rfl
@[simp] theorem State.setWalk_top : (s.setWalk tr w).top = s.top := rfl
@[simp] theorem State.setWalk_ports : (s.setWalk tr w).ports = s.ports := rfl
@[simp] theorem State.setWalk_rxSegs : (s.setWalk tr w).rxSegs = s.rxSegs := rfl
@[simp] theorem State.setWalk_act : (s.setWalk tr w).act = s.act := rfl
@[simp] theorem State.setWalk_shd : (s.setWalk tr w).shd = s.shd := rfl
@[simp] theorem State.setWalk_cfg : (s.setWalk tr w).cfg = s.cfg := rfl
@[simp] theorem State.setWalk_ctxs : (s.setWalk tr w).ctxs = s.ctxs := rfl
@[simp] theorem State.setWalk_ctxCloses : (s.setWalk tr w).ctxCloses = s.ctxCloses := rfl
@[simp] theorem State.setWalk_queues : (s.setWalk tr w).queues = s.queues := rfl
@[simp] theorem State.setWalk_pmh : (s.setWalk tr w).pmh = s.pmh := rfl
@[simp] theorem State.setWalk_tiles : (s.setWalk tr w).tiles = s.tiles := rfl
@[simp] theorem State.setWalk_srv : (s.setWalk tr w).srv = s.srv := rfl
@[simp] theorem State.setWalk_kvp : (s.setWalk tr w).kvp = s.kvp := rfl
@[simp] theorem State.setWalk_smp : (s.setWalk tr w).smp = s.smp := rfl
@[simp] theorem State.setWalk_att : (s.setWalk tr w).att = s.att := rfl
@[simp] theorem State.setWalk_lrk : (s.setWalk tr w).lrk = s.lrk := rfl
@[simp] theorem State.setWalk_tap : (s.setWalk tr w).tap = s.tap := rfl
@[simp] theorem State.setWalk_cis_mem : (s.setWalk tr w).cis.mem = s.cis.mem := rfl
@[simp] theorem State.setWalk_cis_synd : (s.setWalk tr w).cis.synd = s.cis.synd := rfl
@[simp] theorem State.setWalk_cis_tract : (s.setWalk tr w).cis.tract = s.cis.tract := rfl
@[simp] theorem State.setWalk_cis_zeroWalks : (s.setWalk tr w).cis.zeroWalks = s.cis.zeroWalks := rfl
@[simp] theorem State.setWalk_cis_tractFail : (s.setWalk tr w).cis.tractFail = s.cis.tractFail := rfl
@[simp] theorem State.setWalk_cis_banks : (s.setWalk tr w).cis.banks = s.cis.banks := rfl
@[simp] theorem State.setWalk_cis_slots : (s.setWalk tr w).cis.slots = s.cis.slots := rfl
@[simp] theorem State.setWalk_cis_reqs : (s.setWalk tr w).cis.reqs = s.cis.reqs := rfl
@[simp] theorem State.setWalk_cis_resps : (s.setWalk tr w).cis.resps = s.cis.resps := rfl
@[simp] theorem State.setWalk_cis_elog : (s.setWalk tr w).cis.elog = s.cis.elog := rfl
@[simp] theorem State.setWalk_cis_elogHead : (s.setWalk tr w).cis.elogHead = s.cis.elogHead := rfl
@[simp] theorem State.setWalk_cis_elogTail : (s.setWalk tr w).cis.elogTail = s.cis.elogTail := rfl
@[simp] theorem State.setWalk_cis_elogLost : (s.setWalk tr w).cis.elogLost = s.cis.elogLost := rfl
@[simp] theorem State.setWalk_cis_ce : (s.setWalk tr w).cis.ce = s.cis.ce := rfl
@[simp] theorem State.setWalk_cis_ue : (s.setWalk tr w).cis.ue = s.cis.ue := rfl
@[simp] theorem State.setWalk_cis_poisonReads : (s.setWalk tr w).cis.poisonReads = s.cis.poisonReads := rfl
@[simp] theorem State.setWalk_cis_scrubPasses : (s.setWalk tr w).cis.scrubPasses = s.cis.scrubPasses := rfl
@[simp] theorem State.setWalk_cis_scrubbing : (s.setWalk tr w).cis.scrubbing = s.cis.scrubbing := rfl
@[simp] theorem State.setWalk_cis_scrubRate : (s.setWalk tr w).cis.scrubRate = s.cis.scrubRate := rfl
@[simp] theorem State.setWalk_cis_ceNotify : (s.setWalk tr w).cis.ceNotify = s.cis.ceNotify := rfl

end

section

variable (s : State) (w : Nat) (data : List Byte) (syn : BitVec 10)

@[simp] theorem State.putWord_pending : (s.putWord w data syn).pending = s.pending := rfl
@[simp] theorem State.putWord_free : (s.putWord w data syn).free = s.free := rfl
@[simp] theorem State.putWord_nextId : (s.putWord w data syn).nextId = s.nextId := rfl
@[simp] theorem State.putWord_time : (s.putWord w data syn).time = s.time := rfl
@[simp] theorem State.putWord_fuse : (s.putWord w data syn).fuse = s.fuse := rfl
@[simp] theorem State.putWord_pins : (s.putWord w data syn).pins = s.pins := rfl
@[simp] theorem State.putWord_idScratch : (s.putWord w data syn).idScratch = s.idScratch := rfl
@[simp] theorem State.putWord_idStrapErr : (s.putWord w data syn).idStrapErr = s.idStrapErr := rfl
@[simp] theorem State.putWord_rst : (s.putWord w data syn).rst = s.rst := rfl
@[simp] theorem State.putWord_pwr : (s.putWord w data syn).pwr = s.pwr := rfl
@[simp] theorem State.putWord_top : (s.putWord w data syn).top = s.top := rfl
@[simp] theorem State.putWord_ports : (s.putWord w data syn).ports = s.ports := rfl
@[simp] theorem State.putWord_rxSegs : (s.putWord w data syn).rxSegs = s.rxSegs := rfl
@[simp] theorem State.putWord_act : (s.putWord w data syn).act = s.act := rfl
@[simp] theorem State.putWord_shd : (s.putWord w data syn).shd = s.shd := rfl
@[simp] theorem State.putWord_cfg : (s.putWord w data syn).cfg = s.cfg := rfl
@[simp] theorem State.putWord_ctxs : (s.putWord w data syn).ctxs = s.ctxs := rfl
@[simp] theorem State.putWord_ctxCloses : (s.putWord w data syn).ctxCloses = s.ctxCloses := rfl
@[simp] theorem State.putWord_queues : (s.putWord w data syn).queues = s.queues := rfl
@[simp] theorem State.putWord_pmh : (s.putWord w data syn).pmh = s.pmh := rfl
@[simp] theorem State.putWord_tiles : (s.putWord w data syn).tiles = s.tiles := rfl
@[simp] theorem State.putWord_srv : (s.putWord w data syn).srv = s.srv := rfl
@[simp] theorem State.putWord_kvp : (s.putWord w data syn).kvp = s.kvp := rfl
@[simp] theorem State.putWord_smp : (s.putWord w data syn).smp = s.smp := rfl
@[simp] theorem State.putWord_att : (s.putWord w data syn).att = s.att := rfl
@[simp] theorem State.putWord_lrk : (s.putWord w data syn).lrk = s.lrk := rfl
@[simp] theorem State.putWord_tap : (s.putWord w data syn).tap = s.tap := rfl
@[simp] theorem State.putWord_cis_tract : (s.putWord w data syn).cis.tract = s.cis.tract := rfl
@[simp] theorem State.putWord_cis_walk : (s.putWord w data syn).cis.walk = s.cis.walk := rfl
@[simp] theorem State.putWord_cis_zeroWalks : (s.putWord w data syn).cis.zeroWalks = s.cis.zeroWalks := rfl
@[simp] theorem State.putWord_cis_tractFail : (s.putWord w data syn).cis.tractFail = s.cis.tractFail := rfl
@[simp] theorem State.putWord_cis_banks : (s.putWord w data syn).cis.banks = s.cis.banks := rfl
@[simp] theorem State.putWord_cis_slots : (s.putWord w data syn).cis.slots = s.cis.slots := rfl
@[simp] theorem State.putWord_cis_reqs : (s.putWord w data syn).cis.reqs = s.cis.reqs := rfl
@[simp] theorem State.putWord_cis_resps : (s.putWord w data syn).cis.resps = s.cis.resps := rfl
@[simp] theorem State.putWord_cis_elog : (s.putWord w data syn).cis.elog = s.cis.elog := rfl
@[simp] theorem State.putWord_cis_elogHead : (s.putWord w data syn).cis.elogHead = s.cis.elogHead := rfl
@[simp] theorem State.putWord_cis_elogTail : (s.putWord w data syn).cis.elogTail = s.cis.elogTail := rfl
@[simp] theorem State.putWord_cis_elogLost : (s.putWord w data syn).cis.elogLost = s.cis.elogLost := rfl
@[simp] theorem State.putWord_cis_ce : (s.putWord w data syn).cis.ce = s.cis.ce := rfl
@[simp] theorem State.putWord_cis_ue : (s.putWord w data syn).cis.ue = s.cis.ue := rfl
@[simp] theorem State.putWord_cis_poisonReads : (s.putWord w data syn).cis.poisonReads = s.cis.poisonReads := rfl
@[simp] theorem State.putWord_cis_scrubPasses : (s.putWord w data syn).cis.scrubPasses = s.cis.scrubPasses := rfl
@[simp] theorem State.putWord_cis_scrubbing : (s.putWord w data syn).cis.scrubbing = s.cis.scrubbing := rfl
@[simp] theorem State.putWord_cis_scrubRate : (s.putWord w data syn).cis.scrubRate = s.cis.scrubRate := rfl
@[simp] theorem State.putWord_cis_ceNotify : (s.putWord w data syn).cis.ceNotify = s.cis.ceNotify := rfl

end

section

variable (s : State) (k : Nat) (c : Option Cmd)

@[simp] theorem State.setCmd_pending : (s.setCmd k c).pending = s.pending := rfl
@[simp] theorem State.setCmd_free : (s.setCmd k c).free = s.free := rfl
@[simp] theorem State.setCmd_nextId : (s.setCmd k c).nextId = s.nextId := rfl
@[simp] theorem State.setCmd_time : (s.setCmd k c).time = s.time := rfl
@[simp] theorem State.setCmd_fuse : (s.setCmd k c).fuse = s.fuse := rfl
@[simp] theorem State.setCmd_pins : (s.setCmd k c).pins = s.pins := rfl
@[simp] theorem State.setCmd_idScratch : (s.setCmd k c).idScratch = s.idScratch := rfl
@[simp] theorem State.setCmd_idStrapErr : (s.setCmd k c).idStrapErr = s.idStrapErr := rfl
@[simp] theorem State.setCmd_rst : (s.setCmd k c).rst = s.rst := rfl
@[simp] theorem State.setCmd_pwr : (s.setCmd k c).pwr = s.pwr := rfl
@[simp] theorem State.setCmd_top : (s.setCmd k c).top = s.top := rfl
@[simp] theorem State.setCmd_ports : (s.setCmd k c).ports = s.ports := rfl
@[simp] theorem State.setCmd_rxSegs : (s.setCmd k c).rxSegs = s.rxSegs := rfl
@[simp] theorem State.setCmd_cis : (s.setCmd k c).cis = s.cis := rfl
@[simp] theorem State.setCmd_act : (s.setCmd k c).act = s.act := rfl
@[simp] theorem State.setCmd_shd : (s.setCmd k c).shd = s.shd := rfl
@[simp] theorem State.setCmd_cfg : (s.setCmd k c).cfg = s.cfg := rfl
@[simp] theorem State.setCmd_ctxs : (s.setCmd k c).ctxs = s.ctxs := rfl
@[simp] theorem State.setCmd_ctxCloses : (s.setCmd k c).ctxCloses = s.ctxCloses := rfl
@[simp] theorem State.setCmd_queues : (s.setCmd k c).queues = s.queues := rfl
@[simp] theorem State.setCmd_tiles : (s.setCmd k c).tiles = s.tiles := rfl
@[simp] theorem State.setCmd_srv : (s.setCmd k c).srv = s.srv := rfl
@[simp] theorem State.setCmd_kvp : (s.setCmd k c).kvp = s.kvp := rfl
@[simp] theorem State.setCmd_smp : (s.setCmd k c).smp = s.smp := rfl
@[simp] theorem State.setCmd_att : (s.setCmd k c).att = s.att := rfl
@[simp] theorem State.setCmd_lrk : (s.setCmd k c).lrk = s.lrk := rfl
@[simp] theorem State.setCmd_tap : (s.setCmd k c).tap = s.tap := rfl
@[simp] theorem State.setCmd_pmh_sem : (s.setCmd k c).pmh.sem = s.pmh.sem := rfl
@[simp] theorem State.setCmd_pmh_tileHold : (s.setCmd k c).pmh.tileHold = s.pmh.tileHold := rfl
@[simp] theorem State.setCmd_pmh_qerrors : (s.setCmd k c).pmh.qerrors = s.pmh.qerrors := rfl
@[simp] theorem State.setCmd_pmh_qdiscard : (s.setCmd k c).pmh.qdiscard = s.pmh.qdiscard := rfl
@[simp] theorem State.setCmd_pmh_laPrestage : (s.setCmd k c).pmh.laPrestage = s.pmh.laPrestage := rfl
@[simp] theorem State.setCmd_pmh_laMispred : (s.setCmd k c).pmh.laMispred = s.pmh.laMispred := rfl
@[simp] theorem State.setCmd_pmh_lastQ : (s.setCmd k c).pmh.lastQ = s.pmh.lastQ := rfl
@[simp] theorem State.setCmd_pmh_roundCls : (s.setCmd k c).pmh.roundCls = s.pmh.roundCls := rfl
@[simp] theorem State.setCmd_pmh_roundUsed : (s.setCmd k c).pmh.roundUsed = s.pmh.roundUsed := rfl
@[simp] theorem State.setCmd_pmh_order : (s.setCmd k c).pmh.order = s.pmh.order := rfl
@[simp] theorem State.setCmd_pmh_serial : (s.setCmd k c).pmh.serial = s.pmh.serial := rfl
@[simp] theorem State.setCmd_pmh_compl : (s.setCmd k c).pmh.compl = s.pmh.compl := rfl
@[simp] theorem State.setCmd_pmh_sigs : (s.setCmd k c).pmh.sigs = s.pmh.sigs := rfl

end

section

variable (s : State) (n : Nat) (v : Word)

@[simp] theorem State.setSem_pending : (s.setSem n v).pending = s.pending := rfl
@[simp] theorem State.setSem_free : (s.setSem n v).free = s.free := rfl
@[simp] theorem State.setSem_nextId : (s.setSem n v).nextId = s.nextId := rfl
@[simp] theorem State.setSem_time : (s.setSem n v).time = s.time := rfl
@[simp] theorem State.setSem_fuse : (s.setSem n v).fuse = s.fuse := rfl
@[simp] theorem State.setSem_pins : (s.setSem n v).pins = s.pins := rfl
@[simp] theorem State.setSem_idScratch : (s.setSem n v).idScratch = s.idScratch := rfl
@[simp] theorem State.setSem_idStrapErr : (s.setSem n v).idStrapErr = s.idStrapErr := rfl
@[simp] theorem State.setSem_rst : (s.setSem n v).rst = s.rst := rfl
@[simp] theorem State.setSem_pwr : (s.setSem n v).pwr = s.pwr := rfl
@[simp] theorem State.setSem_top : (s.setSem n v).top = s.top := rfl
@[simp] theorem State.setSem_ports : (s.setSem n v).ports = s.ports := rfl
@[simp] theorem State.setSem_rxSegs : (s.setSem n v).rxSegs = s.rxSegs := rfl
@[simp] theorem State.setSem_cis : (s.setSem n v).cis = s.cis := rfl
@[simp] theorem State.setSem_act : (s.setSem n v).act = s.act := rfl
@[simp] theorem State.setSem_shd : (s.setSem n v).shd = s.shd := rfl
@[simp] theorem State.setSem_cfg : (s.setSem n v).cfg = s.cfg := rfl
@[simp] theorem State.setSem_ctxs : (s.setSem n v).ctxs = s.ctxs := rfl
@[simp] theorem State.setSem_ctxCloses : (s.setSem n v).ctxCloses = s.ctxCloses := rfl
@[simp] theorem State.setSem_queues : (s.setSem n v).queues = s.queues := rfl
@[simp] theorem State.setSem_tiles : (s.setSem n v).tiles = s.tiles := rfl
@[simp] theorem State.setSem_srv : (s.setSem n v).srv = s.srv := rfl
@[simp] theorem State.setSem_kvp : (s.setSem n v).kvp = s.kvp := rfl
@[simp] theorem State.setSem_smp : (s.setSem n v).smp = s.smp := rfl
@[simp] theorem State.setSem_att : (s.setSem n v).att = s.att := rfl
@[simp] theorem State.setSem_lrk : (s.setSem n v).lrk = s.lrk := rfl
@[simp] theorem State.setSem_tap : (s.setSem n v).tap = s.tap := rfl
@[simp] theorem State.setSem_pmh_tileHold : (s.setSem n v).pmh.tileHold = s.pmh.tileHold := rfl
@[simp] theorem State.setSem_pmh_qerrors : (s.setSem n v).pmh.qerrors = s.pmh.qerrors := rfl
@[simp] theorem State.setSem_pmh_qdiscard : (s.setSem n v).pmh.qdiscard = s.pmh.qdiscard := rfl
@[simp] theorem State.setSem_pmh_laPrestage : (s.setSem n v).pmh.laPrestage = s.pmh.laPrestage := rfl
@[simp] theorem State.setSem_pmh_laMispred : (s.setSem n v).pmh.laMispred = s.pmh.laMispred := rfl
@[simp] theorem State.setSem_pmh_lastQ : (s.setSem n v).pmh.lastQ = s.pmh.lastQ := rfl
@[simp] theorem State.setSem_pmh_roundCls : (s.setSem n v).pmh.roundCls = s.pmh.roundCls := rfl
@[simp] theorem State.setSem_pmh_roundUsed : (s.setSem n v).pmh.roundUsed = s.pmh.roundUsed := rfl
@[simp] theorem State.setSem_pmh_order : (s.setSem n v).pmh.order = s.pmh.order := rfl
@[simp] theorem State.setSem_pmh_serial : (s.setSem n v).pmh.serial = s.pmh.serial := rfl
@[simp] theorem State.setSem_pmh_cmds : (s.setSem n v).pmh.cmds = s.pmh.cmds := rfl
@[simp] theorem State.setSem_pmh_compl : (s.setSem n v).pmh.compl = s.pmh.compl := rfl
@[simp] theorem State.setSem_pmh_sigs : (s.setSem n v).pmh.sigs = s.pmh.sigs := rfl

end

section

variable (s : State) (c : Nat) (j : Option StepJob)

@[simp] theorem State.setStepJob_pending : (s.setStepJob c j).pending = s.pending := rfl
@[simp] theorem State.setStepJob_free : (s.setStepJob c j).free = s.free := rfl
@[simp] theorem State.setStepJob_nextId : (s.setStepJob c j).nextId = s.nextId := rfl
@[simp] theorem State.setStepJob_time : (s.setStepJob c j).time = s.time := rfl
@[simp] theorem State.setStepJob_fuse : (s.setStepJob c j).fuse = s.fuse := rfl
@[simp] theorem State.setStepJob_pins : (s.setStepJob c j).pins = s.pins := rfl
@[simp] theorem State.setStepJob_idScratch : (s.setStepJob c j).idScratch = s.idScratch := rfl
@[simp] theorem State.setStepJob_idStrapErr : (s.setStepJob c j).idStrapErr = s.idStrapErr := rfl
@[simp] theorem State.setStepJob_rst : (s.setStepJob c j).rst = s.rst := rfl
@[simp] theorem State.setStepJob_pwr : (s.setStepJob c j).pwr = s.pwr := rfl
@[simp] theorem State.setStepJob_top : (s.setStepJob c j).top = s.top := rfl
@[simp] theorem State.setStepJob_ports : (s.setStepJob c j).ports = s.ports := rfl
@[simp] theorem State.setStepJob_rxSegs : (s.setStepJob c j).rxSegs = s.rxSegs := rfl
@[simp] theorem State.setStepJob_cis : (s.setStepJob c j).cis = s.cis := rfl
@[simp] theorem State.setStepJob_act : (s.setStepJob c j).act = s.act := rfl
@[simp] theorem State.setStepJob_shd : (s.setStepJob c j).shd = s.shd := rfl
@[simp] theorem State.setStepJob_cfg : (s.setStepJob c j).cfg = s.cfg := rfl
@[simp] theorem State.setStepJob_ctxs : (s.setStepJob c j).ctxs = s.ctxs := rfl
@[simp] theorem State.setStepJob_ctxCloses : (s.setStepJob c j).ctxCloses = s.ctxCloses := rfl
@[simp] theorem State.setStepJob_queues : (s.setStepJob c j).queues = s.queues := rfl
@[simp] theorem State.setStepJob_pmh : (s.setStepJob c j).pmh = s.pmh := rfl
@[simp] theorem State.setStepJob_tiles : (s.setStepJob c j).tiles = s.tiles := rfl
@[simp] theorem State.setStepJob_kvp : (s.setStepJob c j).kvp = s.kvp := rfl
@[simp] theorem State.setStepJob_smp : (s.setStepJob c j).smp = s.smp := rfl
@[simp] theorem State.setStepJob_att : (s.setStepJob c j).att = s.att := rfl
@[simp] theorem State.setStepJob_lrk : (s.setStepJob c j).lrk = s.lrk := rfl
@[simp] theorem State.setStepJob_tap : (s.setStepJob c j).tap = s.tap := rfl
@[simp] theorem State.setStepJob_srv_entries : (s.setStepJob c j).srv.entries = s.srv.entries := rfl
@[simp] theorem State.setStepJob_srv_seq : (s.setStepJob c j).srv.seq = s.srv.seq := rfl
@[simp] theorem State.setStepJob_srv_steps : (s.setStepJob c j).srv.steps = s.srv.steps := rfl
@[simp] theorem State.setStepJob_srv_refusals : (s.setStepJob c j).srv.refusals = s.srv.refusals := rfl
@[simp] theorem State.setStepJob_srv_late : (s.setStepJob c j).srv.late = s.srv.late := rfl
@[simp] theorem State.setStepJob_srv_draftLost : (s.setStepJob c j).srv.draftLost = s.srv.draftLost := rfl
@[simp] theorem State.setStepJob_srv_cust : (s.setStepJob c j).srv.cust = s.srv.cust := rfl
@[simp] theorem State.setStepJob_srv_recs : (s.setStepJob c j).srv.recs = s.srv.recs := rfl

end

section

variable (s : State) (r : Nat) (e : Entry)

@[simp] theorem State.setEntry_pending : (s.setEntry r e).pending = s.pending := rfl
@[simp] theorem State.setEntry_free : (s.setEntry r e).free = s.free := rfl
@[simp] theorem State.setEntry_nextId : (s.setEntry r e).nextId = s.nextId := rfl
@[simp] theorem State.setEntry_time : (s.setEntry r e).time = s.time := rfl
@[simp] theorem State.setEntry_fuse : (s.setEntry r e).fuse = s.fuse := rfl
@[simp] theorem State.setEntry_pins : (s.setEntry r e).pins = s.pins := rfl
@[simp] theorem State.setEntry_idScratch : (s.setEntry r e).idScratch = s.idScratch := rfl
@[simp] theorem State.setEntry_idStrapErr : (s.setEntry r e).idStrapErr = s.idStrapErr := rfl
@[simp] theorem State.setEntry_rst : (s.setEntry r e).rst = s.rst := rfl
@[simp] theorem State.setEntry_pwr : (s.setEntry r e).pwr = s.pwr := rfl
@[simp] theorem State.setEntry_top : (s.setEntry r e).top = s.top := rfl
@[simp] theorem State.setEntry_ports : (s.setEntry r e).ports = s.ports := rfl
@[simp] theorem State.setEntry_rxSegs : (s.setEntry r e).rxSegs = s.rxSegs := rfl
@[simp] theorem State.setEntry_cis : (s.setEntry r e).cis = s.cis := rfl
@[simp] theorem State.setEntry_act : (s.setEntry r e).act = s.act := rfl
@[simp] theorem State.setEntry_shd : (s.setEntry r e).shd = s.shd := rfl
@[simp] theorem State.setEntry_cfg : (s.setEntry r e).cfg = s.cfg := rfl
@[simp] theorem State.setEntry_ctxs : (s.setEntry r e).ctxs = s.ctxs := rfl
@[simp] theorem State.setEntry_ctxCloses : (s.setEntry r e).ctxCloses = s.ctxCloses := rfl
@[simp] theorem State.setEntry_queues : (s.setEntry r e).queues = s.queues := rfl
@[simp] theorem State.setEntry_pmh : (s.setEntry r e).pmh = s.pmh := rfl
@[simp] theorem State.setEntry_tiles : (s.setEntry r e).tiles = s.tiles := rfl
@[simp] theorem State.setEntry_kvp : (s.setEntry r e).kvp = s.kvp := rfl
@[simp] theorem State.setEntry_smp : (s.setEntry r e).smp = s.smp := rfl
@[simp] theorem State.setEntry_att : (s.setEntry r e).att = s.att := rfl
@[simp] theorem State.setEntry_lrk : (s.setEntry r e).lrk = s.lrk := rfl
@[simp] theorem State.setEntry_tap : (s.setEntry r e).tap = s.tap := rfl
@[simp] theorem State.setEntry_srv_seq : (s.setEntry r e).srv.seq = s.srv.seq := rfl
@[simp] theorem State.setEntry_srv_steps : (s.setEntry r e).srv.steps = s.srv.steps := rfl
@[simp] theorem State.setEntry_srv_refusals : (s.setEntry r e).srv.refusals = s.srv.refusals := rfl
@[simp] theorem State.setEntry_srv_late : (s.setEntry r e).srv.late = s.srv.late := rfl
@[simp] theorem State.setEntry_srv_draftLost : (s.setEntry r e).srv.draftLost = s.srv.draftLost := rfl
@[simp] theorem State.setEntry_srv_cust : (s.setEntry r e).srv.cust = s.srv.cust := rfl
@[simp] theorem State.setEntry_srv_jobs : (s.setEntry r e).srv.jobs = s.srv.jobs := rfl
@[simp] theorem State.setEntry_srv_recs : (s.setEntry r e).srv.recs = s.srv.recs := rfl

end

section

variable (s : State) (n : Nat) (x : Customer)

@[simp] theorem State.setCust_pending : (s.setCust n x).pending = s.pending := rfl
@[simp] theorem State.setCust_free : (s.setCust n x).free = s.free := rfl
@[simp] theorem State.setCust_nextId : (s.setCust n x).nextId = s.nextId := rfl
@[simp] theorem State.setCust_time : (s.setCust n x).time = s.time := rfl
@[simp] theorem State.setCust_fuse : (s.setCust n x).fuse = s.fuse := rfl
@[simp] theorem State.setCust_pins : (s.setCust n x).pins = s.pins := rfl
@[simp] theorem State.setCust_idScratch : (s.setCust n x).idScratch = s.idScratch := rfl
@[simp] theorem State.setCust_idStrapErr : (s.setCust n x).idStrapErr = s.idStrapErr := rfl
@[simp] theorem State.setCust_rst : (s.setCust n x).rst = s.rst := rfl
@[simp] theorem State.setCust_pwr : (s.setCust n x).pwr = s.pwr := rfl
@[simp] theorem State.setCust_top : (s.setCust n x).top = s.top := rfl
@[simp] theorem State.setCust_ports : (s.setCust n x).ports = s.ports := rfl
@[simp] theorem State.setCust_rxSegs : (s.setCust n x).rxSegs = s.rxSegs := rfl
@[simp] theorem State.setCust_cis : (s.setCust n x).cis = s.cis := rfl
@[simp] theorem State.setCust_act : (s.setCust n x).act = s.act := rfl
@[simp] theorem State.setCust_shd : (s.setCust n x).shd = s.shd := rfl
@[simp] theorem State.setCust_cfg : (s.setCust n x).cfg = s.cfg := rfl
@[simp] theorem State.setCust_ctxs : (s.setCust n x).ctxs = s.ctxs := rfl
@[simp] theorem State.setCust_ctxCloses : (s.setCust n x).ctxCloses = s.ctxCloses := rfl
@[simp] theorem State.setCust_queues : (s.setCust n x).queues = s.queues := rfl
@[simp] theorem State.setCust_pmh : (s.setCust n x).pmh = s.pmh := rfl
@[simp] theorem State.setCust_tiles : (s.setCust n x).tiles = s.tiles := rfl
@[simp] theorem State.setCust_kvp : (s.setCust n x).kvp = s.kvp := rfl
@[simp] theorem State.setCust_smp : (s.setCust n x).smp = s.smp := rfl
@[simp] theorem State.setCust_att : (s.setCust n x).att = s.att := rfl
@[simp] theorem State.setCust_lrk : (s.setCust n x).lrk = s.lrk := rfl
@[simp] theorem State.setCust_tap : (s.setCust n x).tap = s.tap := rfl
@[simp] theorem State.setCust_srv_entries : (s.setCust n x).srv.entries = s.srv.entries := rfl
@[simp] theorem State.setCust_srv_seq : (s.setCust n x).srv.seq = s.srv.seq := rfl
@[simp] theorem State.setCust_srv_steps : (s.setCust n x).srv.steps = s.srv.steps := rfl
@[simp] theorem State.setCust_srv_refusals : (s.setCust n x).srv.refusals = s.srv.refusals := rfl
@[simp] theorem State.setCust_srv_late : (s.setCust n x).srv.late = s.srv.late := rfl
@[simp] theorem State.setCust_srv_draftLost : (s.setCust n x).srv.draftLost = s.srv.draftLost := rfl
@[simp] theorem State.setCust_srv_jobs : (s.setCust n x).srv.jobs = s.srv.jobs := rfl
@[simp] theorem State.setCust_srv_recs : (s.setCust n x).srv.recs = s.srv.recs := rfl

end

section

variable (s : State) (c : Nat) (l : List OutRec)

@[simp] theorem State.setRecs_pending : (s.setRecs c l).pending = s.pending := rfl
@[simp] theorem State.setRecs_free : (s.setRecs c l).free = s.free := rfl
@[simp] theorem State.setRecs_nextId : (s.setRecs c l).nextId = s.nextId := rfl
@[simp] theorem State.setRecs_time : (s.setRecs c l).time = s.time := rfl
@[simp] theorem State.setRecs_fuse : (s.setRecs c l).fuse = s.fuse := rfl
@[simp] theorem State.setRecs_pins : (s.setRecs c l).pins = s.pins := rfl
@[simp] theorem State.setRecs_idScratch : (s.setRecs c l).idScratch = s.idScratch := rfl
@[simp] theorem State.setRecs_idStrapErr : (s.setRecs c l).idStrapErr = s.idStrapErr := rfl
@[simp] theorem State.setRecs_rst : (s.setRecs c l).rst = s.rst := rfl
@[simp] theorem State.setRecs_pwr : (s.setRecs c l).pwr = s.pwr := rfl
@[simp] theorem State.setRecs_top : (s.setRecs c l).top = s.top := rfl
@[simp] theorem State.setRecs_ports : (s.setRecs c l).ports = s.ports := rfl
@[simp] theorem State.setRecs_rxSegs : (s.setRecs c l).rxSegs = s.rxSegs := rfl
@[simp] theorem State.setRecs_cis : (s.setRecs c l).cis = s.cis := rfl
@[simp] theorem State.setRecs_act : (s.setRecs c l).act = s.act := rfl
@[simp] theorem State.setRecs_shd : (s.setRecs c l).shd = s.shd := rfl
@[simp] theorem State.setRecs_cfg : (s.setRecs c l).cfg = s.cfg := rfl
@[simp] theorem State.setRecs_ctxs : (s.setRecs c l).ctxs = s.ctxs := rfl
@[simp] theorem State.setRecs_ctxCloses : (s.setRecs c l).ctxCloses = s.ctxCloses := rfl
@[simp] theorem State.setRecs_queues : (s.setRecs c l).queues = s.queues := rfl
@[simp] theorem State.setRecs_pmh : (s.setRecs c l).pmh = s.pmh := rfl
@[simp] theorem State.setRecs_tiles : (s.setRecs c l).tiles = s.tiles := rfl
@[simp] theorem State.setRecs_kvp : (s.setRecs c l).kvp = s.kvp := rfl
@[simp] theorem State.setRecs_smp : (s.setRecs c l).smp = s.smp := rfl
@[simp] theorem State.setRecs_att : (s.setRecs c l).att = s.att := rfl
@[simp] theorem State.setRecs_lrk : (s.setRecs c l).lrk = s.lrk := rfl
@[simp] theorem State.setRecs_tap : (s.setRecs c l).tap = s.tap := rfl
@[simp] theorem State.setRecs_srv_entries : (s.setRecs c l).srv.entries = s.srv.entries := rfl
@[simp] theorem State.setRecs_srv_seq : (s.setRecs c l).srv.seq = s.srv.seq := rfl
@[simp] theorem State.setRecs_srv_steps : (s.setRecs c l).srv.steps = s.srv.steps := rfl
@[simp] theorem State.setRecs_srv_refusals : (s.setRecs c l).srv.refusals = s.srv.refusals := rfl
@[simp] theorem State.setRecs_srv_late : (s.setRecs c l).srv.late = s.srv.late := rfl
@[simp] theorem State.setRecs_srv_draftLost : (s.setRecs c l).srv.draftLost = s.srv.draftLost := rfl
@[simp] theorem State.setRecs_srv_cust : (s.setRecs c l).srv.cust = s.srv.cust := rfl
@[simp] theorem State.setRecs_srv_jobs : (s.setRecs c l).srv.jobs = s.srv.jobs := rfl

end

section

variable (s : State) (n : Nat) (x : Stream)

@[simp] theorem State.setStream_pending : (s.setStream n x).pending = s.pending := rfl
@[simp] theorem State.setStream_free : (s.setStream n x).free = s.free := rfl
@[simp] theorem State.setStream_nextId : (s.setStream n x).nextId = s.nextId := rfl
@[simp] theorem State.setStream_time : (s.setStream n x).time = s.time := rfl
@[simp] theorem State.setStream_fuse : (s.setStream n x).fuse = s.fuse := rfl
@[simp] theorem State.setStream_pins : (s.setStream n x).pins = s.pins := rfl
@[simp] theorem State.setStream_idScratch : (s.setStream n x).idScratch = s.idScratch := rfl
@[simp] theorem State.setStream_idStrapErr : (s.setStream n x).idStrapErr = s.idStrapErr := rfl
@[simp] theorem State.setStream_rst : (s.setStream n x).rst = s.rst := rfl
@[simp] theorem State.setStream_pwr : (s.setStream n x).pwr = s.pwr := rfl
@[simp] theorem State.setStream_top : (s.setStream n x).top = s.top := rfl
@[simp] theorem State.setStream_ports : (s.setStream n x).ports = s.ports := rfl
@[simp] theorem State.setStream_rxSegs : (s.setStream n x).rxSegs = s.rxSegs := rfl
@[simp] theorem State.setStream_cis : (s.setStream n x).cis = s.cis := rfl
@[simp] theorem State.setStream_act : (s.setStream n x).act = s.act := rfl
@[simp] theorem State.setStream_shd : (s.setStream n x).shd = s.shd := rfl
@[simp] theorem State.setStream_cfg : (s.setStream n x).cfg = s.cfg := rfl
@[simp] theorem State.setStream_ctxs : (s.setStream n x).ctxs = s.ctxs := rfl
@[simp] theorem State.setStream_ctxCloses : (s.setStream n x).ctxCloses = s.ctxCloses := rfl
@[simp] theorem State.setStream_queues : (s.setStream n x).queues = s.queues := rfl
@[simp] theorem State.setStream_pmh : (s.setStream n x).pmh = s.pmh := rfl
@[simp] theorem State.setStream_tiles : (s.setStream n x).tiles = s.tiles := rfl
@[simp] theorem State.setStream_srv : (s.setStream n x).srv = s.srv := rfl
@[simp] theorem State.setStream_kvp : (s.setStream n x).kvp = s.kvp := rfl
@[simp] theorem State.setStream_smp : (s.setStream n x).smp = s.smp := rfl
@[simp] theorem State.setStream_att : (s.setStream n x).att = s.att := rfl
@[simp] theorem State.setStream_tap : (s.setStream n x).tap = s.tap := rfl
@[simp] theorem State.setStream_lrk_frames : (s.setStream n x).lrk.frames = s.lrk.frames := rfl
@[simp] theorem State.setStream_lrk_nextFrame : (s.setStream n x).lrk.nextFrame = s.lrk.nextFrame := rfl
@[simp] theorem State.setStream_lrk_engines : (s.setStream n x).lrk.engines = s.lrk.engines := rfl
@[simp] theorem State.setStream_lrk_lambda : (s.setStream n x).lrk.lambda = s.lrk.lambda := rfl
@[simp] theorem State.setStream_lrk_taps : (s.setStream n x).lrk.taps = s.lrk.taps := rfl
@[simp] theorem State.setStream_lrk_decPix : (s.setStream n x).lrk.decPix = s.lrk.decPix := rfl
@[simp] theorem State.setStream_lrk_samples : (s.setStream n x).lrk.samples = s.lrk.samples := rfl
@[simp] theorem State.setStream_lrk_concealed : (s.setStream n x).lrk.concealed = s.lrk.concealed := rfl
@[simp] theorem State.setStream_lrk_preempts : (s.setStream n x).lrk.preempts = s.lrk.preempts := rfl

end

section

variable (s : State) (e : Nat) (x : Engine)

@[simp] theorem State.setEngine_pending : (s.setEngine e x).pending = s.pending := rfl
@[simp] theorem State.setEngine_free : (s.setEngine e x).free = s.free := rfl
@[simp] theorem State.setEngine_nextId : (s.setEngine e x).nextId = s.nextId := rfl
@[simp] theorem State.setEngine_time : (s.setEngine e x).time = s.time := rfl
@[simp] theorem State.setEngine_fuse : (s.setEngine e x).fuse = s.fuse := rfl
@[simp] theorem State.setEngine_pins : (s.setEngine e x).pins = s.pins := rfl
@[simp] theorem State.setEngine_idScratch : (s.setEngine e x).idScratch = s.idScratch := rfl
@[simp] theorem State.setEngine_idStrapErr : (s.setEngine e x).idStrapErr = s.idStrapErr := rfl
@[simp] theorem State.setEngine_rst : (s.setEngine e x).rst = s.rst := rfl
@[simp] theorem State.setEngine_pwr : (s.setEngine e x).pwr = s.pwr := rfl
@[simp] theorem State.setEngine_top : (s.setEngine e x).top = s.top := rfl
@[simp] theorem State.setEngine_ports : (s.setEngine e x).ports = s.ports := rfl
@[simp] theorem State.setEngine_rxSegs : (s.setEngine e x).rxSegs = s.rxSegs := rfl
@[simp] theorem State.setEngine_cis : (s.setEngine e x).cis = s.cis := rfl
@[simp] theorem State.setEngine_act : (s.setEngine e x).act = s.act := rfl
@[simp] theorem State.setEngine_shd : (s.setEngine e x).shd = s.shd := rfl
@[simp] theorem State.setEngine_cfg : (s.setEngine e x).cfg = s.cfg := rfl
@[simp] theorem State.setEngine_ctxs : (s.setEngine e x).ctxs = s.ctxs := rfl
@[simp] theorem State.setEngine_ctxCloses : (s.setEngine e x).ctxCloses = s.ctxCloses := rfl
@[simp] theorem State.setEngine_queues : (s.setEngine e x).queues = s.queues := rfl
@[simp] theorem State.setEngine_pmh : (s.setEngine e x).pmh = s.pmh := rfl
@[simp] theorem State.setEngine_tiles : (s.setEngine e x).tiles = s.tiles := rfl
@[simp] theorem State.setEngine_srv : (s.setEngine e x).srv = s.srv := rfl
@[simp] theorem State.setEngine_kvp : (s.setEngine e x).kvp = s.kvp := rfl
@[simp] theorem State.setEngine_smp : (s.setEngine e x).smp = s.smp := rfl
@[simp] theorem State.setEngine_att : (s.setEngine e x).att = s.att := rfl
@[simp] theorem State.setEngine_tap : (s.setEngine e x).tap = s.tap := rfl
@[simp] theorem State.setEngine_lrk_streams : (s.setEngine e x).lrk.streams = s.lrk.streams := rfl
@[simp] theorem State.setEngine_lrk_frames : (s.setEngine e x).lrk.frames = s.lrk.frames := rfl
@[simp] theorem State.setEngine_lrk_nextFrame : (s.setEngine e x).lrk.nextFrame = s.lrk.nextFrame := rfl
@[simp] theorem State.setEngine_lrk_lambda : (s.setEngine e x).lrk.lambda = s.lrk.lambda := rfl
@[simp] theorem State.setEngine_lrk_taps : (s.setEngine e x).lrk.taps = s.lrk.taps := rfl
@[simp] theorem State.setEngine_lrk_decPix : (s.setEngine e x).lrk.decPix = s.lrk.decPix := rfl
@[simp] theorem State.setEngine_lrk_samples : (s.setEngine e x).lrk.samples = s.lrk.samples := rfl
@[simp] theorem State.setEngine_lrk_concealed : (s.setEngine e x).lrk.concealed = s.lrk.concealed := rfl
@[simp] theorem State.setEngine_lrk_preempts : (s.setEngine e x).lrk.preempts = s.lrk.preempts := rfl

end

/-! ## Reading back what was written -/

@[simp] theorem State.queue_setQueue_same (s : State) (q : Nat) (x : Queue) : (s.setQueue q x).queue q = x := spGet_spSet_same
theorem State.queue_setQueue_other (s : State) (q j : Nat) (x : Queue) (h : j ≠ q) : (s.setQueue q x).queue j = s.queue j :=
  spGet_spSet_other h

@[simp] theorem State.pool_setPool_same (s : State) (c : Nat) (x : Pool) : (s.setPool c x).pool c = x := spGet_spSet_same
theorem State.pool_setPool_other (s : State) (c j : Nat) (x : Pool) (h : j ≠ c) : (s.setPool c x).pool j = s.pool j :=
  spGet_spSet_other h

@[simp] theorem State.tile_setTile_same (s : State) (t : Nat) (x : Tile) : (s.setTile t x).tile t = x := spGet_spSet_same
theorem State.tile_setTile_other (s : State) (t j : Nat) (x : Tile) (h : j ≠ t) : (s.setTile t x).tile j = s.tile j :=
  spGet_spSet_other h

@[simp] theorem State.port_setPort_same (s : State) (p : Nat) (x : Port) : (s.setPort p x).port p = x := spGet_spSet_same
theorem State.port_setPort_other (s : State) (p j : Nat) (x : Port) (h : j ≠ p) : (s.setPort p x).port j = s.port j :=
  spGet_spSet_other h

@[simp] theorem State.cmd_setCmd_same (s : State) (k : Nat) (c : Option Cmd) : (s.setCmd k c).cmd k = c := spGet_spSet_same
theorem State.cmd_setCmd_other (s : State) (k j : Nat) (c : Option Cmd) (h : j ≠ k) : (s.setCmd k c).cmd j = s.cmd j :=
  spGet_spSet_other h

@[simp] theorem State.semOf_setSem_same (s : State) (n : Nat) (v : Word) : (s.setSem n v).semOf n = v := spGet_spSet_same
theorem State.semOf_setSem_other (s : State) (n j : Nat) (v : Word) (h : j ≠ n) : (s.setSem n v).semOf j = s.semOf j :=
  spGet_spSet_other h

@[simp] theorem State.stepJob_setStepJob_same (s : State) (c : Nat) (x : Option StepJob) : (s.setStepJob c x).stepJob c = x := spGet_spSet_same
theorem State.stepJob_setStepJob_other (s : State) (c j : Nat) (x : Option StepJob) (h : j ≠ c) : (s.setStepJob c x).stepJob j = s.stepJob j :=
  spGet_spSet_other h

@[simp] theorem State.entry_setEntry_same (s : State) (r : Nat) (e : Entry) : (s.setEntry r e).entry r = e := spGet_spSet_same
theorem State.entry_setEntry_other (s : State) (r j : Nat) (e : Entry) (h : j ≠ r) : (s.setEntry r e).entry j = s.entry j :=
  spGet_spSet_other h

@[simp] theorem State.cust_setCust_same (s : State) (n : Nat) (x : Customer) : (s.setCust n x).cust n = x := spGet_spSet_same
theorem State.cust_setCust_other (s : State) (n j : Nat) (x : Customer) (h : j ≠ n) : (s.setCust n x).cust j = s.cust j :=
  spGet_spSet_other h

@[simp] theorem State.recsOf_setRecs_same (s : State) (c : Nat) (l : List OutRec) : (s.setRecs c l).recsOf c = l := spGet_spSet_same
theorem State.recsOf_setRecs_other (s : State) (c j : Nat) (l : List OutRec) (h : j ≠ c) : (s.setRecs c l).recsOf j = s.recsOf j :=
  spGet_spSet_other h

@[simp] theorem State.stream_setStream_same (s : State) (n : Nat) (x : Stream) : (s.setStream n x).stream n = x := spGet_spSet_same
theorem State.stream_setStream_other (s : State) (n j : Nat) (x : Stream) (h : j ≠ n) : (s.setStream n x).stream j = s.stream j :=
  spGet_spSet_other h

@[simp] theorem State.engine_setEngine_same (s : State) (e : Nat) (x : Engine) : (s.setEngine e x).engine e = x := spGet_spSet_same
theorem State.engine_setEngine_other (s : State) (e j : Nat) (x : Engine) (h : j ≠ e) : (s.setEngine e x).engine j = s.engine j :=
  spGet_spSet_other h

@[simp] theorem State.tile_setWren_wren (s : State) (t : Nat) (f : Wren → Wren) : ((s.setWren t f).tile t).wren = f (s.tile t).wren := by
  simp [State.setWren]
@[simp] theorem State.tile_setWren_arr (s : State) (t : Nat) (f : Wren → Wren) : ((s.setWren t f).tile t).arr = (s.tile t).arr := by
  simp [State.setWren]
@[simp] theorem State.tile_setWren_vec (s : State) (t : Nat) (f : Wren → Wren) : ((s.setWren t f).tile t).vec = (s.tile t).vec := by
  simp [State.setWren]
theorem State.tile_setWren_other (s : State) (t u : Nat) (f : Wren → Wren) (h : u ≠ t) : (s.setWren t f).tile u = s.tile u :=
  spGet_spSet_other h

@[simp] theorem State.tile_setArr_wren (s : State) (t : Nat) (f : Arr → Arr) : ((s.setArr t f).tile t).wren = (s.tile t).wren := by
  simp [State.setArr]
@[simp] theorem State.tile_setArr_arr (s : State) (t : Nat) (f : Arr → Arr) : ((s.setArr t f).tile t).arr = f (s.tile t).arr := by
  simp [State.setArr]
@[simp] theorem State.tile_setArr_vec (s : State) (t : Nat) (f : Arr → Arr) : ((s.setArr t f).tile t).vec = (s.tile t).vec := by
  simp [State.setArr]
theorem State.tile_setArr_other (s : State) (t u : Nat) (f : Arr → Arr) (h : u ≠ t) : (s.setArr t f).tile u = s.tile u :=
  spGet_spSet_other h

@[simp] theorem State.tile_setVec_wren (s : State) (t : Nat) (f : Vec → Vec) : ((s.setVec t f).tile t).wren = (s.tile t).wren := by
  simp [State.setVec]
@[simp] theorem State.tile_setVec_arr (s : State) (t : Nat) (f : Vec → Vec) : ((s.setVec t f).tile t).arr = (s.tile t).arr := by
  simp [State.setVec]
@[simp] theorem State.tile_setVec_vec (s : State) (t : Nat) (f : Vec → Vec) : ((s.setVec t f).tile t).vec = f (s.tile t).vec := by
  simp [State.setVec]
theorem State.tile_setVec_other (s : State) (t u : Nat) (f : Vec → Vec) (h : u ≠ t) : (s.setVec t f).tile u = s.tile u :=
  spGet_spSet_other h

@[simp] theorem State.tile_setTract (s : State) (tr code t : Nat) : (s.setTract tr code).tile t = s.tile t := rfl

end Sys2Proof.Machine
end

