-- ==== Sys2Proof/Laws/Commands.lean ====
section
/-! SUPPORT. What dispatching a packet and ending a command can do. -/

namespace Sys2Proof.Machine

/-- A ready packet of the row dispatches: its opcode acts on the state in which it holds its slot. -/
theorem dispatch_ready {s : State} {q k : Nat} {p : Pkt} {rest : List Pkt} {row : Pkt → Bool}
    {act : State → Nat → Pkt → DispOut} (h : DispatchReady s q k p rest) (hr : row p = true) :
    s.dispatch q row act = (act (atDispatch s q k p) k p).apply s k := by
  obtain ⟨h1, h2, h3, h4, h5, h6, h7⟩ := h
  unfold State.dispatch atDispatch
  have hc : (p.condFlag && !(s.queue q).cond) = false := by
    cases hp : p.condFlag
    · rfl
    · simp [h3 hp]
  have hp : ¬(privileged p.opcode = true ∧ ¬p.ctx = 0) := fun hp => hp.2 (h5 hp.1)
  simp [h1, hr, h2, hc, h4, hp, h6, h7]

/-- A queue whose head is of another row, or may not dispatch, keeps it. -/
theorem dispatch_other {s : State} {q : Nat} {p : Pkt} {rest : List Pkt} {row : Pkt → Bool}
    {act : State → Nat → Pkt → DispOut} (h : (s.queue q).decoded = p :: rest)
    (hn : row p = false ∨ s.mayDispatch q p = false ∨ (p.condFlag = true ∧ (s.queue q).cond = false)) :
    s.dispatch q row act = s := by
  unfold State.dispatch
  rcases hn with hn | hn | ⟨hn, hm⟩
  · simp [h, hn]
  · simp [h, hn]
  · simp [h, hn, hm]

/-- An empty queue dispatches nothing. -/
theorem dispatch_empty {s : State} {q : Nat} {row : Pkt → Bool} {act : State → Nat → Pkt → DispOut}
    (h : (s.queue q).decoded = []) : s.dispatch q row act = s := by
  unfold State.dispatch
  simp [h]

/-- The slot of a dispatching packet was free. -/
theorem freeSlot_none {s : State} {k : Nat} (h : s.freeSlot = some k) : s.cmd k = none := by
  have := List.find?_some h
  simpa using this

/-- Slot `k` holds the packet, and no other slot differs. -/
theorem atDispatch_cmd (s : State) (q k : Nat) (p : Pkt) :
    (atDispatch s q k p).cmd k = some (mkCmd (.queue q) p s.pmh.serial s.time.wave) := by
  simp [atDispatch, State.enter, State.cmd, State.setCmd, State.takeHead, State.setQueue]

theorem atDispatch_cmd_other (s : State) (q k : Nat) (p : Pkt) {j : Nat} (h : j ≠ k) :
    (atDispatch s q k p).cmd j = s.cmd j := by
  simp [atDispatch, State.enter, State.cmd, State.setCmd, State.takeHead, State.setQueue, spGet_spSet_other h]

theorem atDispatch_queue_other (s : State) (q k : Nat) (p : Pkt) {r : Nat} (h : r ≠ q) :
    (atDispatch s q k p).queue r = s.queue r := by
  simp [atDispatch, State.enter, State.queue, State.setCmd, State.takeHead, State.setQueue, spGet_spSet_other h]

/-- The queue has let its head go, and a holding opcode holds it. -/
theorem atDispatch_queue {s : State} {q k : Nat} {p : Pkt} {rest : List Pkt} (h : (s.queue q).decoded = p :: rest) :
    (atDispatch s q k p).queue q = dispatched (s.queue q) k p rest := by
  simp only [atDispatch, State.enter, State.takeHead]
  simp only [State.queue, State.setQueue, State.setCmd, spGet_spSet_same, dispatched]
  simp only [State.queue] at h
  simp [h, holdsQueue, or_assoc]

/-- Nothing outside the Pumphouse and the queues differs, and of the Pumphouse nothing but commands and serials. -/
theorem atDispatch_frame (s : State) (q k : Nat) (p : Pkt) : OnlyPumphouse s (atDispatch s q k p) := by
  unfold OnlyPumphouse atDispatch State.enter State.takeHead State.setQueue State.setCmd
  rfl

theorem atDispatch_compl (s : State) (q k : Nat) (p : Pkt) : (atDispatch s q k p).pmh.compl = s.pmh.compl := rfl

theorem atDispatch_serial (s : State) (q k : Nat) (p : Pkt) : (atDispatch s q k p).pmh.serial = s.pmh.serial + 1 := rfl

/-- The end of a command that a queue sent: its completion waits, and no other command, queue or completion differs. -/
theorem finish_queue {s : State} {k q : Nat} {c : Cmd} (h : s.cmd k = some c) (hq : c.origin = .queue q) (st : Half)
    (reason : Byte) (fl : BitVec 4) (data : List Byte) : Finished s (s.finish k st reason fl data) q k c st reason fl data := by
  unfold State.finish State.finishLate
  simp only [h, hq]
  refine ⟨?_, ?_, rfl, rfl⟩
  · simp [State.cmd, State.setCmd, hq]
  · intro j hj
    simp [State.cmd, State.setCmd, spGet_spSet_other hj]

/-- A status over clean data stands. -/
@[simp] theorem withData_ok (st : Half) : withData stOK st = st := by simp [withData]

/-- And nothing outside the Pumphouse differs. -/
theorem finish_queue_frame {s : State} {k q : Nat} {c : Cmd} (h : s.cmd k = some c) (hq : c.origin = .queue q) (st : Half)
    (reason : Byte) (fl : BitVec 4) (data : List Byte) : { s.finish k st reason fl data with pmh := s.pmh } = s := by
  unfold State.finish State.finishLate
  simp only [h, hq]
  rfl

/-- A packet whose parameters fail, or that ends in the wave of its dispatch, has its completion. -/
theorem ended_of_fin {s : State} {q k : Nat} {p : Pkt} {rest : List Pkt} (h : DispatchReady s q k p rest) (st : Half)
    (reason : Byte) (data : List Byte) :
    Ended s ((DispOut.fin (atDispatch s q k p) st reason 0 data).apply s k) q k p rest st reason data := by
  have hc := atDispatch_cmd s q k p
  obtain ⟨f1, f2, f3, f4⟩ := finish_queue hc rfl st reason 0 data
  refine ⟨?_, ?_, ?_, ?_, ?_, ?_⟩
  · show ((atDispatch s q k p).finish k st reason 0 data).queue q = _
    rw [State.queue, f3]; exact atDispatch_queue h.head
  · intro r hr
    show ((atDispatch s q k p).finish k st reason 0 data).queue r = _
    rw [State.queue, f3]; exact atDispatch_queue_other s q k p hr
  · rw [show (DispOut.fin (atDispatch s q k p) st reason 0 data).apply s k = (atDispatch s q k p).finish k st reason 0 data
      from rfl, f1]
    simp [mkCmd, entryOf]
  · intro j hj; exact (f2 j hj).trans (atDispatch_cmd_other s q k p hj)
  · rw [show (DispOut.fin (atDispatch s q k p) st reason 0 data).apply s k = (atDispatch s q k p).finish k st reason 0 data
      from rfl, f4]
    simp [mkCmd, complOf, atDispatch_compl, withData]
  · show ((atDispatch s q k p).finish k st reason 0 data).pmh.serial = _
    unfold State.finish State.finishLate
    simp only [hc, mkCmd]
    rfl

end Sys2Proof.Machine
end

