-- ==== Sys2Proof/Laws/Memory.lean ====
section
/-!
SUPPORT. What an access to the Cistern can do: it changes stored words, the error log, its counters and the notices that
tell of them, and it keeps the contents in canonical form.
-/

namespace Sys2Proof.Machine

/-! ## Accesses follow one another -/

/-- An access, and the canonical form that it keeps. -/
def Accessed (s s' : State) : Prop := OnlyAccesses s s' ∧ (CanonicalMemory s → CanonicalMemory s')

theorem sameBanks_refl (s : State) : SameBanks s s := fun _ _ => rfl

theorem sameBanks_trans {a b c : State} (h : SameBanks a b) (g : SameBanks b c) : SameBanks a c := by
  intro tr k
  have x := g tr k
  rw [← h tr k, ← x]

/-- An update that leaves the banks, and that `OnlyAccesses` allows. -/
theorem accessed_of {s s' : State} (hb : s'.cis.banks = s.cis.banks) (h : { s' with
    ports := s.ports
    top := { s'.top with unroutable := s.top.unroutable }
    rst := { s'.rst with
      noticeBuf := s.rst.noticeBuf
      noticeLost := s.rst.noticeLost }
    cis := { s'.cis with
      mem := s.cis.mem
      synd := s.cis.synd
      banks := s.cis.banks
      slots := s.cis.slots
      elog := s.cis.elog
      elogHead := s.cis.elogHead
      elogLost := s.cis.elogLost
      ce := s.cis.ce
      ue := s.cis.ue
      poisonReads := s.cis.poisonReads } } = s) (hm : CanonicalMemory s → CanonicalMemory s') : Accessed s s' :=
  ⟨⟨fun tr k => by simp only [State.bank, hb], h⟩, hm⟩

theorem Accessed.refl (s : State) : Accessed s s := ⟨⟨sameBanks_refl s, rfl⟩, id⟩

theorem onlyAccesses_trans {a b c : State} (h : OnlyAccesses a b) (g : OnlyAccesses b c) : OnlyAccesses a c := by
  refine ⟨sameBanks_trans h.1 g.1, ?_⟩
  have h2 := h.2
  have g2 := g.2
  rw [← g2] at h2
  exact h2

theorem Accessed.trans {a b c : State} (h : Accessed a b) (g : Accessed b c) : Accessed a c :=
  ⟨onlyAccesses_trans h.1 g.1, fun x => g.2 (h.2 x)⟩

/-! ## Notices -/

theorem portSend_accessed (s : State) (p : Nat) (f : Flit) : Accessed s (s.portSend p f) := accessed_of rfl rfl id

theorem unroutable_accessed (s : State) :
    Accessed s { s with top := { s.top with unroutable := s.top.unroutable + 1 } } := accessed_of rfl rfl id

theorem sendOn_accessed (s : State) (f : Flit) (lp : Nat) (i : Option Nat) : Accessed s (s.sendOn f lp i) := by
  unfold State.sendOn
  split
  · refine (unroutable_accessed s).trans ?_
    dsimp only
    split
    · exact .refl _
    · split
      · split
        · exact .refl _
        · split
          · exact unroutable_accessed _
          · exact portSend_accessed ..
      · exact .refl _
  · exact portSend_accessed ..

theorem sendOwn_accessed (s : State) (f : Flit) : Accessed s (s.sendOwn f) := by
  unfold State.sendOwn
  split
  · exact .refl s
  · exact sendOn_accessed ..

theorem notify_accessed (s : State) (n : Notice) : Accessed s (s.notify n) := by
  unfold State.notify
  split
  · exact .refl s
  · split
    · exact sendOwn_accessed ..
    · unfold State.bufferNotice
      split <;> exact accessed_of rfl rfl id

/-- The error log and its counters are no part of the contents. -/
theorem log_accessed (s : State) (e : Sparse (BitVec 256)) (h : BitVec 7) (l ce ue : Word) :
    Accessed s { s with cis := { s.cis with elog := e, elogHead := h, elogLost := l, ce := ce, ue := ue } } := accessed_of rfl rfl id

theorem logError_accessed (s : State) (a k : Nat) (y : BitVec 10) (i : AccessInfo) : Accessed s (s.logError a k y i) := by
  unfold State.logError
  dsimp only
  split
  · exact log_accessed s _ _ s.cis.elogLost s.cis.ce s.cis.ue
  · exact log_accessed s s.cis.elog s.cis.elogHead _ s.cis.ce s.cis.ue

theorem logCe_accessed (s : State) (a : Nat) (y : BitVec 10) (i : AccessInfo) : Accessed s (s.logCe a y i) := by
  unfold State.logCe
  refine (logError_accessed s a kindCe y i).trans ?_
  generalize s.logError a kindCe y i = u
  dsimp only
  split
  · exact Accessed.trans (b := { u with cis := { u.cis with ce := u.cis.ce + 1 } }) (accessed_of rfl rfl id) (notify_accessed ..)
  · exact accessed_of rfl rfl id

theorem logUe_accessed (s : State) (a : Nat) (y : BitVec 10) (i : AccessInfo) : Accessed s (s.logUe a y i) := by
  unfold State.logUe
  refine (logError_accessed s a kindUe y i).trans ?_
  generalize s.logError a kindUe y i = u
  exact Accessed.trans (b := { u with cis := { u.cis with ue := u.cis.ue + 1 } }) (accessed_of rfl rfl id) (notify_accessed ..)

/-! ## Words -/

theorem putWord_accessed (s : State) (w : Nat) (d : List Byte) (y : BitVec 10) : Accessed s (s.putWord w d y) :=
  accessed_of rfl rfl (fun h => ⟨spWf_spSetRange h.1, spWf_spSet h.2⟩)

theorem countPoison_accessed (s : State) (st : Half) : Accessed s (s.countPoison st) := by
  unfold State.countPoison
  split <;> exact accessed_of rfl rfl id

theorem readWord_accessed (s : State) (i : AccessInfo) (w : Nat) : Accessed s (s.readWord i w).state := by
  unfold State.readWord
  split
  · exact .refl s
  · exact (putWord_accessed ..).trans (logCe_accessed ..)
  · exact .refl s
  · exact (putWord_accessed ..).trans (logUe_accessed ..)

theorem mergeWord_accessed (s : State) (i : AccessInfo) (w : Nat) (f : Nat → Option Byte) (p : Bool) :
    Accessed s (s.mergeWord i w f p).2 := by
  unfold State.mergeWord
  dsimp only
  split
  · exact putWord_accessed ..
  · exact (putWord_accessed ..).trans (logCe_accessed ..)
  · exact putWord_accessed ..
  · exact (putWord_accessed ..).trans (logUe_accessed ..)

theorem writeWord_accessed (s : State) (i : AccessInfo) (w : Nat) (f : Nat → Option Byte) (p : Bool) :
    Accessed s (s.writeWord i w f p).2 := by
  unfold State.writeWord
  split
  · exact .refl s
  · split
    · exact putWord_accessed ..
    · exact mergeWord_accessed ..

theorem scrubWord_accessed (s : State) (i : AccessInfo) (w : Nat) : Accessed s (s.scrubWord i w) := by
  unfold State.scrubWord
  split
  · exact .refl s
  · exact (putWord_accessed ..).trans (logCe_accessed ..)
  · exact .refl s
  · exact (putWord_accessed ..).trans (logUe_accessed ..)

/-! ## Lines -/

theorem readWords_accessed (i : AccessInfo) (n : Nat) : ∀ (s : State) (w : Nat), Accessed s (s.readWords i w n).state := by
  induction n with
  | zero => intro s w; exact .refl s
  | succ n ih => intro s w; exact (readWord_accessed s i w).trans (ih ..)

theorem readLine_accessed (s : State) (i : AccessInfo) (a : Nat) : Accessed s (s.readLine i a).state :=
  (readWords_accessed i 8 s _).trans (countPoison_accessed ..)

theorem readNarrow_accessed (s : State) (i : AccessInfo) (a n : Nat) : Accessed s (s.readNarrow i a n).state :=
  (readWord_accessed s i _).trans (countPoison_accessed ..)

theorem writeWords_accessed (i : AccessInfo) (f : Nat → Option Byte) (p : Nat → Bool) (n : Nat) :
    ∀ (s : State) (w : Nat), Accessed s (s.writeWords i w f p n).2 := by
  induction n with
  | zero => intro s w; exact .refl s
  | succ n ih => intro s w; exact (writeWord_accessed s i w _ _).trans (ih ..)

theorem writeLine_accessed (s : State) (i : AccessInfo) (a : Nat) (f : Nat → Option Byte) (p : Nat → Bool) :
    Accessed s (s.writeLine i a f p).2 :=
  (writeWords_accessed i f p 8 s _).trans (countPoison_accessed ..)

/-! ## Ranges -/

/-- A grant moves one bank's last port and counts a slot. -/
theorem grantX_accessed (s : State) (a : Nat) : Accessed s (s.grantX a) := by
  refine ⟨⟨?_, rfl⟩, id⟩
  intro tr k
  by_cases h : bankKey tr k = bankKey (addrTract a) (addrBank a)
  · simp [State.grantX, State.bank, State.setBank, h]
  · simp [State.grantX, State.bank, State.setBank, spGet_spSet_other h]

theorem readLines_accessed (c h n : Nat) : ∀ (s : State) (o : Nat), Accessed s (s.readLines c h o n).state := by
  induction n with
  | zero => intro s o; exact .refl s
  | succ n ih => intro s o; exact ((grantX_accessed ..).trans (readLine_accessed ..)).trans (ih ..)

theorem readBytes_accessed (s : State) (c h o n : Nat) : Accessed s (s.readBytes c h o n).state :=
  readLines_accessed c h _ s _

theorem writeLines_accessed (c h : Nat) (f : Nat → Option Byte) (p : Nat → Bool) (n : Nat) :
    ∀ (s : State) (o : Nat), Accessed s (s.writeLines c h o f p n).2 := by
  induction n with
  | zero => intro s o; exact .refl s
  | succ n ih => intro s o; exact ((grantX_accessed ..).trans (writeLine_accessed ..)).trans (ih ..)

theorem writeMarked_accessed (s : State) (c h o : Nat) (b : List Byte) (m : List Bool) :
    Accessed s (s.writeMarked c h o b m).2 := writeLines_accessed ..

theorem writeBytes_accessed (s : State) (c h o : Nat) (b : List Byte) : Accessed s (s.writeBytes c h o b).2 :=
  writeMarked_accessed ..

/-- Undefined contents keep the canonical form. -/
theorem havoc_canonical (s : State) (c h o n : Nat) (hm : CanonicalMemory s) : CanonicalMemory (s.havoc c h o n) :=
  (writeBytes_accessed s c h o _).2 hm

theorem scrubWords_accessed (i : AccessInfo) (l : List Nat) : ∀ s : State, Accessed s (l.foldl (fun s k => s.scrubWord i k) s) := by
  induction l with
  | nil => intro s; exact .refl s
  | cons k l ih => intro s; exact (scrubWord_accessed s i k).trans (ih _)

/-- The end of a zero walk keeps the canonical form. -/
theorem walkEffect_canonical (s : State) (tr : Nat) (w : Walk) (hm : CanonicalMemory s) : CanonicalMemory (s.walkEffect tr w) :=
  (scrubWords_accessed infoWalk _ _).2 ⟨spWf_filter _ hm.1, spWf_filter _ hm.2⟩

/-! ## Memory as it stands -/

theorem memByte_putWord (s : State) (w : Nat) (d : List Byte) (y : BitVec 10) (a : Nat) :
    memByte (s.putWord w d y) a = if a / 32 = w then byteAt d (a % 32) else memByte s a := by
  unfold memByte State.putWord
  rw [spGet_spSetRange]
  split
  · rename_i h
    rw [if_pos (by omega), show a - 32 * w = a % 32 by omega]
  · rename_i h
    rw [if_neg (by omega)]

theorem syndrome_putWord (s : State) (w : Nat) (d : List Byte) (y : BitVec 10) (v : Nat) :
    (s.putWord w d y).syndrome v = if v = w then y else s.syndrome v := by
  unfold State.syndrome State.putWord
  exact spGet_spSet

/-- A clean word reads as it stands, without a mark, and the read changes nothing. -/
theorem readWord_clean {s : State} {w : Nat} (i : AccessInfo) (h : Clean s w) :
    s.readWord i w = { bytes := s.stored w, marks := [false], status := stOK, state := s } := by
  unfold State.readWord
  rw [show s.syndrome w = 0 from h]
  rfl

/-- Reading a run of clean words changes nothing. -/
theorem readWords_clean (s : State) (i : AccessInfo) (n : Nat) : ∀ w, (∀ k, k < n → Clean s (w + k)) →
    s.readWords i w n = { bytes := (List.range n).flatMap (fun k => s.stored (w + k)), marks := List.replicate n false,
                          status := stOK, state := s } := by
  induction n with
  | zero => intro w _; rfl
  | succ n ih =>
    intro w h
    have h0 := readWord_clean (w := w) i (by simpa using h 0 (by omega))
    have hi := ih (w + 1) (fun k hk => by simpa [Nat.add_assoc, Nat.add_comm 1] using h (k + 1) (by omega))
    unfold State.readWords
    simp only [h0, hi]
    congr 1
    rw [List.range_succ_eq_map, List.flatMap_cons, List.flatMap_map]
    simp [Nat.add_assoc, Nat.add_comm 1]

/-- Reset lists nothing. -/
theorem reset_canonical : CanonicalMemory State.reset := ⟨rfl, rfl⟩

end Sys2Proof.Machine
end

