-- ==== Sys2Proof/Laws/Slots.lean ====
section
/-! SUPPORT. What the issue of a slot can do. -/

namespace Sys2Proof.Machine

/-- A slot that is ready issues: the registers are those that the bundle reads, its effect is applied, and the bundle goes
on. -/
theorem issueSlot_ready {s : State} {t : Fin 16} {k : Nat} {p : Prog} {row : Nat → Bool} {act : State → Prog → State}
    (h : SlotReady s t k p) (hr : row (bits (wrenOf s t).bundle (32 * k) 32) = true) :
    s.issueSlot t.val k row act =
      (act (if (wrenOf s t).issued = 0 then s.setWren t.val Wren.snap else s) p).setWren t.val (fun w => w.slotIssued k) := by
  obtain ⟨h1, h2, h3, h4⟩ := h
  simp only [wrenOf] at *
  unfold State.issueSlot
  simp only [h1, hr, h2, h3]
  by_cases hi : (s.tile t.val).wren.issued = 0
  · obtain ⟨h5, h6, h7⟩ := h4 hi
    simp [hi, h5, h6, h7]
  · simp [show (s.tile t).wren.issued ≠ 0#4 from hi]

/-- Outside reset and with no program, or for another operation, or issued already, a slot does nothing. -/
theorem issueSlot_other {s : State} {t k : Nat} {row : Nat → Bool} {act : State → Prog → State}
    (h : s.silent = true ∨ row (bits (s.tile t).wren.bundle (32 * k) 32) = false ∨
      bit (s.tile t).wren.issued.toNat k = true ∨ (s.tile t).wren.prog = none) :
    s.issueSlot t k row act = s := by
  unfold State.issueSlot
  rcases h with h | h | h | h
  · simp [h]
  · simp [h]
  · simp [h]
  · simp [h]

theorem onlyTile_setTile (s : State) (t : Nat) (x : Tile) : OnlyTile t s (s.setTile t x) :=
  ⟨rfl, fun u hu => State.tile_setTile_other s t u x hu⟩

theorem onlyTile_trans {t : Nat} {a b c : State} (h : OnlyTile t a b) (g : OnlyTile t b c) : OnlyTile t a c := by
  refine ⟨?_, fun u hu => (g.2 u hu).trans (h.2 u hu)⟩
  have h1 := h.1; have g1 := g.1
  rw [← h1, ← g1]

theorem onlyWren_trans {t : Nat} {a b c : State} (h : OnlyWren t a b) (g : OnlyWren t b c) : OnlyWren t a c :=
  ⟨onlyTile_trans h.1 g.1, g.2.1.trans h.2.1, g.2.2.trans h.2.2⟩

theorem onlyWren_refl (t : Nat) (s : State) : OnlyWren t s s := ⟨⟨rfl, fun _ _ => rfl⟩, rfl, rfl⟩

theorem onlyWren_setWren (s : State) (t : Nat) (f : Wren → Wren) : OnlyWren t s (s.setWren t f) :=
  ⟨onlyTile_setTile s t _, by simp, by simp⟩

end Sys2Proof.Machine
end

