-- ==== Sys2Proof/WellFormed.lean ====
section
/-!
DEFINITION. Commands whose operands lie inside what the spec lets the outside send. Operands held in a type of the right
width need no check.
-/

namespace Sys2Proof

/-- Words a REG_RD may read and a REG_WR may carry: 1 to 56 (Table LNK-3). -/
def maxRegWords : Nat := 56

/-- Payload bytes of a flit (Table LNK-1). -/
def maxPayload : Nat := 236

/-- Thermal sensors (R499). -/
def sensorCount : Nat := 18

/-- The operands a command may carry. -/
def Instr.wf : Instr → Bool
  | .regRd _ _ count => decide (1 ≤ count.toNat) && decide (count.toNat ≤ maxRegWords)
  | .regWr _ _ words => decide (1 ≤ words.length) && decide (words.length ≤ maxRegWords)
  | .dataFlit _ _ payload _ => decide (payload.length ≤ maxPayload)
  | .sensorSample temps => decide (temps.length = sensorCount)
  | .wrSeg _ handle _ _ _ _ _ _ => decide (handle.toNat < 64)
  | .rdSeg _ handle _ _ => decide (handle.toNat < 64)
  | .selfTestDone fails => fails.all (fun f => decide (f.rows ≠ []) || decide (f.spares ≠ []))
  | .wrapir din => decide (din.length ≤ 16)
  | _ => true

end Sys2Proof
end

