-- ==== Sys2Proof/Tests/Slice0.lean ====
section
/-!
SUPPORT. Tests of this model: the well-formedness smoke test; for each statement a witness, a concrete state and operands
that meet its hypotheses together; and single steps whose expected results come from the spec.
-/

namespace Sys2Proof.Tests

set_option Elab.async false

open Machine

/-! ## Well-formedness: for each check a term it refuses, and terms at the limits that it takes -/

def hdr : FlitHdr :=
  { port := 0, seq := 0, ackSeq := 0, ackV := false, nak := false, crvc := 0, crtot := 0, src := 0, dst := 0, ctx := 0,
    xid := 0, segno := 0 }

theorem test_wf_regRd_none : (Instr.regRd hdr 0 0).wf = false := by decide
theorem test_wf_regRd_many : (Instr.regRd hdr 0 57).wf = false := by decide
theorem test_wf_regWr_none : (Instr.regWr hdr 0 []).wf = false := by decide
theorem test_wf_regWr_many : (Instr.regWr hdr 0 (List.replicate 57 0)).wf = false := by decide
theorem test_wf_dataFlit : (Instr.dataFlit hdr false (List.replicate 237 0) []).wf = false := by decide +kernel
theorem test_wf_sensorSample : (Instr.sensorSample (List.replicate 17 0)).wf = false := by decide
theorem test_wf_wrSeg : (Instr.wrSeg hdr 64 false false 0 0 0 0).wf = false := by decide
theorem test_wf_rdSeg : (Instr.rdSeg hdr 64 0 0).wf = false := by decide
theorem test_wf_selfTestDone : (Instr.selfTestDone [{ tract := 0, bank := 0, rows := [], spares := [] }]).wf = false := by decide
theorem test_wf_wrapir : (Instr.wrapir (List.replicate 17 0)).wf = false := by decide
theorem test_wf_limits : (Instr.regRd hdr 0 56).wf = true ∧ (Instr.regWr hdr 0 (List.replicate 56 0)).wf = true ∧
    (Instr.sensorSample (List.replicate 18 0)).wf = true ∧ (Instr.wrSeg hdr 63 true false 0 0 0 0).wf = true ∧
    (Instr.wrapir (List.replicate 16 0)).wf = true ∧ (Instr.dataFlit hdr false (List.replicate 236 0) []).wf = true := by
  decide +kernel

/-! ## Small states -/

/-- The next state of an outcome; the reset state where there is none. -/
def after : Host.Outcome State Fault Refusal → State
  | .next s => s
  | _ => State.reset

/-- A descriptor's four words at context `c`, handle `h`: every permission, one tract, `n` granules from `base`. -/
def handleWords (c h base n : Nat) : CfgSet :=
  [((offHnd + 0x800 * c + 0x20 * h) / 4, 0x7F), ((offHnd + 0x800 * c + 0x20 * h) / 4 + 1, BitVec.ofNat 32 base),
   ((offHnd + 0x800 * c + 0x20 * h) / 4 + 2, BitVec.ofNat 32 n)]

/-- Context 1: handles 1 and 2 of 64 KiB, a queue on handle 1, every semaphore, customer and stream, a script of one unit. -/
def setA : CfgSet :=
  handleWords 1 1 0 16 ++ handleWords 1 2 16 16 ++
    [((offQmap) / 4, 0x823), ((offRange + 16) / 4, 0x10000), ((offRange + 16) / 4 + 1, 0x100000),
     ((offRange + 16) / 4 + 2, 0x1000), ((offLimits + 0x20 + 8) / 4, 0x10002)]

/-- The die READY, tract 0 ON, contexts 0 and 1 OPENED. -/
def live : State :=
  { State.reset with
    rst := { Rst.reset with
      held := none, fuseDone := true, testDone := true, zeroDone := true, windowDone := true, ready := true, idLoaded := true
      phase := 4 }
    cis := { Cis.reset with tract := [(0, 3)] }
    act := setA, shd := setA
    ctxs := [(0, { Ctx.reset with state := .opened }), (1, { Ctx.reset with
      state := .opened
      cring := { Ring.reset with handle := 1 }
      oring := { Ring.reset with handle := 1 } })] }

/-- The bundle of four slots. -/
def bundleOf (scalar move tensor vector : Nat) : BitVec 128 :=
  BitVec.ofNat 128 (scalar + 2 ^ 32 * move + 2 ^ 64 * tensor + 2 ^ 96 * vector)

/-- The bundle with `w` in slot `k` and NOPs. -/
def only (k w : Nat) : BitVec 128 := BitVec.ofNat 128 (2 ^ (32 * k) * w)

def prog : Prog := { slot := 0, ctx := 1, tiles := 8, rank := 0 }

/-- Tile 3 runs a program whose bundle 0 is `b`, the slots of `issued` gone. -/
def wrenAt (issued : BitVec 4) (b : BitVec 128) : Wren := { Wren.reset with prog := some prog, issued := issued, ibuf := [(0, b)] }
def withTile (x : Tile) : State := { live with tiles := [(3, x)] }
def running (issued : BitVec 4) (b : BitVec 128) : State := withTile { Tile.reset with wren := wrenAt issued b }

/-- What `SlotReady` asks, as a test. -/
def slotCheck (s : State) (t : Fin 16) (k : Nat) (p : Prog) : Bool :=
  !s.silent && !bit (wrenOf s t).issued.toNat k && decide ((wrenOf s t).prog = some p) &&
    (decide ((wrenOf s t).issued ≠ 0) ||
      (s.mayIssue t.val && decide ((wrenOf s t).held = none) && decide (s.fate t.val = .issues)))

theorem slotReady_of {s : State} {t : Fin 16} {k : Nat} {p : Prog} (h : slotCheck s t k p = true) : SlotReady s t k p := by
  simp only [slotCheck, Bool.and_eq_true, Bool.or_eq_true, decide_eq_true_eq, Bool.not_eq_true'] at h
  obtain ⟨⟨⟨h1, h2⟩, h3⟩, h4⟩ := h
  refine ⟨h1, h2, h3, fun hi => ?_⟩
  rcases h4 with h4 | ⟨⟨h4, h5⟩, h6⟩
  · exact absurd hi h4
  · exact ⟨h4, h5, h6⟩

/-- A packet of context 1. -/
def pkt (bytes : List Byte) : Pkt := { bytes := bytes, ctx := 1, cls := 1, order := 0 }
def pkt0 (bytes : List Byte) : Pkt := { pkt bytes with ctx := 0 }

/-- The packet at the head of queue 0. -/
def queued (s : State) (p : Pkt) : State := { s with queues := [(0, { Queue.reset with decoded := [p] })] }

/-- What `DispatchReady` asks, as a test. -/
def dispatchCheck (s : State) (q k : Nat) (p : Pkt) (rest : List Pkt) : Bool :=
  decide ((s.queue q).decoded = p :: rest) && s.mayDispatch q p && (!p.condFlag || (s.queue q).cond) &&
    decide (s.freeSlot = some k) && (!privileged p.opcode || decide (p.ctx = 0)) && !s.outranked q p &&
    decide ((s.ctxOf p.ctx).state ≠ .closing)

theorem dispatchReady_of {s : State} {q k : Nat} {p : Pkt} {rest : List Pkt} (h : dispatchCheck s q k p rest = true) :
    DispatchReady s q k p rest := by
  simp only [dispatchCheck, Bool.and_eq_true, Bool.or_eq_true, decide_eq_true_eq, Bool.not_eq_true'] at h
  obtain ⟨⟨⟨⟨⟨⟨h1, h2⟩, h3⟩, h4⟩, h5⟩, h6⟩, h7⟩ := h
  refine ⟨h1, h2, fun hc => ?_, h4, fun hp => ?_, h6, h7⟩
  · rcases h3 with h3 | h3
    · rw [h3] at hc; cases hc
    · exact h3
  · rcases h5 with h5 | h5
    · rw [h5] at hp; cases hp
    · exact h5

/-- Where no check bits are stored wrong, every word is clean. -/
theorem clean_of {s : State} (h : s.cis.synd = []) (w : Nat) : Clean s w := by
  unfold Clean State.syndrome; rw [h]; rfl

theorem cleanLines_of {s : State} (h : s.cis.synd = []) (l : List Nat) : CleanLines s l := fun _ _ _ _ => clean_of h _

/-! ## Witnesses: the step -/

theorem witness_StepRunsTheFrontCommand :
    ({ State.reset with pending := [.ready 7] } : State).pending = Instr.ready 7 :: [] := rfl

/-! ## Witnesses: scalar and move slots -/

theorem witness_ScalarComputes_arithmetic : ∀ r ∈ scalarRows 3,
    SlotReady (running 0 (only 0 (r.op + 0x00300400))) 3 0 prog ∧
      slOp (wrenOf (running 0 (only 0 (r.op + 0x00300400))) 3).scalar = r.op ∧
      guardOf (bundleP (running 0 (only 0 (r.op + 0x00300400))) 3) (wrenOf (running 0 (only 0 (r.op + 0x00300400))) 3).scalar = true := by
  intro r hr
  refine ⟨slotReady_of ?_, ?_⟩
  · revert r; decide +kernel
  · revert r; decide +kernel

/-- The state of tile 3 about to issue word `w` in slot `k`. -/
def slotAt (k w : Nat) : State := running 0 (only k w)

theorem witness_ScalarComputes_predicates : ∀ r ∈ predicateRows 3,
    slotCheck (slotAt 0 (r.2.1 + 0x00100400)) 3 0 prog = true ∧ slOp (wrenOf (slotAt 0 (r.2.1 + 0x00100400)) 3).scalar = r.2.1 ∨
      slotCheck (slotAt 0 (r.2.1 + 0x00000400)) 3 0 prog = true ∧
        slOp (wrenOf (slotAt 0 (r.2.1 + 0x00000400)) 3).scalar = r.2.1 := by decide +kernel

theorem witness_ScalarControl :
    SlotReady (slotAt 0 0) 3 0 prog ∧ slOp (wrenOf (slotAt 0 0) 3).scalar = 0 ∧
    SlotReady (slotAt 0 0xC20) 3 0 prog ∧ slOp (wrenOf (slotAt 0 0xC20) 3).scalar = 0x20 ∧
    SlotReady (slotAt 0 0x21) 3 0 prog ∧ slOp (wrenOf (slotAt 0 0x21) 3).scalar = 0x21 ∧
      guardOf (bundleP (slotAt 0 0x21) 3) (wrenOf (slotAt 0 0x21) 3).scalar = true :=
  ⟨slotReady_of (by decide +kernel), by decide +kernel, slotReady_of (by decide +kernel), by decide +kernel,
    slotReady_of (by decide +kernel), by decide +kernel, by decide +kernel⟩

/-- Bit 9 set and predicate p0: the guard is false. -/
theorem witness_ScalarControl_falseGuard : ∀ r ∈ guardedRows 3,
    slotCheck (slotAt r.2.1 (r.2.2 + 0x200)) 3 r.2.1 prog = true ∧
      slOp (bits (wrenOf (slotAt r.2.1 (r.2.2 + 0x200)) 3).bundle (32 * r.2.1) 32) = r.2.2 ∧
      guardOf (bundleP (slotAt r.2.1 (r.2.2 + 0x200)) 3)
        (bits (wrenOf (slotAt r.2.1 (r.2.2 + 0x200)) 3).bundle (32 * r.2.1) 32) = false := by decide +kernel

/-- x1 holds a descriptor of handle 1 at offset 0x100, x2 one of handle 2. -/
def withX (s : State) : State := s.setWren 3 (fun w => { w with x := [(1, 0x10001), (2, 0x2)] })

/-- NLD of 8 bytes at IMM 4 below, to x5; NST of x2; IFILL of two lines to bundle 16. -/
def nldWord : Nat := 1 + 2 ^ 10 * 5 + 2 ^ 15 * 1 + 2 ^ 20 * 3
def nstWord : Nat := 2 + 2 ^ 10 * 2 + 2 ^ 15 * 1 + 2 ^ 20 * 3
def ifillWord : Nat := 7 + 2 ^ 10 * 1 + 2 ^ 15 * 1 + 2 ^ 20 * 16

def withStores (s : State) (l : List StoreEntry) : State := s.setWren 3 (fun w => { w with stores := l })
def entryAt (addr : Nat) : StoreEntry := { id := 9, addr := addr, bytes := List.replicate 8 7, poison := false }

theorem witness_NarrowAccessesIssue_load :
    SlotReady (withX (slotAt 1 nldWord)) 3 1 prog ∧ slOp (wrenOf (withX (slotAt 1 nldWord)) 3).move = 1 ∧
      guardOf (bundleP (withX (slotAt 1 nldWord)) 3) (wrenOf (withX (slotAt 1 nldWord)) 3).move = true ∧
      (wrenOf (withX (slotAt 1 nldWord)) 3).overlaps (narrowLoad (withX (slotAt 1 nldWord)) 3 prog) = [] :=
  ⟨slotReady_of (by decide +kernel), by decide +kernel, by decide +kernel, by decide +kernel⟩

/-- The load lies exactly on the only entry of the store buffer. -/
theorem witness_NarrowAccessesIssue_forwarded :
    let s := withStores (withX (slotAt 1 nldWord)) [entryAt 0x100]
    let l := narrowLoad s 3 prog
    SlotReady s 3 1 prog ∧ slOp (wrenOf s 3).move = 1 ∧ guardOf (bundleP s 3) (wrenOf s 3).move = true ∧
      (wrenOf s 3).stores.getLast? = some (entryAt 0x100) ∧ (wrenOf s 3).overlaps l = [entryAt 0x100] ∧
      (entryAt 0x100).addr ≤ l.addr ∧ l.addr + l.size ≤ (entryAt 0x100).addr + (entryAt 0x100).bytes.length :=
  ⟨slotReady_of (by decide +kernel), by decide +kernel, by decide +kernel, by decide +kernel, by decide +kernel,
    by decide +kernel, by decide +kernel⟩

theorem witness_NarrowAccessesIssue_store :
    let s := (withX (running 1 (only 1 nstWord)))
    SlotReady s 3 1 prog ∧ guardOf (bundleP s 3) (wrenOf s 3).move = true ∧ slOp (wrenOf s 3).move = 2 :=
  ⟨slotReady_of (by decide +kernel), by decide +kernel, by decide +kernel⟩

theorem witness_NarrowAccessesIssue_fill :
    let s := (withX (slotAt 1 ifillWord))
    SlotReady s 3 1 prog ∧ guardOf (bundleP s 3) (wrenOf s 3).move = true ∧ slOp (wrenOf s 3).move = 7 :=
  ⟨slotReady_of (by decide +kernel), by decide +kernel, by decide +kernel⟩

/-- TSIG to tile 3 itself, waits and takes of semaphore 0 at 0, DSIG to die semaphore 0. -/
def semWord (op : Nat) : Nat := op + (if op = 3 then 2 ^ 16 * 3 else 0)
theorem witness_SemaphoreSlotsIssue : ∀ r ∈ semaphoreRows 3,
    slotCheck (slotAt 1 (semWord r.2.1)) 3 1 prog = true ∧ slOp (wrenOf (slotAt 1 (semWord r.2.1)) 3).move = r.2.1 ∧
      guardOf (bundleP (slotAt 1 (semWord r.2.1)) 3) (wrenOf (slotAt 1 (semWord r.2.1)) 3).move = true := by decide +kernel

/-! ## Witnesses: events of a Wren -/

def sigTo (tile : Option (Fin 16)) : Signal := { id := 4, source := 3, tile := tile, sem := 63, value := 0xFFFFFFFF }
def withSig (g : Signal) : State := { slotAt 0 0 with pmh := { Pmh.reset with sigs := [g] } }
def held63 : HeldSignal := { tile := some 3, sem := 63, value := 1 }
def wait63 : TileWait := { sem := 63, value := 0, take := true }

theorem witness_TileSignalsTravel :
    (let s := (slotAt 0 0).setWren 3 (fun w => { w with sig := some held63 })
     s.silent = false ∧ (wrenOf s 3).issued = 0 ∧ (wrenOf s 3).sig = some held63 ∧ (s.tile 3).writesDone = true) ∧
    ((withSig (sigTo (some 3))).silent = false ∧ (withSig (sigTo (some 3))).signal 4 = some (sigTo (some 3))) ∧
    ((withSig (sigTo none)).silent = false ∧ (withSig (sigTo none)).signal 4 = some (sigTo none)) ∧
    (let s := (slotAt 0 0).setWren 3 (fun w => { w with wait := some wait63 })
     s.silent = false ∧ (wrenOf s 3).issued = 0 ∧ (wrenOf s 3).wait = some wait63 ∧
       wait63.value.toNat ≤ (spGet 0 (wrenOf s 3).tsem wait63.sem).toNat) := by decide +kernel

def lineResp : CisResp :=
  { id := 5, tile := 3, write := false, data := List.replicate 256 1, marks := List.replicate 8 false,
    ue := List.replicate 8 false, status := stOK }

theorem witness_FillsLandAndHeldLoadsIssue_fill :
    let s := { (slotAt 0 0).setWren 3 (fun w => { w with fills := [{ id := 5, dest := 1008 }] }) with
      cis := { live.cis with resps := [lineResp] } }
    s.silent = false ∧ (wrenOf s 3).fills = [{ id := 5, dest := 1008 }] ∧ s.resp 5 = some lineResp := by decide +kernel

theorem witness_FillsLandAndHeldLoadsIssue_held :
    let h := narrowLoad (withX (slotAt 1 nldWord)) 3 prog
    let s := (withX (slotAt 1 nldWord)).setWren 3 (fun w => { w with held := some h })
    SlotReady (s.setWren (3 : Fin 16) (fun w => { w with held := none })) 3 1 prog ∧ (wrenOf s 3).issued = 0 ∧
      (wrenOf s 3).held = some h ∧ (wrenOf s 3).kill = none ∧ (wrenOf s 3).overlaps h = [] ∧ slOp (wrenOf s 3).move = 1 ∧
      guardOf (wrenOf s 3).p (wrenOf s 3).move = true ∧ (wrenOf s 3).overlaps (narrowLoad s 3 prog) = [] :=
  ⟨slotReady_of (by decide +kernel), by decide +kernel, by decide +kernel, by decide +kernel, by decide +kernel,
    by decide +kernel, by decide +kernel, by decide +kernel⟩

/-! ## Witnesses: vector slot -/

theorem witness_VectorRows_float : ∀ r ∈ floatRows 3,
    slotCheck (slotAt 3 (r.op + 2 ^ 6 * 31 + 2 ^ 11 * 1)) 3 3 prog = true ∧
      vsOp (wrenOf (slotAt 3 (r.op + 2 ^ 6 * 31 + 2 ^ 11 * 1)) 3).vector = r.op := by decide +kernel

theorem witness_VectorRows_pair : ∀ r ∈ (floatRows 3).take 8,
    slotCheck (slotAt 3 (r.op + 2 ^ 6 * 30 + 2 ^ 31)) 3 3 prog = true ∧
      vsOp (wrenOf (slotAt 3 (r.op + 2 ^ 6 * 30 + 2 ^ 31)) 3).vector = r.op := by decide +kernel

/-- With MEN 1, which VEXPD asks for. -/
theorem witness_VectorRows_word : ∀ r ∈ wordRows 3,
    slotCheck (slotAt 3 (r.op + 2 ^ 6 * 31 + 2 ^ 29)) 3 3 prog = true ∧
      vsOp (wrenOf (slotAt 3 (r.op + 2 ^ 6 * 31 + 2 ^ 29)) 3).vector = r.op := by decide +kernel

theorem witness_VectorConvertIssues :
    SlotReady (slotAt 3 (0x15 + 2 ^ 21 * 6)) 3 3 prog ∧ vsOp (wrenOf (slotAt 3 (0x15 + 2 ^ 21 * 6)) 3).vector = 0x15 :=
  ⟨slotReady_of (by decide +kernel), by decide +kernel⟩

theorem witness_VectorReductions : ∀ r ∈ reduceRows 3,
    slotCheck (slotAt 3 (r.2.1 + 2 ^ 6 * 31)) 3 3 prog = true ∧
      vsOp (wrenOf (slotAt 3 (r.2.1 + 2 ^ 6 * 31)) 3).vector = r.2.1 := by decide +kernel

theorem witness_VectorMasksAndCompress :
    (∀ r ∈ maskRows 3, slotCheck (slotAt 3 (r.2.1 + 2 ^ 6 * 7)) 3 3 prog = true ∧
      vsOp (wrenOf (slotAt 3 (r.2.1 + 2 ^ 6 * 7)) 3).vector = r.2.1) ∧
    (slotCheck (slotAt 3 (0x30 + 2 ^ 29)) 3 3 prog = true ∧ vsOp (wrenOf (slotAt 3 (0x30 + 2 ^ 29)) 3).vector = 0x30) := by
  decide +kernel

/-- Loads and stores through x1, of format FP32 where the row names one (bits [25:21] = 6). -/
def memWord (op : Nat) : Nat := op + 2 ^ 11 * 1 + (if op = 0x38 ∨ op = 0x39 then 2 ^ 21 * 6 else 0)
theorem witness_VectorAccessesIssue_loads : ∀ r ∈ loadRows 3,
    slotCheck (withX (slotAt 3 (memWord r.2.1))) 3 3 prog = true ∧
      vsOp (wrenOf (withX (slotAt 3 (memWord r.2.1))) 3).vector = r.2.1 := by decide +kernel

theorem witness_VectorAccessesIssue_stores :
    (let s := withX (slotAt 3 (memWord 0x39))
     slotCheck s 3 3 prog = true ∧ vsOp (wrenOf s 3).vector = 0x39 ∧ fdScaled (bundleX s 3 (vsVa (wrenOf s 3).vector)) = false ∧
       vsVc (wrenOf s 3).vector % 16 ≤ fInt32) ∧
    (let s := (slotAt 3 (0x39 + 2 ^ 11 * 3 + 2 ^ 21 * 2)).setWren 3 (fun w => { w with x := [(3, 2 ^ 38 + 2 ^ 39 * 255 + 1)] })
     slotCheck s 3 3 prog = true ∧ vsOp (wrenOf s 3).vector = 0x39 ∧ fdScaled (bundleX s 3 (vsVa (wrenOf s 3).vector)) = true ∧
       vsVc (wrenOf s 3).vector % 16 ≤ fE5M2) ∧
    (let s := withX (slotAt 3 (memWord 0x3C))
     slotCheck s 3 3 prog = true ∧ vsOp (wrenOf s 3).vector = 0x3C) := by decide +kernel

theorem witness_VectorAccessesIssue_engine :
    slotCheck (slotAt 3 0) 3 3 prog = true ∧ vsOp (wrenOf (slotAt 3 0) 3).vector = 0 ∧
    (let s := withTile { Tile.reset with vec := { Vec.reset with busy := true } }
     s.silent = false ∧ (s.tile 3).vec.busy = true) := by decide +kernel

/-- No load in flight, or one that converts with a load behind it that does not (R157). -/
theorem witness_MaximumTaken :
    ([] : List VecLoad).all (fun l => !l.orders) = true ∧
      (let l : VecLoad :=
        { dest := .reg 3, fmt := fBF16, signed := false, scaled := false, mask := none, mz := false, maskMarks := [], counts := true
          later := 0x3F800000, lines := [] }
       ([] ++ l :: [{ l with fmt := fFP32 }]) = [l, { l with fmt := fFP32 }] ∧ l.orders = true ∧
         [{ l with fmt := fFP32 }].all (fun l => !l.orders) = true) := by decide +kernel

/-! ## Witnesses: tensor slot and array -/

/-- Both operands through x2: E4M3 for MTILE, FP32 for the splits, FP64 for DTILE. -/
def tensorWord (op : Nat) : Nat :=
  let f := if op = 1 then fE4M3 else if op = 4 then fFP64 else fFP32
  op + 16 * f + 256 * f + 2 ^ 17 * 2 + 2 ^ 22 * 2

theorem witness_TensorSlotsIssue :
    (slotCheck (slotAt 2 0) 3 2 prog = true ∧ tsOp (wrenOf (slotAt 2 0) 3).tensor = 0) ∧
    ∀ r ∈ tensorRows 3, slotCheck (withX (slotAt 2 (tensorWord r.2))) 3 2 prog = true ∧
      tsOp (wrenOf (withX (slotAt 2 (tensorWord r.2))) 3).tensor = r.2 := by decide +kernel

/-- A DTILE whose operand lines have come. -/
def dtileRun (drain : Bool) (xd0 : DWord) : ArrInstr :=
  { op := 4, fa := 7, fb := 7, sa := false, sb := false, acc := 1, init := false, drain := drain, xa := 2, xb := 2, xd0 := xd0,
    xd1 := 0, xd2 := 0, ctx := 1, lines := [{ id := 0, part := .a, idx := 0, data := [], marks := [], arrived := true }] }
def arrayState (i : ArrInstr) : State := withTile { Tile.reset with arr := { Arr.reset with run := some i } }

/-- It fires its last operand waves in the frame that now ends (R179). -/
def nearlyDone (i : ArrInstr) (ds : List Drain) : State :=
  withTile { Tile.reset with arr := { Arr.reset with run := some i, fired := 127, drains := ds } }
/-- A drain that has formed no output: its bias line has not come. -/
def biasLate : ArrInstr :=
  { dtileRun true 0x42 with lines := [{ id := 5, part := .bias, idx := 0, data := [], marks := [], arrived := false }] }
def waitingDrain : Drain :=
  { long := true, acc := 1, wait := some biasLate, ids := [], vreg := some (ddVreg biasLate.xd0), values := [], rowMarks := []
    flags := 0 }

/-- What `DrainsWait` asks, as a test. -/
def drainsWaitCheck (a : Arr) : Bool :=
  a.drains.all (fun d => match d.wait with | none => true | some i => i.lines.any (fun l => decide (l.part = .bias) && !l.arrived))

theorem drainsWait_of {a : Arr} (h : drainsWaitCheck a = true) : DrainsWait a := by
  intro d hd i hi hb
  have h1 := (List.all_eq_true.mp h) d hd
  rw [hi] at h1
  obtain ⟨l, hl, h2⟩ := List.any_eq_true.mp h1
  simp only [Bool.and_eq_true, decide_eq_true_eq, Bool.not_eq_true'] at h2
  rw [hb l hl h2.1] at h2
  cases h2.2

/-- All 64 lines of A and of B have come (Table ARR-5). -/
def fedRun (i : ArrInstr) : ArrInstr :=
  { i with lines := [.a, .b].flatMap (fun part => (List.range 64).map (fun k =>
      { id := 0, part := part, idx := k, data := [], marks := [], arrived := true })) }

theorem witness_ArrayInstructionsAndDrainsEnd :
    ∀ i ∈ [fedRun (dtileRun false 0), fedRun (dtileRun true 0x42), fedRun (dtileRun true 0x2)],
    let s := nearlyDone i [waitingDrain]
    s.silent = false ∧ (s.tile 3).arr.run = some i ∧ (∀ l ∈ i.lines, l.arrived = true) ∧
      drainsWaitCheck (s.tile 3).arr = true ∧ operandWaves i ≤ ((s.tile 3).arr.frame i 0x01).fired := by decide +kernel

/-- Two lines of a bias, one here: the instruction ends, and its drain waits. -/
theorem witness_ArrayInstructionsAndDrainsEnd_biasLate :
    Fed biasLate ∧ ¬ Biased biasLate ∧ biasLate.drain = true ∧ ddDest 0x42 = true ∧ ddDest 0x2 = false := by
  unfold Fed Biased; decide +kernel

def doneDrain : Drain :=
  { long := false, acc := 0, wait := none, ids := [], vreg := some 28, values := List.replicate 16384 1, rowMarks := List.replicate 128 true
    flags := 1 }

theorem witness_ArraysStartAndDrainsEnd :
    (let s := withTile { Tile.reset with arr := { Arr.reset with pend := some (dtileRun false 0) } }
     s.silent = false ∧ (s.tile 3).arr.pend = some (dtileRun false 0) ∧ (s.tile 3).arr.run = none ∧ s.arrStopped 3 = false ∧
       (s.tile 3).arr.draining (dtileRun false 0).set = false ∧ (∀ i, (s.tile 3).arr.run = some i → i.op = opDTILE)) ∧
    (let s := withTile { Tile.reset with arr := { Arr.reset with drains := [doneDrain] } }
     s.silent = false ∧ (s.tile 3).arr.drains = [] ++ doneDrain :: [] ∧ (s.tile 3).drainDone doneDrain = true) ∧
    doneDrain.vreg = some 28 ∧ doneDrain.values.length = 4 * 4096 ∧ doneDrain.rowMarks.length = 4 * 32 := by
  refine ⟨⟨by decide +kernel, by decide +kernel, by decide +kernel, by decide +kernel, by decide +kernel, ?_⟩,
    ⟨rfl, rfl, rfl⟩, rfl, List.length_replicate, List.length_replicate⟩
  intro i h
  exact absurd h (by rw [show ((withTile { Tile.reset with arr := { Arr.reset with
    pend := some (dtileRun false 0) } }).tile 3).arr.run = none by decide +kernel]; simp)

/-! ## Witnesses: bundles that do not issue -/

/-- Operation 0x3F of the scalar slot is reserved (R226); the other slots hold what the row names. -/
theorem witness_BundlesHaltOrWait_halts : ∀ r ∈ (slotRows 3).drop 20,
    (r.2.1 = 0 ∨ ∃ w, w < 64 ∧ r.2.2 w = true ∧
      (let s := running 0 (bundleOf 0x3F (if r.2.1 = 1 then w else 0) (if r.2.1 = 2 then w else 0) (if r.2.1 = 3 then w else 0))
       r.2.2 (bits (wrenOf s 3).bundle (32 * r.2.1) 32) = true ∧ s.silent = false ∧ (wrenOf s 3).issued = 0 ∧
         s.mayIssue 3 = true ∧ (wrenOf s 3).held = none ∧ s.fate 3 = .halts ⟨stBadOpcode, 0⟩ ∧
         (wrenOf s 3).prog = some prog)) := by decide +kernel

/-- A scalar row whose bundle holds a reserved move operation. -/
theorem witness_BundlesHaltOrWait_scalar :
    let s := running 0 (bundleOf 0x01 0x3F 0 0)
    (Instr.add 3, 0, fun w => decide (slOp w = 1)) ∈ [(Instr.add 3, 0, fun w => decide (slOp w = 1))] ∧
      slOp (bits (wrenOf s 3).bundle (32 * 0) 32) = 1 ∧ s.mayIssue 3 = true ∧ s.fate 3 = .halts ⟨stBadOpcode, 0⟩ :=
  ⟨List.mem_singleton.mpr rfl, by decide +kernel, by decide +kernel, by decide +kernel⟩

theorem witness_BundlesHaltOrWait_waits :
    (let s := { slotAt 0 0 with pmh := { Pmh.reset with tileHold := 8 } }
     slOp (bits (wrenOf s 3).bundle (32 * 0) 32) = 0 ∧ s.silent = false ∧ (wrenOf s 3).issued = 0 ∧ s.mayIssue 3 = true ∧
       (wrenOf s 3).held = none ∧ s.fate 3 = .waits) ∧
    (let s := withStores (withX (slotAt 1 nldWord)) [entryAt 0xFC]
     slOp (bits (wrenOf s 3).bundle (32 * 1) 32) = 1 ∧ s.mayIssue 3 = true ∧ (wrenOf s 3).held = none ∧
       s.fate 3 = .holdsLoad { id := 0, rd := 5, addr := 0x100, size := 8, sx := false, handle := 1, label := 0 }) := by
  decide +kernel

/-! ## Witnesses: the Cistern -/

/-- An access of tile 0's Wren to tract 0, bank 3, at byte address 0x300 plus `o`. -/
def access (o : Nat) (kind : AccessKind) : CisReq :=
  { id := 6, tile := 0, who := .wren, addr := 0x300 + o, kind := kind, ctx := 1, handle := 1, label := 0, arrive := 0 }
def withAccess (r : CisReq) : State := { live with cis := { live.cis with reqs := [r] } }

/-- Bank 3 takes slot 0 of its frame, which is not its reserved one. -/
theorem slotOpen_access (r : CisReq) : SlotOpen (withAccess r) 0 3 := by
  refine ⟨?_, ?_, ?_, ?_⟩ <;> rfl

/-- Tile 0's Wren has held a load for three waves; the entry it overlaps waits at bank 3, and a line read at port X. -/
def holdState : State :=
  let s := withAccess { access 0 (.writeNarrow [9] false) with id := 9 }
  let s := { s with
    time := { Time.reset with wave := 3 }
    cis := { s.cis with reqs := { access 0 .readLine with who := .feederA } :: s.cis.reqs } }
  s.setWren 0 (fun w => { w with
    held := some { id := 0, rd := 5, addr := 0x300, size := 8, sx := false, handle := 1, label := 0 }
    stores := [entryAt 0x300] })

theorem witness_BankSlotsGrantAndMove_prefersW :
    HoldPrefersW holdState 0 3 ∧ (∃ x ∈ holdState.cis.reqs.filter (holdState.waits 0 3), x.port = 1) ∧
      (holdState.grant 0 3).map (fun r => r.port) = some 1 ∧
      (∃ x ∈ holdState.cis.reqs.filter (holdState.waits 0 3), x.port ≠ 1) := by
  refine ⟨⟨_, rfl, by decide +kernel, entryAt 0x300, by decide +kernel, by decide +kernel, by decide +kernel,
    { access 0 (.writeNarrow [9] false) with id := 9 }, by decide +kernel, rfl⟩, ?_, ?_, ?_⟩ <;> decide +kernel

theorem witness_BankSlotsGrantAndMove :
    SlotOpen live 0 3 ∧ live.cis.reqs.filter (live.waits 0 3) = [] ∧
    (let s := withAccess (access 0 .readLine)
     s.cis.reqs.filter (s.waits 0 3) ≠ [] ∧ s.grant 0 3 = some (access 0 .readLine) ∧ (access 0 .readLine).addr % 256 = 0) ∧
    (let r := access 0 (.writeLine (List.replicate 256 5) 0x80000001 1)
     (withAccess r).grant 0 3 = some r ∧ r.addr % 256 = 0) ∧
    (let r := access 31 (.writeNarrow [9] true)
     (withAccess r).grant 0 3 = some r ∧ r.addr % 32 + 1 ≤ 32) ∧
    (let r := access 24 (.readNarrow 8)
     (withAccess r).grant 0 3 = some r ∧ r.addr % 32 + 8 ≤ 32) ∧
    (∀ r k, Clean (withAccess r) k) :=
  ⟨⟨by decide +kernel, by decide +kernel, by decide +kernel, by decide +kernel⟩, by decide +kernel, by decide +kernel,
    by decide +kernel, by decide +kernel, by decide +kernel, fun _ k => clean_of rfl k⟩

/-- Word 24 (address 0x300) stored with syndrome `syn`: a check bit, the column of data bit 0 (R116), poison, two bits. -/
def damaged (syn : BitVec 10) : State :=
  let s := withAccess (access 0 (.readNarrow 8))
  { s with cis := { s.cis with synd := [(24, syn)] } }

theorem witness_DamagedWords :
    (∀ syn ∈ [(1 : BitVec 10), 7, 0x3FF, 3], (damaged syn).banksRun = true ∧ (damaged syn).tractOn 0 = true ∧
      (damaged syn).walkOf 0 = none ∧ ((damaged syn).bank 0 3).atReserved 3 = false ∧
      (damaged syn).grant 0 3 = some (access 0 (.readNarrow 8)) ∧ (access 0 (.readNarrow 8)).addr / 32 = 24) ∧
    wordState ((damaged 1).syndrome 24) = .correctable none ∧ wordState ((damaged 7).syndrome 24) = .correctable (some 0) ∧
    wordState ((damaged 0x3FF).syndrome 24) = .poisoned ∧ wordState ((damaged 3).syndrome 24) = .uncorrectable := by
  decide +kernel

def withResp (r : CisResp) (x : Tile) : State := { withTile x with cis := { live.cis with resps := [r] } }
def narrowIn : NarrowLoad := { id := 5, rd := 31, addr := 0x300, size := 8, sx := true, handle := 1, label := 0 }
def pendInstr : ArrInstr :=
  { dtileRun false 0 with lines := [{ id := 5, part := .b, idx := 0, data := [], marks := [], arrived := false }] }

theorem witness_CisternResponsesLand :
    (let r := { lineResp with write := true }
     (withResp r Tile.reset).silent = false ∧ (withResp r Tile.reset).resp r.id = some r ∧ r.write = true) ∧
    (let s := withResp lineResp { Tile.reset with wren := { Wren.reset with loads := [narrowIn] } }
     s.silent = false ∧ s.resp 5 = some lineResp ∧ lineResp.write = false ∧ (∀ f ∈ (wrenOf s 3).fills, f.id ≠ 5) ∧
       (wrenOf s 3).loads.find? (fun l => decide (l.id = 5)) = some narrowIn) ∧
    (let s := withResp lineResp { Tile.reset with arr := { Arr.reset with pend := some pendInstr } }
     s.resp 5 = some lineResp ∧ (∀ f ∈ (wrenOf s 3).fills, f.id ≠ 5) ∧ (s.tile 3).arr.pend = some pendInstr ∧
       drainsWaitCheck (s.tile 3).arr = true ∧
       { id := 5, part := .b, idx := 0, data := [], marks := [], arrived := false } ∈ pendInstr.lines) := by decide +kernel

/-- The bias line of the second drain comes; the first one's is another. -/
theorem witness_CisternResponsesLand_bias :
    let other := { biasLate with lines := [{ id := 8, part := .bias, idx := 0, data := [], marks := [], arrived := false }] }
    let pre := [{ waitingDrain with wait := some other }]
    let s := withResp lineResp { Tile.reset with arr := { Arr.reset with drains := pre ++ [waitingDrain] } }
    s.silent = false ∧ s.resp 5 = some lineResp ∧ (∀ f ∈ (wrenOf s 3).fills, f.id ≠ 5) ∧
      (s.tile 3).arr.drains = pre ++ waitingDrain :: [] ∧ waitingDrain.long = decide (biasLate.op = opDTILE) ∧
      waitingDrain.acc = biasLate.acc ∧ ddDest biasLate.xd0 = true ∧ Biased (biasLate.take lineResp) ∧
      ¬ Biased (other.take lineResp) := by
  refine ⟨by decide +kernel, by decide +kernel, by decide +kernel, by decide +kernel, by decide +kernel, by decide +kernel,
    by decide +kernel, ?_, ?_⟩ <;> unfold Biased <;> decide +kernel

def vload : VecLoad :=
  { dest := .reg 31, fmt := 6, signed := false, scaled := false, mask := none, mz := false, maskMarks := [], counts := true, later := 0
    lines := [{ id := 5, part := .a, idx := 0, data := [], marks := [], arrived := false }] }

theorem witness_VectorLoadLands :
    let s := withResp lineResp { Tile.reset with vec := { Vec.reset with loads := [vload] } }
    s.silent = false ∧ s.resp 5 = some lineResp ∧ lineResp.write = false ∧ (∀ f ∈ (wrenOf s 3).fills, f.id ≠ 5) ∧
      (s.tile 3).vec.loads = [] ++ vload :: [] ∧ vload.dest = .reg 31 ∧
      (loadAfter lineResp vload).lines.all (fun x => x.arrived) = true ∧
      ∀ o ∈ ([] : List VecLoad) ++ [], (loadAfter lineResp o).lines.all (fun x => x.arrived) = false := by decide +kernel

/-- Bank 3 stands at its reserved slot. -/
def reservedAt (x : Bank) : State := { live with cis := { live.cis with banks := [(3, x)] } }
def queueCmd (opcode : Byte) (job : Job) : Cmd :=
  { origin := .queue 0, tag := 7, notify := false, ctx := 1, cls := 1, order := 0, serial := 0, wave := 0, opcode := opcode,
    flags := 0, data := stOK, pins := [], job := job }
def withCmd (s : State) (k : Nat) (c : Cmd) : State := { s with pmh := { s.pmh with cmds := [(k, some c)], serial := 5 } }
def repair31 : Repair := { slot := 1023, row := 511, spare := 31 }

theorem witness_ReservedSlotsRefreshAndRepair :
    (let s := reservedAt { Bank.reset with slot := 3, scrub := some 4095, refresh := 511 }
     s.banksRun = true ∧ s.tractOn 0 = true ∧ s.walkOf 0 = none ∧ (s.bank 0 3).atReserved 3 = true ∧ (s.bank 0 3).repair = none ∧
       s.waitingRepair 0 3 = none) ∧
    (let s := withCmd (reservedAt { Bank.reset with slot := 3, repair := some repair31 }) 1023
        (queueCmd 0x3D (.repair false 0 3 511))
     (s.bank 0 3).atReserved 3 = true ∧ (s.bank 0 3).repair = some repair31 ∧ repair31.spare < 32 ∧
       (s.bank 0 3).usable 31 = true ∧ s.cmd 1023 = some (queueCmd 0x3D (.repair false 0 3 511)) ∧
       ∀ e ∈ s.flying, e.1 = 1023) := by decide +kernel

theorem witness_ScrubsAndWakingsBegin :
    (live.banksRun = true ∧ (∃ t, t < live.fuse.tractCount ∧ live.tractOn t = true)) ∧
    (let s := { live with cis := { Cis.reset with tract := [(63, 1)] } }
     s.silent = false ∧ s.tractState 63 = 1 ∧ s.walkOf 63 = none) := by decide +kernel

def walkAll : Walk := { all := true, granules := [], power := true }
/-- A swap that gives context 0 granule 101 of tract 0. -/
theorem witness_ZeroWalkLeavesZeros_swap :
    let p : Swap := { slot := none, affected := 1, micros := 1 }
    let s := { live with
      cfg := { Cfg.reset with swap := some p }
      act := handleWords 0 0 7 1
      shd := handleWords 0 0 101 1 }
    s.silent = false ∧ s.cfg.swap = some p ∧ s.swapHeld p = false ∧ 101 ∈ newlyOwned s.act s.shd ∧
      101 / 4096 < s.fuse.tractCount ∧ s.tractOn (101 / 4096) = true ∧ s.cis.synd = [] := by decide +kernel

theorem witness_ZeroWalkLeavesZeros :
    let s := { live with cis := { Cis.reset with tract := [(0, 2)], walk := [(0, some walkAll)] } }
    s.banksRun = true ∧ s.walkOf 0 = some walkAll ∧ walkAll.power = true ∧ walkAll.clears 0xFFFFFF = true ∧
      (∀ e ∈ s.flying, ∀ on ts, e.2.job ≠ .tractWait on ts) ∧ (∀ e ∈ s.flying, ∀ c, e.2.origin ≠ .script c) := by
  refine ⟨by decide +kernel, by decide +kernel, by decide, by decide, ?_, ?_⟩ <;> intro e he <;> cases he

/-! ## Witnesses: packets -/

/-- A packet of context 1 with an opcode and fields (offset, value). -/
def packet (op : Nat) (fs : List (Nat × Nat)) : Pkt :=
  pkt (leBytes 96 (op + 2 ^ 8 * 3 + (fs.map (fun f => f.2 * 2 ^ (8 * f.1))).sum))
def packet0 (op : Nat) (fs : List (Nat × Nat)) : Pkt := { packet op fs with ctx := 0 }

/-- The packet dispatches in this state into slot 0. -/
def Goes (s : State) (p : Pkt) : Prop := DispatchReady (queued s p) 0 0 p []
theorem goes_of {s : State} {p : Pkt} (h : dispatchCheck (queued s p) 0 0 p [] = true) : Goes s p := dispatchReady_of h

/-- NOTIFY is flag bit 5 of byte 1. -/
theorem witness_ControlPacketsAct :
    (∀ p ∈ [packet 0 [], packet 0 [(1, 0x20)]], dispatchCheck (queued live p) 0 0 p [] = true ∧ p.opcode = 0) ∧
    (∀ sc ∈ [0, 1], dispatchCheck (queued live (packet 1 [(8, sc)])) 0 0 (packet 1 [(8, sc)]) [] = true ∧
      (packet 1 [(8, sc)]).byte 8 ≤ 1) ∧
    (∀ m ∈ [0, 1], let p := packet 2 [(8, 255), (9, m), (12, 1)]
      dispatchCheck (queued live p) 0 0 p [] = true ∧ p.byte 9 = m ∧ (queued live p).semOk p.ctx (p.byte 8) = true) ∧
    (let p := packet 3 [(8, 255), (12, 0xFFFFFFFF)]
     dispatchCheck (queued live p) 0 0 p [] = true ∧ bit (p.byte 9) 0 = false ∧ (queued live p).semOk p.ctx (p.byte 8) = true) ∧
    (∀ t ∈ [0, 1, 2, 3], let p := packet 4 [(8, 0), (9, t)]
      dispatchCheck (queued live p) 0 0 p [] = true ∧ p.opcode = 4 ∧ p.byte 9 ≤ 3 ∧
        (queued live p).semOk p.ctx (p.byte 8) = true ∧ (queued live p).flying = []) := by decide +kernel

/-- A COND of queue 511 whose semaphore queue 0's wait is satisfied by (R270). -/
theorem witness_ControlPacketsAct_condWaits :
    let p := packet 4 [(8, 0), (9, 0)]
    let s := (withCmd live 7 (queueCmd 0x02 (.semWait 0 true 0))).setQueue 511 { Queue.reset with decoded := [p] }
    dispatchCheck s 511 0 p [] = true ∧ p.opcode = 4 ∧ s.semOk p.ctx 0 = true ∧ (7, queueCmd 0x02 (.semWait 0 true 0)) ∈ s.flying ∧
      (queueCmd 0x02 (.semWait 0 true 0)).origin.queueNo < 511 := by decide +kernel

/-- A FENCE that an earlier command of its queue keeps waiting. -/
theorem witness_ControlPacketsAct_fence :
    let p := packet 1 []
    let s := withCmd (queued live p) 7 (queueCmd 0x02 (.semWait 0 false 1))
    DispatchReady s 0 0 p [] ∧ fenceAwaits s 0 0 p :=
  ⟨dispatchReady_of (by decide +kernel), (7, queueCmd 0x02 (.semWait 0 false 1)), by decide +kernel, by decide +kernel,
    by decide +kernel, by decide +kernel⟩

theorem witness_QueuesGoOn_waits :
    (let c := queueCmd 0x01 (.fence true)
     (withCmd live 1023 c).silent = false ∧ (withCmd live 1023 c).cmd 1023 = some c ∧ c.origin = .queue 0 ∧
       ∀ e ∈ (withCmd live 1023 c).flying, e.1 ≠ 1023 → e.2.serial < c.serial → e.2.ctx ≠ c.ctx) ∧
    (let c := queueCmd 0x02 (.semWait 255 true 3)
     let s : State := { withCmd live 5 c with pmh := { (withCmd live 5 c).pmh with sem := [(255, 3)] } }
     s.cmd 5 = some c ∧ (3 : Word).toNat ≤ (s.semOf 255).toNat ∧ ∀ e ∈ s.flying, 0 ≤ e.2.origin.queueNo) := by
  refine ⟨by decide +kernel, by decide +kernel, by decide +kernel, ?_⟩
  intro e _; exact Nat.zero_le _

theorem witness_QueuesGoOn_skip :
    (let p := packet 0 [(1, 0x40)]
     let s := (queued live p).setQueue 511 { Queue.reset with decoded := [p], cond := false }
     (s.queue 511).decoded = [p] ∧ s.mayDispatch 511 p = true ∧ p.condFlag = true ∧ (s.queue 511).cond = false) ∧
    (let p := packet 0 [(1, 0x80)]
     let s := (queued live p).setQueue 0 { Queue.reset with decoded := List.replicate 17 p, looked := 15 }
     s.dispatchOpen = true ∧ (s.act.qmap 0).en = true ∧ (s.queue 0).looked < 16 ∧
       (s.queue 0).decoded[(s.queue 0).looked + 1]? = some p ∧ p.lookahead = true) := by decide +kernel

/-- One unit stands in the ring of queue 0: a NOP whose header names context 1. -/
def ringState (ctx : Byte) : State :=
  { live with
    cis := { live.cis with mem := [(4, ctx)] }
    queues := [(0, { Queue.reset with tail := 1 })] }

/-- Behind the one decoded packet the next stands in the ring (R279). -/
theorem witness_QueuesGoOn_ahead :
    let p := packet 1 []
    let s := (ringState 1).setQueue 0 { Queue.reset with tail := 1, decoded := [p] }
    s.dispatchOpen = true ∧ (s.act.qmap 0).en = true ∧ (s.queue 0).looked < 16 ∧
      AheadIs s 0 { bytes := ringBytes s (s.act.qmap 0) 0 1, ctx := 1, cls := (s.act.qmap 0).cls, order := 0 } := by
  refine ⟨by decide +kernel, by decide +kernel, by decide +kernel, Or.inr ⟨by decide +kernel, by decide +kernel, 1, by decide +kernel,
    by decide +kernel, fun _ _ => cleanLines_of rfl _, by decide +kernel, by decide +kernel⟩⟩

/-- The ring of queue 0 lies in an OFF tract: the ring read fails (R254). -/
theorem witness_DecodingServesTheArbitersQueue_fails :
    let s := { ringState 1 with cis := { (ringState 1).cis with tract := [] } }
    s.decodeOpen = true ∧ s.candidate 0 = some { q := 0, cls := (s.act.qmap 0).cls, units := none } ∧ s.unitsFault (s.act.qmap 0) 0 1 = some stBadHandle := by
  decide +kernel

theorem witness_DecodingServesTheArbitersQueue :
    (ringState 1).decodeOpen = true ∧
      (ringState 1).candidate 0 = some { q := 0, cls := 0, units := some 1 } ∧ (∀ cls, spGet 0 (ringState 1).pmh.lastQ cls ≤ 512) ∧
      (let m := (ringState 1).act.qmap 0
       (ringState 1).unitsFault m ((ringState 1).queue 0).head 1 = none ∧
         (ringState 1).headerFault m { bytes := ringBytes (ringState 1) m 0 1, ctx := 1, cls := 1, order := 0 } = none ∧
         (ringState 2).headerFault m { bytes := ringBytes (ringState 2) m 0 1, ctx := 1, cls := 1, order := 0 } =
           some stPermission) ∧
      ∀ l, CleanLines (ringState 1) l :=
  ⟨by decide +kernel, by decide +kernel, fun _ => Nat.zero_le _, by decide +kernel, fun l => cleanLines_of rfl l⟩

def okCompl : Compl :=
  { slot := some 9, ctx := 1, queue := 0, tag := 7, notify := false, status := stOK, reason := 0, flags := 0, late := false,
    wave := 0, data := leBytes 12 1 }
def complState (c : Cmd) (tail : Word) : State :=
  let s := withCmd live 9 c
  { s with
    pmh := { s.pmh with compl := [okCompl] }
    ctxs := [(1, { Ctx.reset with
      state := .opened
      cring := { Ring.reset with handle := 1, tail := tail } })] }

/-- A packet that failed its header check and asked for a notice holds no slot (R257, R278). -/
theorem witness_CompletionsAreWritten_notified :
    let x := { okCompl with slot := none, notify := true, status := stPermission, data := [] }
    let s := { complState (queueCmd 0x00 .ended) 0 with pmh := { Pmh.reset with compl := [x] } }
    s.pmh.compl = [] ++ x :: [] ∧ s.silent = false ∧ s.ringReady 1 (s.ctxOf 1).cring 32 = true ∧ (s.ctxOf 1).cring.room 32 = true ∧
      x.slot = none ∧ x.notify = true := by decide +kernel

theorem witness_CompletionsAreWritten :
    (let s := complState (queueCmd 0x00 .ended) 129
     s.pmh.compl = [] ++ okCompl :: [] ∧ s.silent = false ∧ s.rst.standby = false ∧ s.ringReady 1 (s.ctxOf 1).cring 32 = true ∧
       (s.ctxOf 1).cring.room 32 = false ∧ (s.ctxOf 1).cring.told = false) ∧
    (let s := complState (queueCmd 0x00 .ended) 0
     (s.ctxOf 1).cring.room 32 = true ∧ s.ringReady 1 (s.ctxOf 1).cring 32 = true ∧
       s.cmd 9 = some (queueCmd 0x00 .ended) ∧ s.rst.detach = none ∧ (∀ e ∈ s.flying, e.2.opcode ≠ 0x3B) ∧
       okCompl.data.length ≤ 12) := by decide +kernel

/-- COPY of one line from handle 1 to the last line of handle 2, with SEMEN. -/
def copyPkt : Pkt := packet 8 [(10, 1), (11, 2), (12, 8), (13, 255), (16, 0), (24, 0xFF00), (32, 256), (40, 2)]
def fillPkt : Pkt := packet 9 [(10, 2), (16, 0xFF00), (24, 256), (32, 0x0807060504030201)]

theorem witness_CopyAndFillMoveBytes :
    (let s := queued live copyPkt
     let p := copyPkt
     dispatchCheck s 0 0 p [] = true ∧ p.opcode = 8 ∧ bit (p.byte 12) 0 = false ∧ bit (p.byte 12) 1 = false ∧
       p.u64 16 % 256 = 0 ∧ p.u64 24 % 256 = 0 ∧ p.u64 32 = 256 ∧
       s.checkRange p.ctx (p.handle 10) .wr (p.u64 16) (p.u64 32) = none ∧
       s.checkRange p.ctx (p.handle 11) .ww (p.u64 24) (p.u64 32) = none ∧
       (s.physLines p.ctx (p.handle 11) (p.u64 24) (p.u64 32)).Nodup ∧
       (∀ a ∈ s.physLines p.ctx (p.handle 10) (p.u64 16) (p.u64 32),
         a ∉ s.physLines p.ctx (p.handle 11) (p.u64 24) (p.u64 32)) ∧ s.semOk p.ctx (p.byte 13) = true) ∧
    (let s := queued live fillPkt
     let p := fillPkt
     dispatchCheck s 0 0 p [] = true ∧ p.opcode = 9 ∧ p.u64 16 % 256 = 0 ∧ p.u64 24 = 256 ∧
       s.checkRange p.ctx (p.handle 10) .ww (p.u64 16) (p.u64 24) = none ∧
       (s.physLines p.ctx (p.handle 10) (p.u64 16) (p.u64 24)).Nodup) ∧
    (queued live copyPkt).cis.synd = [] := by decide +kernel

/-! ## Witnesses: other dies -/

def hub : Hello :=
  { dieId := 0x100, port := 0, role := 1, tier := 0, orient := 0, mapv := false, hubDist := 0, variant := 0 }
/-- Logical port 0 is the hub port and ACTIVE, its credits those of R436. -/
def activePort : Port := { Port.reset with state := .active, heard := true, trained := true, partner := some hub }
def linked : State := { live with top := { Top.reset with hubPort := 0, lastDist := 1 }, ports := [(0, activePort)] }

theorem witness_RemoteCommandsLeave :
    (let p := packet 3 [(8, 255), (9, 1), (10, 0x10), (12, 5)]
     dispatchCheck (queued linked p) 0 0 p [] = true ∧ bit (p.byte 9) 0 = true ∧
       (queued linked p).egressPort (halfAt p.bytes 10) = some 0) ∧
    (let p := packet 8 [(8, 0x10), (10, 1), (12, 2), (16, 0xFF00), (24, 0), (32, 256)]
     let s := queued linked p
     dispatchCheck s 0 0 p [] = true ∧ p.u64 16 % 256 = 0 ∧ p.u64 24 % 256 = 0 ∧ p.u64 32 = 256 ∧
       s.egressPort (halfAt p.bytes 8) = some 0 ∧ bit (p.byte 12) 0 = false ∧ bit (p.byte 12) 1 = true ∧
       s.checkRange p.ctx (p.handle 10) .wr (p.u64 16) (p.u64 32) = none) ∧
    (let p := packet 8 [(8, 0x10), (11, 2), (12, 9), (13, 255), (16, 0), (24, 0xFF00), (32, 256)]
     let s := queued linked p
     dispatchCheck s 0 0 p [] = true ∧ s.egressPort (halfAt p.bytes 8) = some 0 ∧ bit (p.byte 12) 0 = true ∧
       bit (p.byte 12) 1 = false ∧ s.checkRange p.ctx (p.handle 11) .ww (p.u64 24) (p.u64 32) = none ∧
       bit (p.byte 12) 3 = true ∧ s.semOk p.ctx (p.byte 13) = true) ∧
    (queued linked (packet 8 [])).cis.synd = [] := by decide +kernel

/-- Context 2 is open and owns nothing; its packets. -/
def packet2 (op : Nat) (fs : List (Nat × Nat)) : Pkt := { packet op fs with ctx := 2 }

theorem witness_PrivilegedPacketsNeedContextZero :
    ∀ x ∈ [(0x38, 0, 0), (0x39, 0, 1), (0x3A, 0, 2), (0x3B, 0, 3), (0x3C, 1, 4), (0x3C, 0, 5), (0x3D, 0, 6), (0x3D, 1, 7), (0x48, 0, 8),
        (0x4A, 0, 9), (0x4A, 1, 10)],
      let p := packet x.1 [(8, x.2.1)]
      (queued live p).mayDispatch 0 p = true ∧ p.condFlag = false ∧ (queued live p).freeSlot = some 0 ∧ p.ctx ≠ 0 ∧
        (queued live p).outranked 0 p = false ∧
        ((privilegedRows 0 p)[x.2.2]?.map (fun r => r.2.1)) = some true := by decide +kernel

theorem witness_FailingParametersChangeNothing :
    (∀ op ∈ [0x02, 0x03, 0x04], let p := packet2 op [(8, 0), (9, if op = 2 then 1 else 0)]
      (queued live p).mayDispatch 0 p = true ∧ (queued live p).semOk p.ctx (p.byte 8) = false ∧ bit (p.byte 9) 0 = decide (op = 2)) ∧
    (let p := packet 2 [(9, 2)]; (queued live p).mayDispatch 0 p = true ∧ (queued live p).semOk p.ctx (p.byte 8) = true ∧ 1 < p.byte 9) ∧
    (let p := packet 4 [(9, 4)]; (queued live p).mayDispatch 0 p = true ∧ (queued live p).semOk p.ctx (p.byte 8) = true ∧ 3 < p.byte 9) ∧
    (let p := packet 1 [(8, 2)]; (queued live p).mayDispatch 0 p = true ∧ 1 < p.byte 8) ∧
    (let p := packet 9 [(10, 1), (16, 1)]; (queued live p).mayDispatch 0 p = true ∧ p.u64 16 % 256 ≠ 0) ∧
    (∀ n ∈ [0, 255, 2 ^ 30 + 256], let p := packet 9 [(10, 1), (24, n)]
      (queued live p).mayDispatch 0 p = true ∧ p.u64 16 % 256 = 0 ∧ (p.u64 24 = 0 ∨ p.u64 24 % 256 ≠ 0 ∨ 2 ^ 30 < p.u64 24)) ∧
    (let p := packet 9 [(10, 1), (16, 0x10000), (24, 256)]
     (queued live p).mayDispatch 0 p = true ∧ p.u64 16 % 256 = 0 ∧ p.u64 24 = 256 ∧
       (queued live p).checkRange p.ctx (p.handle 10) .ww (p.u64 16) (p.u64 24) = some ⟨stBounds, 5⟩) := by decide +kernel

/-! ## Witnesses: RUN -/

def runPkt : Pkt := packet 0x10 [(8, 8), (10, 1), (11, 1), (12, 0), (16, 64), (18, 1023)]
def runJob (load filled started : Bool) : RunJob :=
  { tiles := 8, phandle := 1, poff := 0, load := load, plines := 64, entry := 1023, args := [1, 2, 3, 4], filled := filled,
    started := started, ended := 0, halts := [], flags := 0, data := stOK }

theorem witness_RunsLoadLaunchAndEnd :
    (let s := queued live runPkt
     let p := runPkt
     dispatchCheck s 0 0 p [] = true ∧ p.opcode = 0x10 ∧ halfAt p.bytes 8 ≠ 0 ∧ (halfAt p.bytes 8).toNat < 2 ^ s.fuse.tileCount ∧
       p.u16 18 ≤ 1023 ∧ bit (p.byte 11) 0 = true ∧ 1 ≤ p.byte 16 ∧ p.byte 16 ≤ 64 ∧
       s.check p.ctx (p.handle 10) .wr (p.u32 12) (256 * p.byte 16) 256 = none) ∧
    (let p := packet 0x10 [(8, 8), (18, 0)]
     let s := (queued live p).setWren 3 (fun w => { w with owner := some 1 })
     dispatchCheck s 0 0 p [] = true ∧ bit (p.byte 11) 0 = false ∧
       ∀ t ∈ maskList (halfAt p.bytes 8).toNat 16, (s.tile t).wren.owner = some p.ctx) ∧
    (let c := queueCmd 0x10 (.run (runJob true false false))
     let s := withCmd live 1023 c
     s.silent = false ∧ s.cmd 1023 = some c ∧ s.tilesIdle (runJob true false false).tiles = true ∧
       s.yields 1023 c (runJob true false false).tiles = false ∧ (runJob true false false).poff % 256 = 0) ∧
    (let c := queueCmd 0x10 (.run (runJob true true false))
     (withCmd live 1023 c).silent = false ∧ (withCmd live 1023 c).cmd 1023 = some c) ∧
    (let c := queueCmd 0x10 (.run (runJob false true false))
     let s := (withCmd live 1023 c).setWren 3 (fun w => { w with owner := some 1 })
     s.silent = false ∧ s.cmd 1023 = some c ∧ s.tilesIdle 8 = true ∧ s.yields 1023 c 8 = false ∧
       ∀ t ∈ maskList (8 : Half).toNat 16, (s.tile t).wren.owner = some 1) ∧
    (let c := queueCmd 0x10 (.run (runJob true true true))
     let s := withCmd (withTile { Tile.reset with wren := { Wren.reset with prog := some { prog with slot := 1023 }, ended := true } }) 1023 c
     s.silent = false ∧ (wrenOf s 3).prog = some { prog with slot := 1023 } ∧ (wrenOf s 3).ended = true ∧
       (wrenOf s 3).halted = false ∧ (s.tile 3).quiet = true ∧ s.pmh.sigs = [] ∧ s.cmd 1023 = some c ∧ (runJob true true true).halts = [] ∧
       setBit (runJob true true true).ended 3 true = (runJob true true true).tiles) := by decide +kernel

/-! ## Witnesses: configuration, contexts, tracts, detach -/

def cfgPkt : Pkt := packet0 0x38 [(8, offWeight), (12, 1), (16, 0x04030201)]
def pendingSwap (slot : Option Nat) : Swap := { slot := slot, affected := 2, micros := 1 }
def swapState (slot : Option Nat) : State :=
  { withCmd live 1023 { queueCmd 0x39 .swap with ctx := 0 } with cfg := { Cfg.reset with swap := some (pendingSwap slot) } }

theorem witness_ConfigurationIsWrittenAndRequested :
    (let s := queued live cfgPkt
     let p := cfgPkt
     dispatchCheck s 0 0 p [] = true ∧ s.frozen = false ∧ p.opcode = 0x38 ∧ p.u32 8 % 4 = 0 ∧ p.u16 12 = 1 ∧
       16 + 4 * p.u16 12 ≤ 64 * p.units ∧ s.cfgFault (s.shd.putAll (p.u32 8) (cfgWords s p)) (cfgOffs p) = none) ∧
    (cfgOffs cfgPkt = [offWeight] ∧ cfgItem offWeight = some (.weight 0)) ∧
    (let p := packet0 0x39 [(12, 0)]
     dispatchCheck (queued live p) 0 0 p [] = true ∧ (queued live p).frozen = false ∧ p.opcode = 0x39) ∧
    (live.silent = false ∧ live.rst.ready = true ∧ live.frozen = false ∧
      (let s := { live with rst := { live.rst with ready := false } }; s.silent = false ∧ s.rst.ready = false)) ∧
    ((swapState (some 1023)).silent = false ∧ (swapState (some 1023)).cfg.swap = some (pendingSwap (some 1023)) ∧
      (swapState (some 1023)).cmd 1023 = some { queueCmd 0x39 .swap with ctx := 0 }) ∧
    ((swapState none).cfg.swap = some (pendingSwap none) ∧ (pendingSwap none).slot = none) := by decide +kernel

/-- One handle of one granule; the shadow set has the same one, or another. -/
def swapTo (shd : CfgSet) : State := { swapState (some 1023) with act := handleWords 1 0 7 1, shd := shd }

theorem witness_SwapsActivateTheShadowSet :
    (∀ shd ∈ [handleWords 1 0 7 1, handleWords 1 0 100 1],
      (swapTo shd).silent = false ∧ (swapTo shd).cfg.swap = some (pendingSwap (some 1023)) ∧
        (∀ e ∈ (swapTo shd).flying, bit (pendingSwap (some 1023)).affected.toNat e.2.ctx = true → some e.1 = some 1023) ∧
        (∀ c, c < 16 → bit (pendingSwap (some 1023)).affected.toNat c = true → (swapTo shd).ctxRuns c = false)) ∧
    live.walkTracts (newlyOwned (handleWords 1 0 7 1) (handleWords 1 0 100 1)) = [0] := by decide +kernel

/-- Context 2 is open and owns nothing. -/
def withCtx2 (s : State) : State := { s with ctxs := s.ctxs ++ [(2, { Ctx.reset with state := .opened, salt := 3 })] }

theorem witness_ContextsOpenAndClose :
    (let p := packet0 0x3A [(8, 15), (16, 77)]
     dispatchCheck (queued live p) 0 0 p [] = true ∧ p.byte 8 = 15 ∧ p.opcode = 0x3A ∧ ((queued live p).ctxOf 15).state = .closed) ∧
    (let p := packet0 0x3B [(8, 1)]
     let s := withCmd (queued live p) 9 (queueCmd 0x32 .step)
     dispatchCheck s 0 0 p [] = true ∧ p.opcode = 0x3B ∧ (s.ctxOf 1).state = .opened ∧ s.frozen = false ∧
       (∀ e ∈ s.flying, e.2.opcode ≠ 0x3B) ∧ ∃ e ∈ s.flying, e.1 ≠ 0 ∧ e.2.ctx = 1 ∧ s.longCmd e.2 = true) ∧
    (let p := packet0 0x3B [(8, 2)]
     let s := withCtx2 (queued live p)
     dispatchCheck s 0 0 p [] = true ∧ (s.ctxOf 2).state = .opened ∧ s.frozen = false ∧ s.flying = [] ∧
       s.ctxQuiet 2 = true ∧ s.walkTracts (s.act.ownedBy 2) = []) := by decide +kernel

theorem witness_TractPowerAndRepairs :
    (let p := packet0 0x3C [(8, 1), (10, 63)]
     let s := queued live p
     dispatchCheck s 0 0 p [] = true ∧ p.opcode = 0x3C ∧ p.byte 9 = 0 ∧ p.byte 10 = 63 ∧ s.tractPresent 63 = true ∧
       p.byte 8 = 1 ∧ s.tractFailed 63 = false ∧ s.tractState 63 = 0) ∧
    (let p := packet0 0x3C [(8, 1), (10, 0)]
     let s := queued live p
     dispatchCheck s 0 0 p [] = true ∧ s.tractPresent 0 = true ∧ p.byte 8 = 1 ∧ s.tractFailed 0 = false ∧ s.tractState 0 = 3) ∧
    (let p := packet0 0x3C [(8, 0), (10, 0)]
     let s := { queued live p with act := handleWords 0 0 7 1 }
     dispatchCheck s 0 0 p [] = true ∧ p.byte 8 = 0 ∧ s.tractState 0 = 3 ∧ s.act.spanned 0 = true) ∧
    (let p := packet0 0x3C [(8, 0), (10, 63)]
     let s := { queued live p with act := handleWords 1 1 0 16, cis := { live.cis with tract := [(0, 3), (63, 3)] } }
     dispatchCheck s 0 0 p [] = true ∧ p.byte 8 = 0 ∧ s.tractState 63 = 3 ∧ s.act.spanned 63 = false ∧ s.walkOf 63 = none ∧
       s.repairsOf 63 = []) ∧
    (∀ m ∈ [0, 1], let p := packet0 0x3D [(8, m), (10, 15), (12, 511)]
      let s := queued live p
      dispatchCheck s 0 0 p [] = true ∧ p.opcode = 0x3D ∧ p.byte 10 ≤ 15 ∧ p.byte 9 ≤ 63 ∧ p.u16 12 ≤ 511 ∧
        s.tractPresent (p.byte 9) = true ∧ s.tractState (p.byte 9) = 3 ∧ p.byte 8 = m ∧
        (s.bank 0 15).spareOf 511 = none ∧ (s.bank 0 15).freeSpare = some 0) ∧
    (let x := { Bank.reset with remap := [(31, { row := 511, valid := true, source := 0, bad := false })] }
     let s := { live with cis := { live.cis with banks := [(15, x)] } }
     (s.bank 0 15).spareOf 511 = some 31) := by decide +kernel

def detachAt (stage : Nat) : Detach := { slot := 0, bound := 1000, finished := 0, ended := 0, stage := stage }

theorem witness_DetachesEndInStandby :
    (∀ m ∈ [0, 1], let p := packet0 0x4A [(8, m)]
      dispatchCheck (queued live p) 0 0 p [] = true ∧ p.opcode = 0x4A ∧ p.byte 8 = m ∧ (queued live p).rst.detach = none ∧
        ∀ e ∈ (queued live p).flying, e.1 = 0) ∧
    (let s := { withCmd live 1023 (queueCmd 0x02 (.semWait 0 false 1)) with rst := { live.rst with detach := some (detachAt 2) } }
     s.silent = false ∧ s.rst.detach = some (detachAt 2) ∧ (∃ e ∈ s.flying, e.1 ≠ (detachAt 2).slot)) ∧
    (∀ st ∈ [2, 5], let s := { live with rst := { live.rst with detach := some (detachAt st) } }
      s.silent = false ∧ s.rst.detach = some (detachAt st) ∧ ∀ p, p < 9 → (s.port p).leaving = false) := by decide +kernel

/-! ## Witnesses: pages and the prefix index -/

/-- A pool of two BF16 pages of D = 64 in handle 1, its records at 0x8000; one node at 0x4000 of handle 2, one bucket. -/
def pool : Pool :=
  { Pool.reset with
    phandle := 1, live := true, pages := 2, metaOff := 0x8000, xhandle := 2, nodes := 1, pxOff := 0x4000, bucketOff := 0x8000
    layers := 1, heads := 1, free := 2 }
/-- Page 0 is HELD, with one reference. -/
def poolHeld : Pool := { pool with fresh := 1, free := 1, held := 1 }

/-- Bytes from an address on. -/
def memAt (l : List (Nat × List Byte)) : List Host.Cell := l.flatMap (fun e => spEntries (0 : Byte) e.1 e.2)

/-- The directory of one layer, one head, one block at handle 2 (address 0x10000), its entry `e`; page 0's REF is `ref`. -/
def dirMem (ref e : Nat) : List (Nat × List Byte) :=
  [(0x8000, leBytes 2 ref), (0x10000, leBytes 12 (1 + 2 ^ 16 + 2 ^ 64)), (0x10040, leBytes 4 e)]
def pagesState (p : Pool) (mem : List (Nat × List Byte)) : State :=
  { live with kvp := [(1, p)], cis := { live.cis with mem := memAt mem } }
def dir : Dir := { h := 2, off := 0, layers := 1, heads := 1, head0 := 0, blocks := 1 }

def dirCheck (s : State) (d : Dir) : Bool :=
  decide (s.chk 1 d.h .wr d.off 64 = none) && decide (d.layers = numAt s 1 d.h d.off 2) &&
    decide (d.heads = numAt s 1 d.h (d.off + 2) 2) && decide (d.head0 = numAt s 1 d.h (d.off + 4) 2) &&
    decide (d.blocks = numAt s 1 d.h (d.off + 8) 4) && decide (1 ≤ d.blocks) && decide (d.blocks ≤ 2048) &&
    decide (s.chk 1 d.h .wr d.off (dirBytes d) = none) && decide (s.chk 1 d.h .ww d.off (dirBytes d) = none)

theorem dirReady_of {s : State} {d : Dir} {w : Bool} (hs : s.cis.synd = []) (h : dirCheck s d = true) : DirReady s 1 d w := by
  simp only [dirCheck, Bool.and_eq_true, decide_eq_true_eq] at h
  obtain ⟨⟨⟨⟨⟨⟨⟨⟨h1, h2⟩, h3⟩, h4⟩, h5⟩, h6⟩, h7⟩, h8⟩, h9⟩ := h
  exact ⟨h1, h2, h3, h4, h5, ⟨h6, h7⟩, h8, fun _ => h9, cleanLines_of hs _⟩

theorem witness_dirReady : DirReady (queued (pagesState pool (dirMem 0 0)) (packet 0 [])) 1 dir true ∧
    DirReady (queued (pagesState poolHeld (dirMem 1 0x80000000)) (packet 0 [])) 1 dir true :=
  ⟨dirReady_of rfl (by decide +kernel), dirReady_of rfl (by decide +kernel)⟩

/-- What `RecordsReady` asks but for the clean words, as a test. -/
def recordsCheck (s : State) (c : Nat) : Bool :=
  decide ((s.pool c).metaOff.toNat % 256 = 0) && decide (recordLines s c).Nodup

theorem recordsReady_of {s : State} {c : Nat} (hs : s.cis.synd = []) (h : recordsCheck s c = true) : RecordsReady s c := by
  simp only [recordsCheck, Bool.and_eq_true, decide_eq_true_eq] at h
  exact ⟨h.1, h.2, cleanLines_of hs _⟩

/-- Page 0 is shared, and one more page is free. -/
def sharedState : State := pagesState poolHeld (dirMem 2 0x80000000)

theorem witness_recordsReady : RecordsReady (pagesState pool (dirMem 0 0)) 1 ∧ RecordsReady sharedState 1 ∧
    Apart (pageLines sharedState 1) (recordLines sharedState 1) ∧
    Apart (dirLines sharedState 1 dir) (pageLines sharedState 1 ++ recordLines sharedState 1) ∧
    Apart (touchedLines sharedState 1 2 0x1000 8) (recordLines sharedState 1) := by
  refine ⟨recordsReady_of rfl (by decide +kernel), recordsReady_of rfl (by decide +kernel), ?_, ?_, ?_⟩ <;>
    unfold Apart <;> decide +kernel

theorem witness_appendApart : AppendApart sharedState 1 dir [(0, 0, 0)] (nextPages poolHeld 1) where
  records := recordsReady_of rfl (by decide +kernel)
  dir := by decide +kernel
  pages := by decide +kernel
  clean := cleanLines_of rfl _
  apart := by unfold Apart; decide +kernel
  inPool := by decide +kernel
  other := by decide +kernel
  taken := by decide +kernel
  once := by decide +kernel

theorem witness_PagesAreTakenAndGivenBack_alloc :
    (let p := packet 0x2B [(8, 2), (10, 2), (16, 0x1000)]
     let s := queued (pagesState pool (dirMem 0 0)) p
     dispatchCheck s 0 0 p [] = true ∧ s.poolFault 1 false = none ∧ p.opcode = 0x2B ∧ p.byte 9 = 0 ∧ p.u16 10 = 2 ∧
       p.u16 10 ≤ (s.pool 1).avail ∧ s.chk 1 (p.handle 8) .ww (p.u64 16) (4 * p.u16 10) = none) ∧
    (let p := packet 0x2B [(8, 2), (9, 1), (10, 1)]
     let s := queued (pagesState pool (dirMem 0 0)) p
     dispatchCheck s 0 0 p [] = true ∧ dir.h = p.handle 8 ∧ dir.off = p.u64 16 ∧ p.byte 9 = 1 ∧ p.u32 12 + p.u16 10 ≤ dir.blocks ∧
       (entriesIn [0] [0] [0]).filter (fun e => !entryV (entAt s 1 dir e)) = [(0, 0, 0)] ∧ 1 ≤ (s.pool 1).avail) := by
  decide +kernel

theorem witness_PagesAreTakenAndGivenBack_drop :
    (∀ m ∈ [0, 1], let p := packet 0x2A [(8, 2), (9, m), (12, if m = 1 then 64 else 0)]
      let s := queued (pagesState poolHeld (dirMem 1 0x80000000)) p
      dispatchCheck s 0 0 p [] = true ∧ s.poolFault 1 false = none ∧ p.opcode = 0x2A ∧ p.byte 9 = m ∧
        trimmed s 1 dir (decide (m = 1)) (p.u32 12) = [(0, 0, 0)] ∧
        s.refsCover 1 ((trimmed s 1 dir (decide (m = 1)) (p.u32 12)).map (fun e => entryPage (entAt s 1 dir e))) = true) ∧
    (let p := packet 0x2C [(8, 2), (10, 1), (16, 0x1000)]
     let s := queued (pagesState poolHeld (dirMem 1 0x80000000)) p
     dispatchCheck s 0 0 p [] = true ∧ p.opcode = 0x2C ∧ p.u16 10 = 1 ∧ s.chk 1 (p.handle 8) .wr (p.u64 16) 4 = none ∧
       numAt s 1 2 0x1000 4 = 0 ∧ s.refsCover 1 [0] = true ∧ s.pageRef 1 0 = 1 ∧ s.pagePin 1 0 = 0) ∧
    (let s := pagesState poolHeld (dirMem 2 0x80000000); s.refsCover 1 [0] = true ∧ 1 < s.pageRef 1 0) ∧
    (let s := pagesState poolHeld (dirMem (1 + 2 ^ 16) 0x80000000)
     { s with cis := { s.cis with mem := memAt [(0x8000, leBytes 4 (1 + 2 ^ 16))] } }.pagePin 1 0 = 1) := by decide +kernel

/-- One position of one head, keys at 0x1000 and values at 0x1100 of handle 2. -/
def appendPkt : Pkt := packet 0x28 [(8, 2), (9, 2), (12, 1), (15, 1), (24, 63), (40, 0x1000), (48, 0x1100)]
def entryIn (inStep : Bool) : Entry :=
  { Entry.reset with state := .decode, ctx := 1, inStep := inStep, length := 64, dhandle := 2, newLeft := 2, customer := 1023 }
def withEntry (s : State) (e : Entry) : State := { s with srv := { Srv.reset with entries := [(4095, e)] } }

/-- The append's one entry is shared: its page is copied. -/
theorem witness_AppendsAndRollbacks_shared :
    let s := queued sharedState appendPkt
    let a := appendPkt.append
    dispatchCheck s 0 0 appendPkt [] = true ∧ s.poolFault 1 false = none ∧ appendEnts s 1 a = [(0, 0, 0)] ∧
      entryV (entAt s 1 dir (0, 0, 0)) = true ∧ s.pageHeld 1 0 = true ∧ 1 < s.pageRef 1 (entryPage (entAt s 1 dir (0, 0, 0))) ∧
      1 ≤ (s.pool 1).avail ∧ min 64 (a.pos - 64 * 0) = 63 ∧ s.localBlock 1 ((a.pos + 0) / 64) = true := by decide +kernel

/-- NEWLEN one above LENGTH. -/
theorem witness_AppendsAndRollbacks_above :
    let p := packet 0x29 [(8, 4095), (12, 65)]
    let s := withEntry (queued (pagesState pool []) p) (entryIn true)
    dispatchCheck s 0 0 p [] = true ∧ s.poolFault 1 false = none ∧ (s.entry (p.u16 8)).state ≠ .done ∧
      (s.entry (p.u16 8)).length < p.u32 12 := by decide +kernel

theorem witness_AppendsAndRollbacks :
    (let s := queued (pagesState pool (dirMem 0 0)) appendPkt
     let a := appendPkt.append
     dispatchCheck s 0 0 appendPkt [] = true ∧ s.poolFault 1 false = none ∧ appendPkt.opcode = 0x28 ∧ appendPkt.byte 10 ≤ 1 ∧
       a.npos = 1 ∧ a.nhead = 1 ∧ dir.h = a.dh ∧ dir.off = a.doff ∧ a.inDir dir = true ∧
       s.chk 1 a.sh .wr a.koff (a.nhead * a.npos * pool.dim * a.elemSize) = none ∧
       s.chk 1 a.sh .wr a.voff (a.nhead * a.npos * pool.dim * a.elemSize) = none ∧
       appendEnts s 1 a = [(0, 0, 0)] ∧ entryV (entAt s 1 dir (0, 0, 0)) = false ∧ nextPages (s.pool 1) 1 = [0]) ∧
    (∀ b ∈ [true, false], let p := packet 0x29 [(8, 4095), (10, 1), (12, 64)]
      let s := withEntry (queued (pagesState poolHeld (dirMem 1 0x80000000)) p) (entryIn b)
      dispatchCheck s 0 0 p [] = true ∧ s.poolFault 1 false = none ∧ p.opcode = 0x29 ∧ p.u16 8 ≤ 4095 ∧
        (s.entry (p.u16 8)).state ≠ .free ∧ (s.entry (p.u16 8)).ctx = 1 ∧ (s.entry (p.u16 8)).inStep = b ∧
        p.u32 12 ≤ (s.entry (p.u16 8)).length ∧ bit (p.byte 10) 0 = true ∧ dir.h = (s.entry (p.u16 8)).dhandle.toNat ∧
        trimmed s 1 dir false (p.u32 12) = [] ∧ s.refsCover 1 [] = true) ∧
    (let p := packet 0x29 [(8, 4095), (12, 0)]
     let s := withEntry (queued (pagesState pool []) p) (entryIn false)
     dispatchCheck s 0 0 p [] = true ∧ s.poolFault 1 false = none ∧ bit (p.byte 10) 0 = false ∧
       (s.entry (p.u16 8)).state = .decode) := by decide +kernel

/-- Node 0 stands under the key of a block of zero tokens, with page 0. -/
def nodeMem : List (Nat × List Byte) :=
  dirMem 1 0 ++ [(0x14000, leBytes 8 (blockKey 0 (List.replicate 64 0) 0).toNat ++ leBytes 4 noNode ++ leBytes 4 noNode),
    (0x14200, leBytes 4 0x80000000)]
def poolNode : Pool := { poolHeld with nodesLive := 1, nodeFresh := 1 }

/-- An index of one live node, and one without. -/
theorem witness_indexReady : IndexReady (pagesState poolNode nodeMem) 1 ∧
    IndexReady (pagesState poolHeld (dirMem 1 0x80000000 ++ [(0x18000, leBytes 4 noNode)])) 1 := by
  refine ⟨⟨by decide +kernel, by decide +kernel, cleanLines_of rfl _, recordsReady_of rfl (by decide +kernel),
    by unfold Apart; decide +kernel, ?_⟩, ⟨by decide +kernel, by decide +kernel, cleanLines_of rfl _,
    recordsReady_of rfl (by decide +kernel), by unfold Apart; decide +kernel, ?_⟩⟩
  · intro n h
    have h1 : n < 1 := by
      have := h
      simp only [Pool.nodeLive, Bool.and_eq_true, decide_eq_true_eq] at this
      exact this.1
    obtain rfl : n = 0 := by omega
    decide +kernel
  · intro n h
    have h1 : n < 0 := by
      have := h
      simp only [Pool.nodeLive, Bool.and_eq_true, decide_eq_true_eq] at this
      exact this.1
    omega

theorem witness_PrefixIndexFollowsItsChains_lookup :
    let p := packet 0x2D [(8, 2), (9, 2), (12, 64), (24, 0x2000)]
    (let s := queued (pagesState poolNode nodeMem) p
     dispatchCheck s 0 0 p [] = true ∧ s.poolFault 1 true = none ∧ dirCheck s dir = true ∧ dir.layers = (s.pool 1).layers.toNat ∧
       dir.heads = (s.pool 1).heads.toNat ∧ min (p.u32 12 / 64) dir.blocks = 1 ∧ s.chk 1 (p.handle 9) .wr (p.u64 24) 256 = none ∧
       p.opcode = 0x2D ∧ entryV (entAt s 1 dir (0, 0, 0)) = false ∧
       s.matchBlock 1 (keyOf (s.ctxOf 1).salt (List.replicate 256 0) 0) noNode (blockTokens (List.replicate 256 0) 0) = some 0 ∧
       s.localBlock 1 0 = true ∧ entryPages (s.nodePages 1 0) = [0] ∧ s.refsFit 1 [0] = true) ∧
    (let s := queued (pagesState pool (dirMem 0 0 ++ [(0x18000, leBytes 4 noNode)])) p
     s.poolFault 1 true = none ∧
       s.matchBlock 1 (keyOf (s.ctxOf 1).salt (List.replicate 256 0) 0) noNode (blockTokens (List.replicate 256 0) 0) = none) := by
  decide +kernel

theorem witness_PrefixIndexFollowsItsChains_insert :
    let p := packet 0x2E [(8, 2), (9, 2), (12, 64), (24, 0x2000)]
    (let s := queued (pagesState poolHeld (dirMem 1 0x80000000 ++ [(0x18000, leBytes 4 noNode)])) p
     dispatchCheck s 0 0 p [] = true ∧ s.poolFault 1 true = none ∧ p.opcode = 0x2E ∧ p.byte 10 = 0 ∧ dirCheck s dir = true ∧
       entryV (entAt s 1 dir (0, 0, 0)) = true ∧ s.pageHeld 1 (entryPage (entAt s 1 dir (0, 0, 0))) = true ∧
       (s.pool 1).nodeFresh < (s.pool 1).nodes.toNat ∧ s.refsFit 1 [0] = true) ∧
    (let s := queued (pagesState poolNode nodeMem) p; (s.pool 1).nodeFree = false) ∧
    (let p := packet 0x2E [(10, 1), (32, 0)]
     let s := queued (pagesState poolNode nodeMem) p
     dispatchCheck s 0 0 p [] = true ∧ p.byte 10 = 1 ∧ (s.pool 1).nodeLive (p.u32 32) = true ∧ s.nodeChildren 1 (p.u32 32) = 0) := by
  decide +kernel

/-! ## Witnesses: requests and steps -/

/-- A slot of context 1 with a vocabulary of one token and a stride of 256. -/
def slot1 : Sparse Word := [(16, 0x1011), (25, 256)]
/-- Admission to customer 1023, prompt 64, one new token, slot 1, no table but what handle 2 holds. -/
def admitPkt : Pkt :=
  packet 0x30 [(8, 1023), (12, 63), (20, 2), (32, 2), (36, 2), (37, 2), (38, 2), (56, 0x100), (72, 1), (80, 7)]
def admitState : State := { queued (pagesState pool (dirMem 0 0)) admitPkt with smp := { Smp.reset with slots := slot1 } }

theorem freeEntry_zero {s : State} (h : (s.entry 0).state = .free) : s.freeEntry = some 0 := by
  unfold State.freeEntry
  rw [show 4096 = 4095 + 1 from rfl, List.range_succ_eq_map]
  simp [h]

theorem witness_RequestsAndBudgets_free : admitState.freeEntry = some 0 := freeEntry_zero (by decide +kernel)

theorem witness_RequestsAndBudgets_admit :
    dispatchCheck admitState 0 0 admitPkt [] = true ∧ admitPkt.opcode = 0x30 ∧
      admitState.admitFault 1 admitPkt.admission = none ∧ admitState.atMaxReq 1 = false ∧
      (admitState.pool 1).live = true ∧ admitPkt.u32 32 = (admitState.pool 1).avail ∧
      admitPkt.u32 12 + admitPkt.u32 20 - 1 = 64 * numAt admitState 1 (admitPkt.handle 36) (admitPkt.u64 40 + 8) 4 :=
  by decide +kernel

def requestPkt (mode : Nat) : Pkt := packet 0x31 [(8, 4095), (10, mode)]
def requestState (mode : Nat) (e : Entry) : State :=
  withEntry (queued (pagesState poolHeld (dirMem 1 0x80000000)) (requestPkt mode)) e

theorem witness_RequestsAndBudgets_end :
    (∀ m ∈ [0, 1], let s := requestState m { entryIn false with state := .done }
      dispatchCheck s 0 0 (requestPkt m) [] = true ∧ (requestPkt m).opcode = 0x31 ∧ (requestPkt m).u16 8 ≤ 4095 ∧
        (s.entry 4095).state = .done ∧ (s.entry 4095).ctx = 1 ∧ (requestPkt m).byte 10 = m) ∧
    (let s := requestState 0 (entryIn true)
     dispatchCheck s 0 0 (requestPkt 0) [] = true ∧ (s.entry 4095).state ≠ .done ∧ (s.entry 4095).inStep = true) ∧
    (let s := requestState 0 { entryIn false with keepKv := true }
     (s.entry 4095).state ≠ .done ∧ (s.entry 4095).inStep = false ∧ (s.entry 4095).keepKv = true) ∧
    (let s := requestState 0 (entryIn false)
     (s.entry 4095).keepKv = false ∧ s.poolFault 1 false = none ∧ dir.h = (s.entry 4095).dhandle.toNat ∧
       dir.off = (s.entry 4095).diroff.toNat ∧ dirCheck s dir = true ∧ trimmed s 1 dir false 0 = [(0, 0, 0)] ∧
       s.refsCover 1 [0] = true) := by decide +kernel

/-- The pool is UNSET: REQ_CANCEL ends with the failed check's status (R329). -/
theorem witness_RequestsAndBudgets_unset :
    let s := withEntry (queued (pagesState { poolHeld with live := false } []) (requestPkt 0)) (entryIn false)
    dispatchCheck s 0 0 (requestPkt 0) [] = true ∧ (s.entry 4095).state ≠ .done ∧ (s.entry 4095).inStep = false ∧
      (s.entry 4095).keepKv = false ∧ (s.poolFault 1 false).isSome = true := by decide +kernel

theorem witness_BudgetAddAddsOrSets :
    (∀ m ∈ [0, 1, 2], let p := packet 0x33 [(8, 1023), (10, m), (12, 0xFFFFFFFF)]
      dispatchCheck (queued live p) 0 0 p [] = true ∧ p.opcode = 0x33 ∧
        ((queued live p).act.range p.ctx).hasCust (p.u16 8) = true ∧ p.byte 10 = m) ∧
    (∀ m ∈ [0, 1], let p := packet 0x33 [(8, 1024), (10, m)]
      dispatchCheck (queued live p) 0 0 p [] = true ∧ ((queued live p).act.range p.ctx).hasCust (p.u16 8) = false) := by
  decide +kernel

theorem witness_RequestsAndBudgets_refill :
    let s := { live with time := { Time.reset with valid := true } }
    s.silent = false ∧ s.time.valid = true := by decide +kernel

def stepPkt : Pkt := packet 0x32 [(8, 2), (10, 1), (16, 0x8000)]
def job (phase : StepPhase) (rows : List StepRow) : StepJob :=
  { slot := 9, phase := phase, bhandle := 2, boff := 0x8000, rows := rows, tokens := rows.length, stepSeq := 0, counts := []
    unit := 0, index := 0, row := 0, hold := none, fail := none, slots := [], samples := [], draws := [], data := stOK
    flags := 0, late := false }
def stepState (mem : List (Nat × List Byte)) (j : StepJob) : State :=
  let s := withCmd (withEntry (pagesState pool mem) (entryIn true)) 9 (queueCmd 0x32 .step)
  { s with srv := { s.srv with jobs := [(1, some j)] } }

theorem witness_StepsRunToTheirRecords_build :
    (let s := queued (pagesState pool []) stepPkt
     dispatchCheck s 0 0 stepPkt [] = true ∧ stepPkt.opcode = 0x32 ∧ s.stepJob 1 = none ∧ s.cfg.swap = none ∧
       (s.pool 1).live = true ∧ s.act.scriptUnits 1 ≠ 0 ∧ capOf (stepPkt.u16 10) (s.act.rowCap 1) = 1 ∧
       s.chk 1 (stepPkt.handle 8) .ww (stepPkt.u64 16) (64 + 128 * 1) = none ∧ s.buildOrder 1 = []) ∧
    (let s := { queued (pagesState pool []) stepPkt with cfg := { Cfg.reset with swap := some (pendingSwap none) } }
     dispatchCheck s 0 0 stepPkt [] = true ∧ s.cfg.swap = some (pendingSwap none) ∧
       bit (pendingSwap none).affected.toNat 1 = true) := by decide +kernel

/-- Nothing is pending or in flight; a STEP in slot 9 is; the pool is UNSET; the batch buffer is out of bounds. -/
theorem witness_StepsRunToTheirRecords_failing :
    (let s := queued (pagesState pool []) stepPkt
     ¬SwapPending s 1 ∧ ¬StepInFlight s 0 1) ∧
    (let s := { queued (pagesState pool []) stepPkt with srv := { Srv.reset with jobs := [(1, some (job .script []))] } }
     dispatchCheck s 0 0 stepPkt [] = true ∧ ¬SwapPending s 1 ∧ StepInFlight s 0 1) ∧
    (let s := queued (pagesState { pool with live := false } []) stepPkt
     dispatchCheck s 0 0 stepPkt [] = true ∧ (s.poolFault 1 false).isSome = true) ∧
    (let s := { queued (pagesState pool []) stepPkt with act := setA.filter (fun e => decide (e.1 ≠ (offLimits + 0x20 + 8) / 4)) }
     dispatchCheck s 0 0 stepPkt [] = true ∧ s.poolFault 1 false = none ∧ s.act.scriptUnits 1 = 0) ∧
    (let p := packet 0x32 [(8, 2), (10, 1), (16, 0x10000)]
     let s := queued (pagesState pool []) p
     dispatchCheck s 0 0 p [] = true ∧ s.poolFault 1 false = none ∧ s.act.scriptUnits 1 ≠ 0 ∧
       (s.chk 1 (p.handle 8) .ww (p.u64 16) (64 + 128 * 1)).isSome = true) := by
  have none : ∀ s : State, s.cfg.swap = none → s.cfg.walking = none → ¬SwapPending s 1 := by
    intro s h1 h2 h
    rcases h with ⟨w, h, _⟩ | ⟨w, h, _⟩
    · rw [h1] at h; cases h
    · rw [h2] at h; cases h
  refine ⟨⟨none _ rfl rfl, ?_⟩, ⟨by decide +kernel, none _ rfl rfl, Or.inl (by decide +kernel)⟩, by decide +kernel, by decide +kernel,
    by decide +kernel⟩
  rintro (h | ⟨e, he, _⟩)
  · exact absurd h (by decide +kernel)
  · have : (queued (pagesState pool []) stepPkt).flying = [] := by decide +kernel
    rw [this] at he; cases he

/-- Customer 1023 has budget; the one request wants a token, and page 1 of its directory's block 0 or of its reserve. -/
theorem witness_StepsRunToTheirRecords_oneRequest : ∀ reserve ∈ [0, 1],
    let e : Entry := { entryIn false with length := 63, reserve := reserve, diroff := 0 }
    let s := withEntry (queued sharedState stepPkt) e
    let s := { s with srv := { s.srv with cust := [(1023, { Customer.reset with budget := 5 })] } }
    dispatchCheck s 0 0 stepPkt [] = true ∧ s.poolFault 1 false = none ∧ s.act.scriptUnits 1 ≠ 0 ∧
      s.entriesOf 1 = [4095] ∧ s.buildOrder 1 = [4095] ∧
      (s.entry 4095).want (capOf (stepPkt.u16 12) (s.act.tokCap 1)) (s.act.chunkMax 1) = 1 ∧
      1 ≤ (s.cust (s.entry 4095).customer).budget.toNat ∧ (63 + 1 - 1) / 64 < dir.blocks ∧ dirCheck s dir = true ∧
      entriesIn [0] dir.headList (s.touched 1 63 1) = [(0, 0, 0)] ∧ entryV (entAt s 1 dir (0, 0, 0)) = true ∧
      s.pageHeld 1 (entryPage (entAt s 1 dir (0, 0, 0))) = true ∧ 1 < s.pageRef 1 0 ∧ 1 ≤ reserve + (s.pool 1).avail := by
  decide +kernel

/-- The script's unit at handle 2: a NOP or SEM_WAIT of context 1, or a packet of context 2 (R370). -/
def unitMem (op : Byte) (ctx : Byte) : List (Nat × List Byte) := [(0x10000, [op, 0, 0, 0, ctx])]

def scriptState (op ctx : Byte) : State :=
  { stepState (unitMem op ctx) (job .script []) with
    act := handleWords 1 2 16 16 ++ [((offRange + 16) / 4, 0x10000), ((offLimits + 0x20 + 8) / 4, 0x10002)] }
def scriptCheck (s : State) (f : Option Half) : Bool :=
  decide (s.stepJob 1 = some (job .script [])) && s.dispatchOpen && decide (numAt s 1 2 1 1 % 16 + 1 = 1) &&
    decide (1 ≤ s.act.scriptUnits 1) && decide (s.act.scriptHandle 1 = 2) && decide (s.act.scriptOff 1 = 0) &&
    decide (s.chk 1 2 .wr 0 64 = none) && !(scriptPacket s 1 (job .script []) 1).fence && decide (s.freeSlot = some 0) &&
    decide (scriptFault (scriptPacket s 1 (job .script []) 1) = f) && s.semOk 1 0

theorem witness_StepsRunToTheirRecords_nop : scriptCheck (scriptState 0 1) none = true := by decide +kernel
theorem witness_StepsRunToTheirRecords_wait : scriptCheck (scriptState 2 1) none = true := by decide +kernel
theorem witness_StepsRunToTheirRecords_refused : scriptCheck (scriptState 0 2) (some stPermission) = true := by decide +kernel
theorem witness_StepsRunToTheirRecords_end :
    let j := { job .script [] with unit := 1 }
    let s := stepState [] j
    s.stepJob 1 = some j ∧ s.silent = false ∧ s.act.scriptUnits 1 ≤ j.unit ∧ j.slots.length = j.rows.length ∧
      firstFail ((j.rows.zip j.slots).flatMap (fun e => s.sampleRanges 1 e.1 e.2)) = none := by decide +kernel

def row (kind : Nat) : StepRow := { req := 4095, kind := kind, ntok := 1, tokBase := 0, pos := 64 }

theorem witness_StepsRunToTheirRecords_bookkeeping :
    (∀ j ∈ [job .sampled [], { job .sampled [row 1] with fail := some (stBounds, 1, 0) }, job .sampled [row 1],
        { job .sampled [row 2] with samples := [.picked 0 5] }],
      let s := stepState [] j
      s.stepJob 1 = some j ∧ j.phase = .sampled ∧ s.silent = false ∧ s.cmd j.slot = some (queueCmd 0x32 .step) ∧
        s.newlyLate 1 = [] ∧ (s.entry 4095).cancel = false) ∧
    (let j := { job .sampled [row 2] with samples := [.picked 0 5] }
     let e := (stepState [] j).entry 4095
     j.fail = none ∧ (row 2).kind = 2 ∧ j.samples.getD 0 .skipped = .picked 0 5 ∧ 5 ∉ e.stop.take e.nstop ∧ 1 < e.newLeft) := by
  decide +kernel

def outRec (slots : List Nat) : OutRec := { bytes := List.replicate 16 1, slots := slots }
def recState (r : OutRec) (tail : Word) : State :=
  let s := withCmd live 9 (queueCmd 0x31 (.record stOK [1]))
  { s with
    srv := { Srv.reset with recs := [(1, [r])] }
    ctxs := [(1, { Ctx.reset with
      state := .opened
      oring := { Ring.reset with handle := 1, tail := tail } })] }

theorem witness_StepsRunToTheirRecords_records :
    (∀ sl ∈ [[], [9]], let s := recState (outRec sl) 0
      s.recsOf 1 = [outRec sl] ∧ s.silent = false ∧ s.ringReady 1 (s.ctxOf 1).oring 16 = true ∧
        (s.ctxOf 1).oring.room 16 = true ∧ (outRec sl).bytes.length = 16 ∧
        s.cmd 9 = some (queueCmd 0x31 (.record stOK [1]))) ∧
    (let s := recState (outRec []) 255
     s.ringReady 1 (s.ctxOf 1).oring 16 = true ∧ (s.ctxOf 1).oring.room 16 = false ∧ (s.ctxOf 1).oring.told = false) := by
  decide +kernel

/-! ## Witnesses: sampling and attention -/

def samplePkt : Pkt := packet 0x34 [(8, 2), (9, 1), (10, 1), (12, 1), (16, 0x200), (24, 0)]

theorem witness_SampleWritesItsTokens :
    let s := { queued live samplePkt with
      smp := { Smp.reset with slots := slot1 }
      cis := { live.cis with mem := memAt [(16, [0xFF])] } }
    let p := samplePkt
    dispatchCheck s 0 0 p [] = true ∧ p.opcode = 0x34 ∧ s.slotOk (p.u16 10) 1 = true ∧ p.u16 12 = 1 ∧
      s.chk 1 (p.handle 9) .wr (p.u64 24) 32 = none ∧ s.chk 1 (p.handle 9) .ww (p.u64 24) 32 = none ∧
      s.chkLogits 1 (p.handle 8) (p.u64 16 + 0 * (slotParams (s.slotWords (p.u16 10))).lstride)
        (slotParams (s.slotWords (p.u16 10))).vocab = none ∧
      (sampleRowAt (handleBytes s 1 (p.handle 9) (p.u64 24) 32) 0).penh = none ∧
      (touchedLines s 1 (p.handle 9) (p.u64 24) 32).Nodup := by decide +kernel

def fattnPkt : Pkt :=
  packet 0x20 [(8, 8), (10, 2 ^ 5), (15, 1), (16, 1), (18, 2), (19, 2), (20, 2), (21, 2), (22, 2), (56, 0xFFFF), (32, 0x1000)]
/-- A row of one position, without keys or with more than R313 lets a row have. -/
def fattnState (x : Tile) (keylen : Nat) : State :=
  { queued (pagesState pool (dirMem 0 0 ++ [(0x11000, leBytes 64 (keylen * 2 ^ 64 + 2 ^ 128))])) fattnPkt with tiles := [(3, x)] }
def busyTile : Tile := { Tile.reset with wren := wrenAt 0 0 }

/-- A row of one key in page 0, whose value is 64 ones in BF16. -/
def oneKeyState : State :=
  { queued (pagesState poolHeld (dirMem 1 0x80000000 ++ [(0x2000, List.replicate 64 [0x80, 0x3F] |>.flatten),
      (0x11000, leBytes 64 (2 ^ 64 + 2 ^ 128 + 2 ^ 192 * 0x2000 + 2 ^ 256 * 0x3000 + 2 ^ 384 * 0x4000))])) fattnPkt with
    tiles := [(3, Tile.reset)] }

/-- What `attnChecks` answers: the pages, with the Cistern's contents as they were. -/
def checksCheck (d : State) (l : List Nat) (r : Except CheckFail (List Nat) × Io) : Bool :=
  (match r.1 with | .ok m => decide (m = l) | .error _ => false) && decide (r.2.s.cis.mem = d.cis.mem) &&
    decide (r.2.s.cis.synd = d.cis.synd) && l.all (fun i => decide (r.2.s.pagePin 1 i + timesIn i l ≤ 65535))

theorem witness_AttentionCountsItsRows_fattn : ∀ n ∈ [0, 131073],
    let s := fattnState Tile.reset n
    let d := atDispatch s 0 0 fattnPkt
    let a := attnOf fattnPkt.bytes
    dispatchCheck s 0 0 fattnPkt [] = true ∧ fattnPkt.opcode = 0x20 ∧ d.attnFault 1 a = none ∧
      checksCheck d [] ((Io.of d).attnChecks 1 a) = true ∧ a.remote = false ∧ a.partialOut = true ∧
      (∀ l ∈ touchedLines s 1 a.rh a.rtoff (64 * a.nrows), l ∉ recordLines s 1) ∧ d.tilesIdle (halfAt fattnPkt.bytes 8) = true ∧
      d.yields 0 (entryOf s 0 fattnPkt .ended) (halfAt fattnPkt.bytes 8) = false := by decide +kernel

theorem witness_AttentionCountsItsRows_oneKey :
    let s := oneKeyState
    let d := atDispatch s 0 0 fattnPkt
    let a := attnOf fattnPkt.bytes
    let r := arowAt (handleBytes s 1 a.rh a.rtoff 64) 0
    dispatchCheck s 0 0 fattnPkt [] = true ∧ d.attnFault 1 a = none ∧ checksCheck d [0] ((Io.of d).attnChecks 1 a) = true ∧
      d.tilesIdle (halfAt fattnPkt.bytes 8) = true ∧ r.tooLong = false ∧ r.keylen = 1 ∧ a.kvfmt = 0 ∧
      (∀ l ∈ touchedLines s 1 a.rh a.rtoff (64 * a.nrows), l ∉ recordLines s 1) ∧
      (unitsOf s 1 a [r] [0]).length = 1 ∧
      ∀ u ∈ unitsOf s 1 a [r] [0], u.visible 0 0 = true ∧ bits (a.score .one (queryAt s 1 u 0) (keyAt s 1 0 0)).out.toNat 23 8 ≠ 255 ∧
        ∀ e, e < a.dim → 1 ≤ bits (elemAt fBF16 (positionBytes s 1 0 1 0).1 e) 7 8 ∧
          bits (elemAt fBF16 (positionBytes s 1 0 1 0).1 e) 7 8 ≤ 254 := by decide +kernel

theorem witness_AttentionCountsItsRows_ready :
    let a := attnOf fattnPkt.bytes
    AttnReady oneKeyState 1 a [arowAt (handleBytes oneKeyState 1 a.rh a.rtoff 64) 0] where
  reads := cleanLines_of rfl _
  writes := cleanLines_of rfl _
  once := by decide +kernel
  apart := by unfold Apart; decide +kernel
  records := ⟨recordsReady_of rfl (by decide +kernel), by unfold Apart; decide +kernel⟩

theorem witness_AttentionCountsItsRows_busy :
    let s := fattnState busyTile 0
    let d := atDispatch s 0 0 fattnPkt
    dispatchCheck s 0 0 fattnPkt [] = true ∧ d.attnFault 1 (attnOf fattnPkt.bytes) = none ∧
      checksCheck d [] ((Io.of d).attnChecks 1 (attnOf fattnPkt.bytes)) = true ∧
      d.tilesIdle (halfAt fattnPkt.bytes 8) = false := by decide +kernel

def mergePkt : Pkt := packet 0x21 [(8, 8), (10, 2), (12, 2), (13, 2), (16, 1), (32, 256), (40, 0x1000), (48, 8), (56, 0x2000)]

theorem witness_AttentionCountsItsRows_merge :
    let mem := [(0x11000, leBytes 8 0xFF800000 ++ leBytes 8 0xFF800000)]
    (let s := { queued (pagesState pool mem) mergePkt with tiles := [(3, Tile.reset)] }
     let d := atDispatch s 0 0 mergePkt
     let m := mergeOf mergePkt.bytes
     dispatchCheck s 0 0 mergePkt [] = true ∧ mergePkt.opcode = 0x21 ∧ d.mergeFault 1 m = none ∧
       d.tilesIdle (halfAt mergePkt.bytes 8) = true ∧ m.nq = 1 ∧ m.nin = 2 ∧
       ∀ i, i < 2 → numAt s 1 m.ih (m.soff + i * m.sstride) 4 = 0xFF800000 ∧
         (val32 (BitVec.ofNat 32 (numAt s 1 m.ih (m.soff + i * m.sstride + 4) 4))).isNan = false) ∧
    (let s := { queued (pagesState pool mem) mergePkt with tiles := [(3, busyTile)] }
     (atDispatch s 0 0 mergePkt).mergeFault 1 (mergeOf mergePkt.bytes) = none ∧
       (atDispatch s 0 0 mergePkt).tilesIdle (halfAt mergePkt.bytes 8) = false) := by decide +kernel

/-! ## Witnesses: registers and flits -/

theorem witness_RegisterWritesAct :
    live.silent = false ∧ live.rst.ready = true ∧ maskList (256 : BitVec 9).toNat 9 = [8] ∧
      (live.port (physPort live.top.orient 8)).state ≠ .ctrlOnly ∧
      ((live.entry 4095).inStep = false ∧ ((withEntry live (entryIn true)).entry 4095).inStep = true) ∧
      (cfgItem 0x103000 = some (.weight 0) ∧ 0x103000 % 4 = 0) ∧ live.fuse.portPresent 8 = true ∧ (live.pool 1).live = false ∧
      (let s := pagesState { pool with live := false } []
       (s.pool 1).live = false ∧ ¬(∃ a ∈ (s.pool 1).areas true, (s.act.desc 1 a.1).bytes < a.2.1 + a.2.2)) ∧
      (let s := pagesState { pool with live := false, pages := 5 } []
       ∃ a ∈ (s.pool 1).areas true, (s.act.desc 1 a.1).bytes < a.2.1 + a.2.2) ∧
      (let s := pagesState { pool with live := false, bucketBits := 21 } []
       20 < (s.pool 1).bucketBits.toNat) := by decide +kernel

theorem witness_RegisterWritesAct_confirm :
    let s := { live with ports := [(8, { Port.reset with state := .ctrlOnly })] }
    s.silent = false ∧ s.rst.ready = true ∧ (s.port (physPort s.top.orient 8)).state = .ctrlOnly := by decide +kernel

def flitHdr (src : Half) : FlitHdr := { hdr with src := src, ctx := 1 }
def sigCmd : Cmd := queueCmd 0x03 (.remoteSig 0 0x10 255)

theorem witness_ControlFlitsAct :
    FlitFor linked (flitHdr 0) ∧ FlitFor linked (flitHdr 0x10) ∧ (flitHdr 0).src = linked.dieId ∧ linked.rst.ready = true ∧
      linked.egressPort linked.dieId = some 0 ∧ linked.egressPort 0x10 = some 0 ∧ 200 + 56 ≤ 256 ∧
      (0x104001 : Word).toNat % 4 ≠ 0 ∧
      (withCmd linked 7 sigCmd).awaitedSig 0x10 255 = some 7 ∧ (withCmd linked 7 sigCmd).cmd 7 = some sigCmd := by
  refine ⟨?_, ?_, ?_⟩
  · unfold FlitFor; decide +kernel
  · unfold FlitFor; decide +kernel
  · decide +kernel

/-- REG_RD and REG_WR of the hub with each status; a REG_WR of RST_CTRL.WARM, and one of a semaphore word (R439, R507). -/
theorem witness_ControlFlitsAct_registers :
    regStatus linked (flitHdr 0x10) 0 1 false = stPermission ∧ regStatus linked (flitHdr 0) 2 1 false = stAlign ∧
      regStatus linked (flitHdr 0) 0xFFFFFC 2 false = stBounds ∧ regStatus linked (flitHdr 0) 0 57 false = stBounds ∧
      regStatus linked (flitHdr 0) 0xFFFFFC 1 true = stOK ∧
      (let s := { linked with rst := { linked.rst with ready := false } }
       regStatus s (flitHdr 0) 0x7FFFC 1 true = stOK ∧ regStatus s (flitHdr 0) 0x80000 1 true = stRefuseContext ∧
         regStatus s (flitHdr 0) 0x80000 1 false = stOK) ∧
      (∀ r ∈ [(0x10008, (1 : Word)), (0x104000, 7)],
        let t := (takenAt linked (flitHdr 0) (regWrFlit (flitHdr 0) (BitVec.ofNat 32 r.1) [r.2])).ctrlWrite r.1 r.2
        t.silent = false ∧ t.egressPort 0 = some 0) := by decide +kernel

theorem witness_ControlFlitsAct_map : AbsentWord live 0x800000 ∧ (0x80000, 0x80010) ∈ readOnlyWords ∧
    (0x10014, (0xFFFFFF : Word)) ∈ plainRegisters live ∧ (0 : Nat) < live.fuse.tileCount :=
  ⟨Or.inr (Or.inl (by decide)), by decide +kernel, by unfold plainRegisters; simp, by decide +kernel⟩

theorem witness_ControlFlitsAct_partner :
    linked.partnerFails 0 hub = false ∧ linked.partnerFails 0 { hub with role := 0, dieId := 0 } = true ∧
      (linked.port 0).unacked = 0 ∧ bit linked.top.mismatch.toNat (logicalPort linked.top.orient 0) = false ∧
      bit linked.top.suspended.toNat (logicalPort linked.top.orient 0) = false := by decide +kernel

def openSeg : RxSeg :=
  { src := 0x10, xid := 3, segno := 0, ctx := 1, handle := 2, last := true, semen := false, sem := 0, off := 0xFF00, len := 256
    semval := 0, port := 0, pos := 0, buf := [], marks := [], dead := false, status := stOK }
def xferOf (isRead : Bool) : Xfer :=
  { port := 0, peer := 0x10, handle := 2, off := 0, len := 256, isRead := isRead, semen := false, sem := 0, semval := 0
    segs := [Seg.empty], okStatus := stOK, data := none }
def xidHdr : FlitHdr := { flitHdr 0x10 with xid := 3 }

theorem witness_SegmentsMoveBytes :
    FlitFor linked xidHdr ∧ linked.check 1 2 .xw 0xFF00 256 256 = none ∧
      linked.check 1 2 .xw 0xFF00 512 256 = some ⟨stBounds, 5⟩ ∧ linked.check 1 1 .xr 0xFF00 256 256 = none ∧
      linked.egressPort xidHdr.src = some 0 ∧
      (let s := { linked with rxSegs := [{ openSeg with pos := 0, len := 236 }] }
       s.rxSegs = { openSeg with pos := 0, len := 236 } :: [] ∧ (openSeg.src, openSeg.xid, openSeg.segno) =
         (xidHdr.src, xidHdr.xid, xidHdr.segno) ∧ openSeg.buf = [] ∧ openSeg.semen = false ∧ (openSeg.off + openSeg.pos) % 256 = 0) ∧
      ∀ b ∈ [true, false], let c := queueCmd 0x08 (.xfer (xferOf b))
        (withCmd linked 3 c).cmd xidHdr.xid.toNat = some c ∧ (xferOf b).segs = [Seg.empty] ∧ Seg.empty.ended = false ∧
          (xferOf b).data = none ∧ (xferOf b).semen = false ∧ (xferOf b).peer = xidHdr.src ∧ (xferOf b).isRead = b := by
  refine ⟨?_, ?_⟩
  · unfold FlitFor; decide +kernel
  · decide +kernel

/-- A stream of two words and 2 zero words, and bytes that are none. -/
theorem witness_TokenStream : Carries true ((0x01 :: List.replicate 16 7) ++ [0x81]) (List.replicate 16 7 ++ List.replicate 16 0) ∧
    Carries false [1, 2] [1, 2] ∧ ∀ bs, ¬Carries true [0x1D] bs := by
  refine ⟨⟨?_, by decide⟩, rfl, ?_⟩
  · exact .words (c := 0x01) (ws := List.replicate 16 7) (by decide) (by decide) (.zeros (c := 0x81) (by decide) .done)
  · rintro bs ⟨h, _⟩
    generalize hp : [(0x1D : Byte)] = p at h
    cases h with
    | done => cases hp
    | words h1 _ _ => injection hp with hc _; subst hc; exact absurd h1 (by decide)
    | zeros h1 _ => injection hp with hc _; subst hc; exact absurd h1 (by decide)

def segState (l : List RxSeg) : State := { linked with rxSegs := l }
/-- One byte of `openSeg` is still to come; its end waits for another segment that is open. -/
def lastByte : RxSeg := { openSeg with pos := 255, buf := List.replicate 255 5 }
def otherSeg : RxSeg := { openSeg with segno := 1, last := false, off := 0xFE00 }

/-- Other open segments of the flit's transfer. -/
def openSegs (s : State) : List RxSeg := openOthers s xidHdr

/-- Each case of a DATA flit of an open segment: part of a line; the last of a segment, with nothing else open, with SEMEN and
another segment open, and before the one that waits for it; a check that now fails; too many bytes; an ended segment. -/
theorem witness_SegmentsMoveBytes_data :
    FlitFor linked xidHdr ∧
    (let s := segState [{ openSeg with off := 0xFE00, len := 512 }]
     s.check 1 2 .xw 0xFE00 256 256 = none ∧ (openSegs s) = [] ∧
       ((List.range 256).map (fun i => s.phys 1 2 (0xFE00 + i))).Nodup) ∧
    (let s := segState [lastByte]
     s.check 1 2 .xw 0xFF00 256 256 = none ∧ openSegs s = [] ∧ s.egressPort xidHdr.src = some 0 ∧
       (lastByte.src, lastByte.xid, lastByte.segno) = (xidHdr.src, xidHdr.xid, xidHdr.segno) ∧
       lastByte.buf.length ≤ lastByte.pos ∧ lastByte.pos + 1 = lastByte.len) ∧
    (let s := segState [{ lastByte with semen := true }, otherSeg]
     openSegs s = [otherSeg] ∧ otherSeg.pos ≠ otherSeg.len) ∧
    (let y := { otherSeg with last := true, semen := true, pos := 256 }
     let s := segState [{ lastByte with last := false }, y]
     openSegs s = [y] ∧ y.pos = y.len ∧ (s.act.range y.ctx.toNat).hasSem y.sem.toNat = true) ∧
    (let s := segState [{ lastByte with off := 0x10000 }]
     s.check 1 2 .xw 0x10000 256 256 = some ⟨stBounds, 5⟩) ∧
    openSeg.dead = false ∧ { lastByte with dead := true }.dead = true := by
  refine ⟨by unfold FlitFor; decide +kernel, ?_⟩
  decide +kernel

/-- Segments that open: with room, of no bytes, and past the handle. -/
theorem witness_SegmentsMoveBytes_opens :
    linked.check 1 2 .xw 0xFF00 256 256 = none ∧ linked.check 1 2 .xw 0xFF00 0 256 = none ∧
      linked.check 1 2 .xw 0x10000 256 256 = some ⟨stBounds, 5⟩ ∧ linked.rxSegs = [] := by decide +kernel

/-- DATA of this die's own read: part of a line, the last byte, and one too many. -/
theorem witness_SegmentsMoveBytes_read :
    let x := xferOf true
    let s := withCmd linked 3 (queueCmd 0x08 (.xfer x))
    FlitFor s xidHdr ∧ s.cmd xidHdr.xid.toNat = some (queueCmd 0x08 (.xfer x)) ∧ x.isRead = true ∧ x.peer = xidHdr.src ∧
      xidHdr.segno.toNat < x.segs.length ∧ s.rxSegs = [] ∧ (x.off + 0 + Seg.empty.bytes) % 256 = 0 ∧
      ((List.range 256).map (fun i => s.phys 1 2 (x.off + i))).Nodup ∧ Seg.empty.pos ≤ min 32768 x.len ∧ x.len = 256 := by
  refine ⟨by unfold FlitFor; decide +kernel, ?_⟩
  decide +kernel

def portIn (p : Port) : State := { linked with ports := [(0, p)] }

/-- A flit of the last RETRAIN's first fill that was taken before it; a buffer whose flits may go, and none that may (R438). -/
theorem witness_PortsTrainReplayAndFail_replay :
    (let x := { activePort with rxSeq := 7, again := [5, 6] }
     (5 : Byte) ≠ x.rxSeq ∧ (5 : Byte) ∈ x.again ∧ (x.rxSeq - 5).toNat ≤ 64) ∧
    (let x := { activePort with retry := [(254, { idleFlit with vc := 3 }), (255, idleFlit)] }
     ∀ w ∈ [true, false], let s := { portIn x with pwr := { Pwr.reset with vcisWarn := w } }
     s.pins.thermtrip = false ∧ (x.retry.filter (fun e => (decide (x.state = .active) || decide (e.2.vc = 0)) &&
       !(decide (e.2.vc = 3) && (s.pwr.vcoreWarn || s.pwr.vcisWarn)))).length = if w then 1 else 2) ∧
    (let x := { activePort with state := .ctrlOnly, retry := [(254, { idleFlit with vc := 3 })] }
     x.alive = true ∧ (x.retry.filter (fun e => decide (e.2.vc = 0))) = []) := by decide +kernel

/-- The shaft port trains: no idle flit yet, one heard, one sent (R462). -/
theorem witness_PortsTrainReplayAndFail_shaft : ∀ x ∈ [(false, false), (true, false), (false, true)],
    let s := { linked with ports := [(8, { Port.reset with state := .training, idleHeard := x.1, idleSent := x.2 })] }
    s.silent = false ∧ (s.port 8).state = .training ∧ (s.port 8).idleHeard = x.1 ∧ (s.port 8).idleSent = x.2 := by decide +kernel

/-- The bytes of an idle flit, of DATA, and of a SEM_SIG to semaphore 255. -/
theorem witness_PortsTrainReplayAndFail_bytes : linked.receives 0 = true ∧ ([] : List Byte).length ≠ 256 ∧
    ∀ f ∈ [idleFlit, { idleFlit with vc := 3, typ := 1, payload := [9] },
      { idleFlit with typ := 6, payload := [255, 0, 0, 0] ++ leBytes 4 1 }], f.payload.length ≤ 236 := by decide +kernel

theorem witness_PortsTrainReplayAndFail :
    (linked.silent = false ∧ (linked.port 0).alive = true ∧ linked.fuse.portPresent 0 = true) ∧
    ({ flitHdr 0 with seq := 1 }.seq ≠ (linked.port 0).rxSeq) ∧
    (let x := { activePort with retry := [(254, idleFlit), (255, idleFlit)] }
     let h := { flitHdr 0 with ackSeq := 255, ackV := true }
     h.nak = false ∧ h.ackV = true ∧ x.leaving = false ∧ x.egress = [] ∧ x.retry = [(254, idleFlit)] ++ (h.ackSeq, idleFlit) :: [] ∧
       (∀ e ∈ [((254 : Byte), idleFlit)], e.1 ≠ h.ackSeq) ∧ (portIn x).pins.thermtrip = false ∧ x.retry ≠ []) ∧
    (let x := { activePort with replayed := [(0, 16)] }; x.alive = true) ∧
    (let s := portIn { Port.reset with state := .ctrlOnly, unacked := 1 }
     (s.port 0).state = .ctrlOnly ∧ 0 < (s.port 0).unacked) ∧
    ((portIn { Port.reset with state := .retrain }).port 0).state = .retrain ∧
    ((portIn { Port.reset with state := .training }).port 0).state = .training ∧
    (let s := portIn { Port.reset with state := .down }
     (s.port 0).state = .down ∧ (s.port 0).en = true ∧ (s.port 0).hubOff = false) ∧
    (let s := withCmd linked 7 { sigCmd with job := .remoteSig 0 0x10 255 }
     s.cmd 7 = some sigCmd ∧ sigCmd.origin = .queue 0) := by decide +kernel

/-! ## Witnesses: power, resets, bring-up, test access -/

def withPwr (p : Pwr) : State := { live with pwr := p }

theorem witness_SupplyWarningsHoldTheDie :
    live.rst.standby = false ∧
    (let s := withPwr { Pwr.reset with vcoreWarn := true, vcisWarn := true }
     s.pwr.vcoreWarn = true ∧ s.pwr.vcisWarn = true) ∧
    ∀ vcis ∈ [true, false], let s := withPwr { Pwr.reset with vcoreWarn := !vcis, vcisWarn := vcis }
      (s.pwr.vcoreWarn, s.pwr.vcisWarn) = (!vcis, vcis) ∧ s.rst.held = none ∧ s.pwr.halt = false ∧ s.pins.thermtrip = false := by
  decide +kernel

def withTier (t : BitVec 2) (p : Pwr) : State := { withPwr p with top := { Top.reset with tier := t } }

/-- Only VLINK's monitor acts in STANDBY (R523). -/
theorem witness_SupplyWarningsHoldTheDie_both :
    let s := withPwr { Pwr.reset with vcoreWarn := true, vcisWarn := true, coreBrown := true }
    s.rst.standby = false ∧ ∀ vcis ∈ [true, false], (if vcis then s.pwr.vcoreWarn else s.pwr.vcisWarn) = true := by decide +kernel

theorem witness_HeatStopsAndCaps :
    (let s := withPwr { Pwr.reset with temp := [(0, some 619)] }
     s.silent = false ∧ s.stopped = false ∧ s.pwr.sensed = true ∧ s.pwr.tmax < (115 + 40) * 4) ∧
    (let s := withTier 2 { Pwr.reset with reported := true }
     s.silent = false ∧ s.stopped = false ∧ s.effTier = 2 ∧ s.pwr.reported = true ∧ s.pwr.stackMiss = false) ∧
    bit (0x0400 : Half).toNat 10 = true ∧ (withTier 1 Pwr.reset).effTier = 1 ∧ (withTier 1 Pwr.reset).silent = false := by
  decide +kernel

def telPkt : Pkt := packet0 0x48 [(8, 0), (16, 0xF00)]

theorem witness_GovernorAndTelemetry :
    live.silent = false ∧ live.rst.ready = true ∧ 15 < live.fuse.tileCount ∧
    (let s := { live with time := { Time.reset with valid := true } }; s.time.valid = true ∧ s.time.lostSent = false) ∧
    (let s := { queued live telPkt with act := handleWords 0 0 0 1 }
     dispatchCheck s 0 0 telPkt [] = true ∧ telPkt.opcode = 0x48 ∧
       s.check telPkt.ctx (telPkt.handle 8) .ww (telPkt.u64 16) 256 256 = none) := by decide +kernel

/-- A frame of an array that carries operands in 5 of its 8 waves (R490). -/
theorem witness_GovernorAndTelemetry_frame :
    let i := fedRun (dtileRun false 0)
    let s := withTile { Tile.reset with arr := { Arr.reset with run := some i, duty := 5, ramp := 64 } }
    let a := (s.tile 3).arr
    s.silent = false ∧ s.rst.ready = true ∧ 3 < s.fuse.tileCount ∧ a.run = some i ∧ (∀ n, n < operandWaves i → i.holds n = true) ∧
      a.fired + 8 ≤ operandWaves i ∧ a.place = 0 ∧ a.ramp = 64 ∧ a.duty.toNat ≤ 8 := by decide +kernel

theorem witness_ResetsKeepWhatTheTableKeeps :
    live.rst.held = none ∧ live.pins.pwrgdAux = true ∧ live.rst.standby = false := by decide

/-- RST_N is low while PWRGD_CORE falls: TESTOK ends (R558). -/
theorem witness_ResetsKeepWhatTheTableKeeps_testok :
    let s := { live with pins := { live.pins with rstN := false, pwrgdCore := true } }
    s.rst.held = none ∧ s.pins.pwrgdAux = true ∧ (s.pins.rstN, s.pins.pwrgdCore, false) = (false, true, false) := by decide

theorem witness_BringUpReachesReady :
    (State.reset.rst.held = some .cold ∧ (State.reset.pwr.coreBrown, State.reset.pwr.cisBrown) = (false, false)) ∧
    (let s := { State.reset with rst := { Rst.reset with held := some .brownout }, pwr := { Pwr.reset with cisBrown := true } }
     s.rst.held = some .brownout ∧ s.pwr.cisBrown = true) ∧
    (let s := { State.reset with rst := { Rst.reset with held := none } }
     s.silent = false ∧ s.rst.fuseDone = false ∧ s.fuse.imageOk = true ∧ s.rst.kind ≠ .warm) ∧
    (let s := { State.reset with rst := { Rst.reset with held := none }, fuse := { Fuse.reset with imageOk := false } }
     s.silent = false ∧ s.rst.fuseDone = false ∧ s.fuse.imageOk = false) ∧
    (let s := { State.reset with rst := { Rst.reset with held := none, fuseDone := true } }
     s.silent = false ∧ s.rst.fuseErr = false ∧ s.rst.testDone = false ∧ 63 < s.fuse.tractCount ∧
       (s.bank 63 15).spareOf 511 = none ∧ (s.bank 63 15).freeSpare = some 0) ∧
    (let s := { State.reset with
       rst := { Rst.reset with held := none, fuseDone := true }
       ports := (List.range 9).map (fun p => (p, { Port.reset with trained := true })) }
     s.silent = false ∧ s.rst.windowDone = false ∧
       ∀ p, p < 9 → s.portUsable p = true → (s.port p).en = true → (s.port p).trained = true) ∧
    (let s := { live with rst := { live.rst with ready := false } }
     s.silent = false ∧ s.rst.ready = false ∧ s.rst.fuseErr = false ∧ s.rst.zeroDone = true ∧ s.rst.windowDone = true) := by
  decide +kernel

/-- With TESTOK 1 (RST_N low while PWRGD_CORE is high), with physical tile 15 selected, and with TESTOK 0 (RST_N high). -/
theorem witness_TestAccessScans :
    State.reset.pins.pwrgdAux = true ∧ State.reset.pins.trstN = true ∧
    (let s := { live with pins := { live.pins with trstN := false } }; s.pins.trstN = false) ∧ (!State.reset.pins.rstN && State.reset.pins.pwrgdCore) = true ∧
    (let s := { State.reset with tap := { Tap.reset with wrapSel := 0x8000 } }
     s.selected = [15] ∧ s.tap.wsOf 15 = 0) ∧
    (!live.pins.rstN && live.pins.pwrgdCore) = true ∧
    (let s := { live with pins := { Pins.reset with rstN := true } }
     s.pins.pwrgdAux = true ∧ (!s.pins.rstN && s.pins.pwrgdCore) = false) ∧
    openIr 0x05 = false ∧ gatedIr 0x05 = false := by decide +kernel

/-- TESTOK 0, and a code that Table PHY-7 does not list. -/
theorem witness_OtherTestCodesActAsBypass :
    live.pins.pwrgdAux = true ∧ live.pins.trstN = true ∧ (0x05 : Byte) ∉ ([0x01, 0x02, 0x10, 0x12, 0x30] : List Byte) ∧
      (0x05 : Byte) ∉ ([0x00, 0x03, 0x04, 0x11, 0x13, 0x14, 0x31] : List Byte) ∧
    (let s := { live with pins := { Pins.reset with rstN := true } }
     s.pins.pwrgdAux = true ∧ (!s.pins.rstN && s.pins.pwrgdCore) = false) := by decide +kernel

/-! ## Witnesses: Lark -/

/-- Handle 3 of context 1 holds 256 KiB: room for one buffer of a 2 × 2 stream (Table LRK-4: 164,096 bytes). -/
def larkBase : State := { live with act := handleWords 1 3 32 64 ++ setA }
def openPkt : Pkt :=
  packet 0x43 [(9, 63), (10, 2), (11, 1), (12, 2), (14, 2), (16, 8), (18, 3), (32, 164096), (45, 51), (46, 1), (47, 1)]
def stream (mode : Nat) : Stream := { streamOf openPkt with mode := mode }
def withStream (s : State) (x : Stream) (fs : List Frame) : State := { s with lrk := { Lrk.reset with streams := [(63, x)], frames := fs } }
def frameOf (kind : FrameKind) (cls : Nat) : Frame :=
  { id := 7, slot := 9, ctx := 1, cls := cls, kind := kind, stream := some 63, bufs := [0], target := some 0, missing := 0
    bytes := leBytes 96 (2 ^ 96), data := stOK, started := false }

theorem witness_LarkPacketsAct_stream :
    (let s := queued larkBase openPkt
     dispatchCheck s 0 0 openPkt [] = true ∧ openPkt.opcode = 0x43 ∧ (s.act.range 1).hasStream 63 = true ∧
       openPkt.byte 8 = 0 ∧ (s.stream 63).opened = false ∧ levelOk (openPkt.byte 10) (openPkt.u16 12) (openPkt.u16 14) = true ∧
       (streamOf openPkt).openOk = true ∧ s.poolRange 1 (streamOf openPkt) = none) ∧
    (let p := packet 0x43 [(8, 1), (9, 63), (12, 0xFFFF), (14, 3)]
     let s := withStream (queued larkBase p) (stream 2) []
     dispatchCheck s 0 0 p [] = true ∧ p.byte 8 = 1 ∧ (s.stream 63).opened = true ∧ p.byte 14 ≤ 3 ∧ s.framesOf 63 = []) ∧
    (let p := packet 0x43 [(8, 2), (9, 63)]
     let s := withStream (queued larkBase p) (stream 2) []
     dispatchCheck s 0 0 p [] = true ∧ p.byte 8 = 2 ∧ (s.stream 63).opened = true ∧ s.framesOf 63 = []) := by decide +kernel

/-- What the standards' syntax block holds is Config's, and open (log 26): the statement's hypotheses on Config are left to
it; all others are met. -/
theorem witness_LarkPacketsAct_decode :
    let p := packet 0x40 [(8, 63), (10, 2), (11, 2), (12, 3), (13, 2), (16, 256), (24, 0x100), (32, 0xF000)]
    let s := withStream (queued larkBase p) (stream 0) []
    dispatchCheck s 0 0 p [] = true ∧ p.opcode = 0x40 ∧ (s.act.range 1).hasStream 63 = true ∧ (s.stream 63).opened = true ∧
      (s.framesOf 63).length < 8 ∧ p.byte 9 < (s.stream 63).bufs ∧ ((s.stream 63).bufAt (p.byte 9)).mark = 0 ∧
      ((s.stream 63).bufAt (p.byte 9)).refcnt = 0 ∧ s.poolRange 1 (s.stream 63) = none ∧ (s.stream 63).mode ≤ 1 ∧
      1 ≤ p.byte 12 ∧ p.byte 12 ≤ 3 ∧ s.chk 1 (p.handle 10) .wr (p.u64 24) (p.u32 16) = none ∧
      s.checkRange 1 (p.handle 11) .wr (p.u64 32) 64 = none ∧ (s.stream 63).grain = false ∧
      fieldAt (handleBytes s 1 (p.handle 11) (p.u64 32) 64) 0 4 = (s.stream 63).mode := by decide +kernel

theorem witness_LarkPacketsAct_encode :
    let p := packet 0x41 [(8, 63), (10, 1), (11, 2), (12, 2), (13, 1), (32, 256), (44, 2), (46, 2), (52, 2), (54, 2)]
    let s := withStream (queued larkBase p) (stream 2) []
    dispatchCheck s 0 0 p [] = true ∧ p.opcode = 0x41 ∧ (s.stream 63).mode = 2 ∧ 1 ≤ p.byte 13 ∧ p.byte 13 ≤ 3 ∧
      p.byte 12 ≤ 2 ∧ p.byte 14 = (if (s.stream 63).depth = 10 then 1 else 0) ∧ s.poolRange 1 (s.stream 63) = none ∧
      (geometryOf p.bytes 48 (p.byte 15) false (s.stream 63).width (s.stream 63).height).fits (p.u16 44) (p.u16 46) = true ∧
      s.checkRange 1 (p.handle 10) .wr (p.u64 16) (layoutOf (p.u16 44) (p.u16 46) (s.stream 63).depth).picture = none ∧
      s.chk 1 (p.handle 11) .ww (p.u64 24) (p.u32 32) = none := by decide +kernel

def preformBytes : List Byte := (packet 0x42 [(8, 1), (9, 2), (10, 2), (24, 256), (28, 2), (30, 2), (36, 2), (38, 2), (40, 2),
  (42, 2), (80, 0xFF), (81, 0xFF)]).bytes

theorem witness_LarkPacketsAct_preform :
    let p := pkt preformBytes
    let s := queued larkBase p
    let a := preformOf (s.stream (p.byte 80)) p.bytes
    dispatchCheck s 0 0 p [] = true ∧ p.opcode = 0x42 ∧ (s.preformSource p).isNone = true ∧ a.bad (p.byte 14) = false ∧
      s.chk 1 a.handle .wr a.off a.inBytes = none ∧ s.chk 1 a.out .ww a.outOff a.outBytes = none := by decide +kernel

/-- A block of kind 0 without values selects no profile of Table LRK-1. -/
theorem witness_LarkPacketsAct_notListed :
    let y : Syntax := { kind := 0, parts := [], segs := [] }
    y.elem .profileIdc ∉ [1, 2, 3] := by
  show ¬ _
  rw [show ({ kind := 0, parts := [], segs := [] } : Syntax).elem .profileIdc = 0 from rfl]
  decide

def engineState (f : Frame) (e : Nat) (g : Engine) : State :=
  let s := withCmd (withStream larkBase (stream (if f.kind = .encode then 2 else 0)) [f]) 9 (queueCmd 0x40 (.lark 7))
  { s with lrk := { s.lrk with engines := [(e, g)] } }

theorem witness_LarkEnginesRunFrames_start :
    (∀ e ∈ [0, 3], let s := engineState (frameOf .decode 7) e Engine.reset
      s.silent = false ∧ s.stopped = false ∧ (∃ f ∈ s.readyFrames 0, f.cls < 8) ∧
        (∃ e ∈ pipeEngines 0, (s.engine e).frame = none ∧ (s.engine e).suspended = none)) ∧
    (let f := { frameOf .decode 0 with id := 8, stream := none }
     let s := { engineState (frameOf .decode 1) 0 Engine.reset with
       lrk := { (engineState (frameOf .decode 1) 0 Engine.reset).lrk with
         frames := [{ frameOf .decode 1 with started := true }, f]
         engines := [0, 1, 2, 3].map (fun e => (e, { Engine.reset with frame := some 7 })) } }
     (∀ e ∈ pipeEngines 0, (s.engine e).frame ≠ none) ∧ (∀ e ∈ pipeEngines 0, (s.engine e).toSuspend = false) ∧
       s.readyFrames 0 = [f] ∧ f.cls = 0 ∧ s.engineClass 3 = some 1 ∧ (s.engine 3).suspended = none) := by decide +kernel

theorem witness_LarkEnginesRunFrames_turns :
    (let s := engineState (frameOf .decode 1) 3 { Engine.reset with frame := some 7, toSuspend := true }
     s.silent = false ∧ (s.engine 3).stopped = false ∧ (s.engine 3).toSuspend = true ∧ (s.engine 3).frame = some 7) ∧
    (let s := engineState { frameOf .decode 1 with started := true } 3 { Engine.reset with suspended := some 7 }
     s.stopped = false ∧ (s.engine 3).frame = none ∧ (s.engine 3).suspended = some 7 ∧
       ∀ x ∈ s.readyFrames (enginePipe 3), x.cls ≠ 0) ∧
    (withPwr { Pwr.reset with halt := true }).stopped = true := by decide +kernel

theorem witness_LarkEnginesRunFrames_end :
    ∀ x ∈ [(FrameKind.decode, 0), (.encode, 4), (.preform, 5)],
      let f := if x.1 = .preform then { frameOf .preform 1 with stream := none, bufs := [], target := none, bytes := preformBytes }
        else frameOf x.1 1
      let s := engineState f x.2 { Engine.reset with frame := some 7 }
      (s.engine x.2).stopped = false ∧ (s.engine x.2).frame = some f.id ∧ s.frame f.id = some f ∧
        s.cmd f.slot = some (queueCmd 0x40 (.lark 7)) ∧ f.bufs.Nodup ∧ f.kind = x.1 ∧
        (x.1 = .preform ∨ (f.stream = some 63 ∧ f.target = some 0 ∧ 0 ∈ f.bufs ∧ (byteAt f.bytes 12).toNat = 1)) := by
  decide +kernel

/-- References at places 0 and 2 of four, place 1 missing, place 3 unused. -/
theorem witness_LarkEnginesRunFrames_references :
    let p := packet 0x41 [(12, 1), (57, 1), (58, 2), (59, 0xFF)]
    let x := { stream 2 with bufs := 3 }
    p.byte 12 ≤ 2 ∧ bit (2 : Half).toNat 1 = true ∧ p.byte (56 + 0) < x.bufs ∧ p.byte (56 + 2) < x.bufs ∧
      x.bufs ≤ p.byte (56 + 3) ∧ encodeBufs x p.bytes 2 = [0, 0, 2] ∧ x.qpMin ≤ x.qpMax := by decide +kernel

/-- The field of two references over one block: the lower reference on a tie (R419). -/
theorem witness_LarkEnginesRunFrames_field :
    let x := { stream 2 with width := 16, height := 16 }
    let found : List (List ((Int × Int) × Nat)) := [[((4, 0), 7)], [((0, 4), 7)]]
    found ≠ [] ∧ (∀ v ∈ found, v.length = x.blockCols * x.blockRows) ∧ 0 < x.blockCols * x.blockRows ∧
      x.nextField found = [(4, 0)] := by decide +kernel

/-! ## Witnesses: the whole die -/

theorem witness_MemoryStaysCanonical :
    let s := { pagesState poolNode nodeMem with pending := [.tileHold 0x8000] }
    CanonicalMemory s ∧ step s = .next { s with pending := [], pmh := { s.pmh with tileHold := 0x8000 } } := by
  refine ⟨?_, ?_⟩
  · unfold CanonicalMemory; decide +kernel
  · rfl

/-! ## The manual's worked examples -/

/-- 01, "a 12-grade map". -/
theorem test_tile_map_12_grade :
    let f := { Fuse.reset with grade12 := true, present := 0x7BDB }
    f.tileMap = 0x0000EDCB98764310 ∧ f.physTile 4 = 6 ∧ tileDist (f.physTile 2) (f.physTile 9) = 6 := by decide +kernel

/-- 23, "the IDCODE of an LXJ-M12P". -/
theorem test_idcode_m12p : ({ Fuse.reset with series := 1, grade12 := true, planar := true } : Fuse).idcode = 0x04A67BC7 := by
  decide +kernel

/-- 04, "translating an offset": ILV 2, FIRST 8, BASE 0x100, LENGTH 4,096. -/
theorem test_translate_offset :
    (descOfNat (1 + 2 ^ 8 * 2 + 2 ^ 16 * 8 + 2 ^ 32 * 0x100 + 2 ^ 64 * 4096)).translate 0x123400 = 0x08148D00 := by decide +kernel

/-- 05, "decoding": the columns of data bits 0 and 2, a flip of bit 2, of bits 1 and 2. -/
theorem test_check_bits_of_bit_0 : checkBits (1 :: List.replicate 31 0) = 7 := by decide +kernel
theorem test_syndrome_of_flips : wordState (0x007 ^^^ checkBits (5 :: List.replicate 31 0)) = .correctable (some 2) ∧
    wordState (0x007 ^^^ checkBits (7 :: List.replicate 31 0)) = .uncorrectable := by decide +kernel

/-- 06, "one block into E4M3". -/
theorem test_block_into_e4m3 :
    let r := blockConvert fE4M3 false .one
      (([0x40400000, 0xC0400000, 0x4039999A, 0x3C23D70A, 0x38D1B717] ++ List.replicate 27 0).map val32)
    r.1 = 0x78 ∧ r.2.out.take 6 = [0x7C, 0xFC, 0x7C, 0x3A, 0, 0] ∧ r.2.fl = flUF ||| flNX := by decide +kernel

def firstTwo (f a b : Nat) (k : Nat) : Val := elemVal f false (if k = 0 then a else if k = 1 then b else 0)

/-- 07, "FP8 E4M3 with block scales". -/
theorem test_dot_e4m3 :
    let r := mtileCell fE4M3 fE4M3 kindFp32 (firstTwo fE4M3 0x3C 0xB0) (firstTwo fE4M3 0x40 0x44) (fun _ => 0x80) (fun _ => 0x7F)
      0x4B800000
    r.out = 0x4B800002 ∧ r.fl = flNX := by decide +kernel

/-- 07, "BF16 beyond the window". -/
theorem test_dot_bf16_window :
    let r := mtileCell fBF16 fBF16 kindFp32 (firstTwo fBF16 0x5380 0x3F81) (firstTwo fBF16 0x3F80 0x3581) (fun _ => 0x7F)
      (fun _ => 0x7F) 0xD3800000
    r.out = 0x35800000 ∧ r.fl = flNX := by decide +kernel

/-- 07, "an S2 product", and what S3 reaches. -/
theorem test_split_products :
    (splitCell false (firstTwo fFP32 0x3F802008 0) (firstTwo fFP32 0x40400000 0) 0).out = 0x40403000 ∧
      (splitCell true (firstTwo fFP32 0x3F802008 0) (firstTwo fFP32 0x40400000 0) 0).out = 0x4040300C := by decide +kernel

/-- 16, "penalties, min-p and one draw", its three tokens as ids 0, 1 and 2. -/
theorem test_candidates_and_draw :
    let p := slotParams [0x31, 0, 0x3F800000, 0x3F800000, 0x3E99999A, 0x40000000, 0, 0x3E800000]
    let l := p.candidates [(1, 2)] [0x40000000, 0x3F800000, 0x3F000000]
    l.out.map (fun t => (t.id, t.w, t.cum)) = [(0, 0x3F800000, 0x3F800000), (2, 0x3EB504F3, 0x3FAD413D)] ∧
      (drawFrom l.out (.num false 0xC00000 (-24))).out = 2 := by decide +kernel

/-- 17, "a row-wise QP rise", the first five rows. -/
theorem test_rate_rows :
    (rateRows (fun _ r _ => ([12500, 11000, 12000, 10500].getD r 0, ())) { Stream.reset with qpStep := 1, qpMax := 40 } 400000 34 5 0 30
      0 ()).1
      = [30, 31, 31, 32, 32] := by decide +kernel

/-- 18, "a sparse segment": 144 payload bytes decode to eight lines. -/
theorem test_zero_run_line :
    dataBytes true ((List.replicate 8 (0x01 :: List.replicate 16 (7 : Byte) ++ [0x9D])).flatten) 2048
      = some ((List.replicate 8 (List.replicate 16 (7 : Byte) ++ List.replicate 240 0)).flatten) := by decide +kernel

/-- 18: the CRC-32C of the nine characters "123456789" is 0xE3069283 (its published check value). -/
theorem test_crc32c : crc32c [0x31, 0x32, 0x33, 0x34, 0x35, 0x36, 0x37, 0x38, 0x39] = 0xE3069283 := by decide +kernel

/-- 19, "site 7 of module 0x2A3". -/
theorem test_ports_of_orient_3 :
    let s := { live with top := { Top.reset with orient := 3, site := 7, module := 0x2A3 } }
    s.dieId = 0x2A37 ∧ (List.range 8).map (logicalPort 3) = [6, 7, 0, 1, 2, 3, 4, 5] := by decide +kernel

def upperDie (report : Half) (cap : BitVec 4) : State :=
  withTier 2 { Pwr.reset with reported := true, lower := 0x400 ||| report, capStack := cap }

/-- 20 Table PWR-5: 96.00 °C lowers the cap, 94.00 °C holds it, 91.75 °C raises it; no report caps at 4/8. -/
theorem test_stack_cap :
    (after (exec .stackCapTick (upperDie 0x220 8))).pwr.capStack = 7 ∧ (after (exec .stackCapTick (upperDie 0x218 5))).pwr.capStack = 5 ∧
      (after (exec .stackCapTick (upperDie 0x20F 5))).pwr.capStack = 6 ∧
      (after (exec .stackReportTimeout (upperDie 0x20F 6))).pwr.capStack = 4 := by decide +kernel

/-- 23, "the address of a tile register": VEC_AMAX of logical tile 9, VEC_QSCALE, then a reserved word. -/
theorem test_register_of_tile_9 :
    let s := { live with tiles := [(9, { Tile.reset with vec := { Vec.reset with amax := 5 } })] }
    s.ctrlRead 0x494044 = 5 ∧ s.ctrlRead 0x494048 = 0x3F800000 ∧ s.ctrlRead 0x49404C = 0 := by decide +kernel

/-! ## Single steps -/

/-- Scalar slot word of Table WRN-2: RD 5, RA 1, RB 2. -/
def alu (op : Nat) : Nat := op + 2 ^ 10 * 5 + 2 ^ 15 * 1 + 2 ^ 20 * 2
def withAB (a b : DWord) (w : Nat) : State := (slotAt 0 w).setWren 3 (fun x => { x with x := [(1, a), (2, b)] })
def x5 (o : Host.Outcome State Fault Refusal) : DWord := readX (wrenOf (after o) 3).x 5

theorem test_add_wraps : x5 (exec (.add 3) (withAB 0xFFFFFFFFFFFFFFFF 2 (alu 1))) = 1 := by decide +kernel
theorem test_sub_order : x5 (exec (.sub 3) (withAB 1 2 (alu 2))) = 0xFFFFFFFFFFFFFFFF := by decide +kernel
theorem test_mul_low : x5 (exec (.mul 3) (withAB 0xFFFFFFFFFFFFFFFF 3 (alu 3))) = 0xFFFFFFFFFFFFFFFD := by decide +kernel
theorem test_shr_count_mod_64 : x5 (exec (.shr 3) (withAB 0x8000000000000000 65 (alu 8))) = 0x4000000000000000 := by decide +kernel
theorem test_sra_sign : x5 (exec (.sra 3) (withAB 0x8000000000000000 63 (alu 9))) = 0xFFFFFFFFFFFFFFFF := by decide +kernel
theorem test_addi_signed : x5 (exec (.addi 3) (withAB 5 0 (0x0A + 2 ^ 10 * 5 + 2 ^ 15 * 1 + 2 ^ 20 * 0xFFF))) = 4 := by decide +kernel
/-- RD is a source of LIMM. -/
theorem test_limm_appends :
    x5 (exec (.limm 3) ((slotAt 0 (0x0B + 2 ^ 10 * 5 + 2 ^ 20 * 0xABC)).setWren 3 (fun x => { x with x := [(5, 0x123)] }))) = 0x123ABC := by
  decide +kernel
/-- PD 5: −1 is below 1 signed, not unsigned. -/
theorem test_compare_signs :
    (wrenOf (after (exec (.cmplt 3) (withAB (-1) 1 (alu 0x11)))) 3).p = 0x21 ∧
      (wrenOf (after (exec (.cmpltu 3) (withAB (-1) 1 (alu 0x12)))) 3).p = 1 := by decide +kernel
/-- Predicate 0 is hard-wired to 1 (R224). -/
theorem test_p0_reads_one : (wrenOf (after (exec (.pnot 3) (slotAt 0 0x15))) 3).p = 1 := by decide +kernel
/-- HINT 0 and a guard that holds: a misprediction (R233). -/
theorem test_br_target :
    (let w := wrenOf (after (exec (.br 3) (slotAt 0 (0x20 + 2 ^ 11 * 700)))) 3
     w.target = some 700 ∧ w.mispred = 1) := by decide +kernel

/-- R236: a signal saturates. -/
theorem test_tile_sem_saturates :
    let s := (withSig (sigTo (some 3))).setWren 3 (fun w => { w with tsem := [(63, 9)] })
    spGet 0 (wrenOf (after (exec (.tileSemArrive 4) s)) 3).tsem 63 = 0xFFFFFFFF := by decide +kernel
/-- R266, R269. -/
theorem test_sem_signal_saturates :
    let p := packet 3 [(8, 255), (12, 0xFFFFFFFF)]
    let s := queued { live with pmh := { Pmh.reset with sem := [(255, 9)] } } p
    (after (exec (.semSignal 0) s)).semOf 255 = 0xFFFFFFFF := by decide +kernel
/-- R282: bit t holds logical tile t. -/
theorem test_tile_hold : (after (exec (.tileHold 0x8000) live)).pmh.tileHold = 0x8000 := by decide +kernel
/-- VCORE and VCIS recover one after the other: one hold is counted (R487). -/
theorem test_hold_counts_once :
    let s := withPwr { Pwr.reset with vcoreWarn := true, vcisWarn := true }
    let a := after (exec (.supplyWarningDeassert false 750) s)
    a.pwr.holds = 0 ∧ (after (exec (.supplyWarningDeassert true 750) a)).pwr.holds = 1 := by decide +kernel
/-- 8 bytes narrow-read little-endian from a bank (R79, R13). -/
theorem test_bank_read :
    let s := withAccess (access 24 (.readNarrow 8))
    ((after (exec (.bankSlot 0 3) { s with cis := { s.cis with mem := [(0x318, 1), (0x31F, 2)] } })).cis.resps.map (fun r => r.data))
      = [[1, 0, 0, 0, 0, 0, 0, 2]] := by decide +kernel
/-- FILL repeats PATTERN (R264): the byte at offset 0xFF00 + 9 of handle 2, at granule 16 of tract 0. -/
theorem test_fill_pattern :
    let s := after (exec (.fill 0) (queued live fillPkt))
    spGet (0 : Byte) s.cis.mem (s.phys 1 2 (0xFF00 + 9)) = 2 := by decide +kernel
/-- IDCODE of the reset part: 0x04A6_0BC7 is SERIES 0, GRADE 0, BOND 0 (R555). -/
theorem test_idcode_scan : (after (exec .idcode State.reset)).tap.tdo.drop 8 = bitList 0x04A60BC7 32 := by decide +kernel
/-- An empty queue: one wave passes (log 3). -/
theorem test_idle_step : step State.reset = .next { State.reset with time := { Time.reset with wave := 1 } } := rfl
/-- A bundle whose vector slot waits for the engine holds the Wren, and the wave is counted (R204, Table WRN-7). -/
theorem test_stall_counts :
    let stalls := fun (s : State) => (wrenOf (waveTick s) 3).stalls
    stalls (slotAt 3 1) = 0 ∧ stalls ((slotAt 3 1).setVec 3 (fun v => { v with busy := true })) = 1 := by decide +kernel

end Sys2Proof.Tests
end

section

namespace Sys2Proof.Machine

/-- Settles O1: `step` chooses by the queue alone, and a queue with `c` in front takes its second branch. -/
theorem stepRunsTheFrontCommand : Obligations.StepRunsTheFrontCommand := by
  intro c rest s hfront
  rw [step, hfront]

end Sys2Proof.Machine

end

section

namespace Sys2Proof.Machine

/-! ## Zero fill (R99) -/

/-- A walk of every line finds no check bits left to read back in its tract, so it does nothing but clear. -/
theorem walkEffect_of_all (s : State) (tr : Nat) {w : Walk} (hw : w.all = true) :
    s.walkEffect tr w = { s with cis := { s.cis with
      mem := s.cis.mem.filter (fun e => !decide (e.1 / 2 ^ 24 = tr))
      synd := s.cis.synd.filter (fun e => !decide (32 * e.1 / 2 ^ 24 = tr)) } } := by
  have hclears : ∀ a, w.clears a = true := fun a => by simp [Walk.clears, hw]
  have hbad : ((s.cis.synd.filter (fun e => !decide (32 * e.1 / 2 ^ 24 = tr))).map (fun e => e.1)).filter
      (fun k => decide (32 * k / 2 ^ 24 = tr)) = [] := by
    simp [List.filter_eq_nil_iff]
  simp only [State.walkEffect, hclears, Bool.and_true, hbad]
  rfl

/-- A tract that goes to CLEARING reads zero everywhere; other tracts keep their bytes. -/
theorem memByte_clearTract (s : State) (tr a : Nat) :
    memByte (s.clearTract tr) a = if a / 2 ^ 24 = tr then 0 else memByte s a := by
  simp only [State.clearTract, State.startWalk, walkEffect_of_all, memByte, State.setWalk, State.setTract_cis_mem]
  rw [spGet_filter (fun k => !decide (k / 2 ^ 24 = tr))]
  simp [Memory.default]

@[simp] theorem tractFailed_clearTract (s : State) (tr t : Nat) : (s.clearTract tr).tractFailed t = s.tractFailed t := by
  simp only [State.clearTract, State.startWalk, walkEffect_of_all, State.tractFailed, State.setWalk,
    State.setTract_cis_tractFail]

/-- Clearing the tracts of a list that have not failed: one of them reads zero afterwards, whatever stood in it. -/
theorem memByte_clearTracts (l : List Nat) (a : Nat) : ∀ s : State, s.tractFailed (a / 2 ^ 24) = false →
    (a / 2 ^ 24 ∈ l ∨ memByte s a = 0) →
    memByte (l.foldl (fun s t => if s.tractFailed t then s else s.clearTract t) s) a = 0 := by
  induction l with
  | nil => intro s _ h; simpa using h
  | cons t l ih =>
    intro s hf h
    rw [List.foldl_cons]
    by_cases ht : s.tractFailed t = true
    · have hne : a / 2 ^ 24 ≠ t := fun he => by rw [he, ht] at hf; contradiction
      rw [if_pos ht]
      exact ih s hf (h.imp_left (fun h => (List.mem_cons.1 h).resolve_left hne))
    · rw [if_neg ht]
      refine ih _ (by simpa using hf) ?_
      rw [memByte_clearTract]
      by_cases he : a / 2 ^ 24 = t
      · exact .inr (if_pos he)
      · rw [if_neg he]
        exact h.imp_left (fun h => (List.mem_cons.1 h).resolve_left he)

@[simp] theorem memByte_zeroFilled (s : State) (a : Nat) : memByte s.zeroFilled a = memByte s a := by
  unfold State.zeroFilled
  split <;> rfl

/-- Zero fill leaves zero in every present tract that has not failed (R99). -/
theorem memByte_zeroFill {s : State} {a : Nat} (hp : a / 2 ^ 24 < s.fuse.tractCount)
    (hf : s.tractFailed (a / 2 ^ 24) = false) : memByte s.zeroFill a = 0 := by
  rw [State.zeroFill, memByte_zeroFilled]
  exact memByte_clearTracts _ a _ hf (.inl (List.mem_range.2 hp))

/-- The die after fuse load, with the byte 1 at address 0. -/
def byteBeforeSelfTest : State :=
  { State.reset with
    rst := { Rst.reset with held := none, fuseDone := true }
    cis := { Cis.reset with mem := [(0, 1)] } }

/-- No tract has failed, so a self-test without a failing row goes straight to zero fill. -/
theorem selfTestDone_byteBeforeSelfTest : selfTestDone [] byteBeforeSelfTest = byteBeforeSelfTest.zeroFill := by
  have hnone : byteBeforeSelfTest.presentTracts.filter byteBeforeSelfTest.tractFailed = [] := by decide
  have hruns : (byteBeforeSelfTest.silent || !byteBeforeSelfTest.rst.fuseDone || byteBeforeSelfTest.rst.fuseErr ||
    byteBeforeSelfTest.rst.testDone) = false := by decide
  simp [selfTestDone, hruns, hnone]

/-- Refutes O54: its self-test clause asks for the memory as it was and for the zero fill of every tract, and a zero walk
takes its effect as it starts (R99, log 75). The clause does not ask that memory be zero before: the byte 1 at address 0 of
`byteBeforeSelfTest` is gone after SELF_TEST_DONE. -/
theorem not_bringUpReachesReady : ¬ Obligations.BringUpReachesReady := by
  unfold Obligations.BringUpReachesReady
  rintro ⟨-, -, -, -, hself, -, -⟩
  obtain ⟨s', hexec, -, ⟨hmem, -⟩, -⟩ := hself [] byteBeforeSelfTest (by decide) (by decide) (by decide) (by decide)
  have hs' : byteBeforeSelfTest.zeroFill = s' := by
    rw [← selfTestDone_byteBeforeSelfTest]
    exact Host.Outcome.next.inj hexec
  have hzero : memByte s' 0 = 0 := hs' ▸ memByte_zeroFill (a := 0) (by decide) (by decide)
  have hkept : memByte s' 0 = 1 := by rw [memByte, hmem]; rfl
  exact absurd (hzero.symm.trans hkept) (by decide)

end Sys2Proof.Machine

end

section

namespace Sys2Proof.Machine

/-! ## Commands that go on in flight (R268, R273) -/

theorem setJob_of_cmd {s : State} {k : Nat} {c : Cmd} (h : s.cmd k = some c) (j : Job) :
    s.setJob k j = s.setCmd k (some { c with job := j }) := by
  rw [State.setJob, h]

theorem cmd_setJob_same {s : State} {k : Nat} {c : Cmd} (h : s.cmd k = some c) (j : Job) :
    (s.setJob k j).cmd k = some { c with job := j } := by
  rw [setJob_of_cmd h, State.cmd_setCmd_same]

theorem cmd_setJob_other {s : State} {k n : Nat} {c : Cmd} (h : s.cmd k = some c) (j : Job) (hn : n ≠ k) :
    (s.setJob k j).cmd n = s.cmd n := by
  rw [setJob_of_cmd h, State.cmd_setCmd_other s k n _ hn]

theorem onlyPumphouse_setCmd {s u : State} (h : OnlyPumphouse s u) (k : Nat) (c : Option Cmd) :
    OnlyPumphouse s (u.setCmd k c) := h

theorem samePumphouse_setCmd {s u : State} (h : SamePumphouse s u) (k : Nat) (c : Option Cmd) :
    SamePumphouse s (u.setCmd k c) := h

theorem atDispatch_samePumphouse (s : State) (q k : Nat) (p : Pkt) : SamePumphouse s (atDispatch s q k p) := rfl

@[simp] theorem queue_setCmd (s : State) (k : Nat) (c : Option Cmd) (q : Nat) : (s.setCmd k c).queue q = s.queue q := rfl

@[simp] theorem tile_setCmd (s : State) (k : Nat) (c : Option Cmd) (t : Nat) : (s.setCmd k c).tile t = s.tile t := rfl

/-- A job is a matter of the Pumphouse alone. -/
theorem setJob_frame (s : State) (k : Nat) (j : Job) : { s.setJob k j with pmh := s.pmh } = s := by
  unfold State.setJob
  split <;> rfl

@[simp] theorem setJob_cis (s : State) (k : Nat) (j : Job) : (s.setJob k j).cis = s.cis :=
  (congrArg (fun x : State => x.cis) (setJob_frame s k j) :)

@[simp] theorem tile_setJob (s : State) (k : Nat) (j : Job) (t : Nat) : (s.setJob k j).tile t = s.tile t :=
  (congrArg (fun x : State => x.tile t) (setJob_frame s k j) :)

/-- A packet whose command goes on in flight holds its slot with that job, and no completion waits. -/
theorem inFlight_of_run {s : State} {q k : Nat} {p : Pkt} {rest : List Pkt} (h : DispatchReady s q k p rest) (j : Job) :
    InFlight s ((DispOut.run (atDispatch s q k p) j).apply s k) q k p rest j := by
  have hc := atDispatch_cmd s q k p
  rw [DispOut.apply, setJob_of_cmd hc]
  exact {
    queue := by rw [queue_setCmd, atDispatch_queue h.head]
    queues := fun r hr => by rw [queue_setCmd, atDispatch_queue_other s q k p hr]
    cmd := State.cmd_setCmd_same ..
    cmds := fun n hn => by rw [State.cmd_setCmd_other _ _ _ _ hn, atDispatch_cmd_other s q k p hn]
    compl := by rw [State.setCmd_pmh_compl, atDispatch_compl, List.append_nil]
    serial := by rw [State.setCmd_pmh_serial, atDispatch_serial] }

/-- Such a packet changes nothing outside the Pumphouse's books and the queues. -/
theorem run_apply_frame (s : State) (q k : Nat) (p : Pkt) (j : Job) :
    OnlyPumphouse s ((DispOut.run (atDispatch s q k p) j).apply s k) ∧
      SamePumphouse s ((DispOut.run (atDispatch s q k p) j).apply s k) := by
  rw [DispOut.apply, setJob_of_cmd (atDispatch_cmd s q k p)]
  exact ⟨onlyPumphouse_setCmd (atDispatch_frame s q k p) .., samePumphouse_setCmd (atDispatch_samePumphouse s q k p) ..⟩

/-- A command that takes another job and then ends, ends as it would have before. -/
theorem finish_setJob {s : State} {q k : Nat} {c : Cmd} (hc : s.cmd k = some c) (hq : c.origin = .queue q) (j : Job)
    (st : Half) (reason : Byte) (fl : BitVec 4) (data : List Byte) :
    Finished s ((s.setJob k j).finish k st reason fl data) q k c st reason fl data := by
  obtain ⟨hcmd, hother, hqueues, hcompl⟩ := finish_queue (cmd_setJob_same hc j) hq st reason fl data
  refine ⟨hcmd, fun n hn => (hother n hn).trans (cmd_setJob_other hc j hn), ?_, ?_⟩
  · rw [hqueues, setJob_of_cmd hc, State.setCmd_queues]
  · rw [hcompl, setJob_of_cmd hc, State.setCmd_pmh_compl]

/-- Such an end changes nothing outside the Pumphouse. -/
theorem finish_setJob_frame {s : State} {q k : Nat} {c : Cmd} (hc : s.cmd k = some c) (hq : c.origin = .queue q) (j : Job)
    (st : Half) (reason : Byte) (fl : BitVec 4) (data : List Byte) :
    { (s.setJob k j).finish k st reason fl data with pmh := s.pmh } = s := by
  have hfinish := finish_queue_frame (cmd_setJob_same hc j) hq st reason fl data
  have hjob := setJob_frame s k j
  rw [← hfinish] at hjob
  exact hjob

/-! ## RUN at dispatch (R243) -/

section

variable {s u : State} (h : OnlyPumphouse s u)
include h

theorem fuse_of_onlyPumphouse : u.fuse = s.fuse := (congrArg (fun x : State => x.fuse) h :)

theorem check_of_onlyPumphouse (c hd : Nat) (perm : Perm) (off : Int) (size align : Nat) :
    u.check c hd perm off size align = s.check c hd perm off size align :=
  (congrArg (fun x : State => x.check c hd perm off size align) h :)

theorem ownsBuffers_of_onlyPumphouse (c : Nat) (tiles : Half) : u.ownsBuffers c tiles = s.ownsBuffers c tiles :=
  (congrArg (fun x : State => x.ownsBuffers c tiles) h :)

end

/-- A valid RUN goes in flight with its parameters as its job. -/
theorem runAct_valid {s : State} {p : Pkt} (k : Nat) (htiles : halfAt p.bytes 8 ≠ 0)
    (hlogical : (halfAt p.bytes 8).toNat < 2 ^ s.fuse.tileCount) (hentry : p.u16 18 ≤ 1023)
    (hload : bit (p.byte 11) 0 = true → 1 ≤ p.byte 16 ∧ p.byte 16 ≤ 64 ∧
      s.check p.ctx (p.handle 10) .wr (p.u32 12) (256 * p.byte 16) 256 = none)
    (howned : bit (p.byte 11) 0 = false → s.ownsBuffers p.ctx (halfAt p.bytes 8) = true) :
    runAct s k p = .run s (.run (runJob p)) := by
  have hparams : ¬ ((runJob p).tiles = 0 ∨
      ((runJob p).load = true ∧ ((runJob p).plines = 0 ∨ 64 < (runJob p).plines)) ∨ 1023 < (runJob p).entry) := by
    rintro (h | ⟨hl, h⟩ | h)
    · exact htiles h
    · obtain ⟨hmin, hmax, -⟩ := hload hl
      exact h.elim (Nat.ne_zero_of_lt hmin) (Nat.not_lt.2 hmax)
    · exact Nat.not_lt.2 hentry h
  have hpresent : ¬ s.fuse.logicalMask < (runJob p).tiles.toNat := Nat.not_lt.2 (Nat.le_sub_one_of_lt hlogical)
  have hhandle : (runJob p).phandle.toNat = p.handle 10 := by simp [runJob, Pkt.handle]
  simp only [runAct]
  rw [if_neg hparams, if_neg hpresent, hhandle]
  cases hl : (runJob p).load with
  | true =>
    have hcheck : s.check p.ctx (p.handle 10) .wr (runJob p).poff (256 * (runJob p).plines) 256 = none := (hload hl).2.2
    simp only [hcheck, if_true]
  | false => exact (if_neg Bool.false_ne_true).trans (if_pos (howned hl))

/-! ## Folds over tiles -/

section

variable {α : Type} (key : α → Nat) (f : α → Tile → Tile)

/-- Updating tiles one after another changes nothing but tiles. -/
theorem foldl_setTile_frame (l : List α) (s : State) :
    { l.foldl (fun s e => s.setTile (key e) (f e (s.tile (key e)))) s with tiles := s.tiles } = s :=
  List.foldlRecOn (motive := fun u : State => { u with tiles := s.tiles } = s) l _ rfl (fun _ h _ _ => h)

/-- A tile that no update names stays. -/
theorem tile_foldl_setTile_other (t : Nat) (l : List α) (h : ∀ e ∈ l, key e ≠ t) (s : State) :
    (l.foldl (fun s e => s.setTile (key e) (f e (s.tile (key e)))) s).tile t = s.tile t :=
  List.foldlRecOn (motive := fun u : State => u.tile t = s.tile t) l _ rfl
    (fun u hu e he => (State.tile_setTile_other u (key e) t _ (h e he).symm).trans hu)

/-- A tile that one update names takes that update. -/
theorem tile_foldl_setTile_same {e : α} (l : List α) (hd : (l.map key).Nodup) (he : e ∈ l) (s : State) :
    (l.foldl (fun s e => s.setTile (key e) (f e (s.tile (key e)))) s).tile (key e) = f e (s.tile (key e)) := by
  induction l generalizing s with
  | nil => simp at he
  | cons a l ih =>
    obtain ⟨hnot, hd⟩ := List.nodup_cons.1 hd
    rw [List.foldl_cons]
    rcases List.mem_cons.1 he with rfl | he
    · rw [tile_foldl_setTile_other key f _ l (fun b hb heq => hnot (List.mem_map.2 ⟨b, hb, heq⟩)), State.tile_setTile_same]
    · have hne : key e ≠ key a := fun heq => hnot (List.mem_map.2 ⟨e, he, heq⟩)
      rw [ih hd he, State.tile_setTile_other _ _ _ _ hne]

end

theorem maskList_nodup (v n : Nat) : (maskList v n).Nodup := List.nodup_range.filter _

/-- One update of the Wren of every tile of a list. -/
theorem tile_foldl_setWren {l : List Nat} (hd : l.Nodup) (f : Wren → Wren) (s : State) {t : Nat} (ht : t ∈ l) :
    (l.foldl (fun s t => s.setWren t f) s).tile t = { s.tile t with wren := f (s.tile t).wren } :=
  tile_foldl_setTile_same id (fun _ x => { x with wren := f x.wren }) l (by simpa using hd) ht s

theorem tile_foldl_setWren_other {l : List Nat} (f : Wren → Wren) (s : State) {t : Nat} (ht : t ∉ l) :
    (l.foldl (fun s t => s.setWren t f) s).tile t = s.tile t :=
  tile_foldl_setTile_other id (fun _ x => { x with wren := f x.wren }) t l (fun _ he heq => ht (heq ▸ he)) s

theorem foldl_setWren_frame (l : List Nat) (f : Wren → Wren) (s : State) :
    { l.foldl (fun s t => s.setWren t f) s with tiles := s.tiles } = s :=
  foldl_setTile_frame id (fun _ x => { x with wren := f x.wren }) l s

/-! ## Bytes of a bundle (R12, R240) -/

theorem leNat_lt (bs : List Byte) : leNat bs < 2 ^ (8 * bs.length) := by
  induction bs with
  | nil => simp [leNat]
  | cons b bs ih =>
    have hb := b.isLt
    rw [leNat, List.length_cons, Nat.mul_succ, Nat.pow_add]
    omega

theorem leNat_byte (bs : List Byte) (b : Nat) : leNat bs / 2 ^ (8 * b) % 256 = (byteAt bs b).toNat := by
  induction bs generalizing b with
  | nil => simp [leNat, byteAt]
  | cons a bs ih =>
    have ha := a.isLt
    cases b with
    | zero => simp only [leNat, byteAt, List.getD_cons_zero]; omega
    | succ b =>
      rw [leNat, Nat.mul_succ, Nat.add_comm (8 * b), Nat.pow_add, ← Nat.div_div_eq_div_mul,
        show (a.toNat + 256 * leNat bs) / 2 ^ 8 = leNat bs by omega, ih]
      simp [byteAt]

/-- A bundle of 16 bytes holds each of them. -/
theorem bundle_byte (bs : List Byte) (i : Nat) {b : Nat} (hb : b < 16) :
    (BitVec.ofNat 128 (fieldAt bs i 16)).toNat / 2 ^ (8 * b) % 256 = (byteAt bs (i + b)).toNat := by
  have hlt : fieldAt bs i 16 < 2 ^ 128 := by simpa [fieldAt] using leNat_lt ((List.range 16).map (fun k => byteAt bs (i + k)))
  rw [BitVec.toNat_ofNat, Nat.mod_eq_of_lt hlt, fieldAt, leNat_byte]
  simp [byteAt, List.getD_eq_getElem?_getD, hb]

/-- What `Wren.putLine` leaves in the buffer. -/
theorem spGet_putLine_ibuf (w : Wren) (dest : Nat) (bs : List Byte) (st : Nat → Half) (i : Nat) :
    spGet 0 (w.putLine dest bs st).ibuf i =
      if dest ≤ i ∧ i < dest + 16 then BitVec.ofNat 128 (fieldAt bs (16 * (i - dest)) 16) else spGet 0 w.ibuf i :=
  spGet_spSetRange

/-! ## Reading a clean line through a handle (R93, R120) -/

theorem translate_add (d : Desc) {o b : Nat} (ho : o % 256 = 0) (hb : b < 256) : d.translate (o + b) = d.translate o + b := by
  simp only [Desc.translate, show (o + b) / 256 = o / 256 by omega, show (o + b) % 256 = b by omega, ho]
  omega

theorem translate_aligned (d : Desc) {o : Nat} (ho : o % 256 = 0) : d.translate o % 256 = 0 := by
  rw [Desc.translate]
  omega

theorem flatMap_stored (s : State) (w n : Nat) :
    (List.range n).flatMap (fun k => s.stored (w + k)) = (List.range (32 * n)).map (fun j => memByte s (32 * w + j)) := by
  induction n with
  | zero => rfl
  | succ n ih =>
    rw [List.range_succ, List.flatMap_append, ih, Nat.mul_succ, List.range_add, List.map_append]
    simp [State.stored, memByte, Nat.mul_add, Nat.add_assoc]

/-- A clean line reads as it stands, without a mark, and the read changes nothing. -/
theorem readLine_clean {s : State} (i : AccessInfo) {a : Nat} (ha : a % 256 = 0) (h : ∀ k, k < 8 → Clean s (a / 32 + k)) :
    s.readLine i a = { bytes := (List.range 256).map (fun j => memByte s (a + j)), marks := List.replicate 8 false,
                       status := stOK, state := s } := by
  have hcount : s.countPoison stOK = s := if_neg (by decide)
  rw [State.readLine, readWords_clean s i 8 _ h, flatMap_stored, show 32 * (a / 32) = a by omega]
  simp only [hcount]

/-- Reading one clean line of a handle grants its bank a slot. -/
theorem readLines_one_clean {s : State} {c h o : Nat} (ho : o % 256 = 0) (hc : CleanLines s [s.phys c h o]) :
    s.readLines c h o 1 =
      { bytes := (List.range 256).map (fun j => memByte s (s.phys c h (o + j))), marks := List.replicate 8 false,
        status := stOK, state := s.grantX (s.phys c h o) } := by
  have hline := readLine_clean (s := s.grantX (s.phys c h o)) (s.unitInfo c h)
    (a := s.phys c h o) (translate_aligned _ ho) (hc _ List.mem_cons_self)
  have hbytes : (List.range 256).map (fun j => memByte (s.grantX (s.phys c h o)) (s.phys c h o + j)) =
      (List.range 256).map (fun j => memByte s (s.phys c h (o + j))) :=
    List.map_congr_left (fun j hj => congrArg (memByte s) (translate_add _ ho (List.mem_range.1 hj)).symm)
  have hok : worstData stOK stOK = stOK := by decide
  rw [hbytes] at hline
  simp only [State.readLines, hline, List.append_nil, hok]

end Sys2Proof.Machine

end

section

namespace Sys2Proof.Machine

/-! ## The fill of a LOAD (R240, R244) -/

/-- Nothing but the grants of the banks and the tiles differs. -/
def GrantsAndTiles (s s' : State) : Prop := OnlyGrants s { s' with tiles := s.tiles }

theorem GrantsAndTiles.trans {a b c : State} (h : GrantsAndTiles a b) (g : GrantsAndTiles b c) : GrantsAndTiles a c := by
  obtain ⟨hbanks, hrest⟩ := h
  obtain ⟨gbanks, grest⟩ := g
  refine ⟨sameBanks_trans hbanks gbanks, ?_⟩
  rw [← grest] at hrest
  exact hrest

theorem grantsAndTiles_of_tiles {s s' : State} (h : { s' with tiles := s.tiles } = s) : GrantsAndTiles s s' := by
  rw [GrantsAndTiles, h]
  exact ⟨sameBanks_refl s, rfl⟩

theorem sameBanks_setTiles {s u : State} (h : SameBanks s u) (x : Sparse Tile) : SameBanks s { u with tiles := x } := h

theorem grantsAndTiles_grantX (s : State) (a : Nat) : GrantsAndTiles s (s.grantX a) := by
  refine ⟨sameBanks_setTiles (grantX_accessed s a).1.1 _, ?_⟩
  simp only [State.grantX, State.setBank]

section

variable {s u : State} (h : GrantsAndTiles s u)
include h

theorem GrantsAndTiles.mem : u.cis.mem = s.cis.mem := (congrArg (fun x : State => x.cis.mem) h.2 :)
theorem GrantsAndTiles.synd : u.cis.synd = s.cis.synd := (congrArg (fun x : State => x.cis.synd) h.2 :)
theorem GrantsAndTiles.pmh : u.pmh = s.pmh := (congrArg (fun x : State => x.pmh) h.2 :)
theorem GrantsAndTiles.queues : u.queues = s.queues := (congrArg (fun x : State => x.queues) h.2 :)
theorem GrantsAndTiles.act : u.act = s.act := (congrArg (fun x : State => x.act) h.2 :)

theorem GrantsAndTiles.memByte (a : Nat) : memByte u a = memByte s a := by rw [Sys2Proof.memByte, h.mem, Sys2Proof.memByte]

theorem GrantsAndTiles.phys (c k o : Nat) : u.phys c k o = s.phys c k o := by
  rw [State.phys, h.act, State.phys]

theorem GrantsAndTiles.cleanLines {l : List Nat} (hc : CleanLines s l) : CleanLines u l := by
  intro a ha k hk
  rw [Clean, State.syndrome, h.synd]
  exact hc a ha k hk

theorem GrantsAndTiles.samePumphouse : SamePumphouse s u := by rw [SamePumphouse, h.pmh]

theorem GrantsAndTiles.onlyMemory : OnlyMemory s { u with tiles := s.tiles } :=
  ⟨h.1, congrArg (fun x : State => { x with
    queues := s.queues
    pmh := s.pmh
    cis := { x.cis with
      mem := s.cis.mem
      synd := s.cis.synd } }) h.2⟩

end

/-- The first `n` lines of the image of `r` stand in the buffer of every tile of its set, as the memory of `s` holds them. -/
structure Filled (s : State) (c : Nat) (r : RunJob) (n : Nat) (u : State) : Prop where
  frame : GrantsAndTiles s u
  others : ∀ t, t ∉ maskList r.tiles.toNat 16 → u.tile t = s.tile t
  rest : ∀ t ∈ maskList r.tiles.toNat 16, wrenRest (u.tile t) = wrenRest (s.tile t)
  image : ∀ t ∈ maskList r.tiles.toNat 16, ∀ i, i < 16 * n → ∀ b, b < 16 →
    (spGet 0 (u.tile t).wren.ibuf i).toNat / 2 ^ (8 * b) % 256 =
      (memByte s (s.phys c r.phandle.toNat (r.poff + 16 * i + b))).toNat

theorem filled_zero (s : State) (c : Nat) (r : RunJob) : Filled s c r 0 s where
  frame := grantsAndTiles_of_tiles rfl
  others := fun _ _ => rfl
  rest := fun _ _ => rfl
  image := fun _ _ i hi => absurd hi (Nat.not_lt_zero i)

/-- The bytes of line `n` of the image. -/
def imageLine (s : State) (c : Nat) (r : RunJob) (n : Nat) : List Byte :=
  (List.range 256).map (fun j => memByte s (s.phys c r.phandle.toNat (r.poff + 256 * n + j)))

theorem byteAt_imageLine (s : State) (c : Nat) (r : RunJob) (n : Nat) {j : Nat} (hj : j < 256) :
    byteAt (imageLine s c r n) j = memByte s (s.phys c r.phandle.toNat (r.poff + 256 * n + j)) := by
  simp [byteAt, imageLine, List.getD_eq_getElem?_getD, hj]

@[simp] theorem tile_grantX (s : State) (a t : Nat) : (s.grantX a).tile t = s.tile t := rfl

theorem wrenRest_putLine (x : Tile) (dest : Nat) (bs : List Byte) (st : Nat → Half) :
    wrenRest { x with wren := x.wren.putLine dest bs st } = wrenRest x := rfl

/-- The next line of the image goes to every tile of the set. -/
theorem Filled.line {s u : State} {c n : Nat} {r : RunJob} (h : Filled s c r n u) (a : Nat) (st : Nat → Half) :
    Filled s c r (n + 1) ((maskList r.tiles.toNat 16).foldl
      (fun v t => v.setWren t (fun w => w.putLine (16 * n) (imageLine s c r n) st)) (u.grantX a)) where
  frame := h.frame.trans ((grantsAndTiles_grantX u a).trans (grantsAndTiles_of_tiles (foldl_setWren_frame _ _ _)))
  others := fun t ht => (tile_foldl_setWren_other _ _ ht).trans (h.others t ht)
  rest := fun t ht => by
    rw [tile_foldl_setWren (maskList_nodup _ _) _ _ ht, tile_grantX, wrenRest_putLine, h.rest t ht]
  image := fun t ht i hi b hb => by
    rw [tile_foldl_setWren (maskList_nodup _ _) _ _ ht, tile_grantX, spGet_putLine_ibuf]
    by_cases hold : i < 16 * n
    · rw [if_neg (by omega)]
      exact h.image t ht i hold b hb
    · rw [if_pos (by omega), bundle_byte _ _ hb, byteAt_imageLine s c r n (by omega),
        show r.poff + 256 * n + (16 * (i - 16 * n) + b) = r.poff + 16 * i + b by omega]

/-- The fill of a clean image meets no damage and fills every buffer of the set. -/
theorem fillBuffers_clean {s : State} {c : Nat} {r : RunJob} (hoff : r.poff % 256 = 0) (n : Nat)
    (hclean : CleanLines s ((List.range n).map (fun i => s.phys c r.phandle.toNat (r.poff + 256 * i)))) :
    (s.fillBuffers c { r with plines := n }).1 = stOK ∧ Filled s c r n (s.fillBuffers c { r with plines := n }).2 := by
  induction n with
  | zero => exact ⟨rfl, filled_zero s c r⟩
  | succ n ih =>
    rw [List.range_succ, List.map_append] at hclean
    obtain ⟨hst, hfill⟩ := ih (fun a ha => hclean a (List.mem_append_left _ ha))
    simp only [State.fillBuffers, List.range_succ, List.foldl_append, List.foldl_cons, List.foldl_nil] at hst hfill ⊢
    generalize List.foldl _ _ (List.range n) = a at hst hfill ⊢
    have hline : CleanLines a.2 [a.2.phys c r.phandle.toNat (r.poff + 256 * n)] := by
      rw [hfill.frame.phys]
      exact hfill.frame.cleanLines (fun a ha => hclean a (List.mem_append_right _ ha))
    have hbytes : (List.range 256).map (fun j => memByte a.2 (a.2.phys c r.phandle.toNat (r.poff + 256 * n + j))) =
        imageLine s c r n := by
      simp only [hfill.frame.memByte, hfill.frame.phys, imageLine]
    rw [readLines_one_clean (by omega) hline, hbytes]
    exact ⟨by rw [hst]; rfl, hfill.line _ _⟩

/-- The claim of a LOAD: its command holds every tile of the set, and its context owns their buffers (R241, R244). -/
def State.claim (s : State) (k c : Nat) (tiles : Half) : State :=
  (maskList tiles.toNat 16).foldl (fun s t => s.setWren t (fun w => { w with
    claim := some k
    owner := some c })) s

theorem tile_claim (s : State) (k c : Nat) {tiles : Half} {t : Nat} (ht : t ∈ maskList tiles.toNat 16) :
    (s.claim k c tiles).tile t = { s.tile t with wren := { (s.tile t).wren with
      claim := some k
      owner := some c } } :=
  tile_foldl_setWren (maskList_nodup ..) _ s ht

theorem tile_claim_other (s : State) (k c : Nat) {tiles : Half} {t : Nat} (ht : t ∉ maskList tiles.toNat 16) :
    (s.claim k c tiles).tile t = s.tile t :=
  tile_foldl_setWren_other _ s ht

/-- A LOAD whose tiles are idle claims them with their buffers filled. -/
theorem loadFillEnd_idle {s : State} {k : Nat} {c : Cmd} {r : RunJob} (hs : s.silent = false) (hc : s.cmd k = some c)
    (hj : c.job = .run r) (hfilled : r.filled = false) (hidle : s.tilesIdle r.tiles = true)
    (hyields : s.yields k c r.tiles = false) :
    loadFillEnd k s = ((s.fillBuffers c.ctx r).2.claim k c.ctx r.tiles).setJob k (.run { r with
      filled := true
      data := (s.fillBuffers c.ctx r).1 }) := by
  simp [loadFillEnd, hc, hj, hs, hfilled, hidle, hyields, State.claim]

/-! ## The launch (R50, R83, R245) -/

/-- Nothing but the banks differs. -/
def OnlyBanks (s s' : State) : Prop := { s' with cis := { s'.cis with banks := s.cis.banks } } = s

theorem restartFrames_onlyBanks {s u : State} (h : OnlyBanks s u) (t : Nat) : OnlyBanks s (u.restartFrames t) :=
  List.foldlRecOn (motive := OnlyBanks s) _ _ h (fun _ h _ _ => h)

theorem foldl_restartFrames_onlyBanks (l : List Nat) (s : State) : OnlyBanks s (l.foldl State.restartFrames s) :=
  List.foldlRecOn (motive := OnlyBanks s) l _ rfl (fun _ h t _ => restartFrames_onlyBanks h t)

/-- The tiles of a launch as they start, each with its rank (R245). -/
def State.startTiles (s : State) (k c : Nat) (r : RunJob) : State :=
  let tiles := maskList r.tiles.toNat 16
  ((List.range tiles.length).zip tiles).foldl (fun s e => s.setTile e.2 ((s.tile e.2).launched e.2 e.1 k c r)) s

theorem launch_eq (s : State) (k c : Nat) (r : RunJob) :
    s.launch k c r = (((maskList r.tiles.toNat 16).foldl State.restartFrames s).startTiles k c r).setJob k
      (.run { r with started := true }) := rfl

theorem startTiles_frame (s : State) (k c : Nat) (r : RunJob) : { s.startTiles k c r with tiles := s.tiles } = s :=
  foldl_setTile_frame Prod.snd (fun e x => x.launched e.2 e.1 k c r) _ s

theorem tile_startTiles {i t : Nat} {r : RunJob} (s : State) (k c : Nat) (ht : (maskList r.tiles.toNat 16)[i]? = some t) :
    (s.startTiles k c r).tile t = (s.tile t).launched t i k c r := by
  have hlt := (List.getElem?_eq_some_iff.1 ht).1
  have hmem : (i, t) ∈ (List.range (maskList r.tiles.toNat 16).length).zip (maskList r.tiles.toNat 16) :=
    List.mem_of_getElem? (List.getElem?_zip_eq_some.2 ⟨List.getElem?_range hlt, ht⟩)
  refine tile_foldl_setTile_same Prod.snd (fun e x => x.launched e.2 e.1 k c r) _ ?_ hmem s
  rw [List.map_snd_zip (by simp)]
  exact maskList_nodup ..

theorem tile_startTiles_other {t : Nat} {r : RunJob} (s : State) (k c : Nat) (ht : t ∉ maskList r.tiles.toNat 16) :
    (s.startTiles k c r).tile t = s.tile t :=
  tile_foldl_setTile_other Prod.snd (fun e x => x.launched e.2 e.1 k c r) t _
    (fun _ he heq => ht (heq ▸ (List.of_mem_zip he).2)) s

theorem launch_sameMemory (s : State) (k c : Nat) (r : RunJob) : SameMemory s (s.launch k c r) := by
  have hbanks := foldl_restartFrames_onlyBanks (maskList r.tiles.toNat 16) s
  have hstart := startTiles_frame ((maskList r.tiles.toNat 16).foldl State.restartFrames s) k c r
  rw [launch_eq, SameMemory, setJob_cis, show State.cis (State.startTiles _ k c r) = _ from
    (congrArg (fun x : State => x.cis) hstart :)]
  exact ⟨(congrArg (fun x : State => x.cis.mem) hbanks :), (congrArg (fun x : State => x.cis.synd) hbanks :)⟩

theorem cmd_launch {s : State} {k : Nat} {c : Cmd} (r : RunJob) (hc : s.cmd k = some c) :
    (s.launch k c.ctx r).cmd k = some { c with job := .run { r with started := true } } := by
  have hbanks := foldl_restartFrames_onlyBanks (maskList r.tiles.toNat 16) s
  have hstart := startTiles_frame ((maskList r.tiles.toNat 16).foldl State.restartFrames s) k c.ctx r
  have hcmd : (State.startTiles ((maskList r.tiles.toNat 16).foldl State.restartFrames s) k c.ctx r).cmd k = s.cmd k :=
    (congrArg (fun x : State => x.cmd k) hstart :).trans (congrArg (fun x : State => x.cmd k) hbanks :)
  rw [launch_eq]
  exact cmd_setJob_same (hcmd.trans hc) _

theorem tile_foldl_restartFrames (l : List Nat) (s : State) (t : Nat) : (l.foldl State.restartFrames s).tile t = s.tile t :=
  (congrArg (fun x : State => x.tile t) (foldl_restartFrames_onlyBanks l s) :)

theorem tile_launch {i t : Nat} {r : RunJob} (s : State) (k c : Nat) (ht : (maskList r.tiles.toNat 16)[i]? = some t) :
    (s.launch k c r).tile t = (s.tile t).launched t i k c r := by
  rw [launch_eq, tile_setJob, tile_startTiles _ k c ht, tile_foldl_restartFrames]

theorem tile_launch_other {t : Nat} {r : RunJob} (s : State) (k c : Nat) (ht : t ∉ maskList r.tiles.toNat 16) :
    (s.launch k c r).tile t = s.tile t := by
  rw [launch_eq, tile_setJob, tile_startTiles_other _ k c ht, tile_foldl_restartFrames]

/-- What the registers of a launched tile hold. -/
theorem readX_launched (x : Tile) (t rank k c : Nat) (r : RunJob) :
    readX (x.launched t rank k c r).wren.x 1 = BitVec.ofNat 64 rank ∧
      readX (x.launched t rank k c r).wren.x 2 = BitVec.ofNat 64 t ∧
      (∀ a, a < 4 → readX (x.launched t rank k c r).wren.x (3 + a) = r.args.getD a 0) ∧
      ∀ a, 7 ≤ a → readX (x.launched t rank k c r).wren.x a = 0 := by
  have hread : ∀ a, 0 < a → readX (x.launched t rank k c r).wren.x a =
      if a = 6 then r.args.getD 3 0 else if a = 5 then r.args.getD 2 0 else if a = 4 then r.args.getD 1 0
      else if a = 3 then r.args.getD 0 0 else if a = 2 then BitVec.ofNat 64 t
      else if a = 1 then BitVec.ofNat 64 rank else 0 := by
    intro a ha
    simp [readX, Nat.ne_of_gt ha, Tile.launched, List.range_succ, spGet_spSet]
  refine ⟨by simp [hread], by simp [hread], fun a ha => ?_, fun a ha => ?_⟩
  · rw [hread _ (by omega)]
    interval_cases a <;> rfl
  · rw [hread a (by omega)]
    simp [show a ≠ 6 by omega, show a ≠ 5 by omega, show a ≠ 4 by omega, show a ≠ 3 by omega, show a ≠ 2 by omega,
      show a ≠ 1 by omega]

/-- A RUN starts with its buffers filled, or else once its tiles are idle and its context still owns their buffers. -/
theorem tileProgramLaunch_ready {s : State} {k : Nat} {c : Cmd} {r : RunJob} (hs : s.silent = false) (hc : s.cmd k = some c)
    (hj : c.job = .run r) (hfilled : r.filled = true) (hstarted : r.started = false)
    (hready : r.load = false → s.tilesIdle r.tiles = true ∧ s.yields k c r.tiles = false ∧
      s.ownsBuffers c.ctx r.tiles = true) :
    tileProgramLaunch k s = s.launch k c.ctx r := by
  cases hl : r.load with
  | true => simp [tileProgramLaunch, hc, hj, hs, hfilled, hstarted, hl]
  | false =>
    obtain ⟨hidle, hyields, howned⟩ := hready hl
    simp [tileProgramLaunch, hc, hj, hs, hfilled, hstarted, hl, hidle, hyields, howned]

/-- No attention command waits in the slot of a RUN. -/
theorem attendLaunch_run {s : State} {k : Nat} {c : Cmd} {r : RunJob} (hc : s.cmd k = some c) (hj : c.job = .run r) :
    attendLaunch k s = s := by
  simp [attendLaunch, hc, hj]

/-! ## The end of the last program (R70, R247) -/

/-- Where no tile has halted, a RUN's status is the worst data status of its tiles. -/
theorem outcome_tileEnds {r : RunJob} {w : Wren} (t : Nat) (hhalts : r.halts = []) (hhalted : w.halted = false) :
    (r.tileEnds t w).outcome = (worstData r.data w.data, 0, leBytes 4 0) := by
  simp [RunJob.outcome, RunJob.tileEnds, hhalted, hhalts]

/-- A tile whose program has ended. -/
def State.dropProgram (s : State) (t : Nat) : State := s.setWren t (fun w => { w with prog := none })

/-- The last tile of a RUN ends, none having halted: the RUN is done. -/
theorem tileProgramEnd_last {s : State} {t : Nat} {pg : Prog} {w : Wren} {c : Cmd} {r : RunJob} (hs : s.silent = false)
    (hw : (s.tile t).wren = w) (hprog : w.prog = some pg) (hended : w.ended = true) (hhalted : w.halted = false)
    (hquiet : (s.tile t).quiet = true) (hsigs : s.signalling t = false) (hc : s.cmd pg.slot = some c) (hj : c.job = .run r)
    (hhalts : r.halts = []) (hlast : setBit r.ended t true = r.tiles) :
    tileProgramEnd t s = ((s.dropProgram t).setJob pg.slot (.run (r.tileEnds t w))).finish pg.slot
      (worstData r.data w.data) 0 (r.flags ||| w.raised) (leBytes 4 0) := by
  have hc' : (s.setWren t (fun w => { w with prog := none })).cmd pg.slot = some c := hc
  have hdone : (r.tileEnds t w).ended = (r.tileEnds t w).tiles := hlast
  have hflags : (r.tileEnds t w).flags = r.flags ||| w.raised := rfl
  simp [tileProgramEnd, hw, hprog, hs, hended, hquiet, hsigs, hc', hj, hdone, hflags, outcome_tileEnds t hhalts hhalted,
    State.dropProgram]

/-- What changes one tile and then the Pumphouse alone. -/
theorem onlyTile_then_pumphouse {s u s' : State} {t : Nat} (h : OnlyTile t s u) (h' : { s' with pmh := u.pmh } = u) :
    OnlyTile t { s with pmh := s'.pmh } s' ∧ s'.tile t = u.tile t := by
  obtain ⟨hrest, hother⟩ := h
  have htile : ∀ v, s'.tile v = u.tile v := fun v => (congrArg (fun x : State => x.tile v) h' :)
  refine ⟨⟨?_, fun v hv => (htile v).trans (hother v hv)⟩, htile t⟩
  exact (congrArg (fun x : State => { x with
    tiles := s.tiles
    pmh := s'.pmh }) h').trans (congrArg (fun x : State => { x with pmh := s'.pmh }) hrest)

/-- Settles O32, clause by clause: a dispatch that goes on in flight, an induction on the lines of the image, the fold that
starts the tiles, and the end of a command over the job of its last tile. -/
theorem runsLoadLaunchAndEnd : Obligations.RunsLoadLaunchAndEnd := by
  unfold Obligations.RunsLoadLaunchAndEnd
  refine ⟨?dispatch, fun k c r s hs hc hj => ⟨?fill, ?launch⟩, ?ends⟩
  case dispatch =>
    intro q k p rest s hready hop tiles load htiles hlogical hentry hload howned
    have hframe := atDispatch_frame s q.val k p
    have hact : runAct (atDispatch s q.val k p) k p = .run (atDispatch s q.val k p) (.run (runJob p)) := by
      refine runAct_valid k htiles ?_ hentry ?_ ?_
      · rwa [fuse_of_onlyPumphouse hframe]
      · rwa [check_of_onlyPumphouse hframe]
      · rw [ownsBuffers_of_onlyPumphouse hframe]
        exact fun hl => List.all_eq_true.2 (fun t ht => decide_eq_true (howned hl t ht))
    have hexec : exec (.run q) s = .next ((DispOut.run (atDispatch s q.val k p) (.run (runJob p))).apply s k) := by
      rw [← hact, ← dispatch_ready hready (row := fun p => decide (p.opcode = 0x10)) (decide_eq_true hop)]
      rfl
    obtain ⟨honly, hsame⟩ := run_apply_frame s q.val k p (.run (runJob p))
    exact ⟨_, hexec, honly, hsame, inFlight_of_run hready _⟩
  case fill =>
    intro hfilled hidle hyields hclean hoff
    obtain ⟨hst, hfill⟩ := fillBuffers_clean hoff r.plines hclean
    have hclaim : GrantsAndTiles s ((s.fillBuffers c.ctx r).2.claim k.val c.ctx r.tiles) :=
      hfill.frame.trans (grantsAndTiles_of_tiles (foldl_setWren_frame ..))
    have hc' : ((s.fillBuffers c.ctx r).2.claim k.val c.ctx r.tiles).cmd k.val = some c := by
      rw [State.cmd, hclaim.pmh]; exact hc
    have hexec := loadFillEnd_idle hs hc hj hfilled hidle hyields
    rw [show (s.fillBuffers c.ctx r).1 = stOK from hst, setJob_of_cmd hc'] at hexec
    refine ⟨_, congrArg Host.Outcome.next hexec, hclaim.onlyMemory, ⟨hclaim.mem, hclaim.synd⟩,
      samePumphouse_setCmd hclaim.samePumphouse .., hclaim.queues, ?_, State.cmd_setCmd_same .., fun t ht => ?_, fun t ht => ?_⟩
    · rw [State.setCmd_pmh_compl, hclaim.pmh]
    · rw [tile_setCmd, tile_claim _ _ _ ht]
      exact ⟨hfill.rest t ht, rfl, rfl, hfill.image t ht⟩
    · rw [tile_setCmd, tile_claim_other _ _ _ ht]
      exact hfill.others t ht
  case launch =>
    intro hfilled hstarted hready
    have hlaunch := tileProgramLaunch_ready hs hc hj hfilled hstarted (fun hl => by
      obtain ⟨hidle, hyields, howned⟩ := hready hl
      exact ⟨hidle, hyields, List.all_eq_true.2 (fun t ht => decide_eq_true (howned t ht))⟩)
    have hexec : tileSetStart k.val s = s.launch k.val c.ctx r := by
      rw [tileSetStart, hlaunch, attendLaunch_run (cmd_launch r hc) rfl]
    refine ⟨_, congrArg Host.Outcome.next hexec, launch_sameMemory .., cmd_launch r hc, fun i t ht => ?_,
      fun t ht => tile_launch_other s _ _ ht⟩
    rw [tile_launch s _ _ ht]
    obtain ⟨hrank, htile, hargs, hzero⟩ := readX_launched (s.tile t) t i k.val c.ctx r
    exact ⟨rfl, rfl, rfl, rfl, rfl, hrank, htile, hargs, hzero, rfl⟩
  case ends =>
    intro t k q c r pg s hs hprog hk hended hhalted hquiet hsigs hc hq hj hhalts hlast
    subst hk
    have hsig : s.signalling t.val = false :=
      List.any_eq_false.2 (fun g hg => by simpa [Fin.ext_iff] using hsigs g hg)
    have hexec := tileProgramEnd_last hs rfl hprog hended hhalted hquiet hsig hc hj hhalts hlast
    have hc' : (s.dropProgram t.val).cmd pg.slot = some c := hc
    obtain ⟨honly, htile⟩ := onlyTile_then_pumphouse (onlyTile_setTile s t.val _) (finish_setJob_frame hc' hq
      (.run (r.tileEnds t.val (s.tile t.val).wren)) (worstData r.data (s.tile t.val).wren.data) 0
      (r.flags ||| (s.tile t.val).wren.raised) (leBytes 4 0))
    exact ⟨_, congrArg Host.Outcome.next hexec, honly, htile.trans (State.tile_setTile_same ..), finish_setJob hc' hq ..⟩

end Sys2Proof.Machine

end

section

namespace Sys2Proof.Machine

/-! ## What leaves the Cistern's contents alone

Most of what an instruction does stays outside the Cistern: `f_cis` says that `f` leaves it as it is, `f_contents`
  that it
changes none of its contents and check bits. -/

theorem cis_ite {p : Prop} [Decidable p] (s u : State) : (if p then s else u).cis = if p then s.cis else u.cis := by
  split <;> rfl

theorem cis_foldl {α : Type} {f : State → α → State} (hf : ∀ s a, (f s a).cis = s.cis) (l : List α) (s : State) :
    (l.foldl f s).cis = s.cis := by
  induction l generalizing s with
  | nil => rfl
  | cons a l ih => exact (ih _).trans (hf s a)

@[simp] theorem waveTick_cis (s : State) : (waveTick s).cis = s.cis := rfl
@[simp] theorem State.mark_cis (s : State) : s.mark.cis = s.cis := rfl
@[simp] theorem State.setTime_cis (s : State) (ns : DWord) : (s.setTime ns).cis = s.cis := rfl
@[simp] theorem State.supersede_cis (s : State) (f : Flit) : (s.supersede f).cis = s.cis := rfl
@[simp] theorem State.dropSignal_cis (s : State) (id : Nat) : (s.dropSignal id).cis = s.cis := rfl
@[simp] theorem State.dropSeg_cis (s : State) (src : Half) (xid : BitVec 10) (segno : BitVec 15) :
    (s.dropSeg src xid segno).cis = s.cis :=
  rfl
@[simp] theorem State.putSeg_cis (s : State) (r : RxSeg) : (s.putSeg r).cis = s.cis := rfl
@[simp] theorem State.bufferNotice_cis (s : State) (n : Notice) : (s.bufferNotice n).cis = s.cis :=
  by simp [State.bufferNotice, cis_ite]
@[simp] theorem State.learnFlit_cis (s : State) (f : Flit) (ingress : Nat) : (s.learnFlit f ingress).cis = s.cis :=
  by simp [State.learnFlit, cis_ite]
@[simp] theorem State.setJob_cis (s : State) (k : Nat) (j : Job) : (s.setJob k j).cis = s.cis :=
  by unfold State.setJob; split <;> rfl
@[simp] theorem State.enter_cis (s : State) (k : Nat) (o : Origin) (p : Pkt) : (s.enter k o p).cis = s.cis := rfl
@[simp] theorem State.takeHead_cis (s : State) (q k : Nat) (p : Pkt) : (s.takeHead q k p).cis = s.cis := rfl
@[simp] theorem State.addSem_cis (s : State) (n : Nat) (v : Word) : (s.addSem n v).cis = s.cis := rfl
@[simp] theorem State.countFinished_cis (s : State) (k : Nat) : (s.countFinished k).cis = s.cis :=
  by unfold State.countFinished; split <;> simp [cis_ite]
@[simp] theorem State.forgetRecords_cis (s : State) (c k : Nat) : (s.forgetRecords c k).cis = s.cis := rfl
@[simp] theorem State.forgetDead_cis (s : State) (peer : Half) (k : Nat) : (s.forgetDead peer k).cis = s.cis := rfl
@[simp] theorem State.addRec_cis (s : State) (c : Nat) (r : OutRec) : (s.addRec c r).cis = s.cis := rfl
@[simp] theorem State.stepData_cis (s : State) (c : Nat) (st : Half) : (s.stepData c st).cis = s.cis :=
  by unfold State.stepData; split <;> rfl
@[simp] theorem State.charge_cis (s : State) (cust n a : Nat) : (s.charge cust n a).cis = s.cis := rfl
@[simp] theorem State.zeroBudget_cis (s : State) (c : Nat) : (s.zeroBudget c).cis = s.cis := rfl
@[simp] theorem State.requestSwap_cis (s : State) (slot : Option Nat) (micros : Nat) :
    (s.requestSwap slot micros).cis = s.cis :=
  rfl
@[simp] theorem State.setCond_cis (s : State) (q : Nat) (out : Bool) : (s.setCond q out).cis = s.cis :=
  by simp [State.setCond, cis_ite]
@[simp] theorem State.readSignal_cis (s : State) (ctx : Nat) (x : Xfer) : (s.readSignal ctx x).cis = s.cis :=
  by simp [State.readSignal, cis_ite]
@[simp] theorem State.segSignal_cis (s : State) (r : RxSeg) : (s.segSignal r).cis = s.cis :=
  by simp [State.segSignal, cis_ite]
@[simp] theorem State.markLate_cis (s : State) (rs : List Nat) : (s.markLate rs).cis = s.cis :=
  cis_foldl (fun _ _ => by simp) _ _
@[simp] theorem State.zeroFilled_cis (s : State) : s.zeroFilled.cis = s.cis := by simp [State.zeroFilled, cis_ite]

/-! ### Ports, notices and flits -/

@[simp] theorem State.pump_cis (s : State) (p : Nat) : (s.pump p).cis = s.cis := rfl
@[simp] theorem State.portSend_cis (s : State) (p : Nat) (f : Flit) : (s.portSend p f).cis = s.cis :=
  by simp [State.portSend]
@[simp] theorem State.malformed_cis (s : State) (p : Nat) : (s.malformed p).cis = s.cis := rfl
@[simp] theorem State.resend_cis (s : State) (p : Nat) : (s.resend p).cis = s.cis := rfl
@[simp] theorem State.replayPort_cis (s : State) (p : Nat) : (s.replayPort p).cis = s.cis := rfl
@[simp] theorem State.sendHello_cis (s : State) (p : Nat) : (s.sendHello p).cis = s.cis := by simp [State.sendHello]
@[simp] theorem State.sendHelloAck_cis (s : State) (p : Nat) : (s.sendHelloAck p).cis = s.cis :=
  by simp [State.sendHelloAck]
@[simp] theorem State.sendLeaving_cis (s : State) (p : Nat) : (s.sendLeaving p).cis = s.cis :=
  by simp [State.sendLeaving, cis_ite]
@[simp] theorem State.confirmPort_cis (s : State) (lp : Nat) : (s.confirmPort lp).cis = s.cis :=
  by simp [State.confirmPort, cis_ite]
@[simp] theorem State.portTrained_cis (s : State) (p : Nat) (rate : BitVec 2) (half : Bool) (repaired : BitVec 4) :
    (s.portTrained p rate half repaired).cis = s.cis :=
  by simp [State.portTrained]
@[simp] theorem State.shaftTrained_cis (s : State) : s.shaftTrained.cis = s.cis := by simp [State.shaftTrained, cis_ite]
@[simp] theorem State.pumpAll_cis (s : State) : s.pumpAll.cis = s.cis := cis_foldl (fun _ _ => by simp) _ _
@[simp] theorem State.resume_cis (s : State) : s.resume.cis = s.cis := by simp [State.resume, cis_ite]
@[simp] theorem State.trainPorts_cis (s : State) : s.trainPorts.cis = s.cis :=
  cis_foldl (fun _ _ => by simp [cis_ite]) _ _
@[simp] theorem State.sendHellos_cis (s : State) : s.sendHellos.cis = s.cis :=
  cis_foldl (fun _ _ => by simp [cis_ite]) _ _

@[simp] theorem State.sendOn_cis (s : State) (f : Flit) (lp : Nat) (ingress : Option Nat) :
    (s.sendOn f lp ingress).cis = s.cis := by
  unfold State.sendOn
  dsimp only
  repeat' split
  all_goals rfl
@[simp] theorem State.sendOwn_cis (s : State) (f : Flit) : (s.sendOwn f).cis = s.cis :=
  by unfold State.sendOwn; split <;> simp
@[simp] theorem State.relay_cis (s : State) (f : Flit) (ingress : Nat) : (s.relay f ingress).cis = s.cis :=
  by unfold State.relay; split <;> simp
@[simp] theorem State.notify_cis (s : State) (n : Notice) : (s.notify n).cis = s.cis := by simp [State.notify, cis_ite]
@[simp] theorem State.faultQueue_cis (s : State) (q : Nat) (st : Half) : (s.faultQueue q st).cis = s.cis :=
  by simp [State.faultQueue]
@[simp] theorem State.flushNotices_cis (s : State) : s.flushNotices.cis = s.cis := by
  unfold State.flushNotices
  split
  · exact cis_foldl (fun _ _ => by simp) _ _
  · rfl
@[simp] theorem State.findHub_cis (s : State) : s.findHub.cis = s.cis := by simp [State.findHub, cis_ite]
@[simp] theorem State.tellReady_cis (s : State) : s.tellReady.cis = s.cis := by simp [State.tellReady, cis_ite]
@[simp] theorem State.afterTopology_cis (s : State) : s.afterTopology.cis = s.cis :=
  by simp [State.afterTopology, cis_ite]
@[simp] theorem State.checkPort_cis (s : State) (p : Nat) : (s.checkPort p).cis = s.cis :=
  by unfold State.checkPort; dsimp only; split <;> simp [cis_ite]
@[simp] theorem State.checkPorts_cis (s : State) : s.checkPorts.cis = s.cis := cis_foldl (fun _ _ => by simp) _ _
@[simp] theorem State.partnerSays_cis (s : State) (p : Nat) (m : Hello) (ack : Bool) :
    (s.partnerSays p m ack).cis = s.cis :=
  by simp [State.partnerSays, cis_ite]
@[simp] theorem State.answerReg_cis (s : State) (h : FlitHdr) (off : Word) (count : Nat) (st : Half) (words :
    List Word) :
    (s.answerReg h off count st words).cis = s.cis :=
  by simp [State.answerReg]
@[simp] theorem State.sendRegRsp_cis (s : State) (off count : Nat) (st : Half) (words : List Word) :
    (s.sendRegRsp off count st words).cis = s.cis :=
  by simp [State.sendRegRsp]
@[simp] theorem State.failSeg_cis (s : State) (r : RxSeg) (st : Half) (reason : Byte) :
    (s.failSeg r st reason).cis = s.cis :=
  by simp [State.failSeg]
@[simp] theorem State.ackSeg_cis (s : State) (r : RxSeg) : (s.ackSeg r).cis = s.cis := by simp [State.ackSeg]
@[simp] theorem State.ackLast_cis (s : State) (src : Half) (xid : BitVec 10) : (s.ackLast src xid).cis = s.cis :=
  by unfold State.ackLast; split <;> simp [cis_ite]
@[simp] theorem State.segDone_cis (s : State) (r : RxSeg) : (s.segDone r).cis = s.cis :=
  by simp [State.segDone, cis_ite]
@[simp] theorem State.segBad_cis (s : State) (p : Nat) (r : RxSeg) : (s.segBad p r).cis = s.cis :=
  by simp [State.segBad]
@[simp] theorem State.discardData_cis (s : State) (r : RxSeg) (zrc : Bool) (payload : List Byte) :
    (s.discardData r zrc payload).cis = s.cis :=
  by unfold State.discardData; split <;> simp [cis_ite]
@[simp] theorem State.sendRead_cis (s : State) (ctx k : Nat) (peer : Half) (handle off len : Nat) :
    (s.sendRead ctx k peer handle off len).cis = s.cis :=
  cis_foldl (fun _ _ => by simp) _ _
@[simp] theorem State.sendWrite_cis (s : State) (ctx k : Nat) (peer : Half) (handle off : Nat) (zrc semen : Bool)
    (sem : Byte) (semval : Word) (bytes : List Byte) (marks : List Bool) :
    (s.sendWrite ctx k peer handle off zrc semen sem semval bytes marks).cis = s.cis :=
  cis_foldl (fun s _ => (cis_foldl (fun _ _ => by simp) _ _).trans (by simp)) _ _
@[simp] theorem State.sendPieces_cis (s : State) (c k : Nat) (peer : Half) (handle : Nat) (zrc : Bool) (ps :
    List (Nat × List Byte)) :
    (s.sendPieces c k peer handle zrc ps).cis = s.cis :=
  cis_foldl (fun s _ => (cis_foldl (fun _ _ => by simp) _ _).trans (by simp)) _ _
@[simp] theorem State.semSigArrives_cis (s : State) (f : Flit) (sem : Byte) (value : Word) :
    (s.semSigArrives f sem value).cis = s.cis :=
  by simp [State.semSigArrives, cis_ite]
@[simp] theorem State.regRdArrives_cis (s : State) (h : FlitHdr) (off : Word) (count : Nat) :
    (s.regRdArrives h off count).cis = s.cis :=
  by simp [State.regRdArrives]
@[simp] theorem State.wrSegArrives_cis (s : State) (h : FlitHdr) (f : Flit) (handle : Byte) (last semen : Bool)
    (sem : Byte) (off : DWord) (len semval : Word) :
    (s.wrSegArrives h f handle last semen sem off len semval).cis = s.cis :=
  by unfold State.wrSegArrives; dsimp only; split <;> simp [cis_ite]
@[simp] theorem State.detachWritten_cis (s : State) (k : Nat) : (s.detachWritten k).cis = s.cis := by
  unfold State.detachWritten
  split
  · rfl
  · simp [cis_ite, cis_foldl]
/-- A change of Lark's or the Pumphouse's books, stated for any state so that the kernel need not compare the books. -/
theorem cis_setLrk (s : State) (x : Lrk) : ({ s with lrk := x } : State).cis = s.cis := rfl
theorem cis_setPmh (s : State) (x : Pmh) : ({ s with pmh := x } : State).cis = s.cis := rfl

@[simp] theorem State.releaseContext_cis (s : State) (c : Nat) : (s.releaseContext c).cis = s.cis := by
  unfold State.releaseContext
  extract_lets r s₁ s₂ srv s₃ s₄ s₅ s₆ pmh s₇
  have h₁ : s₁.cis = s.cis := cis_foldl (fun _ _ => by dsimp only) _ _
  clear_value s₁
  have h₄ : s₄.cis = s₁.cis := (cis_foldl (fun _ _ => by simp) _ _).trans rfl
  clear_value s₄
  have h₆ : s₆.cis = s₄.cis := (cis_foldl (fun _ _ => by simp) _ _).trans rfl
  clear_value s₆
  exact (cis_setLrk s₇ _).trans ((cis_setPmh s₆ _).trans (h₆.trans (h₄.trans h₁)))

/-! ### Tiles -/

@[simp] theorem State.raiseArr_cis (s : State) (t : Nat) (f : Flags) : (s.raiseArr t f).cis = s.cis :=
  by simp [State.raiseArr]
@[simp] theorem State.raiseVec_cis (s : State) (t : Nat) (f : Flags) : (s.raiseVec t f).cis = s.cis :=
  by simp [State.raiseVec]
@[simp] theorem State.vecIssued_cis (s : State) (t rows : Nat) : (s.vecIssued t rows).cis = s.cis := rfl
@[simp] theorem State.landLoads_cis (s : State) (t : Nat) : (s.landLoads t).cis = s.cis := by simp [State.landLoads]
@[simp] theorem State.startWait_cis (s : State) (t m : Nat) (take : Bool) : (s.startWait t m take).cis = s.cis := rfl
@[simp] theorem State.holdSignal_cis (s : State) (t : Nat) (g : HeldSignal) : (s.holdSignal t g).cis = s.cis := rfl
@[simp] theorem State.raiseTiles_cis (s : State) (tiles : Half) (fl : Sparse Flags × Sparse Flags) :
    (s.raiseTiles tiles fl).cis = s.cis :=
  cis_foldl (fun _ _ => by simp) _ _
@[simp] theorem State.killTiles_cis (s : State) (tiles : List Nat) (st : Half) : (s.killTiles tiles st).cis = s.cis :=
  cis_foldl (fun _ _ => by simp) _ _
@[simp] theorem State.unclaim_cis (s : State) (k : Nat) (tiles : List Nat) : (s.unclaim k tiles).cis = s.cis :=
  cis_foldl (fun _ _ => by simp [cis_ite]) _ _
@[simp] theorem State.halt_cis (s : State) (t : Nat) (st : Half) (reason : Byte) :
    (s.halt t st reason).cis = s.cis := by
  unfold State.halt
  dsimp only
  split
  · simp
  · exact cis_foldl (fun _ _ => by simp [cis_ite]) _ _

/-! ### Lark -/

@[simp] theorem State.addSamples_cis (s : State) (n : Nat) : (s.addSamples n).cis = s.cis := rfl
@[simp] theorem State.startFrame_cis (s : State) (f : Frame) (e : Nat) : (s.startFrame f e).cis = s.cis := rfl
@[simp] theorem State.markTarget_cis (s : State) (n b mark : Nat) : (s.markTarget n b mark).cis = s.cis := rfl
@[simp] theorem State.dropFrame_cis (s : State) (f : Nat) : (s.dropFrame f).cis = s.cis := by
  unfold State.dropFrame
  split
  · rfl
  · dsimp only
    rw [cis_foldl (fun _ _ => by simp)]
    split <;> simp

/-! ### Test access -/

@[simp] theorem State.shift_cis (s : State) (code : Byte) (old : List Bool) (f : Tap → Tap) :
    (s.shift code old f).cis = s.cis :=
  by unfold State.shift; dsimp only; split <;> rfl
@[simp] theorem State.scan_cis (s : State) (code : Byte) (old : List Bool) (f : Tap → Tap) :
    (s.scan code old f).cis = s.cis :=
  by simp [State.scan]
@[simp] theorem State.bypassScan_cis (s : State) (ir : Byte) (din : List Bool) : (s.bypassScan ir din).cis = s.cis :=
  by simp [State.bypassScan]
@[simp] theorem State.wrapper_cis (s : State) (p code : Nat) (f : Tap → Tap) : (s.wrapper p code f).cis = s.cis :=
  by simp [State.wrapper, cis_ite]
@[simp] theorem State.wsCapture_cis (s : State) (p code : Nat) : (s.wsCapture p code).cis = s.cis :=
  by simp [State.wsCapture]
@[simp] theorem State.setPins_cis (s : State) (aux core rstN : Bool) : (s.setPins aux core rstN).cis = s.cis :=
  by unfold State.setPins; dsimp only; split <;> rfl

/-! ### Registers -/

@[simp] theorem State.rwsWrite_cis (s : State) (off : Nat) (w : Word) : (s.rwsWrite off w).cis = s.cis := by
  unfold State.rwsWrite
  split
  · rfl
  · dsimp only
    repeat' split
    all_goals rfl
@[simp] theorem State.lrkWrite_cis (s : State) (off : Nat) (w : Word) : (s.lrkWrite off w).cis = s.cis :=
  by simp [State.lrkWrite, cis_ite]
@[simp] theorem State.smpWrite_cis (s : State) (off : Nat) (w : Word) : (s.smpWrite off w).cis = s.cis :=
  by simp [State.smpWrite, cis_ite]
@[simp] theorem State.writeLimit_cis (s : State) (w : Word) : (s.writeLimit w).cis = s.cis := rfl
@[simp] theorem State.tileWrite_cis (s : State) (t rel : Nat) (w : Word) : (s.tileWrite t rel w).cis = s.cis :=
  by simp [State.tileWrite, cis_ite]

/-! ### The Cistern's own books -/

@[simp] theorem State.setTract_contents (s : State) (tr code : Nat) :
    (s.setTract tr code).cis.mem = s.cis.mem ∧ (s.setTract tr code).cis.synd = s.cis.synd :=
  ⟨rfl, rfl⟩
@[simp] theorem State.setWalk_contents (s : State) (tr : Nat) (w : Option Walk) :
    (s.setWalk tr w).cis.mem = s.cis.mem ∧ (s.setWalk tr w).cis.synd = s.cis.synd :=
  ⟨rfl, rfl⟩
@[simp] theorem State.setBank_contents (s : State) (tr b : Nat) (x : Bank) :
    (s.setBank tr b x).cis.mem = s.cis.mem ∧ (s.setBank tr b x).cis.synd = s.cis.synd :=
  ⟨rfl, rfl⟩
@[simp] theorem State.post_contents (s : State) (t : Nat) (who : Requester) (ctx h addr : Nat) (kind : AccessKind) :
    (s.post t who ctx h addr kind).cis.mem = s.cis.mem ∧ (s.post t who ctx h addr kind).cis.synd = s.cis.synd :=
  ⟨rfl, rfl⟩
@[simp] theorem State.takeResp_contents (s : State) (r : CisResp) :
    (s.takeResp r).cis.mem = s.cis.mem ∧ (s.takeResp r).cis.synd = s.cis.synd :=
  ⟨rfl, rfl⟩
@[simp] theorem State.grantX_contents (s : State) (a : Nat) :
    (s.grantX a).cis.mem = s.cis.mem ∧ (s.grantX a).cis.synd = s.cis.synd :=
  ⟨rfl, rfl⟩
@[simp] theorem State.scrubEnds_contents (s : State) :
    s.scrubEnds.cis.mem = s.cis.mem ∧ s.scrubEnds.cis.synd = s.cis.synd :=
  by unfold State.scrubEnds; split <;> simp
@[simp] theorem State.countPoison_contents (s : State) (st : Half) :
    (s.countPoison st).cis.mem = s.cis.mem ∧ (s.countPoison st).cis.synd = s.cis.synd :=
  by unfold State.countPoison; split <;> simp
theorem log_contents (s : State) (e : Sparse (BitVec 256)) (h : BitVec 7) (l : Word) :
    SameMemory s { s with cis := { s.cis with elog := e, elogHead := h, elogLost := l } } := ⟨rfl, rfl⟩

@[simp] theorem State.logError_contents (s : State) (addr kind : Nat) (syn : BitVec 10) (i : AccessInfo) :
    (s.logError addr kind syn i).cis.mem = s.cis.mem ∧ (s.logError addr kind syn i).cis.synd = s.cis.synd :=
  by
  unfold State.logError
  dsimp only
  split
  · exact log_contents s _ _ s.cis.elogLost
  · exact log_contents s s.cis.elog s.cis.elogHead _
@[simp] theorem State.logCe_contents (s : State) (addr : Nat) (syn : BitVec 10) (i : AccessInfo) :
    (s.logCe addr syn i).cis.mem = s.cis.mem ∧ (s.logCe addr syn i).cis.synd = s.cis.synd :=
  by unfold State.logCe; dsimp only; split <;> simp
@[simp] theorem State.logUe_contents (s : State) (addr : Nat) (syn : BitVec 10) (i : AccessInfo) :
    (s.logUe addr syn i).cis.mem = s.cis.mem ∧ (s.logUe addr syn i).cis.synd = s.cis.synd :=
  by simp [State.logUe]
@[simp] theorem State.dropRepair_contents (s : State) (k tr b : Nat) :
    (s.dropRepair k tr b).cis.mem = s.cis.mem ∧ (s.dropRepair k tr b).cis.synd = s.cis.synd :=
  by unfold State.dropRepair; split <;> [split; skip] <;> simp
@[simp] theorem State.cisWrite_contents (s : State) (off : Nat) (w : Word) :
    (s.cisWrite off w).cis.mem = s.cis.mem ∧ (s.cisWrite off w).cis.synd = s.cis.synd := by
  unfold State.cisWrite
  dsimp only
  repeat' split
  all_goals exact ⟨rfl, rfl⟩
@[simp] theorem State.testBank_contents (s : State) (f : BankFail) :
    (s.testBank f).cis.mem = s.cis.mem ∧ (s.testBank f).cis.synd = s.cis.synd := by
  unfold State.testBank
  extract_lets tr rows g u
  have h : u.cis.mem = s.cis.mem ∧ u.cis.synd = s.cis.synd := State.setBank_contents ..
  clear_value u
  split
  · exact ⟨rfl, rfl⟩
  · split <;> exact h

end Sys2Proof.Machine

end

section

namespace Sys2Proof.Machine

/-! ## What keeps the Cistern in canonical form (R75, R76, R115)

One lemma `f_canon` for each function of the model that may write the Cistern, from the accesses up to the
instructions: where the contents and the check bits are canonical before `f`, they are so after it. Each rests on the
lemmas of the functions that `f` calls. -/

/-- Contents and check bits in canonical form. -/
def Canonical (m : List Host.Cell) (y : Sparse (BitVec 10)) : Prop := Memory.wf m = true ∧ spWf 0 y = true

/-- `CanonicalMemory`, of the two parts of the state that it speaks of. -/
@[simp] abbrev State.Canon (s : State) : Prop := Canonical s.cis.mem s.cis.synd

theorem canonicalMemory_iff {s : State} : CanonicalMemory s ↔ s.Canon := Iff.rfl

/-- The state in which a dispatch leaves the die, where it does not wait. -/
def DispOut.Canon : DispOut → Prop
  | .wait => True
  | .fin s _ _ _ _ => s.Canon
  | .run s _ => s.Canon

section
variable {s : State} {x : Io} {a b : DispOut} {p : Prop} [Decidable p]

@[simp] theorem canon_ite {u : State} : (if p then s else u).Canon ↔ if p then s.Canon else u.Canon := by split <;> rfl
@[simp] theorem DispOut.canon_ite : (if p then a else b).Canon ↔ if p then a.Canon else b.Canon := by split <;> rfl
@[simp] theorem DispOut.canon_wait : DispOut.wait.Canon := trivial
@[simp] theorem DispOut.canon_fin {st : Half} {r : Byte} {fl : BitVec 4} {d : List Byte} :
    (DispOut.fin s st r fl d).Canon ↔ s.Canon := Iff.rfl
@[simp] theorem DispOut.canon_run {j : Job} : (DispOut.run s j).Canon ↔ s.Canon := Iff.rfl
@[simp] theorem DispOut.canon_fail {st : Half} : (DispOut.fail s st).Canon ↔ s.Canon := Iff.rfl
@[simp] theorem DispOut.canon_failCheck {f : CheckFail} : (DispOut.failCheck s f).Canon ↔ s.Canon := Iff.rfl
@[simp] theorem DispOut.canon_ok {d : List Byte} : (DispOut.ok s d).Canon ↔ s.Canon := Iff.rfl
@[simp] theorem Io.canon_fail {f : CheckFail} : (x.fail f).Canon ↔ x.s.Canon := Iff.rfl
@[simp] theorem Io.canon_done {d : List Byte} : (x.done d).Canon ↔ x.s.Canon := Iff.rfl
@[simp] theorem Io.of_s : (Io.of s).s = s := rfl
@[simp] theorem Io.setPool_cis (c : Nat) (q : Pool) : (x.setPool c q).s.cis = x.s.cis := rfl
@[simp] theorem Io.countSmp_cis (d a r n : Nat) : (x.countSmp d a r n).s.cis = x.s.cis := rfl

end

theorem canon_foldl {α : Type} {f : State → α → State} (hf : ∀ s a, s.Canon → (f s a).Canon) {l : List α} {s : State}
    (h : s.Canon) : (l.foldl f s).Canon := List.foldlRecOn l f h fun u hu a _ => hf u a hu

theorem Io.canon_foldl {α : Type} {f : Io → α → Io} (hf : ∀ x a, x.s.Canon → (f x a).s.Canon) {l : List α} {x : Io}
    (h : x.s.Canon) : (l.foldl f x).s.Canon :=
  List.foldlRecOn (motive := fun x : Io => x.s.Canon) l f h fun u hu a _ => hf u a hu

theorem Io.canon_foldl_snd {α β : Type} {f : β × Io → α → β × Io} (hf : ∀ x a, x.2.s.Canon → (f x a).2.s.Canon)
    {l : List α} {x : β × Io} (h : x.2.s.Canon) : (l.foldl f x).2.s.Canon :=
  List.foldlRecOn (motive := fun x : β × Io => x.2.s.Canon) l f h fun u hu a _ => hf u a hu

/-! ### Accesses -/

section
variable {s : State} (h : s.Canon)
include h

@[simp] theorem State.readLine_canon (i : AccessInfo) (a : Nat) : (s.readLine i a).state.Canon :=
  (readLine_accessed ..).2 h
@[simp] theorem State.readNarrow_canon (i : AccessInfo) (a n : Nat) : (s.readNarrow i a n).state.Canon :=
  (readNarrow_accessed ..).2 h
@[simp] theorem State.mergeWord_canon (i : AccessInfo) (w : Nat) (f : Nat → Option Byte) (p : Bool) :
    (s.mergeWord i w f p).2.Canon := (mergeWord_accessed ..).2 h
@[simp] theorem State.writeLine_canon (i : AccessInfo) (a : Nat) (f : Nat → Option Byte) (p : Nat → Bool) :
    (s.writeLine i a f p).2.Canon := (writeLine_accessed ..).2 h
@[simp] theorem State.scrubWord_canon (i : AccessInfo) (w : Nat) : (s.scrubWord i w).Canon :=
  (scrubWord_accessed ..).2 h
@[simp] theorem State.putWord_canon (w : Nat) (d : List Byte) (y : BitVec 10) : (s.putWord w d y).Canon :=
  (putWord_accessed ..).2 h
@[simp] theorem State.readLines_canon (c hd o n : Nat) : (s.readLines c hd o n).state.Canon :=
  (readLines_accessed ..).2 h
@[simp] theorem State.readBytes_canon (c hd o n : Nat) : (s.readBytes c hd o n).state.Canon :=
  (readBytes_accessed ..).2 h
@[simp] theorem State.writeLines_canon (c hd o : Nat) (f : Nat → Option Byte) (p : Nat → Bool) (n : Nat) :
    (s.writeLines c hd o f p n).2.Canon := (writeLines_accessed ..).2 h
@[simp] theorem State.writeMarked_canon (c hd o : Nat) (bs : List Byte) (ms : List Bool) :
    (s.writeMarked c hd o bs ms).2.Canon :=
  (writeMarked_accessed ..).2 h
@[simp] theorem State.writeBytes_canon (c hd o : Nat) (bs : List Byte) : (s.writeBytes c hd o bs).2.Canon :=
  (writeBytes_accessed ..).2 h
@[simp] theorem State.havoc_canon (c hd o n : Nat) : (s.havoc c hd o n).Canon := havoc_canonical s c hd o n h
@[simp] theorem State.walkEffect_canon (tr : Nat) (w : Walk) : (s.walkEffect tr w).Canon :=
  walkEffect_canonical s tr w h
@[simp] theorem State.emptyTract_canon (tr : Nat) : (s.emptyTract tr).Canon := ⟨spWf_filter _ h.1, spWf_filter _ h.2⟩
@[simp] theorem State.startWalk_canon (tr : Nat) (w : Walk) : (s.startWalk tr w).Canon := by simp [State.startWalk, h]
@[simp] theorem State.clearTract_canon (tr : Nat) : (s.clearTract tr).Canon := by
  grind [State.clearTract, State.startWalk_canon, State.setTract_contents]

@[simp] theorem State.scrubLine_canon (i : AccessInfo) (a : Nat) : (s.scrubLine i a).Canon := by
  unfold State.scrubLine
  exact canon_foldl (fun _ _ hu => State.scrubWord_canon hu ..) h

end

/-! ### Accesses of the units that gather a status -/

section
variable {x : Io} (h : x.s.Canon)
include h

@[simp] theorem Io.read_canon (c hd o n : Nat) : (x.read c hd o n).2.s.Canon := by simp [Io.read, h]
@[simp] theorem Io.readNat_canon (c hd o n : Nat) : (x.readNat c hd o n).2.s.Canon := by simp [Io.readNat, h]
@[simp] theorem Io.readP_canon (c hd o n : Nat) : (x.readP c hd o n).2.s.Canon := by unfold Io.readP; split <;> simp [h]
@[simp] theorem Io.readSome_canon (c hd o : Nat) (want : Nat → Bool) (l : List Nat) :
    (x.readSome c hd o want l).2.s.Canon :=
  Io.canon_foldl_snd (fun _ _ hu => by split <;> simp [hu]) h
@[simp] theorem Io.writeMarked_canon (c hd o : Nat) (bs : List Byte) (ms : List Bool) :
    (x.writeMarked c hd o bs ms).s.Canon := by simp [Io.writeMarked, h]
@[simp] theorem Io.write_canon (c hd o : Nat) (bs : List Byte) : (x.write c hd o bs).s.Canon := by simp [Io.write, h]
@[simp] theorem Io.copy_canon (c hd src dst n : Nat) : (x.copy c hd src dst n).s.Canon := by simp [Io.copy, h]
@[simp] theorem Io.copyPositions_canon (c n m f : Nat) : (x.copyPositions c n m f).s.Canon :=
  Io.canon_foldl (fun _ _ hu => by split <;> simp [hu]) h
@[simp] theorem Io.havocPage_canon (c n : Nat) : (x.havocPage c n).s.Canon := by simp [Io.havocPage, h]

/-! ### Page records, nodes and directories -/

@[simp] theorem Io.setCounts_canon (c n ref pin : Nat) : (x.setCounts c n ref pin).s.Canon := by simp [Io.setCounts, h]
@[simp] theorem Io.touchRec_canon (c n : Nat) : (x.touchRec c n).s.Canon := by simp [Io.touchRec, h]
@[simp] theorem Io.touchRecs_canon (c : Nat) (l : List Nat) : (x.touchRecs c l).s.Canon :=
  Io.canon_foldl (fun _ _ hu => by simp [hu]) h
@[simp] theorem Io.touchNode_canon (c n o k : Nat) : (x.touchNode c n o k).s.Canon := by simp [Io.touchNode, h]
@[simp] theorem Io.touchBucket_canon (c : Nat) (key : DWord) : (x.touchBucket c key).s.Canon := by
  simp [Io.touchBucket, h]
@[simp] theorem Io.touchPages_canon (c n : Nat) : (x.touchPages c n).s.Canon := by simp [Io.touchPages, h]
@[simp] theorem Io.touchEnts_canon (c : Nat) (es : List Ent) : (x.touchEnts c es).s.Canon := by simp [Io.touchEnts, h]
@[simp] theorem Io.push_canon (c n : Nat) : (x.push c n).s.Canon := by grind [Io.push, Io.write_canon, Io.setPool_cis]
@[simp] theorem Io.pin_canon (c n : Nat) : (x.pin c n).s.Canon := by simp [Io.pin, h]
@[simp] theorem Io.unpin_canon (c n : Nat) : (x.unpin c n).s.Canon := by
  grind [Io.unpin, Io.push_canon, Io.setPool_cis, Io.setCounts_canon, Io.touchRec_canon]
@[simp] theorem Io.take_canon (c n : Nat) : (x.take c n).s.Canon := by simp [Io.take, h]
@[simp] theorem Io.drop_canon (c n : Nat) : (x.drop c n).s.Canon := by
  grind [Io.drop, Io.push_canon, Io.setPool_cis, Io.setCounts_canon, Io.touchRec_canon]
@[simp] theorem Io.alloc_canon (c : Nat) : (x.alloc c).2.s.Canon := by
  grind [Io.alloc, Io.havocPage_canon, Io.setPool_cis, Io.setCounts_canon, Io.touchRec_canon]
@[simp] theorem Io.allocMany_canon (c n : Nat) : (x.allocMany c n).2.s.Canon :=
  Io.canon_foldl_snd (fun _ _ hu => by simp [hu]) h
@[simp] theorem Io.allocNode_canon (c : Nat) : (x.allocNode c).2.s.Canon := by
  grind [Io.allocNode, Io.touchNode_canon, Io.setPool_cis]
@[simp] theorem Io.ents_canon (c : Nat) (d : Dir) (l hs bs : List Nat) : (x.ents c d l hs bs).2.s.Canon :=
  Io.canon_foldl_snd (fun _ _ hu => by simp [hu]) h
@[simp] theorem Io.dir_canon (c hd o : Nat) (w : Bool) : (x.dir c hd o w).2.s.Canon := by
  unfold Io.dir
  split
  · exact h
  · dsimp only
    repeat' split
    all_goals simp [h]
@[simp] theorem Io.putEnt_canon (c : Nat) (d : Dir) (l hh b v : Nat) : (x.putEnt c d l hh b v).s.Canon := by
  simp [Io.putEnt, h]
@[simp] theorem Io.putNode_canon (c n o v : Nat) : (x.putNode c n o v).s.Canon := by simp [Io.putNode, h]
@[simp] theorem Io.setBucket_canon (c : Nat) (key : DWord) (n : Nat) : (x.setBucket c key n).s.Canon := by
  simp [Io.setBucket, h]
@[simp] theorem Io.fillEnts_canon (c : Nat) (d : Dir) (es : List Ent) : (x.fillEnts c d es).s.Canon :=
  Io.canon_foldl (fun _ _ hu => by simp [hu]) h
@[simp] theorem Io.clearEnts_canon (c : Nat) (d : Dir) (es : List Ent) : (x.clearEnts c d es).s.Canon :=
  Io.canon_foldl (fun _ _ hu => by simp [hu]) h
@[simp] theorem Io.localEnts_canon (c : Nat) (d : Dir) (n : Nat) : (x.localEnts c d n).2.s.Canon := by
  simp [Io.localEnts, h]
@[simp] theorem Io.blockEnts_canon (c : Nat) (d : Dir) (b : Nat) : (x.blockEnts c d b).2.s.Canon := by
  simp [Io.blockEnts, h]
@[simp] theorem Io.shareBlock_canon (c : Nat) (d : Dir) (b : Nat) (es : List Nat) : (x.shareBlock c d b es).s.Canon :=
  Io.canon_foldl (fun _ _ hu => by dsimp only; split <;> simp [hu]) h

end

@[simp] theorem Io.touchChain_canon {x : Io} (h : x.s.Canon) (c : Nat) (key : DWord) (parent : Nat) (tok : List Word)
    (fuel n : Nat) : (x.touchChain c key parent tok fuel n).s.Canon := by
  induction fuel generalizing x n with
  | zero => exact h
  | succ fuel ih =>
    unfold Io.touchChain
    have hy := touchNode_canon h c n 0 24
    have hz := touchNode_canon hy c n 256 256
    dsimp only
    repeat' split
    all_goals simp [h, hy, hz, ih]

@[simp] theorem Io.unlink_canon {x : Io} (h : x.s.Canon) (c n next fuel m : Nat) : (x.unlink c n next fuel m).s.Canon :=
  by
  induction fuel generalizing x m with
  | zero => exact h
  | succ fuel ih =>
    unfold Io.unlink
    repeat' split
    all_goals simp [h, ih]

/-- What PREFIX_LOOKUP and PREFIX_INSERT read of their packet (R347): the body of the model's function, so that what the two
commands match on is this by definition. -/
def Io.directoryTokens (x : Io) (p : Pkt) (write : Bool) : Except CheckFail Prefix × Io :=
  match x.dir p.ctx (p.handle 8) (p.u64 16) write with
  | (.error f, x) => (.error f, x)
  | (.ok d, x) =>
    if d.layers ≠ (x.pool p.ctx).layers.toNat ∨ d.heads ≠ (x.pool p.ctx).heads.toNat then (.error boundsFail, x)
    else
      let n := min (p.u32 12 / 64) d.blocks
      match x.s.chk p.ctx (p.handle 9) .wr (p.u64 24) (256 * n) with
      | some f => (.error f, x)
      | none =>
        let r := if n = 0 then ([], x) else x.read p.ctx (p.handle 9) (p.u64 24) (256 * n)
        (.ok { d := d, n := n, toks := r.1 }, r.2)

section
variable {x : Io} (h : x.s.Canon)
include h

@[simp] theorem Io.touchBlock_canon (c : Nat) (key : DWord) (parent : Nat) (tok : List Word) :
    (x.touchBlock c key parent tok).s.Canon := by simp [Io.touchBlock, h]

theorem Io.makeNode_canon (c b : Nat) (key : DWord) (parent : Nat) (tok : List Word) (es : List Nat) :
    (x.makeNode c b key parent tok es).2.s.Canon := by
  unfold Io.makeNode
  extract_lets r n p next y y₁ y₂ y₃
  have hy : y.s.Canon := write_canon (touchBucket_canon (allocNode_canon h _) ..) ..
  have h₃ : y₃.s.Canon := setBucket_canon (write_canon (write_canon hy ..) ..) ..
  dsimp only
  split <;> simp [h₃]

@[simp] theorem Io.putVector_canon (c : Nat) (d : Dir) (a : Append) (part hi j : Nat) :
    (x.putVector c d a part hi j).s.Canon := by
  unfold Io.putVector
  extract_lets ps p e n size base r f v hd k y z
  have hy : y.s.Canon := write_canon (read_canon (readNat_canon h ..) ..) ..
  split
  · exact h
  · show z.s.Canon
    simp only [z]
    split <;> simp [hy]

@[simp] theorem Io.putVectors_canon (c : Nat) (d : Dir) (a : Append) : (x.putVectors c d a).s.Canon :=
  Io.canon_foldl (fun _ _ hu => by simp [hu]) h

theorem Io.directoryTokens_canon (p : Pkt) (w : Bool) : (x.directoryTokens p w).2.s.Canon := by
  have hd := dir_canon h p.ctx (p.handle 8) (p.u64 16) w
  unfold Io.directoryTokens
  dsimp only
  split
  · simp_all
  · repeat' split
    all_goals simp_all

/-- So does the model's own read, whatever it gives. -/
theorem Io.canon_of_directoryTokens {p : Pkt} {w : Bool} {e : Except CheckFail Prefix} {y : Io}
    (hr : x.directoryTokens p w = (e, y)) : y.s.Canon := by
  have hy := Io.directoryTokens_canon h p w
  rwa [hr] at hy

end

/-! ### The units, the commands and the ends of jobs -/

theorem Io.queryRow_canon (x : Io) (c : Nat) (u : UnitIn) (i : Nat) (h : x.s.Canon) :
    (x.queryRow c u i).2.s.Canon := by
  grind [Io.queryRow, Io.readP_canon]

theorem Build.writeBatch_canon (b : Build) (c h off : Nat) (seq : Word) (hb : b.x.s.Canon) :
    (b.writeBatch c h off seq).s.Canon := by
  unfold Build.writeBatch
  exact Io.canon_foldl (fun _ _ hu => by split <;> simp [hu]) (Io.write_canon hb ..)

theorem lookaheadPrestage_canon (q : Nat) (s : State) (h : s.Canon) : (lookaheadPrestage q s).Canon := by
  grind [lookaheadPrestage, State.setQueue_cis]

/-- A round of `Match.walk` keeps the Cistern where the rounds after it do. The kernel cannot compare two bodies of
`Match.walk` without evaluating the search that it matches on, so the proof speaks of an arbitrary search. -/
def WalkRound (f : Nat → Prefix → DWord → Bool → (n : Nat) → Nat.below (motive := fun _ => Match → Match) n →
    Match → Match) : Prop :=
  ∀ c p salt share n b m, (∀ u : Match, u.x.s.Canon → (b.1 u).x.s.Canon) → m.x.s.Canon →
    (f c p salt share (n + 1) b m).x.s.Canon

theorem Match.walk_round : WalkRound Match.walk._f := by
  delta Match.walk._f
  generalize @State.matchBlock = matchBlock
  revert matchBlock
  refine id ?_
  unfold WalkRound
  beta_reduce
  intro matchBlock c p salt share n b m hb h
  dsimp only
  have hx (c) (key : DWord) (parent) (tok) : (m.x.touchBlock c key parent tok).s.Canon := Io.touchBlock_canon h ..
  grind [Io.touchPages_canon, Io.touchRecs_canon, Io.shareBlock_canon]

/-- A recursion keeps what its rounds keep. -/
theorem Match.brecOn_canon (f : (n : Nat) → Nat.below (motive := fun _ => Match → Match) n → Match → Match)
    (hz : ∀ b m, m.x.s.Canon → (f 0 b m).x.s.Canon)
    (hs : ∀ n b m, (∀ u : Match, u.x.s.Canon → (b.1 u).x.s.Canon) → m.x.s.Canon → (f (n + 1) b m).x.s.Canon) (n : Nat)
    (m : Match) (h : m.x.s.Canon) : (Nat.brecOn (motive := fun _ => Match → Match) n f m).x.s.Canon := by
  induction n generalizing m with
  | zero => exact hz _ m h
  | succ n ih => exact hs n _ m ih h

/-- What `Match.walk` keeps, of any function in its place. -/
def WalkCanon (f : Nat → Prefix → DWord → Bool → Nat → Match → Match) : Prop :=
  ∀ c p salt share n m, m.x.s.Canon → (f c p salt share n m).x.s.Canon

theorem Match.walk_keeps : WalkCanon Match.walk := by
  delta Match.walk
  unfold WalkCanon
  intro c p salt share n m h
  exact Match.brecOn_canon _ (fun _ _ h => h) (Match.walk_round c p salt share) n m h

theorem Match.walk_canon (c : Nat) (p : Prefix) (salt : DWord) (share : Bool) (n : Nat) (m : Match) (h : m.x.s.Canon)
    : (Match.walk c p salt share n m).x.s.Canon := Match.walk_keeps c p salt share n m h

theorem prefixLookupAct_canon (s : State) (k : Nat) (p : Pkt) (h : s.Canon) : (prefixLookupAct s k p).Canon := by
  unfold prefixLookupAct
  dsimp only
  split
  · exact DispOut.canon_failCheck.2 h
  have hp : ∀ e y, (Io.of s).directoryTokens p true = (e, y) → y.s.Canon := fun e y hr =>
    Io.canon_of_directoryTokens (x := Io.of s) h hr
  split
  · next f x hr => exact Io.canon_fail.2 (hp _ _ hr)
  · next px x hr =>
    have hx := hp _ _ hr
    grind [Io.localEnts_canon, Match.walk_canon, Match.start, DispOut.canon_failCheck, Io.canon_fail,
    Io.canon_done]

theorem Io.penalties_canon (x : Io) (c hd off : Nat) (h : x.s.Canon) : (x.penalties c hd off).2.s.Canon := by
  grind [Io.penalties, Io.readNat_canon, Io.read_canon]

theorem Io.readSides_canon (x : Io) (c : Nat) (st : Stream) (sx : List Byte) (present : List (Nat × Nat))
    (h : x.s.Canon) : (x.readSides c st sx present).2.s.Canon := by
  unfold Io.readSides
  exact Io.canon_foldl_snd (fun _ _ hu => by dsimp only; split <;> simp [hu]) h

theorem Io.countEmitted_canon (x : Io) (c hd off t : Nat) (h : x.s.Canon) : (x.countEmitted c hd off t).s.Canon := by
  grind [Io.countEmitted, Io.penalties_canon, Io.write_canon]
theorem Io.resolveRow_canon (x : Io) (c : Nat) (a : Attn) (r : ARow) (h : x.s.Canon) :
    (x.resolveRow c a r).2.s.Canon := by grind [Io.resolveRow, Io.dir_canon, Io.ents_canon]

theorem Io.resolveRows_canon (c : Nat) (a : Attn) (rs : List ARow) (x : Io) (h : x.s.Canon) :
    (Io.resolveRows c a rs x).2.s.Canon := by
  induction rs generalizing x with
  | nil => exact h
  | cons r rs ih => grind [Io.resolveRows, Io.resolveRow_canon]

theorem State.readWord_canon (s : State) (i : AccessInfo) (w : Nat) (h : s.Canon) : (s.readWord i w).state.Canon := by
  grind [State.readWord, State.logCe_contents, State.putWord_canon, State.logUe_contents]
theorem State.readScript_canon (s : State) (c : Nat) (j : StepJob) (cls : Nat) (h : s.Canon) :
    (s.readScript c j cls).2.2.Canon := by grind [State.readScript, State.readBytes_canon]

theorem State.fillBuffers_canon (s : State) (c : Nat) (r : RunJob) (h : s.Canon) : (s.fillBuffers c r).2.Canon := by
  unfold State.fillBuffers
  exact List.foldlRecOn (motive := fun a : Half × State => a.2.Canon) _ _ h fun _ hu _ _ =>
    canon_foldl (fun _ _ hv => by simp [hv]) (State.readLines_canon hu ..)

theorem Io.readKey_canon (x : Io) (c n p pos : Nat) (h : x.s.Canon) : (x.readKey c n p pos).2.s.Canon := by
  grind [Io.readKey, Io.readP_canon]
theorem Io.readPart_canon (x : Io) (c : Nat) (m : Merge) (q i : Nat) (h : x.s.Canon) :
    (x.readPart c m q i).2.s.Canon := by grind [Io.readPart, Io.readP_canon]
theorem State.startWalks_canon (s : State) (l : List Nat) (h : s.Canon) : (s.startWalks l).Canon := by
  unfold State.startWalks
  exact canon_foldl (fun _ _ hu => State.startWalk_canon hu ..) h

theorem State.zeroFill_canon (s : State) (h : s.Canon) : s.zeroFill.Canon := by
  unfold State.zeroFill
  extract_lets r u
  have hu : u.Canon := h
  rw [State.Canon, State.zeroFilled_cis]
  exact canon_foldl (fun v t hv => by split; exacts [hv, State.clearTract_canon hv t]) hu

theorem State.havocXfer_canon (s : State) (ctx : Nat) (x : Xfer) (h : s.Canon) : (s.havocXfer ctx x).Canon := by
  unfold State.havocXfer
  split
  · exact canon_foldl (fun _ _ hu => State.havoc_canon hu ..) h
  · exact h

theorem copyDremoteAct_canon (s : State) (k : Nat) (p : Pkt) (h : s.Canon) : (copyDremoteAct s k p).Canon := by
  grind [copyDremoteAct, State.readBytes_canon, State.sendWrite_cis, DispOut.Canon, DispOut.fail, DispOut.failCheck]

theorem Io.readKeys_canon (x : Io) (c keylen : Nat) (pages : List (Nat × Nat)) (h : x.s.Canon) :
    (x.readKeys c keylen pages).2.s.Canon := by
  unfold Io.readKeys
  refine List.foldlRecOn (motive := fun a : List (List KeyIn) × Io => a.2.s.Canon) _ _ h fun a ha bp _ => ?_
  refine List.foldlRecOn (motive := fun b : List KeyIn × Io => b.2.s.Canon) _ _ ha fun b hb p _ => ?_
  dsimp only
  exact Io.readKey_canon _ _ _ _ _ hb

theorem AttnAcc.store_canon (z : AttnAcc) (c : Nat) (u : UnitIn) (rank i : Nat) (o : RowOut) (bad : Bool)
    (h : z.x.s.Canon) : (z.store c u rank i o bad).x.s.Canon := by
  grind [AttnAcc.store, AttnAcc.raise, Io.writeMarked_canon]

theorem AttnAcc.unit_canon (c : Nat) (a : Attn) (ntiles : Nat) (z : AttnAcc) (row hd : Nat) (r : ARow)
    (pages : List (Nat × Nat)) (h : z.x.s.Canon) : (z.unit c a ntiles row hd r pages).x.s.Canon := by
  unfold AttnAcc.unit
  extract_lets sc sg mp ks
  have hsc : sc.2.s.Canon := by grind [Io.readP_canon]
  have hsg : sg.2.s.Canon := by grind [Io.readP_canon]
  have hmp : mp.2.s.Canon := Io.canon_foldl_snd (x := ([], sg.2)) (fun _ _ hu => by exact Io.readP_canon hu ..) hsg
  have hks : ks.2.s.Canon := Io.readKeys_canon _ _ _ _ hmp
  exact List.foldlRecOn (motive := fun z : AttnAcc => z.x.s.Canon) _ _ hks fun z hz _ _ =>
    AttnAcc.store_canon _ _ _ _ _ _ _ (Io.queryRow_canon _ _ _ _ hz)

theorem AttnAcc.rows_canon (c : Nat) (a : Attn) (ntiles i : Nat) (rs : List ARow) (pages : List Nat) (z : AttnAcc)
    (h : z.x.s.Canon) : (AttnAcc.rows c a ntiles i rs pages z).x.s.Canon := by
  induction rs generalizing i pages z with
  | nil => exact h
  | cons r rs ih =>
    unfold AttnAcc.rows
    split
    · exact ih _ _ _ h
    · exact ih _ _ _ (List.foldlRecOn (motive := fun z : AttnAcc => z.x.s.Canon) _ _ h fun z hz _ _ =>
        AttnAcc.unit_canon _ _ _ _ _ _ _ _ hz)

theorem attnRun_canon (s : State) (k c : Nat) (bytes : List Byte) (pages : List Nat) (h : s.Canon) :
    (attnRun s k c bytes pages).Canon := by
  unfold attnRun
  extract_lets a t rows n z
  have hz : z.x.s.Canon := AttnAcc.rows_canon _ _ _ _ _ _ _ (Io.read_canon h ..)
  clear_value z
  grind [State.raiseTiles_cis, State.sendPieces_cis, State.setCmd_cis, DispOut.canon_fin, DispOut.canon_run]

theorem State.rdSegArrives_canon (s : State) (f : Flit) (handle : Byte) (off : DWord) (len : Word) (h : s.Canon) :
    (s.rdSegArrives f handle off len).Canon := by
  unfold State.rdSegArrives
  split
  · simp [h]
  · extract_lets g u
    have hu : u.Canon := canon_foldl (fun _ _ hv => by simp [hv]) (State.readBytes_canon h ..)
    simp [hu]

theorem State.segData_canon (s : State) (r : RxSeg) (bs : List Byte) (marks : List Nat) (h : s.Canon) :
    (s.segData r bs marks).Canon := by
  grind [State.segData, State.ackLast_cis, State.failSeg_cis, State.writeMarked_canon, State.segDone_cis,
    State.putSeg_cis]

theorem Io.readRefs_canon (x : Io) (c : Nat) (st : Stream) (bufs : List Nat) (h : x.s.Canon) :
    (x.readRefs c st bufs).2.s.Canon := by
  unfold Io.readRefs
  exact List.foldlRecOn (motive := fun a : List (List Byte × List Bool) × Io => a.2.s.Canon) _ _ h fun _ hu _ _ =>
    Io.readSome_canon hu ..

theorem State.ringPut_canon (s : State) (c : Nat) (r : Ring) (bytes : List Byte) (h : s.Canon) :
    (s.ringPut c r bytes).Canon := by grind [State.ringPut, State.writeBytes_canon]
theorem telemetryAct_canon (s : State) (k : Nat) (p : Pkt) (h : s.Canon) : (telemetryAct s k p).Canon := by
  grind [telemetryAct, State.writeBytes_canon, DispOut.Canon, DispOut.failCheck]
theorem State.perform_canon (s : State) (r : CisReq) (h : s.Canon) : (s.perform r).1.Canon := by
  grind [State.perform, State.readLine_canon, State.readNarrow_canon, State.writeLine_canon, State.mergeWord_canon,
    State.countPoison_contents]
theorem fillAct_canon (s : State) (k : Nat) (p : Pkt) (h : s.Canon) : (fillAct s k p).Canon := by
  grind [fillAct, State.writeLines_canon, DispOut.Canon, DispOut.fail, DispOut.failCheck]
theorem State.clearBuckets_canon (s : State) (c : Nat) (h : s.Canon) : (s.clearBuckets c).Canon := by
  grind [State.clearBuckets, State.writeBytes_canon]

theorem AttnAcc.mergeOne_canon (c : Nat) (m : Merge) (ntiles : Nat) (z : AttnAcc) (q : Nat) (h : z.x.s.Canon) :
    (AttnAcc.mergeOne c m ntiles z q).x.s.Canon := by
  unfold AttnAcc.mergeOne
  extract_lets r
  have hr : r.2.2.s.Canon := List.foldlRecOn (motive := fun b : List Part × Bool × Io => b.2.2.s.Canon) _ _ h
    fun _ hb _ _ => Io.readPart_canon _ _ _ _ _ hb
  clear_value r
  grind [AttnAcc.raise, Io.writeMarked_canon]

theorem mergeRun_canon (s : State) (c : Nat) (bytes : List Byte) (h : s.Canon) : (mergeRun s c bytes).Canon := by
  unfold mergeRun
  extract_lets m n z
  have hz : z.x.s.Canon := List.foldlRecOn (motive := fun z : AttnAcc => z.x.s.Canon) _ _ h fun z hz q _ =>
    AttnAcc.mergeOne_canon _ _ _ _ _ hz
  clear_value z
  grind [State.raiseTiles_cis, DispOut.canon_fin]

theorem attendStart_canon (s : State) (k : Nat) (c : Cmd) (bytes : List Byte) (h : s.Canon) :
    (attendStart s k c bytes).Canon := by grind [attendStart, attnRun_canon, mergeRun_canon, DispOut.Canon]
theorem State.unpinAll_canon (s : State) (c : Nat) (pins : List Nat) (h : s.Canon) : (s.unpinAll c pins).Canon := by
  unfold State.unpinAll
  exact Io.canon_foldl (fun _ _ hu => Io.unpin_canon hu ..) h
theorem State.scriptEnds_canon (s : State) (k c idx : Nat) (st : Half) (flags : BitVec 4) (h : s.Canon) :
    (s.scriptEnds k c idx st flags).Canon := by
  grind [State.scriptEnds, State.setCmd_cis, State.unpinAll_canon, State.setStepJob_cis]
theorem State.finishLate_canon (s : State) (k : Nat) (st : Half) (reason : Byte) (flags : BitVec 4) (late : Bool)
    (data : List Byte) (h : s.Canon) : (s.finishLate k st reason flags late data).Canon := by
  grind [State.finishLate, State.scriptEnds_canon, State.setCmd_cis]
theorem State.finish_canon (s : State) (k : Nat) (st : Half) (reason : Byte) (flags : BitVec 4) (data : List Byte)
    (h : s.Canon) : (s.finish k st reason flags data).Canon := by grind [State.finish, State.finishLate_canon]

theorem DispOut.apply_canon {s : State} {o : DispOut} (k : Nat) (h : s.Canon) (ho : o.Canon) :
    (o.apply s k).Canon := by
  cases o with
  | wait => exact h
  | fin => exact State.finish_canon _ _ _ _ _ _ ho
  | run => simpa [DispOut.apply] using ho

theorem State.dispatch_canon (s : State) (q : Nat) (row : Pkt → Bool) (act : State → Nat → Pkt → DispOut)
    (ha : ∀ u k p, u.Canon → (act u k p).Canon) (h : s.Canon) : (s.dispatch q row act).Canon := by
  have he (k : Nat) (p : Pkt) : ((s.takeHead q k p).enter k (.queue q) p).Canon := by simpa using h
  unfold State.dispatch
  split
  · exact h
  · split
    · exact h
    · split
      · exact h
      · refine DispOut.apply_canon _ h ?_
        split
        · exact he _ _
        · split
          · exact he _ _
          · exact ha _ _ _ (he _ _)

theorem State.senseRow_canon (s : State) (tr b row : Nat) (h : s.Canon) : (s.senseRow tr b row).Canon := by
  unfold State.senseRow
  exact canon_foldl (fun _ _ hu => State.scrubLine_canon hu ..) h
theorem allocList_canon (s : State) (p : Pkt) (h : s.Canon) : (allocList s p).Canon := by
  grind [allocList, Io.allocMany_canon, Io.write_canon, DispOut.Canon, DispOut.fail, DispOut.failCheck, Io.done,
    Io.of]
theorem Io.rowEnts_canon (x : Io) (c : Nat) (e : Entry) (n : Nat) (h : x.s.Canon) : (x.rowEnts c e n).2.s.Canon := by
  grind [Io.rowEnts, Io.dir_canon, Io.ents_canon, Io.touchEnts_canon]
theorem Prep.entry_canon (c : Nat) (d : Dir) (pos reserve : Nat) (a : Prep) (e : Ent) (h : a.x.s.Canon) :
    (Prep.entry c d pos reserve a e).x.s.Canon := by
  grind [Prep.entry, Io.setPool_cis, Io.alloc_canon, Io.copyPositions_canon, Io.putEnt_canon, Io.drop_canon]

theorem Io.prepare_canon (x : Io) (c : Nat) (d : Dir) (es : List Ent) (pos reserve : Nat) (h : x.s.Canon) :
    (x.prepare c d es pos reserve).x.s.Canon := by
  unfold Io.prepare
  exact List.foldlRecOn (motive := fun a : Prep => a.x.s.Canon) _ _ h fun _ ha _ _ => Prep.entry_canon _ _ _ _ _ _ ha

theorem Build.note_canon (b : Build) (r : Nat) (st : Half) (state : ReqState) (h : b.x.s.Canon) :
    (b.note r st state).x.s.Canon := h
theorem Build.select_canon (b : Build) (r n used : Nat) (h : b.x.s.Canon) : (b.select r n used).x.s.Canon := by
  grind [Build.select, State.setEntry_cis, State.setCust_cis]
theorem Build.pages_canon (c : Nat) (b : Build) (r n : Nat) (h : b.x.s.Canon) : (Build.pages c b r n).x.s.Canon := by
  have he : (b.x.rowEnts c (b.x.s.entry r) n).2.s.Canon := Io.rowEnts_canon _ _ _ _ h
  grind [Build.pages, Build.note_canon, Build.select_canon, Io.prepare_canon]
theorem Build.row_canon (c rowCap tokCap chunkMax : Nat) (b : Build) (r : Nat) (h : b.x.s.Canon) :
    (Build.row c rowCap tokCap chunkMax b r).x.s.Canon := by grind [Build.row, Build.note_canon, Build.pages_canon]

theorem stepAct_canon (s : State) (k : Nat) (p : Pkt) (h : s.Canon) : (stepAct s k p).Canon := by
  unfold stepAct
  have hb (c h rowCap tokCap chunkMax : Nat) (off : Nat) (seq : Word) (u : Build) (l : List Nat) (hu : u.x.s.Canon) :
      ((l.foldl (Build.row c rowCap tokCap chunkMax) u).writeBatch c h off seq).s.Canon :=
    Build.writeBatch_canon _ _ _ _ _ (List.foldlRecOn (motive := fun b : Build => b.x.s.Canon) _ _ hu
      fun _ hv _ _ => Build.row_canon _ _ _ _ _ _ hv)
  grind [DispOut.canon_fail, DispOut.canon_failCheck, DispOut.canon_wait, DispOut.canon_run, State.setStepJob_cis,
    Io.of]

theorem pageFreeAct_canon (s : State) (k : Nat) (p : Pkt) (h : s.Canon) : (pageFreeAct s k p).Canon := by
  have hd (l : List Nat) (x : Io) (hx : x.s.Canon) : (l.foldl (fun x i => x.drop p.ctx i) x).s.Canon :=
    Io.canon_foldl (fun _ _ hu => Io.drop_canon hu ..) hx
  grind [pageFreeAct, Io.read_canon, Io.touchRecs_canon, DispOut.canon_fail, DispOut.canon_failCheck, Io.canon_fail,
    Io.canon_done, Io.of]

theorem Io.countAll_canon (x : Io) (c : Nat) (e : Entry) (ts : List Word) (h : x.s.Canon) :
    (x.countAll c e ts).s.Canon := by
  unfold Io.countAll
  extract_lets hd off
  split
  · exact h
  · exact Io.canon_foldl (fun _ _ hu => Io.countEmitted_canon _ _ _ _ _ hu) h

theorem State.discardQueue_canon (s : State) (q : Nat) (m : QMap) (h : s.Canon) : (s.discardQueue q m).Canon := by
  grind [State.discardQueue, State.setQueue_cis]
theorem allocDirectory_canon (s : State) (p : Pkt) (h : s.Canon) : (allocDirectory s p).Canon := by
  grind [allocDirectory, Io.dir_canon, Io.ents_canon, Io.fillEnts_canon, DispOut.Canon, DispOut.failCheck, Io.done,
    Io.fail, Io.of]
theorem State.reqArrives_canon (s : State) (a : FlitHdr) (f : Flit) (h : s.Canon) : (s.reqArrives a f).Canon := by
  grind [State.reqArrives, State.wrSegArrives_cis, State.rdSegArrives_canon, State.malformed_cis]
theorem mergeLseAct_canon (s : State) (k : Nat) (p : Pkt) (h : s.Canon) : (mergeLseAct s k p).Canon := by
  grind [mergeLseAct, attendStart_canon, DispOut.Canon, DispOut.failCheck]

theorem loadFillEnd_canon (k : Nat) (s : State) (h : s.Canon) : (loadFillEnd k s).Canon := by
  unfold loadFillEnd
  split
  · exact h
  · split
    · split
      · exact h
      · extract_lets f u
        have hu : u.Canon := canon_foldl (fun _ _ hv => by simp [hv]) (State.fillBuffers_canon _ _ _ h)
        simp [hu]
    · exact h

theorem Io.logits_canon (x : Io) (c hd off vocab : Nat) (h : x.s.Canon) : (x.logits c hd off vocab).2.s.Canon := by
  grind [Io.logits, State.readBytes_canon]

theorem State.readUnits_canon (s : State) (m : QMap) (head : Word) (n : Nat) (h : s.Canon) :
    (s.readUnits m head n).state.Canon := by
  induction n generalizing s head with
  | zero => exact h
  | succ n ih => exact ih _ _ (State.readBytes_canon h ..)

theorem Decoding.readSlots_canon (z : Decoding) (x : Io) (c : Nat) (st : Stream) (present : List (Nat × Nat))
    (h : x.s.Canon) : (z.readSlots x c st present).2.s.Canon := by
  unfold Decoding.readSlots
  exact Io.canon_foldl_snd (fun _ _ hu => by dsimp only; split <;> simp [hu]) h

theorem trimDir_canon (s : State) (c dh doff : Nat) (front : Bool) (pos : Nat) (h : s.Canon) :
    (trimDir s c dh doff front pos).2.s.Canon := by
  grind [trimDir, Io.dir_canon, Io.ents_canon, Io.touchEnts_canon, Io.clearEnts_canon, Io.of]
theorem tractWakeEnd_canon (tr : Nat) (s : State) (h : s.Canon) : (tractWakeEnd tr s).Canon := by
  grind [tractWakeEnd, State.clearTract_canon]

theorem appendAct_canon (s : State) (c : Nat) (a : Append) (h : s.Canon) : (appendAct s c a).Canon := by
  have hd : ((Io.of s).dir c a.dh a.doff true).2.s.Canon := Io.dir_canon h ..
  grind [appendAct, Io.ents_canon, Io.touchEnts_canon, Io.prepare_canon, Io.putVectors_canon, DispOut.canon_fail,
    DispOut.canon_failCheck, Io.canon_fail, Io.canon_done]

theorem State.readArrives_canon (s : State) (k : Nat) (c : Cmd) (x : Xfer) (n : Nat) (bs : List Byte)
    (marks : List Nat) (h : s.Canon) : (s.readArrives k c x n bs marks).Canon := by
  grind [State.readArrives, State.writeMarked_canon, State.setCmd_cis]
theorem kvTrimAct_canon (s : State) (k : Nat) (p : Pkt) (h : s.Canon) : (kvTrimAct s k p).Canon := by
  grind [kvTrimAct, trimDir_canon, DispOut.Canon, DispOut.fail, DispOut.failCheck, Io.done, Io.fail]
theorem State.refreshSlot_canon (s : State) (tr b : Nat) (h : s.Canon) : (s.refreshSlot tr b).Canon := by
  grind [State.refreshSlot, State.scrubLine_canon, State.scrubEnds_contents, State.setBank_contents]
theorem bankSlot_canon (tr b : Nat) (s : State) (h : s.Canon) : (bankSlot tr b s).Canon := by
  grind [bankSlot, State.setBank_contents, State.perform_canon]
theorem State.standby_canon (s : State) (h : s.Canon) : s.standby.Canon := ⟨rfl, rfl⟩
theorem State.abandonNow_canon (s : State) (h : s.Canon) : s.abandonNow.Canon := by
  grind [State.abandonNow, State.standby_canon]
theorem abandon_canon (s : State) (h : s.Canon) : (abandon s).Canon := by grind [abandon, State.abandonNow_canon]
theorem State.rstWrite_canon (s : State) (off : Nat) (w : Word) (h : s.Canon) : (s.rstWrite off w).Canon := by
  grind [State.rstWrite, abandon_canon]
theorem topMapWrite_canon (w : Word) (s : State) (h : s.Canon) : (topMapWrite w s).Canon := by
  grind [topMapWrite, State.sendHellos_cis, State.afterTopology_cis, State.checkPorts_cis]
theorem topExpectWrite_canon (p : Nat) (w : Word) (s : State) (h : s.Canon) : (topExpectWrite p w s).Canon := by
  grind [topExpectWrite, State.afterTopology_cis, State.checkPorts_cis]
theorem portConfirm_canon (mask : BitVec 9) (s : State) (h : s.Canon) : (portConfirm mask s).Canon := by
  rw [State.Canon, portConfirm, State.afterTopology_cis, cis_foldl (fun _ _ => State.confirmPort_cis ..)]
  exact h
theorem State.topWrite_canon (s : State) (off : Nat) (w : Word) (h : s.Canon) : (s.topWrite off w).Canon := by
  grind [State.topWrite, topMapWrite_canon, State.afterTopology_cis, topExpectWrite_canon, portConfirm_canon]
theorem State.loseCmd_canon (s : State) (k : Nat) (st : Half) (h : s.Canon) : (s.loseCmd k st).Canon := by
  grind [State.loseCmd, State.finish_canon, State.havocXfer_canon]

theorem State.loseJobs_canon (s : State) (who : Job → Bool) (st : Half) (h : s.Canon) :
    (s.loseJobs who st).Canon := by
  unfold State.loseJobs
  exact canon_foldl (fun _ _ hu => State.loseCmd_canon _ _ _ hu) h

theorem State.loseCommands_canon (s : State) (p : Nat) (st : Half) (h : s.Canon) : (s.loseCommands p st).Canon := by
  grind [State.loseCommands, State.loseJobs_canon]
theorem State.disablePort_canon (s : State) (p : Nat) (h : s.Canon) : (s.disablePort p).Canon := by
  grind [State.disablePort, State.afterTopology_cis, State.loseCommands_canon, State.setPort_cis]
theorem linkEnable_canon (p : Nat) (w : Word) (s : State) (h : s.Canon) : (linkEnable p w s).Canon := by
  grind [linkEnable, State.setPort_cis, State.disablePort_canon]
theorem State.lnkWrite_canon (s : State) (p rel : Nat) (w : Word) (h : s.Canon) : (s.lnkWrite p rel w).Canon := by
  grind [State.lnkWrite, linkEnable_canon, State.setPort_cis]
theorem queueDoorbell_canon (q : Nat) (tail : Word) (s : State) (h : s.Canon) : (queueDoorbell q tail s).Canon := by
  simp [queueDoorbell, h]
theorem tileHold_canon (w : Half) (s : State) (h : s.Canon) : (tileHold w s).Canon := by grind [tileHold]
theorem State.pmhWrite_canon (s : State) (off : Nat) (w : Word) (h : s.Canon) : (s.pmhWrite off w).Canon := by
  grind [State.pmhWrite, queueDoorbell_canon, tileHold_canon, State.setCtx_cis, State.setSem_cis]
theorem swapRequest_canon (s : State) (h : s.Canon) : (swapRequest s).Canon := by
  grind [swapRequest, State.requestSwap_cis]
theorem State.cfgWordWrite_canon (s : State) (off : Nat) (w : Word) (h : s.Canon) : (s.cfgWordWrite off w).Canon := by
  grind [State.cfgWordWrite, swapRequest_canon]
theorem draftWrite_canon (e word : Nat) (w : Word) (s : State) (h : s.Canon) : (draftWrite e word w s).Canon := by
  grind [draftWrite, State.setEntry_cis]
theorem State.srvWrite_canon (s : State) (off : Nat) (w : Word) (h : s.Canon) : (s.srvWrite off w).Canon := by
  grind [State.srvWrite, draftWrite_canon, State.setCtx_cis]
theorem State.armPool_canon (s : State) (c : Nat) (h : s.Canon) : (s.armPool c).Canon := by
  grind [State.armPool, State.setPool_cis, State.clearBuckets_canon]
theorem poolArm_canon (c : Nat) (s : State) (h : s.Canon) : (poolArm c s).Canon := by
  grind [poolArm, State.armPool_canon]
theorem State.kvpWrite_canon (s : State) (c rel : Nat) (w : Word) (h : s.Canon) : (s.kvpWrite c rel w).Canon := by
  grind [State.kvpWrite, State.setPool_cis, poolArm_canon]

theorem State.ctrlWrite_canon (s : State) (off : Nat) (w : Word) (h : s.Canon) : (s.ctrlWrite off w).Canon := by
  have hr : (s.rwsWrite off w).Canon := by rw [State.Canon, State.rwsWrite_cis]; exact h
  have hc (n : Nat) : (s.cisWrite n w).Canon := by
    rw [State.Canon, (State.cisWrite_contents ..).1, (State.cisWrite_contents ..).2]; exact h
  have hs (n : Nat) : (s.smpWrite n w).Canon := by rw [State.Canon, State.smpWrite_cis]; exact h
  have ht (t n : Nat) : (s.tileWrite t n w).Canon := by rw [State.Canon, State.tileWrite_cis]; exact h
  have hl (n : Nat) : (s.lrkWrite n w).Canon := by rw [State.Canon, State.lrkWrite_cis]; exact h
  have hm : (s.writeLimit w).Canon := h
  unfold State.ctrlWrite
  cases s.lnkAt off <;>
    simp only [canon_ite, h, hr, hc, hs, ht, hl, hm, State.rstWrite_canon, State.topWrite_canon,
      State.lnkWrite_canon, State.pmhWrite_canon, State.cfgWordWrite_canon, State.srvWrite_canon, State.kvpWrite_canon,
      ite_self]

theorem State.ctrlWrites_canon (s : State) (off : Nat) (ws : List Word) (h : s.Canon) :
    (s.ctrlWrites off ws).Canon := by
  induction ws generalizing s off with
  | nil => exact h
  | cons w ws ih => exact ih _ _ (State.ctrlWrite_canon _ _ _ h)

theorem Match.create_canon (c : Nat) (p : Prefix) (salt : DWord) (fuel : Nat) (m : Match) (h : m.x.s.Canon) :
    (Match.create c p salt fuel m).1.x.s.Canon := by
  induction fuel generalizing m with
  | zero => exact h
  | succ fuel ih =>
    have ht (l : List Nat) (x : Io) (hx : x.s.Canon) : (l.foldl (fun x n => x.take c n) x).s.Canon :=
      Io.canon_foldl (fun _ _ hu => Io.take_canon hu ..) hx
    grind [Match.create, Io.blockEnts_canon, Io.touchRecs_canon, Io.makeNode_canon]

theorem insertAct_canon (s : State) (p : Pkt) (h : s.Canon) : (insertAct s p).Canon := by
  unfold insertAct
  dsimp only
  have hp : ∀ e y, (Io.of s).directoryTokens p false = (e, y) → y.s.Canon := fun e y hr =>
    Io.canon_of_directoryTokens (x := Io.of s) h hr
  split
  · next f x hr => exact Io.canon_fail.2 (hp _ _ hr)
  · next px x hr =>
    have hx := hp _ _ hr
    grind [Io.localEnts_canon, Io.touchEnts_canon, Match.walk_canon, Match.start, Match.create_canon,
    DispOut.canon_fin, Io.canon_fail, Io.canon_done]

theorem State.leaveFlight_canon (s : State) (k : Nat) (h : s.Canon) : (s.leaveFlight k).Canon := by
  grind [State.leaveFlight, State.setCmd_cis, State.unpinAll_canon, State.setQueue_cis, State.countFinished_cis]
theorem copyAct_canon (s : State) (k : Nat) (p : Pkt) (h : s.Canon) : (copyAct s k p).Canon := by
  grind [copyAct, State.readBytes_canon, State.writeMarked_canon, State.addSem_cis, DispOut.Canon, DispOut.fail,
    DispOut.failCheck]
theorem State.writeWord_canon (s : State) (i : AccessInfo) (w : Nat) (f : Nat → Option Byte) (poison : Bool)
    (h : s.Canon) : (s.writeWord i w f poison).2.Canon := by
  grind [State.writeWord, State.putWord_canon, State.mergeWord_canon]
theorem State.zeroRow_canon (s : State) (tr b row : Nat) (h : s.Canon) : (s.zeroRow tr b row).Canon := by
  unfold State.zeroRow
  exact canon_foldl (fun _ _ hu => canon_foldl (fun _ _ hv => State.putWord_canon hv ..) hu) h
theorem Io.attnChecks_canon (x : Io) (c : Nat) (a : Attn) (h : x.s.Canon) : (x.attnChecks c a).2.s.Canon := by
  grind [Io.attnChecks, Io.read_canon, Io.resolveRows_canon]
theorem Io.setPool_canon (x : Io) (c : Nat) (p : Pool) (h : x.s.Canon) : (x.setPool c p).s.Canon := by
  grind [Io.setPool, State.setPool_cis]
theorem State.setBanks_canon {α : Type} (f : State → α → State)
    (hf : ∀ s a, (f s a).cis.mem = s.cis.mem ∧ (f s a).cis.synd = s.cis.synd) (l : List α) (s : State) (h : s.Canon) :
    (l.foldl f s).Canon := canon_foldl (fun u a hu => by rw [State.Canon, (hf u a).1, (hf u a).2]; exact hu) h
theorem State.loadRepairs_canon (s : State) (warm : Bool) (h : s.Canon) : (s.loadRepairs warm).Canon := by
  unfold State.loadRepairs
  exact State.setBanks_canon _ (fun _ _ => State.setBank_contents ..) _ _ h

theorem dispatchAs_canon (s : State) (k : Nat) (j : Job) (f : State → State) (hf : ∀ u : State, u.Canon → (f u).Canon)
    (h : s.Canon) : (dispatchAs s k j f).Canon := by
  have hs : (f (s.setJob k j)).Canon := hf _ (by simp [h])
  unfold dispatchAs
  dsimp only
  split <;> exact hs

theorem badFlit_canon (p : Nat) (s : State) (h : s.Canon) : (badFlit p s).Canon := by
  grind [badFlit, State.setPort_cis]
theorem runAct_canon (s : State) (k : Nat) (p : Pkt) (h : s.Canon) : (runAct s k p).Canon := by
  grind [runAct, DispOut.Canon, DispOut.fail, DispOut.failCheck]
theorem larkStreamMarkAct_canon (s : State) (k : Nat) (p : Pkt) (h : s.Canon) : (larkStreamMarkAct s k p).Canon := by
  simp [larkStreamMarkAct, h]
theorem Io.countSmp_canon (x : Io) (draws accepted rejected nocand : Nat) (h : x.s.Canon) :
    (x.countSmp draws accepted rejected nocand).s.Canon := by grind [Io.countSmp]
theorem State.zeroBudgets_cis (l : List Nat) (s : State) : (l.foldl State.zeroBudget s).cis = s.cis :=
  cis_foldl (fun _ _ => by simp) _ _
theorem ctxOpenAct_canon (s : State) (k : Nat) (p : Pkt) (h : s.Canon) : (ctxOpenAct s k p).Canon := by
  simp [ctxOpenAct, h, State.zeroBudgets_cis]
theorem semSignalAct_canon (s : State) (k : Nat) (p : Pkt) (h : s.Canon) : (semSignalAct s k p).Canon := by
  simp [semSignalAct, h]
theorem cfgWriteAct_canon (s : State) (k : Nat) (p : Pkt) (h : s.Canon) : (cfgWriteAct s k p).Canon := by
  grind [cfgWriteAct, DispOut.Canon, DispOut.fail, DispOut.ok]

theorem larkStreamOpenAct_canon (s : State) (k : Nat) (p : Pkt) (h : s.Canon) : (larkStreamOpenAct s k p).Canon := by
  unfold larkStreamOpenAct
  extract_lets n x
  cases s.poolRange p.ctx x <;> simp [h]

theorem condAct_canon (q : Nat) (s : State) (k : Nat) (p : Pkt) (h : s.Canon) : (condAct q s k p).Canon := by
  simp [condAct, h]
theorem fenceAct_canon (s : State) (k : Nat) (p : Pkt) (h : s.Canon) : (fenceAct s k p).Canon := by
  grind [fenceAct, DispOut.Canon, DispOut.fail, DispOut.ok]
theorem semWaitAct_canon (s : State) (k : Nat) (p : Pkt) (h : s.Canon) : (semWaitAct s k p).Canon := by
  simp [semWaitAct, h]
theorem semSignalRemoteAct_canon (s : State) (k : Nat) (p : Pkt) (h : s.Canon) :
    (semSignalRemoteAct s k p).Canon := by
  grind [semSignalRemoteAct, State.sendOwn_cis, DispOut.Canon, DispOut.fail]
theorem copySremoteAct_canon (s : State) (k : Nat) (p : Pkt) (h : s.Canon) : (copySremoteAct s k p).Canon := by
  grind [copySremoteAct, State.sendRead_cis, State.forgetDead_cis, DispOut.Canon, DispOut.fail, DispOut.failCheck]
theorem nopAct_canon (s : State) (k : Nat) (p : Pkt) (h : s.Canon) : (nopAct s k p).Canon := by
  grind [nopAct, State.setCmd_cis, DispOut.Canon, DispOut.ok]

theorem State.frameStream_canon (s : State) (p : Pkt) (n : Nat) (ok : Nat → Bool) (h : s.Canon) {o : DispOut}
    (ho : s.frameStream p n ok = some o) : o.Canon := by
  unfold State.frameStream at ho
  split at ho
  · cases ho; exact h
  · split at ho
    · cases ho; exact h
    · split at ho
      · cases ho; trivial
      · cases ho

theorem State.queueFrame_canon (s : State) (k : Nat) (p : Pkt) (kind : FrameKind) (stream : Option Nat)
    (bufs : List Nat) (target : Option Nat) (missing data : Half) (h : s.Canon) :
    (s.queueFrame k p kind stream bufs target missing data).Canon := by
  cases stream <;> simp [State.queueFrame, h]

theorem budgetAddAct_canon (s : State) (k : Nat) (p : Pkt) (h : s.Canon) : (budgetAddAct s k p).Canon := by
  simp [budgetAddAct, h]
theorem larkStreamCloseAct_canon (s : State) (k : Nat) (p : Pkt) (h : s.Canon) :
    (larkStreamCloseAct s k p).Canon := by
  simp [larkStreamCloseAct, h]
theorem State.restartFrames_canon (s : State) (t : Nat) (h : s.Canon) : (s.restartFrames t).Canon := by
  unfold State.restartFrames
  exact State.setBanks_canon _ (fun _ _ => State.setBank_contents ..) _ _ h
theorem refuseAdmit_canon (x : Io) (f : CheckFail) (h : x.s.Canon) : (refuseAdmit x f).Canon := by
  grind [refuseAdmit, DispOut.Canon, DispOut.failCheck]
theorem Io.admitEntry_canon (x : Io) (c r : Nat) (a : Admit) (h : x.s.Canon) : (x.admitEntry c r a).Canon := by
  grind [Io.admitEntry, State.setEntry_cis, State.setPool_cis, DispOut.Canon, Io.done]
theorem cfgSwapAct_canon (s : State) (k : Nat) (p : Pkt) (h : s.Canon) : (cfgSwapAct s k p).Canon := by
  grind [cfgSwapAct, State.requestSwap_cis, DispOut.Canon]
theorem State.preformSource_canon (s : State) (p : Pkt) (h : s.Canon) :
    ∀ u, State.preformSource s p = some u → u.Canon := by
  grind [State.preformSource, State.frameStream_canon, DispOut.Canon, DispOut.fail]

theorem removeAct_canon (s : State) (k : Nat) (p : Pkt) (h : s.Canon) : (removeAct s k p).Canon := by
  have hd (l : List Nat) (x : Io) (hx : x.s.Canon) : (l.foldl (fun x i => x.drop p.ctx i) x).s.Canon :=
    Io.canon_foldl (fun _ _ hu => Io.drop_canon hu ..) hx
  grind [removeAct, Io.touchNode_canon, Io.touchBucket_canon, Io.touchPages_canon, Io.setBucket_canon,
    Io.unlink_canon, Io.putNode_canon, Io.setPool_cis, DispOut.canon_fail, DispOut.canon_failCheck, Io.canon_fail,
    Io.canon_done, Io.of]

theorem fuseLoadDone_canon (s : State) (h : s.Canon) : (fuseLoadDone s).Canon := by
  grind [fuseLoadDone, State.trainPorts_cis, State.loadRepairs_canon, State.zeroFill_canon]

theorem ctxCloseAct_canon (s : State) (k : Nat) (p : Pkt) (h : s.Canon) : (ctxCloseAct s k p).Canon := by
  have hq (l : List Nat) (u : State) (hu : u.Canon) :
      (l.foldl (fun s q => s.discardQueue q (s.act.qmap q)) u).Canon :=
    canon_foldl (fun _ _ hv => State.discardQueue_canon _ _ _ hv) hu
  grind [ctxCloseAct, State.setCtx_cis, DispOut.canon_run, DispOut.canon_fail, DispOut.canon_wait]

theorem selfTestDone_canon (fails : List BankFail) (s : State) (h : s.Canon) : (selfTestDone fails s).Canon := by
  unfold selfTestDone
  split
  · exact h
  · extract_lets u
    have hu : u.Canon := State.setBanks_canon _ (fun _ _ => State.testBank_contents ..) _ _ h
    exact State.zeroFill_canon _ (canon_foldl (fun _ _ hv => by simp [hv]) hu)

theorem Io.encode_canon (x : Io) (c : Nat) (st : Stream) (p : Pkt) (missing : Half) (h : x.s.Canon) :
    (x.encode c st p missing).2.s.Canon := by grind [Io.encode, Io.read_canon, Io.readRefs_canon]

theorem rollbackNow_canon (s : State) (c req newLen : Nat) (trim : Bool) (h : s.Canon) :
    (rollbackNow s c req newLen trim).Canon := by
  grind [rollbackNow, trimDir_canon, State.setEntry_cis, DispOut.Canon, DispOut.fail, DispOut.ok, DispOut.failCheck,
    Io.done, Io.fail]

theorem State.runRollbacks_canon (s : State) (c : Nat) (h : s.Canon) : (s.runRollbacks c).Canon := by
  unfold State.runRollbacks
  exact canon_foldl (fun _ _ hu => by
    grind [rollbackNow_canon, DispOut.apply_canon]) h

theorem fattnAct_canon (s : State) (k : Nat) (p : Pkt) (h : s.Canon) : (fattnAct s k p).Canon := by
  have hc : ((Io.of s).attnChecks p.ctx (attnOf p.bytes)).2.s.Canon := Io.attnChecks_canon _ _ _ h
  have hp (l : List Nat) (x : Io) (hx : x.s.Canon) : (l.foldl (fun x n => x.pin p.ctx n) x).s.Canon :=
    Io.canon_foldl (fun _ _ hu => Io.pin_canon hu ..) hx
  grind [fattnAct, attendStart_canon, State.setCmd_cis, DispOut.canon_failCheck, Io.canon_fail, DispOut.canon_fin,
    DispOut.canon_wait]

theorem Io.logitList_canon (x : Io) (c hd vocab : Nat) (offs : List Nat) (h : x.s.Canon) :
    (x.logitList c hd vocab offs).2.s.Canon := by
  unfold Io.logitList
  exact List.foldlRecOn (motive := fun a : List (List Word) × Io => a.2.s.Canon) _ _ h fun _ hu _ _ =>
    Io.logits_canon _ _ _ _ _ hu

theorem attendLaunch_canon (k : Nat) (s : State) (h : s.Canon) : (attendLaunch k s).Canon := by
  grind [attendLaunch, DispOut.apply_canon, attendStart_canon]
theorem pageAllocAct_canon (s : State) (k : Nat) (p : Pkt) (h : s.Canon) : (pageAllocAct s k p).Canon := by
  grind [pageAllocAct, allocList_canon, allocDirectory_canon, DispOut.Canon, DispOut.fail, DispOut.failCheck]
theorem kvAppendAct_canon (s : State) (k : Nat) (p : Pkt) (h : s.Canon) : (kvAppendAct s k p).Canon := by
  grind [kvAppendAct, appendAct_canon, DispOut.Canon, DispOut.fail]
theorem Io.stepRow_canon (x : Io) (c : Nat) (r : StepRow) (ws : List Word) (h : x.s.Canon) :
    (x.stepRow c r ws).2.s.Canon := by grind [Io.stepRow, Io.countSmp_cis, Io.logitList_canon, Io.penalties_canon]
theorem kvRollbackAct_canon (s : State) (k : Nat) (p : Pkt) (h : s.Canon) : (kvRollbackAct s k p).Canon := by
  grind [kvRollbackAct, rollbackNow_canon, DispOut.Canon, DispOut.fail, DispOut.failCheck]
theorem Io.retire_canon (x : Io) (r : Nat) (st : Half) (h : x.s.Canon) : (x.retire r st).s.Canon := by
  grind [Io.retire, trimDir_canon, Io.setPool_cis, State.setEntry_cis]
theorem State.decodeFrom_canon (s : State) (q units : Nat) (h : s.Canon) : (s.decodeFrom q units).Canon := by
  grind [State.decodeFrom, State.faultQueue_cis, State.readUnits_canon, State.setQueue_cis]

theorem scriptAct_canon (s : State) (k : Nat) (p : Pkt) (h : s.Canon) : (scriptAct s k p).Canon := by
  simp only [scriptAct, DispOut.canon_ite, DispOut.canon_ok, h, fenceAct_canon, semWaitAct_canon,
    semSignalRemoteAct_canon, semSignalAct_canon,
    copyAct_canon, copyDremoteAct_canon, copySremoteAct_canon, fillAct_canon, runAct_canon, fattnAct_canon,
    mergeLseAct_canon, ite_self]

theorem State.resetQueue_canon (s : State) (q : Nat) (m : QMap) (h : s.Canon) : (s.resetQueue q m).Canon := by
  grind [State.resetQueue, State.discardQueue_canon, State.setQueue_cis]
theorem Io.decode_canon (x : Io) (c : Nat) (st : Stream) (p : Pkt) (missing : Half) (h : x.s.Canon) :
    (x.decode c st p missing).2.s.Canon := by
  grind [Io.decode, State.readBytes_canon, Io.readSides_canon, Decoding.readSlots_canon]

theorem State.scriptAppend_canon (s : State) (k c : Nat) (j : StepJob) (p : Pkt) (h : s.Canon) :
    (s.scriptAppend k c j p).Canon := by
  unfold State.scriptAppend
  split
  · simp [h]
  · refine DispOut.apply_canon _ h ?_
    split
    · simp [h]
    · exact appendAct_canon _ _ _ (by simp [h])

theorem State.scriptSend_canon (s : State) (k c : Nat) (j : StepJob) (p : Pkt) (h : s.Canon) :
    (s.scriptSend k c j p).Canon := by
  unfold State.scriptSend
  split
  · exact State.scriptAppend_canon _ _ _ _ _ h
  · exact DispOut.apply_canon _ h (scriptAct_canon _ _ _ (by simp [h]))

theorem State.resetQueues_canon (l : List Nat) (s : State) (h : s.Canon) :
    (l.foldl (fun s q => s.resetQueue q (s.act.qmap q)) s).Canon :=
  canon_foldl (fun u q hu => State.resetQueue_canon u q _ hu) h
theorem State.leaveTiles_canon (c : Nat) (l : List Nat) (s : State) (h : s.Canon) :
    (l.foldl (fun s t => s.setTile t ((s.tile t).left c)) s).Canon := canon_foldl (fun _ _ hu => by simp [hu]) h
theorem State.withSets_canon (s : State) (a b : CfgSet) (h : s.Canon) : ({ s with act := a, shd := b } : State).Canon :=
  h
theorem State.removeContext_canon (s : State) (c : Nat) (h : s.Canon) : (s.removeContext c).Canon := by
  unfold State.removeContext
  exact State.leaveTiles_canon _ _ _ (State.withSets_canon _ _ _ (State.resetQueues_canon _ _ h))

/-- What a command's dispatch does keeps the Cistern in canonical form. Of an act whose body matches on a long
computation, the kernel must not compare two copies of the body: the proof speaks of the act itself, then of its body
with the computation replaced by an arbitrary function. -/
def KeepsCanon (act : State → Nat → Pkt → DispOut) : Prop := ∀ s k p, s.Canon → (act s k p).Canon

theorem larkDecodeAct_keeps : KeepsCanon larkDecodeAct := by
  have hf := @State.frameStream_canon
  delta larkDecodeAct
  revert hf
  generalize State.frameStream = frameStream
  generalize @firstFail = firstFail
  generalize State.checkRange = checkRange
  generalize syntaxOf = syntaxOf
  revert frameStream firstFail checkRange syntaxOf
  refine id ?_
  unfold KeepsCanon
  beta_reduce
  intro frameStream firstFail checkRange syntaxOf hf s k p h
  have hr (hd o n) : ((Io.of s).read p.ctx hd o n).2.s.Canon := Io.read_canon (x := Io.of s) h ..
  extract_lets c n x
  split
  · exact hf _ _ _ _ h ‹_›
  · split
    · exact h
    · split
      · exact h
      · split
        · exact h
        · split
          · exact hr ..
          · split
            · exact hr ..
            · split
              · trivial
              · exact State.queueFrame_canon _ _ _ _ _ _ _ _ _ (hr ..)

theorem scriptPacketDispatch_canon (c : Nat) (s : State) (h : s.Canon) : (scriptPacketDispatch c s).Canon := by
  grind [scriptPacketDispatch, State.setStepJob_cis, State.scriptSend_canon, State.readScript_canon]

theorem reqAdmitAct_keeps : KeepsCanon reqAdmitAct := by
  delta reqAdmitAct
  generalize State.admitFault = admitFault
  generalize State.freeEntry = freeEntry
  revert admitFault freeEntry
  refine id ?_
  unfold KeepsCanon
  beta_reduce
  intro admitFault freeEntry s k p h
  have hb (h o n) : ((Io.of s).readNat p.ctx h o n).2.s.Canon := Io.readNat_canon (x := Io.of s) ‹_› ..
  extract_lets c a
  split
  · exact refuseAdmit_canon _ _ h
  · split
    · exact refuseAdmit_canon _ _ (hb ..)
    · split
      · exact refuseAdmit_canon _ _ (hb ..)
      · split
        · exact refuseAdmit_canon _ _ (hb ..)
        · split
          · exact refuseAdmit_canon _ _ (hb ..)
          · exact Io.admitEntry_canon _ _ _ _ (hb ..)

theorem Io.sampleRow_canon (x : Io) (c lh off : Nat) (p : SlotP) (r : SampleRow) (h : x.s.Canon) :
    (x.sampleRow c lh off p r).2.s.Canon := by
  grind [Io.sampleRow, Io.penalties_canon, Io.logits_canon, Io.countSmp_cis]

theorem Io.sampleRows_canon (x : Io) (p : Pkt) (sp : SlotP) (rows : List SampleRow) (h : x.s.Canon) :
    (x.sampleRows p sp rows).2.s.Canon := by
  unfold Io.sampleRows
  exact Io.canon_foldl_snd (fun _ _ hu => Io.write_canon (Io.sampleRow_canon _ _ _ _ _ _ hu) ..) h

theorem larkEncodeAct_keeps : KeepsCanon larkEncodeAct := by
  have hf := @State.frameStream_canon
  delta larkEncodeAct
  revert hf
  generalize State.frameStream = frameStream
  generalize @firstFail = firstFail
  revert frameStream firstFail
  refine id ?_
  unfold KeepsCanon
  beta_reduce
  intro frameStream firstFail hf s k p h
  extract_lets c n x g
  generalize (if x.depth = 10 then 1 else 0) = depth
  split
  · exact hf _ _ _ _ h ‹_›
  · split
    · exact h
    · split
      · exact h
      · split
        · trivial
        · exact State.queueFrame_canon _ _ _ _ _ _ _ _ _ h

theorem State.launch_canon (s : State) (k c : Nat) (r : RunJob) (h : s.Canon) : (s.launch k c r).Canon := by
  unfold State.launch
  extract_lets ts s₁ s₂
  have h₁ : s₁.Canon := canon_foldl (fun _ _ hu => State.restartFrames_canon _ _ hu) h
  have h₂ : s₂.Canon := canon_foldl (fun _ _ hu => by simp [hu]) h₁
  simp [h₂]

theorem State.enterReset_canon (s : State) (kind : ResetKind) (cause : BitVec 5) (count : Word) :
    (s.enterReset kind cause count).Canon := ⟨rfl, rfl⟩
theorem larkPreformAct_canon (s : State) (k : Nat) (p : Pkt) (h : s.Canon) : (larkPreformAct s k p).Canon := by
  grind [larkPreformAct, State.preformSource_canon, State.queueFrame_canon, DispOut.Canon, DispOut.fail,
    DispOut.failCheck]
theorem cancelNow_canon (s : State) (k c r : Nat) (h : s.Canon) : (cancelNow s k c r).Canon := by
  grind [cancelNow, Io.retire_canon, State.addRec_cis, DispOut.Canon, Io.of]

theorem State.sampleAll_canon (s : State) (c : Nat) (j : StepJob) (h : s.Canon) : (s.sampleAll c j).2.Canon := by
  unfold State.sampleAll
  dsimp only
  split
  · exact h
  · exact List.foldlRecOn (motive := fun a : List (Sample × Nat) × Io => a.2.s.Canon) _ _ h fun _ hu _ _ =>
      Io.stepRow_canon _ _ _ _ hu

theorem State.finishStep_canon (s : State) (k c : Nat) (j : StepJob) (h : s.Canon) : (s.finishStep k c j).Canon := by
  grind [State.finishStep, State.finishLate_canon, State.setStepJob_cis]
theorem Keep.retire_canon (k : Keep) (r : Nat) (st step : Half) (h : k.x.s.Canon) : (k.retire r st step).x.s.Canon :=
  Io.retire_canon _ _ _ h
theorem Keep.emit_canon (k : Keep) (c : Nat) (r : StepRow) (accepted : Nat) (token : Word) (step : Half)
    (h : k.x.s.Canon) : (k.emit c r accepted token step).x.s.Canon := by
  grind [Keep.emit, State.charge_cis, State.setEntry_cis, Io.countAll_canon, Io.retire_canon]

theorem Keep.row_canon (c : Nat) (aborted : Bool) (step : Half) (k : Keep) (r : StepRow) (sm : Sample) (draws : Nat)
    (h : k.x.s.Canon) : (Keep.row c aborted step k r sm draws).x.s.Canon := by
  unfold Keep.row
  extract_lets e kx put moved picked y yx f
  have hp (e : Entry) (n : Nat) : (put e n).x.s.Canon := by simpa [put] using h
  have hs : picked.Canon := by simpa [picked] using h
  clear_value put moved picked
  have hy : y.x.s.Canon := by
    unfold y
    split
    · split
      · exact Keep.retire_canon _ _ _ _ (hp _ _)
      · exact hp _ _
    · split
      · exact Keep.retire_canon _ _ _ _ (hp _ _)
      · split
        · exact hp _ _
        · split
          · exact Keep.emit_canon _ _ _ _ _ _ hs
          · exact Keep.retire_canon _ _ _ _ (hp _ _)
  clear_value y
  simpa using hy

theorem stepBookkeeping_canon (c : Nat) (s : State) (h : s.Canon) : (stepBookkeeping c s).Canon := by
  unfold stepBookkeeping
  split
  · exact h
  · split
    · exact h
    · extract_lets late s₁ step k x s₂ j s₃ s₄ s₅
      have hk : k.x.s.Canon := List.foldlRecOn (motive := fun k : Keep => k.x.s.Canon) _ _ (by simp [s₁, h])
        fun _ hb _ _ => by split; exacts [hb, Keep.row_canon _ _ _ _ _ _ _ hb]
      have h₂ : s₂.Canon := Io.write_canon hk ..
      have h₄ : s₄.Canon := canon_foldl (fun _ _ hu => by simp [hu]) (by simp [s₃, h₂])
      have h₅ : s₅.Canon := State.runRollbacks_canon _ _ h₄
      split
      · exact State.finishStep_canon _ _ _ _ h₅
      · exact h₅

theorem packetDecode_canon (s : State) (h : s.Canon) : (packetDecode s).Canon := by
  unfold packetDecode
  repeat' split
  · exact h
  · exact h
  · simp [h]
  · exact State.decodeFrom_canon _ _ _ h

theorem stepScriptEnd_canon (c : Nat) (s : State) (h : s.Canon) : (stepScriptEnd c s).Canon := by
  grind [stepScriptEnd, State.setStepJob_cis, State.sampleAll_canon]
theorem reqCancelAct_canon (s : State) (k : Nat) (p : Pkt) (h : s.Canon) : (reqCancelAct s k p).Canon := by
  grind [reqCancelAct, State.setEntry_cis, cancelNow_canon, DispOut.Canon, DispOut.fail, DispOut.ok,
    DispOut.failCheck]
theorem State.contextClosed_canon (s : State) (k : Nat) (j : CloseJob) (h : s.Canon) :
    (s.contextClosed k j).Canon := by
  grind [State.contextClosed, State.setCtx_cis, State.finish_canon]
theorem State.closeWalked_canon (s : State) (tr k : Nat) (h : s.Canon) : (s.closeWalked tr k).Canon := by
  grind [State.closeWalked, State.contextClosed_canon, State.setJob_cis]
theorem State.refuseRepairs_canon (s : State) (tr b : Nat) (h : s.Canon) : (s.refuseRepairs tr b).Canon := by
  unfold State.refuseRepairs
  exact canon_foldl (fun _ _ hu => by split; exacts [State.finish_canon _ _ _ _ _ _ hu, hu]) h
theorem sampleAct_canon (s : State) (k : Nat) (p : Pkt) (h : s.Canon) : (sampleAct s k p).Canon := by
  grind [sampleAct, Io.read_canon, Io.sampleRows_canon, DispOut.Canon, DispOut.fail, DispOut.failCheck, Io.done,
    Io.fail, Io.of]
theorem State.endPlain_canon (s : State) (st : Half) (k : Nat) (h : s.Canon) : (s.endPlain st k).Canon := by
  grind [State.endPlain, State.killTiles_cis, State.finish_canon, State.unclaim_cis, State.havocXfer_canon,
    State.dropRepair_contents, State.dropFrame_cis, State.forgetRecords_cis]
theorem tileProgramLaunch_canon (k : Nat) (s : State) (h : s.Canon) : (tileProgramLaunch k s).Canon := by
  grind [tileProgramLaunch, State.launch_canon, State.finish_canon]
theorem fenceComplete_canon (k : Nat) (s : State) (h : s.Canon) : (fenceComplete k s).Canon := by
  grind [fenceComplete, State.finish_canon]

theorem State.finishSwap_canon (s : State) (slot : Option Nat) (affected : Half) (walks : Nat) (h : s.Canon) :
    (s.finishSwap slot affected walks).Canon := by
  unfold State.finishSwap
  dsimp only
  split
  · exact h
  · exact State.finish_canon _ _ _ _ _ _ h

theorem State.detachDone_canon (s : State) (d : Detach) (st : Half) (h : s.Canon) : (s.detachDone d st).Canon := by
  grind [State.detachDone, State.finish_canon]
theorem State.closeRows_canon (s : State) (k : Nat) (j : CloseJob) (h : s.Canon) : (s.closeRows k j).Canon := by
  grind [State.closeRows, State.removeContext_canon, State.releaseContext_cis, State.contextClosed_canon,
    State.setCtx_cis, State.setJob_cis, State.startWalks_canon]
theorem State.semAckArrives_canon (s : State) (f : Flit) (sem : Byte) (value : Word) (status : Half) (h : s.Canon) :
    (s.semAckArrives f sem value status).Canon := by grind [State.semAckArrives, State.finish_canon]

theorem State.encodeEnd_canon (s : State) (f : Frame) (sn target : Nat) (h : s.Canon) :
    (s.encodeEnd f sn target).Canon := by
  grind [State.encodeEnd, Io.encode_canon, State.havoc_canon, State.finish_canon, State.dropFrame_cis, Io.write_canon,
    Io.writeMarked_canon, State.addSamples_cis, State.markTarget_cis, State.setStream_cis, Io.of]

theorem State.recordsDone_canon (s : State) (c k : Nat) (h : s.Canon) : (s.recordsDone c k).Canon := by
  grind [State.recordsDone, State.finish_canon, State.finishStep_canon]
theorem State.detachGoesOn_canon (s : State) (h : s.Canon) : s.detachGoesOn.Canon := by
  grind [State.detachGoesOn, State.detachDone_canon]
theorem detachAct_canon (s : State) (k : Nat) (p : Pkt) (h : s.Canon) : (detachAct s k p).Canon := by
  grind [detachAct, State.abandonNow_canon, DispOut.Canon, DispOut.fail]
theorem State.resetBy_canon (s : State) (kind : ResetKind) (bit : Nat) (h : s.Canon) :
    (s.resetBy kind bit).Canon := by
  grind [State.resetBy, State.enterReset_canon]

theorem State.powerOn_canon (s : State) (k : Nat) (ts : List Nat) (h : s.Canon) : (s.powerOn k ts).Canon := by
  unfold State.powerOn
  extract_lets u rest
  have hu : u.Canon := canon_foldl (fun v _ hv => by grind [State.setTract_contents]) h
  split
  · exact State.finish_canon _ _ _ _ _ _ hu
  · simp [hu]

theorem tileSetStart_canon (k : Nat) (s : State) (h : s.Canon) : (tileSetStart k s).Canon := by
  grind [tileSetStart, attendLaunch_canon, tileProgramLaunch_canon]
theorem detachOrderly_canon (q : Nat) (s : State) (h : s.Canon) : (detachOrderly q s).Canon := by
  grind [detachOrderly, State.detachGoesOn_canon, State.dispatch_canon, detachAct_canon]
theorem State.unreachArrives_canon (s : State) (f : Flit) (h : s.Canon) : (s.unreachArrives f).Canon := by
  grind [State.unreachArrives, State.loseCmd_canon]
theorem State.preformEnd_canon (s : State) (f : Frame) (h : s.Canon) : (s.preformEnd f).Canon := by
  grind [State.preformEnd, Io.read_canon, Io.write_canon, State.finish_canon, State.dropFrame_cis,
    State.addSamples_cis, Io.of]
theorem State.xferProgress_canon (s : State) (k : Nat) (c : Cmd) (x : Xfer) (h : s.Canon) :
    (s.xferProgress k c x).Canon := by
  grind [State.xferProgress, State.finish_canon, State.readSignal_cis, State.setCmd_cis]
theorem swapTimeout_canon (s : State) (h : s.Canon) : (swapTimeout s).Canon := by
  grind [swapTimeout, State.finish_canon]

theorem State.decodeEnd_canon (s : State) (f : Frame) (sn target : Nat) (h : s.Canon) :
    (s.decodeEnd f sn target).Canon := by
  grind [State.decodeEnd, Io.decode_canon, Io.writeMarked_canon, Io.write_canon, State.addSamples_cis,
    State.markTarget_cis, State.finish_canon, State.dropFrame_cis, Io.of]

theorem State.swapWalked_canon (s : State) (tr : Nat) (h : s.Canon) : (s.swapWalked tr).Canon := by
  grind [State.swapWalked, State.finishSwap_canon]

theorem State.walkOver_canon (s : State) (tr : Nat) (h : s.Canon) : (s.walkOver tr).Canon := by
  unfold State.walkOver
  extract_lets u
  have hu : u.Canon := canon_foldl (fun _ _ hv => by simp [hv]) h
  exact State.swapWalked_canon _ _ (canon_foldl (fun _ _ hv => State.closeWalked_canon _ _ _ hv) hu)

theorem State.wrAckArrives_canon (s : State) (f : Flit) (status : Half) (reason : Byte) (bytes : Word) (h : s.Canon) :
    (s.wrAckArrives f status reason bytes).Canon := by grind [State.wrAckArrives, State.xferProgress_canon]
theorem State.withSet_canon (s : State) (a : CfgSet) (x : Cfg) (h : s.Canon) : ({ s with act := a, cfg := x } :
    State).Canon := h
theorem State.withCfg_canon (s : State) (x : Cfg) (h : s.Canon) : ({ s with cfg := x } : State).Canon := h
theorem State.zeroBudgets_canon (l : List Nat) (s : State) (h : s.Canon) : (l.foldl State.zeroBudget s).Canon := by
  rw [State.Canon, State.zeroBudgets_cis]
  exact h

theorem State.activate_canon (s : State) (p : Swap) (h : s.Canon) : (s.activate p).Canon := by
  have h₃ (a : CfgSet) (x : Cfg) (l : List Nat) :=
    State.zeroBudgets_canon l _ (State.withSet_canon _ a x (State.resetQueues_canon s.changedQueues s h))
  unfold State.activate
  refine canon_ite.2 ?_
  split
  · exact State.finishSwap_canon _ _ _ _ (h₃ _ _ _)
  · exact State.withCfg_canon _ _ (State.startWalks_canon _ _ (h₃ _ _ _))

theorem semWaitSatisfied_canon (k : Nat) (s : State) (h : s.Canon) : (semWaitSatisfied k s).Canon := by
  grind [semWaitSatisfied, State.setSem_cis, State.finish_canon]
theorem tileProgramEnd_canon (t : Nat) (s : State) (h : s.Canon) : (tileProgramEnd t s).Canon := by
  grind [tileProgramEnd, State.setWren_cis, State.setJob_cis, State.finish_canon]
theorem e2eTimeout_canon (k : Nat) (s : State) (h : s.Canon) : (e2eTimeout k s).Canon := by
  grind [e2eTimeout, State.loseCmd_canon]

theorem State.installRepair_canon (s : State) (k tr b row sp : Nat) (live : Bool) (h : s.Canon) :
    (s.installRepair k tr b row sp live).Canon := by
  grind [State.installRepair, State.logError_contents, State.setBank_contents, State.refuseRepairs_canon,
    State.finish_canon]

theorem State.readData_canon (s : State) (p : Nat) (f : Flit) (h : s.Canon) : (s.readData p f).Canon := by
  grind [State.readData, State.readArrives_canon, State.setPort_cis, State.xferProgress_canon]
theorem larkFrameEnd_canon (e : Nat) (s : State) (h : s.Canon) : (larkFrameEnd e s).Canon := by
  grind [larkFrameEnd, State.decodeEnd_canon, State.encodeEnd_canon, State.preformEnd_canon]
theorem State.portDown_canon (s : State) (p : Nat) (st : Half) (h : s.Canon) : (s.portDown p st).Canon := by
  grind [State.portDown, State.setPort_cis, State.afterTopology_cis, State.loseCommands_canon]

theorem State.releaseSlots_canon (s : State) (c : Nat) (ks : List Nat) (h : s.Canon) :
    (s.releaseSlots c ks).Canon := by
  unfold State.releaseSlots
  exact canon_foldl (fun _ _ hu => State.recordsDone_canon _ _ _ hu) h

theorem retrainTimeout_canon (p : Nat) (s : State) (h : s.Canon) : (retrainTimeout p s).Canon := by
  grind [retrainTimeout, State.portDown_canon]

theorem State.endCommand_canon (s : State) (st : Half) (k : Nat) (h : s.Canon) : (s.endCommand st k).Canon := by
  unfold State.endCommand
  split
  · exact h
  · split
    · exact State.finish_canon _ _ _ _ _ _ (canon_foldl (fun _ _ hu => State.endPlain_canon _ _ _ hu) (by simp [h]))
    · exact State.endPlain_canon _ _ _ h

theorem State.recordRepair_canon (s : State) (k tr b row : Nat) (restore : Bool) (h : s.Canon) :
    (s.recordRepair k tr b row restore).Canon := by
  grind [State.recordRepair, State.finish_canon, State.installRepair_canon]
theorem linkDown_canon (p : Nat) (s : State) (h : s.Canon) : (linkDown p s).Canon := by
  grind [linkDown, State.notify_cis, State.portDown_canon]
theorem State.regWrArrives_canon (s : State) (a : FlitHdr) (off : Word) (ws : List Word) (h : s.Canon) :
    (s.regWrArrives a off ws).Canon := by
  grind [State.regWrArrives, State.answerReg_cis, State.ctrlWrites_canon, State.resetBy_canon]
theorem State.rdEndArrives_canon (s : State) (f : Flit) (status : Half) (reason : Byte) (h : s.Canon) :
    (s.rdEndArrives f status reason).Canon := by grind [State.rdEndArrives, State.xferProgress_canon]
theorem State.portOffline_canon (s : State) (p : Nat) (h : s.Canon) : (s.portOffline p).Canon := by
  grind [State.portOffline, State.afterTopology_cis, State.loseCommands_canon, State.setPort_cis]
theorem repairAct_canon (s : State) (k : Nat) (p : Pkt) (h : s.Canon) : (repairAct s k p).Canon := by
  grind [repairAct, dispatchAs_canon, State.recordRepair_canon, DispOut.Canon, DispOut.fail, DispOut.ok]
theorem outputRecordWrite_canon (c : Nat) (s : State) (h : s.Canon) : (outputRecordWrite c s).Canon := by
  grind [outputRecordWrite, State.notify_cis, State.setCtx_cis, State.writeBytes_canon, State.stepData_cis,
    State.releaseSlots_canon, State.setRecs_cis]

theorem State.beginRepair_canon (s : State) (tr b : Nat) (h : s.Canon) :
    ∀ u, State.beginRepair s tr b = some u → u.Canon := by
  grind [State.beginRepair, State.refreshSlot_canon, State.finish_canon, State.installRepair_canon,
    State.zeroRow_canon, State.senseRow_canon, State.setBank_contents]

theorem swapPoint_canon (s : State) (h : s.Canon) : (swapPoint s).Canon := by grind [swapPoint, State.activate_canon]
theorem trainingTimeout_canon (p : Nat) (s : State) (h : s.Canon) : (trainingTimeout p s).Canon := by
  grind [trainingTimeout, State.portDown_canon]
theorem State.dataArrives_canon (s : State) (p : Nat) (f : Flit) (h : s.Canon) : (s.dataArrives p f).Canon := by
  grind [State.dataArrives, State.discardData_cis, State.segData_canon, State.segBad_cis, State.readData_canon]
theorem State.endAll_canon (s : State) (st : Half) (ks : List Nat) (h : s.Canon) : (s.endAll st ks).Canon := by
  unfold State.endAll
  exact canon_foldl (fun _ _ hu => State.endCommand_canon _ _ _ hu) h
theorem State.leaveIfAcked_canon (s : State) (p : Nat) (h : s.Canon) : (s.leaveIfAcked p).Canon := by
  grind [State.leaveIfAcked, State.portOffline_canon]
theorem State.rspArrives_canon (s : State) (a : FlitHdr) (f : Flit) (h : s.Canon) : (s.rspArrives a f).Canon := by
  grind [State.rspArrives, State.wrAckArrives_canon, State.rdEndArrives_canon, State.unreachArrives_canon,
    State.malformed_cis]

theorem State.tractOff_canon (s : State) (tr : Nat) (h : s.Canon) : (s.tractOff tr).Canon := by
  unfold State.tractOff
  extract_lets s₁ s₂ s₃
  have h₁ : s₁.Canon := State.emptyTract_canon h tr
  clear_value s₁
  have h₂ : s₂.Canon := by grind [State.walkOver_canon, State.setTract_contents, State.setWalk_contents]
  clear_value s₂
  have h₃ : s₃.Canon := State.setBanks_canon _ (fun _ _ => State.setBank_contents ..) _ _ h₂
  rw [State.Canon, (State.scrubEnds_contents _).1, (State.scrubEnds_contents _).2]
  exact canon_foldl (fun _ _ hu => by split; exacts [State.recordRepair_canon _ _ _ _ _ _ hu, hu]) h₃

theorem State.leavingArrives_canon (s : State) (p : Nat) (h : s.Canon) : (s.leavingArrives p).Canon := by
  grind [State.leavingArrives, State.setPort_cis, State.loseJobs_canon, State.portOffline_canon]
theorem detachBoundExpire_canon (s : State) (h : s.Canon) : (detachBoundExpire s).Canon := by
  grind [detachBoundExpire, State.detachGoesOn_canon, State.endAll_canon]
theorem State.repairSlot_canon (s : State) (tr b : Nat) (h : s.Canon) :
    ∀ u, State.repairSlot s tr b = some u → u.Canon := by
  grind [State.repairSlot, State.installRepair_canon, State.beginRepair_canon]
theorem State.closeStep_canon (s : State) (k : Nat) (h : s.Canon) : (s.closeStep k).Canon := by
  grind [State.closeStep, State.setJob_cis, State.endAll_canon, State.closeRows_canon]

theorem State.powerOff_canon (s : State) (k : Nat) (ts : List Nat) (h : s.Canon) : (s.powerOff k ts).Canon := by
  unfold State.powerOff
  split
  · exact State.finish_canon _ _ _ _ _ _ h
  · exact State.finish_canon _ _ _ _ _ _ (canon_foldl (fun _ _ hu => State.tractOff_canon _ _ hu) h)

theorem idleReceived_canon (a : FlitHdr) (s : State) (h : s.Canon) : (idleReceived a s).Canon := by
  grind [idleReceived, State.shaftTrained_cis, State.setPort_cis, State.replayPort_cis, State.leaveIfAcked_canon,
    State.pump_cis]
theorem State.receive_canon (s : State) (a : FlitHdr) (f : Flit) (deliver : State → State)
    (hd : ∀ u : State, u.Canon → (deliver u).Canon) (h : s.Canon) : (s.receive a f deliver).Canon := by
  grind [State.receive, State.setPort_cis, State.replayPort_cis, State.pump_cis, State.leaveIfAcked_canon]

theorem State.ctrlArrives_canon (s : State) (a : FlitHdr) (f : Flit) (h : s.Canon) : (s.ctrlArrives a f).Canon := by
  grind [State.ctrlArrives, State.regRdArrives_cis, State.regWrArrives_canon, State.setTime_cis,
    State.semSigArrives_cis, State.semAckArrives_canon, State.partnerSays_cis, State.sendHelloAck_cis,
    State.leavingArrives_canon, State.malformed_cis]

theorem helloAckReceived_canon (a : FlitHdr) (m : Hello) (s : State) (h : s.Canon) : (helloAckReceived a m s).Canon :=
  by grind [helloAckReceived, State.receive_canon, State.partnerSays_cis]
theorem helloReceived_canon (a : FlitHdr) (m : Hello) (s : State) (h : s.Canon) : (helloReceived a m s).Canon := by
  grind [helloReceived, State.receive_canon, State.partnerSays_cis, State.sendHelloAck_cis]

theorem reservedSlot_canon (tr b : Nat) (s : State) (h : s.Canon) : (reservedSlot tr b s).Canon := by
  unfold reservedSlot
  extract_lets x u
  have hu : u.Canon := by grind [State.setBank_contents]
  split
  · exact h
  · split
    · cases hr : u.repairSlot tr b with
      | none => exact State.refreshSlot_canon _ _ _ hu
      | some v => exact State.repairSlot_canon _ _ _ hu _ hr
    · exact hu

theorem State.flitArrives_canon (s : State) (a : FlitHdr) (f : Flit) (h : s.Canon) : (s.flitArrives a f).Canon := by
  grind [State.flitArrives, State.ctrlArrives_canon, State.reqArrives_canon, State.rspArrives_canon,
    State.dataArrives_canon, State.malformed_cis]

theorem State.routed_canon (s : State) (a : FlitHdr) (f : Flit) (deliver : State → State)
    (hd : ∀ u : State, u.Canon → (deliver u).Canon) (h : s.Canon) : (s.routed a f deliver).Canon := by
  unfold State.routed
  dsimp only
  split
  · exact hd _ h
  · simp [h]

theorem rawFlit_canon (p : Fin 9) (bs : List Byte) (s : State) (h : s.Canon) : (rawFlit p bs s).Canon := by
  unfold rawFlit
  dsimp only
  split
  · exact badFlit_canon _ _ h
  · split
    · exact idleReceived_canon _ _ h
    · refine State.receive_canon _ _ _ _ (fun u hu => ?_) h
      split
      · exact State.flitArrives_canon _ _ _ hu
      · exact State.routed_canon _ _ _ _ (fun v hv => State.flitArrives_canon _ _ _ hv) hu

theorem State.power_canon (s : State) (k : Nat) (on : Bool) (ts : List Nat) (h : s.Canon) :
    (s.power k on ts).Canon := by
  grind [State.power, State.powerOn_canon, State.powerOff_canon]
theorem State.closesGoOn_canon (s : State) (h : s.Canon) : s.closesGoOn.Canon := by
  unfold State.closesGoOn
  exact canon_foldl (fun _ _ hu => State.closeStep_canon _ _ hu) h
theorem tractPowerAct_canon (s : State) (k : Nat) (p : Pkt) (h : s.Canon) : (tractPowerAct s k p).Canon := by
  grind [tractPowerAct, dispatchAs_canon, State.power_canon, DispOut.Canon, DispOut.fail]
theorem State.powerGoesOn_canon (s : State) (k : Nat) (h : s.Canon) : (s.powerGoesOn k).Canon := by
  grind [State.powerGoesOn, State.finish_canon, State.setJob_cis, State.power_canon]
theorem State.powersGoOn_canon (l : List Nat) (s : State) (h : s.Canon) :
    (l.foldl (fun s k => s.powerGoesOn k) s).Canon := canon_foldl (fun _ _ hu => State.powerGoesOn_canon _ _ hu) h
theorem State.refuseAll_canon (tr : Nat) (l : List Nat) (s : State) (h : s.Canon) :
    (l.foldl (fun s b => s.refuseRepairs tr b) s).Canon :=
  canon_foldl (fun _ _ hv => State.refuseRepairs_canon _ _ _ hv) h

theorem State.walkEnded_canon (s : State) (tr : Nat) (h : s.Canon) : (s.walkEnded tr).Canon := by
  unfold State.walkEnded
  dsimp only
  refine State.powersGoOn_canon _ _ (State.powersGoOn_canon _ _ (State.walkOver_canon _ _ ?_))
  split
  · exact State.refuseAll_canon _ _ _ h
  · exact h

theorem tractPowerOn_canon (q : Nat) (s : State) (h : s.Canon) : (tractPowerOn q s).Canon := by
  grind [tractPowerOn, State.dispatch_canon, tractPowerAct_canon]
theorem zeroWalkEnd_canon (tr : Nat) (s : State) (h : s.Canon) : (zeroWalkEnd tr s).Canon := by
  grind [zeroWalkEnd, State.setWalk_contents, State.setTract_contents, State.zeroFilled_cis, State.walkEnded_canon]
theorem ctxClose_canon (q : Nat) (s : State) (h : s.Canon) : (ctxClose q s).Canon := by
  grind [ctxClose, State.closesGoOn_canon, State.dispatch_canon, ctxCloseAct_canon]
theorem State.afterRecord_canon (s : State) (x : Compl) (h : s.Canon) : (s.afterRecord x).Canon := by
  grind [State.afterRecord, State.leaveFlight_canon, State.notify_cis, State.closesGoOn_canon,
    State.detachWritten_cis, State.detachGoesOn_canon]
theorem completionWrite_canon (c : Nat) (s : State) (h : s.Canon) : (completionWrite c s).Canon := by
  grind [completionWrite, State.notify_cis, State.setCtx_cis, State.ringPut_canon, State.afterRecord_canon]

/-! ### Power, the tiles and the ports -/

theorem standbyEnter_canon (s : State) (h : s.Canon) : (standbyEnter s).Canon := by
  grind [standbyEnter, State.standby_canon]
theorem packetSkip_canon (q : Nat) (s : State) (h : s.Canon) : (packetSkip q s).Canon := by
  grind [packetSkip, State.setQueue_cis]
theorem warmReset_canon (s : State) (h : s.Canon) : (warmReset s).Canon := by
  grind [warmReset, State.resetBy_canon, State.sendRegRsp_cis]
theorem helloResend_canon (p : Nat) (s : State) (h : s.Canon) : (helloResend p s).Canon := by simp [helloResend, h]
theorem keepalive_canon (p : Nat) (s : State) (h : s.Canon) : (keepalive p s).Canon := by simp [keepalive, h]
theorem replayTimeout_canon (p : Nat) (s : State) (h : s.Canon) : (replayTimeout p s).Canon := by
 simp [replayTimeout, h]
theorem retrainEnter_canon (p : Nat) (partner : Bool) (s : State) (h : s.Canon) :
    (retrainEnter p partner s).Canon := by
 simp [retrainEnter, h]
theorem trainingRetry_canon (p : Nat) (s : State) (h : s.Canon) : (trainingRetry p s).Canon := by
 simp [trainingRetry, h]
theorem sidebandSend_canon (s : State) (h : s.Canon) : (sidebandSend s).Canon := by simp [sidebandSend, h]
theorem sidebandWord_canon (w : Half) (s : State) (h : s.Canon) : (sidebandWord w s).Canon := by
 simp [sidebandWord, h]
theorem stackCapTick_canon (s : State) (h : s.Canon) : (stackCapTick s).Canon := by simp [stackCapTick, h]
theorem stackReportTimeout_canon (s : State) (h : s.Canon) : (stackReportTimeout s).Canon := by
 simp [stackReportTimeout, h]
theorem State.heat_canon (s : State) (h : s.Canon) : s.heat.Canon := by simp [State.heat, h]
theorem sensorSample_canon (temps : List (BitVec 10)) (s : State) (h : s.Canon) : (sensorSample temps s).Canon := by
  grind [sensorSample, State.heat_canon]
theorem thermalCapTick_canon (s : State) (h : s.Canon) : (thermalCapTick s).Canon := by
  grind [thermalCapTick, State.heat_canon, State.mark_cis]
theorem supplyWarning_canon (vcis : Bool) (mv : Half) (s : State) (h : s.Canon) :
    (supplyWarning vcis mv s).Canon := by
 simp [supplyWarning, h]
theorem supplyRecovered_canon (vcis : Bool) (mv : Half) (s : State) (h : s.Canon) :
    (supplyRecovered vcis mv s).Canon := by simp [supplyRecovered, h]
theorem vlinkWarn_canon (mv : Half) (s : State) (h : s.Canon) : (vlinkWarn mv s).Canon := by simp [vlinkWarn, h]
theorem brownoutReset_canon (vcis : Bool) (s : State) (h : s.Canon) : (brownoutReset vcis s).Canon := by
  grind [brownoutReset, State.resetBy_canon]
theorem coldReset_canon (s : State) (h : s.Canon) : (coldReset s).Canon := by
  grind [coldReset, State.enterReset_canon]
theorem pinReset_canon (aux core rstN : Bool) (s : State) (h : s.Canon) : (pinReset aux core rstN s).Canon := by
  grind [pinReset, State.setPins_cis, coldReset_canon, State.resetBy_canon]
theorem discoveryWindowEnd_canon (s : State) (h : s.Canon) : (discoveryWindowEnd s).Canon := by
 simp [discoveryWindowEnd, h]
theorem ready_canon (us : Half) (s : State) (h : s.Canon) : (ready us s).Canon := by simp [ready, h]
theorem tapReset_canon (trst : Option Bool) (s : State) (h : s.Canon) : (tapReset trst s).Canon := by
  cases trst <;> simp [tapReset, h]
theorem State.tapDo_canon (s : State) (code : Byte) (din : List Bool) (act : State → State) (ha : (act s).Canon)
    (h : s.Canon) : (s.tapDo code din act).Canon := by
  simp [State.tapDo, h, ha]
theorem State.scan_canon (s : State) (code : Byte) (out : List Bool) (f : Tap → Tap) (h : s.Canon) :
    (s.scan code out f).Canon := by simpa using h
theorem State.bypassScan_canon (s : State) (code : Byte) (din : List Bool) (h : s.Canon) :
    (s.bypassScan code din).Canon := by simpa using h
theorem wrapdr_canon (din : List Bool) (s : State) (h : s.Canon) : (wrapdr din s).Canon :=
  State.tapDo_canon _ _ _ _ (State.scan_canon _ _ _ _ h) h

theorem wrapir_canon (din : List (BitVec 4)) (s : State) (h : s.Canon) : (wrapir din s).Canon := by
  refine State.tapDo_canon _ _ _ _ ?_ h
  split
  · exact State.bypassScan_canon _ _ _ h
  · exact State.scan_canon _ _ _ _ h

theorem wsBypass_canon (p : Nat) (s : State) (h : s.Canon) : (wsBypass p s).Canon := by simp [wsBypass, h]
theorem wsExtest_canon (p : Nat) (s : State) (h : s.Canon) : (wsExtest p s).Canon := by simp [wsExtest, h]
theorem wsIntest_canon (p : Nat) (s : State) (h : s.Canon) : (wsIntest p s).Canon := by simp [wsIntest, h]
theorem wsBist_canon (p : Nat) (s : State) (h : s.Canon) : (wsBist p s).Canon := by simp [wsBist, h]
theorem dwrext_canon (din : BitVec 128) (s : State) (h : s.Canon) : (dwrext din s).Canon :=
  State.tapDo_canon _ _ _ _ (State.scan_canon _ _ _ _ h) h
theorem bypassIr_canon (code : Byte) (din : Bool) (s : State) (h : s.Canon) : (bypassIr code din s).Canon := by
 simp [bypassIr, h]

theorem scrubPassStart_canon (s : State) (h : s.Canon) : (scrubPassStart s).Canon := by
  unfold scrubPassStart
  split
  · exact h
  · dsimp only
    split
    · exact h
    · exact State.setBanks_canon _ (fun _ _ => State.setBank_contents ..) _ _ h

theorem State.postLines_canon (s : State) (t : Nat) (who : Requester) (c hd o : Nat) (kind : Nat → AccessKind)
    (n : Nat) (h : s.Canon) : (s.postLines t who c hd o kind n).Canon := by
  unfold State.postLines
  exact State.setBanks_canon _ (fun _ _ => State.post_contents ..) _ _ h

theorem State.drainOut_canon (s : State) (t : Nat) (a : Arr) (i : ArrInstr) (vals : List Nat) (h : s.Canon) :
    (s.drainOut t a i vals).Canon := by grind [State.drainOut, State.postLines_canon]
theorem State.formDrain_canon (s : State) (t : Nat) (i : ArrInstr) (d : Drain) (h : s.Canon) :
    (s.formDrain t i d).1.Canon := by grind [State.formDrain, State.drainOut_canon]

theorem State.formDrains_canon (s : State) (t : Nat) (h : s.Canon) : (s.formDrains t).Canon := by
  unfold State.formDrains
  rw [State.Canon, State.setArr_cis]
  refine List.foldlRecOn (motive := fun a : State × List Drain => a.1.Canon) _ _ h fun a ha d _ => ?_
  dsimp only
  split
  · exact ha
  · split
    · exact State.formDrain_canon _ _ _ _ ha
    · exact ha

theorem cisternReadReturn_canon (id : Nat) (s : State) (h : s.Canon) : (cisternReadReturn id s).Canon := by
  grind [cisternReadReturn, State.setWren_cis, State.takeResp_contents, State.formDrains_canon, State.setArr_cis,
    State.landLoads_cis, State.setVec_cis]
theorem cisternWriteAck_canon (id : Nat) (s : State) (h : s.Canon) : (cisternWriteAck id s).Canon := by
  grind [cisternWriteAck, State.setWren_cis, State.takeResp_contents, State.setArr_cis]
theorem nldAct_canon (t m : Nat) (p : Prog) (s : State) (h : s.Canon) : (nldAct t m p s).Canon := by
  grind [nldAct, State.setWren_cis, State.post_contents]
theorem State.readOperand_canon (s : State) (t : Nat) (who : Requester) (part : OpPart) (c hd o n : Nat) (h : s.Canon)
    : (s.readOperand t who part c hd o n).1.Canon := State.postLines_canon _ _ _ _ _ _ _ _ h
theorem State.readOperands_canon (s : State) (t : Nat) (i : ArrInstr) (h : s.Canon) :
    (s.readOperands t i).1.Canon := by
  grind [State.readOperands, State.readOperand_canon]
theorem tensorAct_canon (t : Nat) (s : State) (p : Prog) (h : s.Canon) : (tensorAct t s p).Canon := by
  grind [tensorAct, State.readOperands_canon, State.setArr_cis]

theorem State.issueSlot_canon (s : State) (t k : Nat) (row : Nat → Bool) (act : State → Prog → State)
    (ha : ∀ u p, u.Canon → (act u p).Canon) (h : s.Canon) : (s.issueSlot t k row act).Canon := by
  have hs : (s.setWren t Wren.snap).Canon := by simpa using h
  grind [State.issueSlot, State.setWren_cis, State.halt_cis]

theorem State.scalarSlot_canon (s : State) (t op : Nat) (f : Nat → Wren → Wren) (h : s.Canon) :
    (s.scalarSlot t op f).Canon := State.issueSlot_canon _ _ _ _ _ (fun u p hu => by simpa using hu) h
theorem State.moveSlot_canon (s : State) (t op : Nat) (act : Nat → Prog → State → State)
    (ha : ∀ m p u, u.Canon → (act m p u).Canon) (h : s.Canon) : (s.moveSlot t op act).Canon :=
  State.issueSlot_canon _ _ _ _ _ (fun u p hu => by dsimp only; split; exacts [ha _ _ _ hu, hu]) h
theorem State.tensorSlot_canon (s : State) (t op : Nat) (h : s.Canon) : (s.tensorSlot t op).Canon :=
  State.issueSlot_canon _ _ _ _ _ (fun _ _ hu => tensorAct_canon _ _ _ hu) h
theorem State.vectorOn_canon (s : State) (t op : Nat) (f : Wren → Nat → Vec → Res Vec) (h : s.Canon) :
    (s.vectorOn t op f).Canon := State.issueSlot_canon _ _ _ _ _ (fun u p hu => by simpa using hu) h
theorem State.vectorSlot_canon (s : State) (t op : Nat) (f : Nat → Vec → Res Vec) (h : s.Canon) :
    (s.vectorSlot t op f).Canon := State.vectorOn_canon _ _ _ _ h

theorem State.single_canon (s : State) (off : Nat) (f : State → State) (hf : (f s).Canon) (h : s.Canon) :
    (s.single off f).Canon := by
  unfold State.single
  split
  · exact h
  · exact hf

theorem heldLoadIssue_canon (t : Nat) (s : State) (h : s.Canon) : (heldLoadIssue t s).Canon := by
  have hr (r : State) (hr : r.Canon) : (r.moveSlot t opNLD (nldAct t)).Canon :=
    State.moveSlot_canon _ _ _ _ (fun m p u hu => nldAct_canon t m p u hu) hr
  grind [heldLoadIssue, State.setWren_cis]

theorem arrayInstrStart_canon (t wave : Nat) (s : State) (h : s.Canon) : (arrayInstrStart t wave s).Canon := by
  grind [arrayInstrStart, State.setArr_cis]
theorem State.startDrain_canon (s : State) (t : Nat) (i : ArrInstr) (h : s.Canon) : (s.startDrain t i).Canon := by
  grind [State.startDrain, State.formDrains_canon, State.setArr_cis]
theorem arrayInstrEnd_canon (t : Nat) (empty : Byte) (s : State) (h : s.Canon) : (arrayInstrEnd t empty s).Canon := by
  grind [arrayInstrEnd, State.setArr_cis, State.raiseArr_cis, State.startDrain_canon]
theorem drainEnd_canon (t : Nat) (s : State) (h : s.Canon) : (drainEnd t s).Canon := by
  grind [drainEnd, State.setTile_cis, State.raiseArr_cis]
theorem arrayGoesCold_canon (t : Nat) (s : State) (h : s.Canon) : (arrayGoesCold t s).Canon := by
 simp [arrayGoesCold, h]
theorem governorFrame_canon (t : Nat) (empty : Byte) (s : State) (h : s.Canon) : (governorFrame t empty s).Canon := by
 simp [governorFrame, h]
theorem signalLeave_canon (t : Nat) (s : State) (h : s.Canon) : (signalLeave t s).Canon := by
  grind [signalLeave, State.setWren_cis]
theorem tileSemArrive_canon (id : Nat) (s : State) (h : s.Canon) : (tileSemArrive id s).Canon := by
  grind [tileSemArrive, State.setWren_cis, State.dropSignal_cis]
theorem dieSemArrive_canon (id : Nat) (s : State) (h : s.Canon) : (dieSemArrive id s).Canon := by
  grind [dieSemArrive, State.addSem_cis, State.dropSignal_cis]
theorem tileWaitSatisfied_canon (t : Nat) (s : State) (h : s.Canon) : (tileWaitSatisfied t s).Canon := by
  grind [tileWaitSatisfied, State.setWren_cis]
theorem ifillLineLand_canon (t : Nat) (s : State) (h : s.Canon) : (ifillLineLand t s).Canon := by
  grind [ifillLineLand, State.setWren_cis]
theorem larkFrameStart_canon (pl : Nat) (s : State) (h : s.Canon) : (larkFrameStart pl s).Canon := by
  grind [larkFrameStart, State.startFrame_cis, State.setEngine_cis]
theorem larkFrameSuspend_canon (e : Nat) (s : State) (h : s.Canon) : (larkFrameSuspend e s).Canon := by
 simp [larkFrameSuspend, h]
theorem larkFrameResume_canon (e : Nat) (s : State) (h : s.Canon) : (larkFrameResume e s).Canon := by
 simp [larkFrameResume, h]
theorem larkEngineStop_canon (e : Nat) (s : State) (h : s.Canon) : (larkEngineStop e s).Canon := by
 simp [larkEngineStop, h]
theorem State.refill_canon (s : State) (n : Nat) (h : s.Canon) : (s.refill n).Canon := by simp [State.refill, h]
theorem State.refills_canon (l : List Nat) (s : State) (h : s.Canon) : (l.foldl State.refill s).Canon :=
  canon_foldl (fun _ _ hu => State.refill_canon _ _ hu) h

theorem budgetRefill_canon (s : State) (h : s.Canon) : (budgetRefill s).Canon := by
  unfold budgetRefill
  split
  · exact h
  · exact State.refills_canon _ _ h

theorem powerWindowEnd_canon (mv : Half) (s : State) (h : s.Canon) : (powerWindowEnd mv s).Canon := by
 simp [powerWindowEnd, h]
theorem telemetryPeriod_canon (pace : Half) (s : State) (h : s.Canon) : (telemetryPeriod pace s).Canon := by
 simp [telemetryPeriod, h]
theorem timeLost_canon (s : State) (h : s.Canon) : (timeLost s).Canon := by simp [timeLost, h]
theorem vlinkRecovered_canon (mv : Half) (s : State) (h : s.Canon) : (vlinkRecovered mv s).Canon := by
 simp [vlinkRecovered, h]
theorem vectorRowsIssued_canon (t : Nat) (s : State) (h : s.Canon) : (vectorRowsIssued t s).Canon := by
 simp [vectorRowsIssued, h]
theorem State.vectorLoad_canon (s : State) (t : Nat) (p : Prog) (d : Nat → VLoadDest) (fmt n : Nat → Nat)
    (scalable : Bool) (rows : Nat) (h : s.Canon) : (s.vectorLoad t p d fmt n scalable rows).Canon := by
  grind [State.vectorLoad, State.readOperand_canon, State.setVec_cis, State.vecIssued_cis]
theorem State.vectorStore_canon (s : State) (t : Nat) (p : Prog) (hd o : Nat) (bs : List Byte) (mask : Word)
    (poison : Nat → Byte) (h : s.Canon) : (s.vectorStore t p hd o bs mask poison).Canon := by
  grind [State.vectorStore, State.setWren_cis, State.postLines_canon]
theorem vstAct_canon (t : Nat) (s : State) (p : Prog) (h : s.Canon) : (vstAct t s p).Canon := by
  grind [vstAct, State.vectorStore_canon, State.setVec_cis, State.vecIssued_cis, State.raiseVec_cis]
theorem mstAct_canon (t : Nat) (s : State) (p : Prog) (h : s.Canon) : (mstAct t s p).Canon := by
  grind [mstAct, State.vecIssued_cis, State.vectorStore_canon]
theorem nstAct_canon (t m : Nat) (p : Prog) (s : State) (h : s.Canon) : (nstAct t m p s).Canon := by simp [nstAct, h]
theorem ifillAct_canon (t m : Nat) (p : Prog) (s : State) (h : s.Canon) : (ifillAct t m p s).Canon := by
  grind [ifillAct, State.setWren_cis, State.postLines_canon]
theorem insertOrFail_canon (s : State) (p : Pkt) (h : s.Canon) :
    (if 1 < p.byte 10 then DispOut.fail s stBounds else insertAct s p).Canon := by
  split
  · exact h
  · exact insertAct_canon _ _ h
theorem prefixInsertAct_canon (s : State) (p : Pkt) (h : s.Canon) :
    (match s.poolFault p.ctx true with
     | some f => DispOut.failCheck s f
     | none => if 1 < p.byte 10 then DispOut.fail s stBounds else insertAct s p).Canon := by
  split
  · exact h
  · exact insertOrFail_canon _ _ h
theorem shadowWrite_canon (s : State) (off : Nat) (w : Word) (h : s.Canon) :
    (if off % 4 = 0 then s.rwsWrite off w else s).Canon := by
  split
  · rw [State.Canon, State.rwsWrite_cis]; exact h
  · exact h
theorem State.regRdArrives_canon (s : State) (a : FlitHdr) (off : Word) (count : Nat) (h : s.Canon) :
    (s.regRdArrives a off count).Canon := by rw [State.Canon, State.regRdArrives_cis]; exact h
theorem State.setTime_canon (s : State) (ns : DWord) (h : s.Canon) : (s.setTime ns).Canon := h
theorem State.semSigArrives_canon (s : State) (f : Flit) (sem : Byte) (value : Word) (h : s.Canon) :
    (s.semSigArrives f sem value).Canon := by rw [State.Canon, State.semSigArrives_cis]; exact h
theorem State.wrSegArrives_canon (s : State) (a : FlitHdr) (f : Flit) (handle : Byte) (last semen : Bool) (sem : Byte)
    (off : DWord) (len semval : Word) (h : s.Canon) :
    (s.wrSegArrives a f handle last semen sem off len semval).Canon := by
  rw [State.Canon, State.wrSegArrives_cis]; exact h
theorem retrainDone_canon (p : Nat) (rate : BitVec 2) (half : Bool) (repaired : BitVec 4) (s : State) (h : s.Canon) :
    (retrainDone p rate half repaired s).Canon := by
  unfold retrainDone
  simp [h]
theorem linkTrained_canon (p : Nat) (rate : BitVec 2) (half : Bool) (repaired : BitVec 4) (s : State) (h : s.Canon) :
    (linkTrained p rate half repaired s).Canon := by simp [linkTrained, h]
theorem leaveReset_canon (orient : BitVec 3) (tier : BitVec 2) (site : BitVec 4) (s : State) (h : s.Canon) :
    (leaveReset orient tier site s).Canon := by
  unfold leaveReset
  split
  · exact h
  · simp [h]
theorem State.receiveRouted_canon (s : State) (a : FlitHdr) (f : Flit) (deliver : State → State)
    (hd : ∀ u : State, u.Canon → (deliver u).Canon) (h : s.Canon) :
    (s.receive a f (fun s => s.routed a f deliver)).Canon :=
  State.receive_canon _ _ _ _ (fun _ hu => State.routed_canon _ _ _ _ hd hu) h

theorem leavingReceived_canon (a : FlitHdr) (s : State) (h : s.Canon) : (leavingReceived a s).Canon := by
  unfold leavingReceived
  dsimp only
  exact State.receive_canon s a _ (fun s => s.leavingArrives a.port.val) (fun u => @State.leavingArrives_canon u _) h
theorem State.aluSlot_canon (s : State) (t op : Nat) (f : DWord → DWord → DWord) (h : s.Canon) :
    (s.aluSlot t op f).Canon := State.scalarSlot_canon _ _ _ _ h
theorem State.cmpSlot_canon (s : State) (t op : Nat) (f : DWord → DWord → Bool) (h : s.Canon) :
    (s.cmpSlot t op f).Canon := State.scalarSlot_canon _ _ _ _ h
theorem State.predSlot_canon (s : State) (t op : Nat) (f : Bool → Bool → Bool) (h : s.Canon) :
    (s.predSlot t op f).Canon := State.scalarSlot_canon _ _ _ _ h

/-! ### Every instruction -/

/-- The instruction has a next state, and it keeps the Cistern in canonical form. -/
def NextCanon (o : Host.Outcome State Fault Refusal) : Prop := ∃ u, o = .next u ∧ u.Canon

theorem NextCanon.of {u : State} (h : u.Canon) : NextCanon (.next u) := ⟨u, rfl, h⟩

theorem exec_canon (i : Instr) (s : State) (h : s.Canon) : NextCanon (exec i s) := by
  cases i with
  | nop => exact .of (State.dispatch_canon _ _ _ _ nopAct_canon h)
  | fence => exact .of (State.dispatch_canon _ _ _ _ fenceAct_canon h)
  | fenceComplete => exact .of (fenceComplete_canon _ _ h)
  | semWait | semWaitTake => exact .of (State.dispatch_canon _ _ _ _ semWaitAct_canon h)
  | semWaitSatisfied => exact .of (semWaitSatisfied_canon _ _ h)
  | semSignal => exact .of (State.dispatch_canon _ _ _ _ semSignalAct_canon h)
  | semSignalRemote => exact .of (State.dispatch_canon _ _ _ _ semSignalRemoteAct_canon h)
  | cond => exact .of (State.dispatch_canon _ _ _ _ (condAct_canon _) h)
  | copy => exact .of (State.dispatch_canon _ _ _ _ copyAct_canon h)
  | copyDremote => exact .of (State.dispatch_canon _ _ _ _ copyDremoteAct_canon h)
  | copySremote => exact .of (State.dispatch_canon _ _ _ _ copySremoteAct_canon h)
  | fill => exact .of (State.dispatch_canon _ _ _ _ @fillAct_canon h)
  | run => exact .of (State.dispatch_canon _ _ _ _ runAct_canon h)
  | fattn => exact .of (State.dispatch_canon _ _ _ _ fattnAct_canon h)
  | mergeLse => exact .of (State.dispatch_canon _ _ _ _ mergeLseAct_canon h)
  | kvAppend => exact .of (State.dispatch_canon _ _ _ _ kvAppendAct_canon h)
  | kvRollback => exact .of (State.dispatch_canon _ _ _ _ kvRollbackAct_canon h)
  | kvTrimTail | kvTrimFront => exact .of (State.dispatch_canon _ _ _ _ kvTrimAct_canon h)
  | pageAllocList | pageAllocDirectory => exact .of (State.dispatch_canon _ _ _ _ pageAllocAct_canon h)
  | pageFree => exact .of (State.dispatch_canon _ _ _ _ pageFreeAct_canon h)
  | prefixLookup => exact .of (State.dispatch_canon _ _ _ _ prefixLookupAct_canon h)
  | prefixInsert => exact .of (State.dispatch_canon _ _ _ _ (fun _ _ _ hu => prefixInsertAct_canon _ _ hu) h)
  | prefixRemove => exact .of (State.dispatch_canon _ _ _ _ removeAct_canon h)
  | reqAdmit => exact .of (State.dispatch_canon _ _ _ _ reqAdmitAct_keeps h)
  | reqCancel | reqRelease => exact .of (State.dispatch_canon _ _ _ _ reqCancelAct_canon h)
  | step => exact .of (State.dispatch_canon _ _ _ _ stepAct_canon h)
  | scriptPacketDispatch => exact .of (scriptPacketDispatch_canon _ _ h)
  | stepScriptEnd => exact .of (stepScriptEnd_canon _ _ h)
  | stepBookkeeping => exact .of (stepBookkeeping_canon _ _ h)
  | outputRecordWrite => exact .of (outputRecordWrite_canon _ _ h)
  | budgetAdd | budgetSet => exact .of (State.dispatch_canon _ _ _ _ budgetAddAct_canon h)
  | sample => exact .of (State.dispatch_canon _ _ _ _ sampleAct_canon h)
  | cfgWrite => exact .of (State.dispatch_canon _ _ _ _ cfgWriteAct_canon h)
  | cfgSwap => exact .of (State.dispatch_canon _ _ _ _ cfgSwapAct_canon h)
  | swapPoint => exact .of (swapPoint_canon _ h)
  | swapTimeout => exact .of (swapTimeout_canon _ h)
  | ctxOpen => exact .of (State.dispatch_canon _ _ _ _ ctxOpenAct_canon h)
  | ctxClose => exact .of (ctxClose_canon _ _ h)
  | tractPowerOn => exact .of (tractPowerOn_canon _ _ h)
  | tractPowerOff => exact .of (State.dispatch_canon _ _ _ _ tractPowerAct_canon h)
  | tractWakeEnd => exact .of (tractWakeEnd_canon _ _ h)
  | repairRowLive | repairRowRestore => exact .of (State.dispatch_canon _ _ _ _ repairAct_canon h)
  | larkDecode => exact .of (State.dispatch_canon _ _ _ _ larkDecodeAct_keeps h)
  | larkEncode => exact .of (State.dispatch_canon _ _ _ _ larkEncodeAct_keeps h)
  | larkPreform => exact .of (State.dispatch_canon _ _ _ _ larkPreformAct_canon h)
  | larkStreamOpen => exact .of (State.dispatch_canon _ _ _ _ larkStreamOpenAct_canon h)
  | larkStreamMark => exact .of (State.dispatch_canon _ _ _ _ larkStreamMarkAct_canon h)
  | larkStreamClose => exact .of (State.dispatch_canon _ _ _ _ larkStreamCloseAct_canon h)
  | telemetry => exact .of (State.dispatch_canon _ _ _ _ telemetryAct_canon h)
  | detachOrderly => exact .of (detachOrderly_canon _ _ h)
  | detachAbandon => exact .of (State.dispatch_canon _ _ _ _ detachAct_canon h)
  | detachBoundExpire => exact .of (detachBoundExpire_canon _ h)
  | standbyEnter => exact .of (standbyEnter_canon _ h)
  | packetDecode => exact .of (packetDecode_canon _ h)
  | packetSkip => exact .of (packetSkip_canon _ _ h)
  | lookaheadPrestage => exact .of (lookaheadPrestage_canon _ _ h)
  | completionWrite => exact .of (completionWrite_canon _ _ h)
  | queueDoorbell => exact .of (State.single_canon _ _ _ (queueDoorbell_canon _ _ _ h) h)
  | swapRequest => exact .of (swapRequest_canon _ h)
  | poolArm => exact .of (State.single_canon _ _ _ (poolArm_canon _ _ h) h)
  | portConfirm => exact .of (State.single_canon _ _ _ (portConfirm_canon _ _ h) h)
  | topMapWrite => exact .of (State.single_canon _ _ _ (topMapWrite_canon _ _ h) h)
  | topExpectWrite => exact .of (State.single_canon _ _ _ (topExpectWrite_canon _ _ _ h) h)
  | tileHold => exact .of (State.single_canon _ _ _ (tileHold_canon _ _ h) h)
  | draftWrite => exact .of (State.single_canon _ _ _ (draftWrite_canon _ _ _ _ h) h)
  | shadowRegisterWrite => exact .of (State.single_canon _ _ _ (shadowWrite_canon _ _ _ h) h)
  | linkEnable => exact .of (State.single_canon _ _ _ (linkEnable_canon _ _ _ h) h)
  | warmReset => exact .of (warmReset_canon _ h)
  | abandon => exact .of (abandon_canon _ h)
  | regRd => exact .of (State.receiveRouted_canon _ _ _ _ (fun _ hv => State.regRdArrives_canon _ _ _ _ hv) h)
  | regWr => exact .of (State.receiveRouted_canon _ _ _ _ (fun _ hv => State.regWrArrives_canon _ _ _ _ hv) h)
  | timeFlit => exact .of (State.receiveRouted_canon _ _ _ _ (fun _ hv => State.setTime_canon _ _ hv) h)
  | semSig => exact .of (State.receiveRouted_canon _ _ _ _ (fun _ hv => State.semSigArrives_canon _ _ _ _ hv) h)
  | semAck => exact .of (State.receiveRouted_canon _ _ _ _ (fun _ hv => State.semAckArrives_canon _ _ _ _ _ hv) h)
  | hello => exact .of (helloReceived_canon _ _ _ h)
  | helloAck => exact .of (helloAckReceived_canon _ _ _ h)
  | helloResend => exact .of (helloResend_canon _ _ h)
  | leaving => exact .of (leavingReceived_canon _ _ h)
  | wrSeg =>
    exact .of (State.receiveRouted_canon _ _ _ _ (fun _ hv => State.wrSegArrives_canon _ _ _ _ _ _ _ _ _ _ hv) h)
  | dataFlit => exact .of (State.receiveRouted_canon _ _ _ _ (fun _ hv => State.dataArrives_canon _ _ _ hv) h)
  | rdSeg => exact .of (State.receiveRouted_canon _ _ _ _ (fun _ hv => State.rdSegArrives_canon _ _ _ _ _ hv) h)
  | wrAck => exact .of (State.receiveRouted_canon _ _ _ _ (fun _ hv => State.wrAckArrives_canon _ _ _ _ _ hv) h)
  | rdEnd => exact .of (State.receiveRouted_canon _ _ _ _ (fun _ hv => State.rdEndArrives_canon _ _ _ _ hv) h)
  | unreach => exact .of (State.receiveRouted_canon _ _ _ _ (fun _ hv => State.unreachArrives_canon _ _ hv) h)
  | idleFlit => exact .of (idleReceived_canon _ _ h)
  | flitCrcFail => exact .of (rawFlit_canon _ _ _ h)
  | keepaliveIdleSend => exact .of (keepalive_canon _ _ h)
  | linkDown => exact .of (linkDown_canon _ _ h)
  | replayTimeout => exact .of (replayTimeout_canon _ _ h)
  | retrainEnter => exact .of (retrainEnter_canon _ _ _ h)
  | retrainDone => exact .of (retrainDone_canon _ _ _ _ _ h)
  | retrainTimeout => exact .of (retrainTimeout_canon _ _ h)
  | trainingRetry => exact .of (trainingRetry_canon _ _ h)
  | linkTrained => exact .of (linkTrained_canon _ _ _ _ _ h)
  | e2eTimeout => exact .of (e2eTimeout_canon _ _ h)
  | thermalSidebandSend => exact .of (sidebandSend_canon _ h)
  | thermalSidebandWord => exact .of (sidebandWord_canon _ _ h)
  | stackCapTick => exact .of (stackCapTick_canon _ h)
  | stackReportTimeout => exact .of (stackReportTimeout_canon _ h)
  | sensorSample => exact .of (sensorSample_canon _ _ h)
  | thermalCapTick => exact .of (thermalCapTick_canon _ h)
  | supplyWarningAssert => exact .of (supplyWarning_canon _ _ _ h)
  | supplyWarningDeassert => exact .of (supplyRecovered_canon _ _ _ h)
  | vlinkWarning => exact .of (vlinkWarn_canon _ _ h)
  | brownoutReset => exact .of (brownoutReset_canon _ _ h)
  | coldReset => exact .of (coldReset_canon _ h)
  | pinReset => exact .of (pinReset_canon _ _ _ _ h)
  | leaveReset => exact .of (leaveReset_canon _ _ _ _ h)
  | fuseLoadDone => exact .of (fuseLoadDone_canon _ h)
  | selfTestDone => exact .of (selfTestDone_canon _ _ h)
  | discoveryWindowEnd => exact .of (discoveryWindowEnd_canon _ h)
  | ready => exact .of (ready_canon _ _ h)
  | tapReset => exact .of (tapReset_canon _ _ h)
  | extest | idcode | samplePreload | wrapsel | march | fuseread | scrsel =>
    exact .of (State.tapDo_canon _ _ _ _ (State.scan_canon _ _ _ _ h) h)
  | clamp | highz => exact .of (State.tapDo_canon _ _ _ _ (State.bypassScan_canon _ _ _ h) h)
  | wrapdr => exact .of (wrapdr_canon _ _ h)
  | wrapir => exact .of (wrapir_canon _ _ h)
  | wsBypass => exact .of (wsBypass_canon _ _ h)
  | wsExtest => exact .of (wsExtest_canon _ _ h)
  | wsIntest => exact .of (wsIntest_canon _ _ h)
  | wsBist => exact .of (wsBist_canon _ _ h)
  | dwrext => exact .of (dwrext_canon _ _ h)
  | bypass => exact .of (bypassIr_canon _ _ _ h)
  | bankSlot => exact .of (bankSlot_canon _ _ _ h)
  | reservedSlot => exact .of (reservedSlot_canon _ _ _ h)
  | scrubPassStart => exact .of (scrubPassStart_canon _ h)
  | zeroWalkEnd => exact .of (zeroWalkEnd_canon _ _ h)
  | cisternReadReturn => exact .of (cisternReadReturn_canon _ _ h)
  | cisternWriteAck => exact .of (cisternWriteAck_canon _ _ h)
  | heldLoadIssue => exact .of (heldLoadIssue_canon _ _ h)
  | tileProgramLaunch => exact .of (tileSetStart_canon _ _ h)
  | loadFillEnd => exact .of (loadFillEnd_canon _ _ h)
  | tileProgramEnd => exact .of (tileProgramEnd_canon _ _ h)
  | arrayInstrStart => exact .of (arrayInstrStart_canon _ _ _ h)
  | arrayInstrEnd => exact .of (arrayInstrEnd_canon _ _ _ h)
  | drainEnd => exact .of (drainEnd_canon _ _ h)
  | arrayGoesCold => exact .of (arrayGoesCold_canon _ _ h)
  | governorFrame => exact .of (governorFrame_canon _ _ _ h)
  | signalLeave => exact .of (signalLeave_canon _ _ h)
  | tileSemArrive => exact .of (tileSemArrive_canon _ _ h)
  | dieSemArrive => exact .of (dieSemArrive_canon _ _ h)
  | tileWaitSatisfied => exact .of (tileWaitSatisfied_canon _ _ h)
  | ifillLineLand => exact .of (ifillLineLand_canon _ _ h)
  | scalarNop | mnop | tnop | vnop => exact .of (State.issueSlot_canon _ _ _ _ _ (fun _ _ hu => hu) h)
  | br => exact .of (State.issueSlot_canon _ _ _ _ _ (fun _ _ hu => by simpa using hu) h)
  | vld | vtld | mld =>
    exact .of (State.issueSlot_canon _ _ _ _ _ (fun _ _ hu => State.vectorLoad_canon _ _ _ _ _ _ _ _ hu) h)
  | vst => exact .of (State.issueSlot_canon _ _ _ _ _ (fun _ _ hu => vstAct_canon _ _ _ hu) h)
  | mst => exact .of (State.issueSlot_canon _ _ _ _ _ (fun _ _ hu => mstAct_canon _ _ _ hu) h)
  | add | sub | mul | opAnd | opOr | opXor | shl | shr | sra => exact .of (State.aluSlot_canon _ _ _ _ h)
  | addi | limm | opEnd => exact .of (State.scalarSlot_canon _ _ _ _ h)
  | cmpeq | cmplt | cmpltu => exact .of (State.cmpSlot_canon _ _ _ _ h)
  | pand | por | pnot => exact .of (State.predSlot_canon _ _ _ _ h)
  | nld => exact .of (State.moveSlot_canon _ _ _ _ (fun _ _ _ hu => nldAct_canon _ _ _ _ hu) h)
  | nst => exact .of (State.moveSlot_canon _ _ _ _ (fun _ _ _ hu => nstAct_canon _ _ _ _ hu) h)
  | tsig | twait | ttake | dsig =>
    exact .of (State.moveSlot_canon _ _ _ _ (fun _ _ _ hu => by simpa [State.holdSignal, State.startWait] using hu) h)
  | ifill => exact .of (State.moveSlot_canon _ _ _ _ (fun _ _ _ hu => ifillAct_canon _ _ _ _ hu) h)
  | mtile | mtileS2 | mtileS3 | dtile => exact .of (State.tensorSlot_canon _ _ _ h)
  | vadd | vsub | vmul | vfma | vmin | vmax | vabs | vneg | vcmp | vsel | vand | vor | vxor | vnot | vshl | vshr
  | vsra | viadd | visub | vimul | vcvt | vbcast | mand | mor | mxor | mnot | vlut | vexp2 | vrcp | vrsq | vrsum
  | vrmax | vrmin | vrargmax | vcsum | vcmax | vcmin | vcargmax | vcomp | vexpd =>
    exact .of (State.vectorSlot_canon _ _ _ _ h)
  | vsplat => exact .of (State.vectorOn_canon _ _ _ _ h)
  | larkFrameStart => exact .of (larkFrameStart_canon _ _ h)
  | larkFrameSuspend => exact .of (larkFrameSuspend_canon _ _ h)
  | larkFrameResume => exact .of (larkFrameResume_canon _ _ h)
  | larkFrameEnd => exact .of (larkFrameEnd_canon _ _ h)
  | larkEngineStop => exact .of (larkEngineStop_canon _ _ h)
  | budgetRefill => exact .of (budgetRefill_canon _ h)
  | powerWindowEnd => exact .of (powerWindowEnd_canon _ _ h)
  | telemetryPeriod => exact .of (telemetryPeriod_canon _ _ h)
  | timeLost => exact .of (timeLost_canon _ h)
  | vlinkWarningDeassert => exact .of (vlinkRecovered_canon _ _ h)
  | trainingTimeout => exact .of (trainingTimeout_canon _ _ h)
  | vectorRowsIssued => exact .of (vectorRowsIssued_canon _ _ h)

/-- Settles O59: an instruction writes the Cistern only through accesses, walks and clears, which keep its sparse maps
sorted and without default values. -/
theorem memoryStaysCanonical : Obligations.MemoryStaysCanonical := by
  intro s s' h hs
  change s.Canon at h
  show s'.Canon
  unfold step at hs
  split at hs
  · cases hs
    simpa using h
  · rename_i c rest _
    obtain ⟨u, hu, hc⟩ := exec_canon c { s with pending := rest } h
    rw [hu] at hs
    cases hs
    exact hc

end Sys2Proof.Machine

end

section

namespace Sys2Proof.Machine

/-! ## The round-robin search, and the earliest of a list (R85, R86) -/

/-- Each of three places stands in the search as many places after `last` as `afterGrant` says. -/
theorem afterGrant_eq (last : Fin 3) {j : Nat} (hj : j < 3) :
    afterGrant last.val j < 3 ∧ (last.val + 1 + afterGrant last.val j) % 3 = j := by
  have := last.isLt
  simp only [afterGrant]
  omega

/-- The round-robin search of three meets the first place after `last` that asks. -/
theorem rotate_first {last : Fin 3} {p : Nat → Bool} {k : Nat} (h : rotate 3 last.val p = some k) :
    k < 3 ∧ p k = true ∧ ∀ j < 3, p j = true → afterGrant last.val k ≤ afterGrant last.val j := by
  rw [rotate, List.find?_map, Option.map_eq_some_iff] at h
  obtain ⟨i, hi, rfl⟩ := h
  obtain ⟨hp, hi3, hbefore⟩ := List.find?_range_eq_some.1 hi
  have hplace : afterGrant last.val ((last.val + 1 + i) % 3) = i := by
    have := last.isLt
    have := List.mem_range.1 hi3
    simp only [afterGrant]
    omega
  refine ⟨Nat.mod_lt _ (by decide), hp, fun j hj hpj => ?_⟩
  rw [hplace]
  by_contra hlt
  have hnot := hbefore _ (Nat.lt_of_not_le hlt)
  simp only [Function.comp_apply, (afterGrant_eq last hj).2, hpj] at hnot
  contradiction

theorem exists_rotate {p : Nat → Bool} (last : Fin 3) {j : Nat} (hj : j < 3) (hp : p j = true) :
    ∃ k, rotate 3 last.val p = some k := by
  obtain ⟨hlt, heq⟩ := afterGrant_eq last hj
  rw [← Option.isSome_iff_exists, rotate, List.find?_isSome]
  exact ⟨j, List.mem_map.2 ⟨_, List.mem_range.2 hlt, heq⟩, hp⟩

theorem firstBy_eq_none {α : Type} {before : α → α → Bool} {l : List α} : firstBy before l = none ↔ l = [] := by
  cases l with
  | nil => simp [firstBy]
  | cons x l => grind [firstBy]

theorem firstBy_mem {α : Type} {before : α → α → Bool} {l : List α} {r : α} (h : firstBy before l = some r) : r ∈ l := by
  induction l generalizing r with
  | nil => simp [firstBy] at h
  | cons x l ih => grind [firstBy]

/-- Where `before` is a strict weak order, nothing comes before the first of a list. -/
theorem firstBy_first {α : Type} {before : α → α → Bool} (hasymm : ∀ a b, before a b = true → before b a = false)
    (htrans : ∀ a b c, before a b = false → before b c = false → before a c = false) {l : List α} {r : α}
    (h : firstBy before l = some r) : ∀ x ∈ l, before x r = false := by
  induction l generalizing r with
  | nil => simp
  | cons x l ih =>
    have hirr : ∀ a, before a a = false := fun a => by
      cases ha : before a a with
      | false => rfl
      | true => rw [← ha]; exact hasymm a a ha
    rw [firstBy] at h
    cases hl : firstBy before l with
    | none =>
      obtain rfl := firstBy_eq_none.1 hl
      simp only [hl] at h
      simp_all
    | some y =>
      simp only [hl] at h
      have hy := ih hl
      split at h
      · next hyx =>
        obtain rfl := Option.some.inj h
        simpa using ⟨hasymm _ _ hyx, hy⟩
      · next hyx =>
        obtain rfl := Option.some.inj h
        simp only [List.mem_cons, forall_eq_or_imp]
        exact ⟨hirr _, fun z hz => htrans z y _ (hy z hz) (by simpa using hyx)⟩

theorem arrives_eq_false {s : State} {r q : CisReq} : s.arrives r q = false ↔
    q.arrive < r.arrive ∨ q.arrive = r.arrive ∧ s.fuse.physTile q.tile.val ≤ s.fuse.physTile r.tile.val := by
  simp only [State.arrives, Bool.or_eq_false_iff, Bool.and_eq_false_iff, decide_eq_false_iff_not]
  omega

theorem firstBy_arrives {s : State} {l : List CisReq} {r : CisReq} (h : firstBy s.arrives l = some r) :
    ∀ x ∈ l, r.arrive < x.arrive ∨ r.arrive = x.arrive ∧ s.fuse.physTile r.tile.val ≤ s.fuse.physTile x.tile.val := by
  intro x hx
  refine arrives_eq_false.1 (firstBy_first ?_ ?_ h x hx)
  · intro a b hab
    rw [arrives_eq_false]
    simp only [State.arrives, Bool.or_eq_true, Bool.and_eq_true, decide_eq_true_eq] at hab
    omega
  · intro a b c hab hbc
    rw [arrives_eq_false] at *
    omega

/-! ## Whom a bank grants -/

theorem CisReq.port_lt (r : CisReq) : r.port < 3 := by grind [CisReq.port]

theorem CisReq.sub_lt (r : CisReq) : r.sub < 3 := by grind [CisReq.sub]

theorem wrenFirst_eq_true {s : State} {tr b : Nat} : s.wrenFirst tr b = true ↔ HoldPrefersW s tr b := by
  unfold State.wrenFirst HoldPrefersW
  dsimp only
  split
  · next h => simp [h]
  · next l h => simp [h, and_assoc]

/-- A bank at which no request waits grants none. -/
theorem grant_none {s : State} {tr b : Nat} (h : s.cis.reqs.filter (s.waits tr b) = []) : s.grant tr b = none := by
  have hport : s.grantPort tr b [] = none := by simp [State.grantPort, rotate]
  simp only [State.grant, h, hport]

/-- A port is granted where a request waits: W after three waves of a hold, else that which the search meets first. -/
theorem exists_grantPort {s : State} {tr b : Nat} {rs : List CisReq} (h : rs ≠ []) :
    ∃ p, s.grantPort tr b rs = some p ∧ p < 3 ∧ (∃ x ∈ rs, x.port = p) ∧
      (¬(HoldPrefersW s tr b ∧ ∃ x ∈ rs, x.port = 1) →
        ∀ x ∈ rs, afterGrant (s.bank tr b).last.val p ≤ afterGrant (s.bank tr b).last.val x.port) ∧
      (HoldPrefersW s tr b → (∃ x ∈ rs, x.port = 1) → p = 1) := by
  rw [← wrenFirst_eq_true]
  unfold State.grantPort
  by_cases hw : (s.wrenFirst tr b && rs.any (fun r => decide (r.port = 1))) = true
  · refine ⟨1, if_pos hw, by decide, ?_⟩
    simp_all
  · obtain ⟨x, hx⟩ := List.exists_mem_of_ne_nil rs h
    obtain ⟨p, hp⟩ := exists_rotate (p := fun p => rs.any (fun r => decide (r.port = p))) (s.bank tr b).last x.port_lt
      (List.any_eq_true.2 ⟨x, hx, by simp⟩)
    obtain ⟨hlt, hany, hfirst⟩ := rotate_first hp
    refine ⟨p, (if_neg hw).trans hp, hlt, by simpa using hany,
      fun _ y hy => hfirst _ y.port_lt (List.any_eq_true.2 ⟨y, hy, by simp⟩), ?_⟩
    intro h1 h2
    simp_all

/-- The request that the bank grants (R85, R86, R232). -/
theorem exists_grant {s : State} {tr b : Nat} (h : s.cis.reqs.filter (s.waits tr b) ≠ []) :
    ∃ r, s.grant tr b = some r ∧ r ∈ s.cis.reqs.filter (s.waits tr b) ∧
      s.grantPort tr b (s.cis.reqs.filter (s.waits tr b)) = some r.port ∧
      (r.port = 2 → ∀ x ∈ s.cis.reqs.filter (s.waits tr b), x.port = 2 → r.arrive < x.arrive ∨
        (r.arrive = x.arrive ∧ s.fuse.physTile r.tile.val ≤ s.fuse.physTile x.tile.val)) ∧
      (r.port = 0 → ∀ x ∈ s.cis.reqs.filter (s.waits tr b), x.port = 0 →
        afterGrant (s.bank tr b).lastL.val r.sub ≤ afterGrant (s.bank tr b).lastL.val x.sub) := by
  obtain ⟨p, hp, hlt, ⟨x, hx, hxp⟩, -, -⟩ := exists_grantPort (s := s) (tr := tr) (b := b) h
  unfold State.grant
  generalize s.cis.reqs.filter (s.waits tr b) = rs at *
  dsimp only
  rw [hp]
  obtain rfl | rfl | rfl : p = 0 ∨ p = 1 ∨ p = 2 := by omega
  case inl =>
    obtain ⟨k, hk⟩ := exists_rotate (p := fun k => rs.any (fun r => decide (r.port = 0) && decide (r.sub = k)))
      (s.bank tr b).lastL x.sub_lt (List.any_eq_true.2 ⟨x, hx, by simp [hxp]⟩)
    obtain ⟨-, hany, hfirst⟩ := rotate_first hk
    obtain ⟨y, hy, hyk⟩ := List.any_eq_true.1 hany
    obtain ⟨r, hr⟩ := Option.isSome_iff_exists.1
      (List.find?_isSome (p := fun r : CisReq => decide (r.port = 0) && decide (r.sub = k)).2 ⟨y, hy, hyk⟩)
    have hrk := List.find?_some hr
    simp only [Bool.and_eq_true, decide_eq_true_eq] at hrk
    obtain ⟨hr0, hrs⟩ := hrk
    refine ⟨r, by simp only [hk, hr], List.mem_of_find?_eq_some hr, by rw [hr0], by omega, fun _ z hz hz0 => ?_⟩
    rw [hrs]
    exact hfirst _ z.sub_lt (List.any_eq_true.2 ⟨z, hz, by simp [hz0]⟩)
  case inr.inl =>
    obtain ⟨r, hr⟩ := Option.isSome_iff_exists.1
      (List.find?_isSome (p := fun r : CisReq => decide (r.port = 1)).2 ⟨x, hx, by simp [hxp]⟩)
    have hr1 : r.port = 1 := by simpa using List.find?_some hr
    exact ⟨r, hr, List.mem_of_find?_eq_some hr, by rw [hr1], by omega, by omega⟩
  case inr.inr =>
    cases hr : firstBy s.arrives (rs.filter (fun r => decide (r.port = 2))) with
    | none =>
      have := firstBy_eq_none.1 hr
      simp_all
    | some r =>
      have hmem := List.mem_filter.1 (firstBy_mem hr)
      have hr2 : r.port = 2 := by simpa using hmem.2
      refine ⟨r, rfl, hmem.1, by rw [hr2], fun _ z hz hz2 => ?_, by omega⟩
      exact firstBy_arrives hr z (List.mem_filter.2 ⟨hz, by simpa using hz2⟩)

/-! ## What an access leaves alone -/

/-- An access leaves the banks, the requests and the responses as they are. -/
def KeepsQueues (s s' : State) : Prop :=
  s'.cis.banks = s.cis.banks ∧ s'.cis.reqs = s.cis.reqs ∧ s'.cis.resps = s.cis.resps

theorem KeepsQueues.refl (s : State) : KeepsQueues s s := ⟨rfl, rfl, rfl⟩

theorem KeepsQueues.trans {a b c : State} (h : KeepsQueues a b) (g : KeepsQueues b c) : KeepsQueues a c :=
  ⟨g.1.trans h.1, g.2.1.trans h.2.1, g.2.2.trans h.2.2⟩

theorem log_keepsQueues (s : State) (e : Sparse (BitVec 256)) (h : BitVec 7) (l : Word) :
    KeepsQueues s { s with cis := { s.cis with elog := e, elogHead := h, elogLost := l } } := ⟨rfl, rfl, rfl⟩

theorem logError_keepsQueues (s : State) (a k : Nat) (y : BitVec 10) (i : AccessInfo) : KeepsQueues s (s.logError a k y i) := by
  unfold State.logError
  dsimp only
  split
  · exact log_keepsQueues s _ _ s.cis.elogLost
  · exact log_keepsQueues s s.cis.elog s.cis.elogHead _

theorem logCe_keepsQueues (s : State) (a : Nat) (y : BitVec 10) (i : AccessInfo) : KeepsQueues s (s.logCe a y i) := by
  have h := logError_keepsQueues s a kindCe y i
  simp only [State.logCe, KeepsQueues, cis_ite, State.notify_cis, ite_self] at *
  exact h

theorem logUe_keepsQueues (s : State) (a : Nat) (y : BitVec 10) (i : AccessInfo) : KeepsQueues s (s.logUe a y i) := by
  have h := logError_keepsQueues s a kindUe y i
  simp only [State.logUe, KeepsQueues, State.notify_cis] at *
  exact h

theorem putWord_keepsQueues (s : State) (w : Nat) (d : List Byte) (y : BitVec 10) : KeepsQueues s (s.putWord w d y) := .refl s

theorem countPoison_keepsQueues (s : State) (st : Half) : KeepsQueues s (s.countPoison st) := by
  unfold State.countPoison
  split <;> exact .refl s

theorem readWord_keepsQueues (s : State) (i : AccessInfo) (w : Nat) : KeepsQueues s (s.readWord i w).state := by
  unfold State.readWord
  split
  · exact .refl s
  · exact (putWord_keepsQueues ..).trans (logCe_keepsQueues ..)
  · exact .refl s
  · exact (putWord_keepsQueues ..).trans (logUe_keepsQueues ..)

theorem readWords_keepsQueues (i : AccessInfo) (n : Nat) :
    ∀ (s : State) (w : Nat), KeepsQueues s (s.readWords i w n).state := by
  induction n with
  | zero => intro s w; exact .refl s
  | succ n ih => intro s w; exact (readWord_keepsQueues s i w).trans (ih ..)

theorem mergeWord_keepsQueues (s : State) (i : AccessInfo) (w : Nat) (f : Nat → Option Byte) (p : Bool) :
    KeepsQueues s (s.mergeWord i w f p).2 := by
  unfold State.mergeWord
  dsimp only
  split
  · exact putWord_keepsQueues ..
  · exact (putWord_keepsQueues ..).trans (logCe_keepsQueues ..)
  · exact putWord_keepsQueues ..
  · exact (putWord_keepsQueues ..).trans (logUe_keepsQueues ..)

theorem writeWord_keepsQueues (s : State) (i : AccessInfo) (w : Nat) (f : Nat → Option Byte) (p : Bool) :
    KeepsQueues s (s.writeWord i w f p).2 := by
  unfold State.writeWord
  split
  · exact .refl s
  · split
    · exact putWord_keepsQueues ..
    · exact mergeWord_keepsQueues ..

theorem writeWords_keepsQueues (i : AccessInfo) (f : Nat → Option Byte) (p : Nat → Bool) (n : Nat) :
    ∀ (s : State) (w : Nat), KeepsQueues s (s.writeWords i w f p n).2 := by
  induction n with
  | zero => intro s w; exact .refl s
  | succ n ih => intro s w; exact (writeWord_keepsQueues s i w _ _).trans (ih ..)

theorem perform_keepsQueues (s : State) (r : CisReq) : KeepsQueues s (s.perform r).1 := by
  unfold State.perform
  dsimp only
  split
  · exact (readWords_keepsQueues ..).trans (countPoison_keepsQueues ..)
  · exact (readWord_keepsQueues ..).trans (countPoison_keepsQueues ..)
  · exact (writeWords_keepsQueues ..).trans (countPoison_keepsQueues ..)
  · exact (mergeWord_keepsQueues ..).trans (countPoison_keepsQueues ..)

theorem perform_id (s : State) (r : CisReq) : ((s.perform r).2.id, (s.perform r).2.tile) = (r.id, r.tile) := by
  unfold State.perform
  dsimp only
  split <;> rfl

/-! ## The slot -/

@[simp] theorem bank_setBank_same (s : State) (tr b : Nat) (x : Bank) : (s.setBank tr b x).bank tr b = x := spGet_spSet_same

/-- A bank as the grant of `r` leaves it. -/
def Bank.granted (x : Bank) (r : CisReq) : Bank :=
  { x with
    slot := x.slot + 1
    last := Fin.ofNat 3 r.port
    lastL := if r.port = 0 then Fin.ofNat 3 r.sub else x.lastL }

/-- The state in which the granted access is performed. -/
def State.atGrant (s : State) (tr b : Nat) (r : CisReq) : State := s.setBank tr b ((s.bank tr b).granted r)

/-- An open slot in which no request is granted goes by. -/
theorem bankSlot_idle {s : State} {tr b : Nat} (h : SlotOpen s tr b) (hg : s.grant tr b = none) :
    bankSlot tr b s = s.setBank tr b { s.bank tr b with slot := (s.bank tr b).slot + 1 } := by
  obtain ⟨hrun, hon, hwalk, hres⟩ := h
  simp [bankSlot, hrun, hon, hwalk, hres, hg]

/-- An open slot performs the access that it grants. -/
theorem bankSlot_grant {s : State} {tr b : Nat} {r : CisReq} (h : SlotOpen s tr b) (hg : s.grant tr b = some r) :
    bankSlot tr b s =
      let g := (s.atGrant tr b r).perform r
      { g.1 with cis := { g.1.cis with slots := g.1.cis.slots + 1
                                       reqs := g.1.cis.reqs.filter (fun q => decide (q.id ≠ r.id))
                                       resps := g.1.cis.resps ++ [g.2] } } := by
  obtain ⟨hrun, hon, hwalk, hres⟩ := h
  simp only [bankSlot, hrun, hon, hwalk, hres, hg]
  rfl

theorem exec_bankSlot (tr : Fin 64) (b : Fin 16) (s : State) : exec (.bankSlot tr b) s = .next (bankSlot tr.val b.val s) := rfl

theorem bankSlotGrantsRoundRobin : BankSlotGrantsRoundRobinRule := by
  intro tr b s hopen
  dsimp only
  constructor
  · intro hwait
    rw [exec_bankSlot, bankSlot_idle hopen (grant_none hwait)]
    exact ⟨_, rfl, bank_setBank_same .., rfl, rfl, rfl, rfl⟩
  · intro hwait
    obtain ⟨r, hg, hmem, hport, hx, hl⟩ := exists_grant hwait
    obtain ⟨p, hp, -, -, hrobin, hhold⟩ := exists_grantPort (s := s) (tr := tr) (b := b) hwait
    obtain rfl : r.port = p := Option.some.inj (hport.symm.trans hp)
    obtain ⟨hbanks, hreqs, hresps⟩ := perform_keepsQueues (s.atGrant tr b r) r
    rw [exec_bankSlot, bankSlot_grant hopen hg]
    refine ⟨_, r, ((s.atGrant tr b r).perform r).2, rfl, hmem, hrobin, hhold, hx, hl, ?_, ?_, perform_id .., ?_⟩
    · dsimp only; rw [hreqs]; rfl
    · dsimp only; rw [hresps]; rfl
    · show spGet Bank.reset ((s.atGrant tr b r).perform r).1.cis.banks _ = _
      rw [hbanks]
      exact bank_setBank_same ..

end Sys2Proof.Machine

end

section

namespace Sys2Proof.Machine

/-! ## Writes to clean words (R80, R120) -/

theorem byteAt_merge (old : List Byte) (f : Nat → Option Byte) {k : Nat} (hk : k < 32) :
    byteAt (merge old f) k = (f k).getD (byteAt old k) := by
  simp [byteAt, merge, hk]

theorem byteAt_stored (s : State) (w : Nat) {k : Nat} (hk : k < 32) : byteAt (s.stored w) k = memByte s (32 * w + k) := by
  simp [byteAt, State.stored, memByte, hk]

/-- The syndrome that a write leaves: that of poison, where its data are marked. -/
def writtenSyn (poison : Bool) : BitVec 10 := if poison then synPoison else 0

theorem mergeWord_clean {s : State} {w : Nat} (i : AccessInfo) (f : Nat → Option Byte) (poison : Bool) (h : Clean s w) :
    s.mergeWord i w f poison = (stOK, s.putWord w (merge (s.stored w) f) (writtenSyn poison)) := by
  unfold State.mergeWord
  rw [show s.syndrome w = 0 from h]
  rfl

/-- The bytes after some of a word have been merged into it. -/
theorem memByte_merge (s : State) (w : Nat) (f : Nat → Option Byte) (y : BitVec 10) (a : Nat) :
    memByte (s.putWord w (merge (s.stored w) f) y) a =
      if a / 32 = w then (f (a % 32)).getD (memByte s a) else memByte s a := by
  rw [memByte_putWord]
  split
  · next h =>
    rw [byteAt_merge _ _ (Nat.mod_lt _ (by decide)), byteAt_stored _ _ (Nat.mod_lt _ (by decide)), ← h, Nat.div_add_mod]
  · rfl

/-- A write to a clean word is OK, writes the bytes it has, and leaves the word clean or, where it is marked, poisoned. -/
theorem writeWord_clean {s : State} {w : Nat} (i : AccessInfo) (f : Nat → Option Byte) (poison : Bool) (h : Clean s w) :
    ∃ u, s.writeWord i w f poison = (stOK, u) ∧
      (∀ a, memByte u a = if a / 32 = w then (f (a % 32)).getD (memByte s a) else memByte s a) ∧
      (∀ v, u.syndrome v =
        if v = w then (if (List.range 32).any (fun k => (f k).isSome) then writtenSyn poison else 0) else s.syndrome v) := by
  have hsyn : ∀ v, s.syndrome v = if v = w then 0 else s.syndrome v := fun v => by
    split
    · next hv => rw [hv]; exact h
    · rfl
  unfold State.writeWord
  split
  · next hnone =>
    have hf : ∀ k < 32, f k = none := by simpa using hnone
    have hany : (List.range 32).any (fun k => (f k).isSome) = false := by simpa using hf
    refine ⟨s, rfl, fun a => ?_, fun v => ?_⟩
    · rw [hf _ (Nat.mod_lt _ (by decide))]
      simp
    · rw [hany]
      exact hsyn v
  · next hnone =>
    have hany : (List.range 32).any (fun k => (f k).isSome) = true := by
      simpa [Option.isSome_iff_ne_none] using hnone
    split
    · next hall =>
      refine ⟨_, rfl, fun a => ?_, fun v => ?_⟩
      · obtain ⟨b, hb⟩ : ∃ b, f (a % 32) = some b :=
          Option.isSome_iff_exists.1 (List.all_eq_true.1 hall _ (List.mem_range.2 (Nat.mod_lt _ (by decide))))
        rw [memByte_putWord, byteAt_merge _ _ (Nat.mod_lt _ (by decide)), hb]
        rfl
      · rw [syndrome_putWord]
        rfl
    · rw [mergeWord_clean i f poison h]
      refine ⟨_, rfl, memByte_merge s w f _, fun v => ?_⟩
      exact syndrome_putWord ..

/-- A write to clean words from `w` on. -/
theorem writeWords_clean (i : AccessInfo) (f : Nat → Option Byte) (poison : Nat → Bool) (n : Nat) :
    ∀ (s : State) (w : Nat), (∀ v, w ≤ v → v < w + n → Clean s v) →
      ∃ u, s.writeWords i w f poison n = (stOK, u) ∧
        (∀ a, memByte u a = if 32 * w ≤ a ∧ a < 32 * (w + n) then (f a).getD (memByte s a) else memByte s a) ∧
        (∀ v, u.syndrome v = if w ≤ v ∧ v < w + n then
          (if (List.range 32).any (fun k => (f (32 * v + k)).isSome) then writtenSyn (poison v) else 0) else s.syndrome v) := by
  induction n with
  | zero => intro s w _; exact ⟨s, rfl, fun a => by rw [if_neg (by omega)], fun v => by rw [if_neg (by omega)]⟩
  | succ n ih =>
    intro s w h
    obtain ⟨t, ht, htmem, htsyn⟩ := writeWord_clean i (fun k => f (32 * w + k)) (poison w) (h w (by omega) (by omega))
    obtain ⟨u, hu, humem, husyn⟩ := ih t (w + 1) (fun v hv hvn => by
      rw [Clean, htsyn, if_neg (by omega)]
      exact h v (by omega) (by omega))
    refine ⟨u, ?_, fun a => ?_, fun v => ?_⟩
    · simp only [State.writeWords, ht, hu]
      rfl
    · rw [humem, htmem]
      by_cases ha : a / 32 = w
      · have hw : 32 * w + a % 32 = a := by omega
        rw [if_neg (by omega), if_pos ha, if_pos (by omega), hw]
      · rw [if_neg ha]
        congr 1
        simp only [eq_iff_iff]
        omega
    · rw [husyn, htsyn]
      by_cases hv : v = w
      · subst hv
        rw [if_neg (by omega), if_pos rfl]
        simp
      · rw [if_neg hv]
        congr 1
        simp only [eq_iff_iff]
        omega

/-! ## What the granted access does -/

/-- The response of an access that went well. -/
def CisReq.answer (r : CisReq) (write : Bool) (data : List Byte) (marks ue : List Bool) : CisResp :=
  { id := r.id, tile := r.tile, write := write, data := data, marks := marks, ue := ue, status := stOK }

theorem countPoison_ok (s : State) : s.countPoison stOK = s := if_neg (by decide)

/-- The bytes of a line write, by their address: a granule of eight that the word mask leaves out is not written. -/
def CisReq.line (r : CisReq) (data : List Byte) (mask : Word) (a : Nat) : Option Byte :=
  if bit mask.toNat ((a - r.addr) / 8) then some (byteAt data (a - r.addr)) else none

/-- A line write touches a word where the mask has one of its four granules. -/
theorem any_line {r : CisReq} (ha : r.addr % 256 = 0) (data : List Byte) (mask : Word) (k : Nat) :
    (List.range 32).any (fun j => (r.line data mask (32 * (r.addr / 32 + k) + j)).isSome) =
      (List.range 4).any (fun j => bit mask.toNat (4 * k + j)) := by
  have hj : ∀ j, (r.line data mask (32 * (r.addr / 32 + k) + j)).isSome = bit mask.toNat (4 * k + j / 8) := fun j => by
    rw [CisReq.line, show (32 * (r.addr / 32 + k) + j - r.addr) / 8 = 4 * k + j / 8 by omega]
    split <;> simp_all
  rw [Bool.eq_iff_iff]
  simp only [hj, List.any_eq_true, List.mem_range]
  exact ⟨fun ⟨j, h, hb⟩ => ⟨j / 8, by omega, hb⟩, fun ⟨j, h, hb⟩ => ⟨8 * j, by omega, by simpa using hb⟩⟩

theorem perform_writeLine {s : State} {r : CisReq} {data : List Byte} {mask : Word} {poison : Byte}
    (hk : r.kind = .writeLine data mask poison) (ha : r.addr % 256 = 0) (hc : ∀ k, k < 8 → Clean s (r.addr / 32 + k)) :
    ∃ u, s.perform r = (u, r.answer true [] [] []) ∧
      (∀ a, memByte u a =
        if r.addr ≤ a ∧ a < r.addr + 256 ∧ bit mask.toNat ((a - r.addr) / 8) = true then byteAt data (a - r.addr)
        else memByte s a) ∧
      (∀ k, k < 8 → u.syndrome (r.addr / 32 + k) =
        if bit poison.toNat k && (List.range 4).any (fun j => bit mask.toNat (4 * k + j)) then synPoison else 0) := by
  obtain ⟨u, hu, hmem, hsyn⟩ := writeWords_clean r.info (r.line data mask) (fun w => bit poison.toNat (w - r.addr / 32)) 8 s
    (r.addr / 32) (fun v hv hvn => by simpa [Nat.add_sub_cancel' hv] using hc (v - r.addr / 32) (by omega))
  have hline : s.writeLine r.info r.addr (r.line data mask) (fun w => bit poison.toNat (w - r.addr / 32)) = (stOK, u) := by
    rw [State.writeLine, show r.addr / 256 * 8 = r.addr / 32 by omega, hu]
    exact congrArg _ (countPoison_ok u)
  refine ⟨u, ?_, fun a => ?_, fun k hk8 => ?_⟩
  · unfold CisReq.line at hline
    simp only [State.perform, hk, hline]
    rfl
  · rw [hmem]
    unfold CisReq.line
    grind
  · rw [hsyn, if_pos (by omega), any_line ha, Nat.add_sub_cancel_left]
    unfold writtenSyn
    grind

/-- The bytes of a narrow write, by their place in the word. -/
def CisReq.narrow (r : CisReq) (data : List Byte) (k : Nat) : Option Byte :=
  if r.addr % 32 ≤ k ∧ k < r.addr % 32 + data.length then some (byteAt data (k - r.addr % 32)) else none

theorem perform_writeNarrow {s : State} {r : CisReq} {data : List Byte} {mark : Bool}
    (hk : r.kind = .writeNarrow data mark) (hn : r.addr % 32 + data.length ≤ 32) (hc : Clean s (r.addr / 32)) :
    ∃ u, s.perform r = (u, r.answer true [] [] []) ∧
      (∀ a, memByte u a = if r.addr ≤ a ∧ a < r.addr + data.length then byteAt data (a - r.addr) else memByte s a) ∧
      u.syndrome (r.addr / 32) = (if mark then synPoison else 0) := by
  refine ⟨s.putWord (r.addr / 32) (merge (s.stored (r.addr / 32)) (r.narrow data)) (writtenSyn mark), ?_, fun a => ?_, ?_⟩
  · simp only [State.perform, hk, mergeWord_clean _ _ _ hc, countPoison_ok]
    rfl
  · rw [memByte_merge]
    unfold CisReq.narrow
    split
    · next ha =>
      have hin : (r.addr % 32 ≤ a % 32 ∧ a % 32 < r.addr % 32 + data.length) ↔ (r.addr ≤ a ∧ a < r.addr + data.length) := by
        omega
      simp only [hin]
      split
      · rw [show a % 32 - r.addr % 32 = a - r.addr by omega]
        rfl
      · rfl
    · rw [if_neg (by omega)]
  · rw [syndrome_putWord, if_pos rfl]
    rfl

theorem perform_readLine {s : State} {r : CisReq} (hk : r.kind = .readLine) (ha : r.addr % 256 = 0)
    (hc : ∀ k, k < 8 → Clean s (r.addr / 32 + k)) :
    ∃ ue, s.perform r =
      (s, r.answer false ((List.range 256).map (fun k => memByte s (r.addr + k))) (List.replicate 8 false) ue) := by
  simp only [State.perform, hk, readLine_clean _ ha hc]
  exact ⟨_, rfl⟩

theorem drop_take_stored (s : State) (w : Nat) {o n : Nat} (h : o + n ≤ 32) :
    ((s.stored w).drop o).take n = (List.range n).map (fun k => memByte s (32 * w + o + k)) := by
  apply List.ext_getElem <;> simp [State.stored, memByte]
  · omega
  · grind

theorem perform_readNarrow {s : State} {r : CisReq} {n : Nat} (hk : r.kind = .readNarrow n) (hn : r.addr % 32 + n ≤ 32)
    (hc : Clean s (r.addr / 32)) :
    ∃ ue, s.perform r = (s, r.answer false ((List.range n).map (fun k => memByte s (r.addr + k))) [false] ue) := by
  simp only [State.perform, hk, State.readNarrow, readWord_clean _ hc, countPoison_ok, drop_take_stored s _ hn,
    Nat.div_add_mod]
  exact ⟨_, rfl⟩

/-- An open slot whose granted access gives `a` and leaves `u`. -/
theorem bankSlot_performed {s u : State} {tr b : Nat} {r : CisReq} {a : CisResp} (h : SlotOpen s tr b)
    (hg : s.grant tr b = some r) (hp : (s.atGrant tr b r).perform r = (u, a)) :
    SameMemory u (bankSlot tr b s) ∧ (bankSlot tr b s).cis.resps = s.cis.resps ++ [a] := by
  have hk := perform_keepsQueues (s.atGrant tr b r) r
  rw [hp] at hk
  obtain ⟨-, -, hresps⟩ := hk
  rw [bankSlot_grant h hg, hp]
  exact ⟨⟨rfl, rfl⟩, congrArg (· ++ [a]) hresps⟩

theorem memByte_of_sameMemory {s u : State} (h : SameMemory s u) (a : Nat) : memByte u a = memByte s a := by
  rw [memByte, h.1, memByte]

theorem syndrome_of_sameMemory {s u : State} (h : SameMemory s u) (w : Nat) : u.syndrome w = s.syndrome w := by
  rw [State.syndrome, h.2, State.syndrome]

theorem bankSlotMovesTheData : BankSlotMovesTheDataRule := by
  intro tr b s r hopen hg
  simp only [exec_bankSlot]
  refine ⟨fun data mask poison hk ha hc => ?_, fun data mark hk hn hc => ?_, fun hk ha hc => ?_, fun n hk hn hc => ?_⟩
  · obtain ⟨u, hu, hmem, hsyn⟩ := perform_writeLine (s := s.atGrant tr b r) hk ha hc
    obtain ⟨hsame, hresps⟩ := bankSlot_performed hopen hg hu
    exact ⟨_, rfl, fun a => (memByte_of_sameMemory hsame a).trans (hmem a),
      fun k hk => (syndrome_of_sameMemory hsame _).trans (hsyn k hk), hresps⟩
  · obtain ⟨u, hu, hmem, hsyn⟩ := perform_writeNarrow (s := s.atGrant tr b r) hk hn hc
    obtain ⟨hsame, hresps⟩ := bankSlot_performed hopen hg hu
    exact ⟨_, rfl, fun a => (memByte_of_sameMemory hsame a).trans (hmem a), (syndrome_of_sameMemory hsame _).trans hsyn, hresps⟩
  · obtain ⟨ue, hu⟩ := perform_readLine (s := s.atGrant tr b r) hk ha hc
    obtain ⟨hsame, hresps⟩ := bankSlot_performed hopen hg hu
    exact ⟨_, ue, rfl, hsame, hresps⟩
  · obtain ⟨ue, hu⟩ := perform_readNarrow (s := s.atGrant tr b r) hk hn hc
    obtain ⟨hsame, hresps⟩ := bankSlot_performed hopen hg hu
    exact ⟨_, ue, rfl, hsame, hresps⟩

/-- Settles O17: the grant by the round-robin searches, and the bytes that the granted access moves. -/
theorem bankSlotsGrantAndMove : Obligations.BankSlotsGrantAndMove := ⟨bankSlotGrantsRoundRobin, bankSlotMovesTheData⟩

end Sys2Proof.Machine

end

section

namespace Sys2Proof.Machine

/-! ## Tiles alone differ -/

theorem onlyTile_setWren (s : State) (t : Nat) (f : Wren → Wren) : OnlyTile t s (s.setWren t f) := onlyTile_setTile ..
theorem onlyTile_setArr (s : State) (t : Nat) (f : Arr → Arr) : OnlyTile t s (s.setArr t f) := onlyTile_setTile ..
theorem onlyTile_setVec (s : State) (t : Nat) (f : Vec → Vec) : OnlyTile t s (s.setVec t f) := onlyTile_setTile ..

theorem onlyTile_landLoads (s : State) (t : Nat) : OnlyTile t s (s.landLoads t) := by
  unfold State.landLoads State.raiseVec
  exact onlyTile_trans (onlyTile_trans (onlyTile_setVec ..) (onlyTile_setVec ..)) (onlyTile_setWren ..)

/-- Loads that land change the Vector Engine and raise flags in the Wren. -/
theorem tile_landLoads (s : State) (t : Nat) :
    ((s.landLoads t).tile t).arr = (s.tile t).arr ∧
      ∃ fl, ((s.landLoads t).tile t).wren = { (s.tile t).wren with raised := fl } := by
  unfold State.landLoads State.raiseVec
  simp

/-! ## The drains of an array (R560) -/

theorem biased_eq_true {i : ArrInstr} : i.biased = true ↔ Biased i := by
  simp only [ArrInstr.biased, Biased, List.all_eq_true, Bool.or_eq_true, decide_eq_true_eq]
  grind

/-- One drain of an array in `State.formDrains`: it forms its outputs where its bias has come. -/
def State.formNext (t : Nat) (a : State × List Drain) (d : Drain) : State × List Drain :=
  match d.wait with
  | none => (a.1, a.2 ++ [d])
  | some i => if i.biased then ((a.1.formDrain t i d).1, a.2 ++ [(a.1.formDrain t i d).2]) else (a.1, a.2 ++ [d])

theorem formDrains_eq (s : State) (t : Nat) :
    s.formDrains t = (((s.tile t).arr.drains.foldl (State.formNext t) (s, [])).1).setArr t
      (fun a => { a with drains := ((s.tile t).arr.drains.foldl (State.formNext t) (s, [])).2 }) := rfl

/-- Drains that wait for their bias wait on. -/
theorem foldl_formNext_wait (t : Nat) {ds : List Drain} (h : ∀ d ∈ ds, ∀ i, d.wait = some i → ¬ Biased i) (s : State)
    (l : List Drain) : ds.foldl (State.formNext t) (s, l) = (s, l ++ ds) := by
  induction ds generalizing l with
  | nil => simp
  | cons d ds ih =>
    have hd : State.formNext t (s, l) d = (s, l ++ [d]) := by
      unfold State.formNext
      split
      · rfl
      · next i hi => rw [if_neg (fun hb => h d List.mem_cons_self i hi (biased_eq_true.1 hb))]
    rw [List.foldl_cons, hd, ih (fun e he => h e (List.mem_cons_of_mem _ he)), List.append_assoc]
    rfl

theorem formDrains_wait {s : State} {t : Nat} (h : DrainsWait (s.tile t).arr) :
    s.formDrains t = s.setArr t (fun a => { a with drains := (s.tile t).arr.drains }) := by
  rw [formDrains_eq, foldl_formNext_wait t h]
  rfl

/-- One drain whose bias has come forms its outputs, and the others wait on. -/
theorem formDrains_one {s : State} {t : Nat} {pre post : List Drain} {d : Drain} {i : ArrInstr}
    (hds : (s.tile t).arr.drains = pre ++ d :: post) (hwait : ∀ e ∈ pre ++ post, ∀ j, e.wait = some j → ¬ Biased j)
    (hd : d.wait = some i) (hb : Biased i) :
    s.formDrains t = (s.formDrain t i d).1.setArr t (fun a => { a with drains := pre ++ (s.formDrain t i d).2 :: post }) := by
  have hform : State.formNext t (s, pre) d = ((s.formDrain t i d).1, pre ++ [(s.formDrain t i d).2]) := by
    rw [State.formNext, hd]
    exact if_pos (biased_eq_true.2 hb)
  rw [formDrains_eq, hds, List.foldl_append, foldl_formNext_wait t (fun e he => hwait e (List.mem_append_left _ he)),
    List.nil_append, List.foldl_cons, hform, foldl_formNext_wait t (fun e he => hwait e (List.mem_append_right _ he)),
    List.append_assoc]
  rfl

/-! ## What a drain forms (R174, R177, R189) -/

theorem fl_resTable {α : Type} (f : Nat → Res α) (n : Nat) : (resTable f n).fl = flagsOf (fun _ => true) f n := by
  simp [resTable, flagsOf, List.foldl_map]

theorem out_resTable {α : Type} (f : Nat → Res α) (n : Nat) : (resTable f n).out = (List.range n).map (fun k => (f k).out) := by
  simp [resTable]

theorem length_leBytes (n v : Nat) : (leBytes n v).length = n := by
  induction n generalizing v with
  | zero => rfl
  | succ n ih => simp [leBytes, ih]

/-- A format other than INT4 has whole bytes. -/
theorem fmtBits_whole {f : Nat} (h : f ≠ fInt4) : fmtBits f = 8 * (fmtBits f / 8) := by
  match f, h with
  | 1, _ | 2, _ | 3, _ | 4, _ | 5, _ | 6, _ | 7, _ | 8, _ => decide
  | k + 9, _ => simp [fmtBits]

theorem length_packElems_whole {f : Nat} (h : f ≠ fInt4) (l : List Nat) :
    (packElems f l).length = l.length * (fmtBits f / 8) := by
  induction l with
  | nil => simp [packElems]
  | cons a l ih =>
    cases l with
    | nil => simp [packElems, h, length_leBytes]
    | cons b l =>
      rw [packElems, if_neg h, List.length_append, ih, length_leBytes]
      simp only [List.length_cons]
      ring

theorem length_packElems_int4 (n : Nat) (l : List Nat) (hl : l.length = 2 * n) : (packElems fInt4 l).length = n := by
  induction n generalizing l with
  | zero => simp_all [List.length_eq_zero_iff, packElems]
  | succ n ih =>
    match l, hl with
    | a :: b :: l, hl => simp [packElems, ih l (by simpa [Nat.mul_succ] using hl)]

/-- The bytes of an even number of packed elements. -/
theorem length_packElems (f n : Nat) (l : List Nat) (hl : l.length = 2 * n) :
    (packElems f l).length = elemBytes f (2 * n) := by
  rw [elemBytes]
  by_cases hf : f = fInt4
  · subst hf
    rw [length_packElems_int4 n l hl, show fmtBits fInt4 = 4 from rfl]
    omega
  · rw [length_packElems_whole hf, hl]
    have hB := fmtBits_whole hf
    generalize fmtBits f / 8 = m at *
    rw [hB, show 2 * n * (8 * m) = 8 * (2 * n * m) by ring, Nat.mul_div_cancel_left _ (by decide)]

/-- The request of line `k` of `n` that `State.postLines` presents. -/
def State.lineReq (s : State) (t : Fin 16) (who : Requester) (ctx h o : Nat) (kind : Nat → AccessKind) (k : Nat) : CisReq :=
  { id := s.nextId + k, tile := t, who := who, addr := s.phys ctx h (o + 256 * k), kind := kind k, ctx := ctx, handle := h,
    label := (s.act.desc ctx h).label, arrive := s.arrival t.val (s.phys ctx h (o + 256 * k)) }

theorem postLines_eq (s : State) (t : Fin 16) (who : Requester) (ctx h o : Nat) (kind : Nat → AccessKind) (n : Nat) :
    s.postLines t.val who ctx h o kind n = { s with
      nextId := s.nextId + n
      cis := { s.cis with reqs := s.cis.reqs ++ (List.range n).map (s.lineReq t who ctx h o kind) } } := by
  induction n with
  | zero => simp [State.postLines]
  | succ n ih =>
    unfold State.postLines at ih ⊢
    rw [List.range_succ, List.foldl_append, ih]
    simp [State.post, State.lineReq, State.phys, State.arrival, Nat.add_assoc]

end Sys2Proof.Machine

end

section

namespace Sys2Proof.Machine

/-! ## What a drain carries (R189, R560) -/

/-- Nothing but the tiles, the responses and what the instruction presents stands between `s` and `u`. -/
def SameRequests (s u : State) : Prop :=
  u.nextId = s.nextId ∧ u.cis.reqs = s.cis.reqs ∧ u.time = s.time ∧ u.fuse = s.fuse ∧ u.act = s.act

theorem formDrain_dest {u : State} {t : Fin 16} {i : ArrInstr} (d : Drain) (h : ddDest i.xd0 = true) :
    u.formDrain t.val i d = (u, { d with
      wait := none
      flags := ((u.tile t.val).arr.drained i).fl
      values := ((u.tile t.val).arr.drained i).out.map (BitVec.ofNat 32)
      rowMarks := (List.range 128).map (fun r => (List.range 128).any ((u.tile t.val).arr.cellMarked i r)) }) := by
  unfold State.formDrain
  exact if_pos h

theorem formDrain_cistern {u : State} {t : Fin 16} {i : ArrInstr} (d : Drain) (h : ddDest i.xd0 = false) :
    u.formDrain t.val i d = (u.drainOut t.val (u.tile t.val).arr i ((u.tile t.val).arr.drained i).out, { d with
      wait := none
      flags := ((u.tile t.val).arr.drained i).fl
      ids := u.nextIds (elemBytes (ddFmt i.xd0) (i.size * i.size) / 256) }) := by
  unfold State.formDrain
  exact if_neg (by simp [h])

/-- The output of cell `c` of instruction `i` in an array (R174, R177). -/
def Arr.output (a : Arr) (i : ArrInstr) (c : Nat) : Res Nat :=
  let scale := fun (lo : Nat) => if i.op = opDTILE then Val.one else val32 (BitVec.ofNat 32 (bits i.xd1.toNat lo 32))
  let v := ((scale 0).mul (scale 32)).mul (a.cellVal i c)
  elemStore (ddFmt i.xd0) (ddSigned i.xd0)
    (if ddBias i.xd0 then v.add (val32 (wordAt (i.part .bias) (4 * (c % i.size)))) else v)

theorem drained_eq (a : Arr) (i : ArrInstr) : a.drained i = resTable (a.output i) (i.size * i.size) := by
  refine congrArg (fun f => resTable f (i.size * i.size)) (funext fun c => ?_)
  unfold Arr.output drainCell
  by_cases hb : ddBias i.xd0 = true <;> simp [hb]

theorem length_outputs (a : Arr) (i : ArrInstr) :
    (packElems (ddFmt i.xd0) ((List.range (i.size * i.size)).map (fun c => (a.output i c).out))).length =
      elemBytes (ddFmt i.xd0) (i.size * i.size) := by
  obtain ⟨n, hn⟩ : ∃ n, i.size * i.size = 2 * n := by
    unfold ArrInstr.size
    split
    · exact ⟨128, rfl⟩
    · exact ⟨8192, rfl⟩
  rw [hn]
  exact length_packElems _ n _ (by simp)

theorem lineReq_congr {s u : State} (h : SameRequests s u) (t : Fin 16) (who : Requester) (ctx hd o : Nat)
    (kind : Nat → AccessKind) : u.lineReq t who ctx hd o kind = s.lineReq t who ctx hd o kind := by
  obtain ⟨hnext, -, htime, hfuse, hact⟩ := h
  funext k
  simp only [State.lineReq, State.phys, State.arrival, hnext, htime, hfuse, hact]

/-- A drain that forms its outputs carries the cells of its instruction. -/
theorem carriesCells_formDrain {s s' u : State} {t : Fin 16} {i : ArrInstr} {d : Drain} (hu : SameRequests s u)
    (hacc : (s'.tile t.val).arr.acc = (u.tile t.val).arr.acc) (hdacc : (s'.tile t.val).arr.dacc = (u.tile t.val).arr.dacc)
    (hreqs : s'.cis.reqs = (u.formDrain t.val i d).1.cis.reqs) (hid : s'.nextId = (u.formDrain t.val i d).1.nextId)
    (hd : (d.long, d.acc) = (decide (i.op = opDTILE), i.acc))
    (hvreg : d.vreg = if ddDest i.xd0 then some (ddVreg i.xd0) else none) :
    CarriesCells t s s' i (u.formDrain t.val i d).2 := by
  have hline := lineReq_congr hu t
  obtain ⟨hnext, hreq, -⟩ := hu
  have hout : (u.tile t.val).arr.output i = (s'.tile t.val).arr.output i := by
    funext c
    simp only [Arr.output, Arr.cellVal, hacc, hdacc]
  have hflags := fl_resTable ((s'.tile t.val).arr.output i) (i.size * i.size)
  by_cases hdest : ddDest i.xd0 = true
  · rw [formDrain_dest d hdest] at hreqs hid ⊢
    rw [drained_eq, hout]
    rw [if_pos hdest] at hvreg
    refine ⟨rfl, hd, hflags, fun _ => ⟨hvreg, hreqs.trans hreq, hid.trans hnext, ?_⟩, fun h => ?_⟩
    · simp only [out_resTable, List.map_map]
      rfl
    · rw [hdest] at h; contradiction
  · have hcis : ddDest i.xd0 = false := by simpa using hdest
    rw [formDrain_cistern d hcis, drained_eq, hout] at hreqs ⊢
    rw [if_neg hdest] at hvreg
    have hlen := length_outputs (s'.tile t.val).arr i
    refine ⟨rfl, hd, hflags, fun h => absurd h hdest, fun _ => ⟨hvreg, ?_, (u.tile t.val).arr.linePoison i, ?_⟩⟩
    · show u.nextIds _ = _
      rw [State.nextIds, hnext, ← hlen]
      rfl
    · rw [hreqs, State.drainOut, postLines_eq, out_resTable]
      simp only [hline, hreq]
      rfl

/-! ## A response reaches its requester (R88, R179, R229 to R231) -/

/-- The die without the response. -/
def State.withoutResp (s : State) (r : CisResp) : State :=
  { s with cis := { s.cis with resps := s.cis.resps.filter (fun x => decide (x.id ≠ r.id)) } }

theorem onlyTile_takeResp (s : State) (r : CisResp) : OnlyTile r.tile.val (s.withoutResp r) (s.takeResp r) :=
  onlyTile_setWren ..

@[simp] theorem tile_takeResp_wren (s : State) (r : CisResp) : ((s.takeResp r).tile r.tile.val).wren =
    { (s.tile r.tile.val).wren with data := worstData (s.tile r.tile.val).wren.data r.status } :=
  State.tile_setWren_wren (s.withoutResp r) ..

@[simp] theorem tile_takeResp_arr (s : State) (r : CisResp) :
    ((s.takeResp r).tile r.tile.val).arr = (s.tile r.tile.val).arr := State.tile_setWren_arr (s.withoutResp r) ..

@[simp] theorem tile_takeResp_vec (s : State) (r : CisResp) :
    ((s.takeResp r).tile r.tile.val).vec = (s.tile r.tile.val).vec := State.tile_setWren_vec (s.withoutResp r) ..

/-- A drain that takes the lines of its bias. -/
def Drain.take (d : Drain) (r : CisResp) : Drain := { d with wait := d.wait.map (fun i => i.take r) }

/-- The tile has taken its narrow load and the operand lines of the response; its drains have not formed yet. -/
def State.taken (s : State) (r : CisResp) : State :=
  ((s.takeResp r).setWren r.tile.val (fun w => w.takeLoad r)).setArr r.tile.val (fun a => { a with
    run := a.run.map (fun i => i.take r), pend := a.pend.map (fun i => i.take r)
    drains := a.drains.map (fun d : Drain => d.take r) })

/-- The vector loads of the tile take the response, and those that have come land. -/
def State.landed (s : State) (r : CisResp) : State :=
  (s.setVec r.tile.val (fun v => { v with
    loads := v.loads.map (fun l => { l with lines := l.lines.map (fun x => x.take r) }) })).landLoads r.tile.val

theorem onlyTile_taken (s : State) (r : CisResp) : OnlyTile r.tile.val (s.withoutResp r) (s.taken r) :=
  onlyTile_trans (onlyTile_trans (onlyTile_takeResp s r) (onlyTile_setWren ..)) (onlyTile_setArr ..)

theorem onlyTile_landed (s : State) (r : CisResp) : OnlyTile r.tile.val s (s.landed r) :=
  onlyTile_trans (onlyTile_setVec ..) (onlyTile_landLoads ..)

theorem wren_taken (s : State) (r : CisResp) : wrenOf (s.taken r) r.tile =
    ({ wrenOf s r.tile with data := worstData (wrenOf s r.tile).data r.status } : Wren).takeLoad r := by
  simp [State.taken, wrenOf]

theorem arr_taken (s : State) (r : CisResp) : ((s.taken r).tile r.tile.val).arr =
    { (s.tile r.tile.val).arr with
      run := (s.tile r.tile.val).arr.run.map (fun i => i.take r), pend := (s.tile r.tile.val).arr.pend.map (fun i => i.take r)
      drains := (s.tile r.tile.val).arr.drains.map (fun d : Drain => d.take r) } := by
  simp [State.taken]

theorem tile_landed (s : State) (r : CisResp) : ((s.landed r).tile r.tile.val).arr = (s.tile r.tile.val).arr ∧
    ∃ fl, wrenOf (s.landed r) r.tile = { wrenOf s r.tile with raised := fl } := by
  obtain ⟨harr, fl, hw⟩ := tile_landLoads (s.setVec r.tile.val (fun v => { v with
    loads := v.loads.map (fun l => { l with lines := l.lines.map (fun x => x.take r) }) })) r.tile.val
  exact ⟨harr.trans (by simp), fl, hw.trans (by simp [wrenOf])⟩

theorem exec_readReturn (id : Nat) (s : State) : exec (.cisternReadReturn id) s = .next (cisternReadReturn id s) := rfl

theorem exec_writeAck (id : Nat) (s : State) : exec (.cisternWriteAck id) s = .next (cisternWriteAck id s) := rfl

theorem exec_cisternReadReturn {s : State} {r : CisResp} (hs : s.silent = false) (hr : s.resp r.id = some r)
    (hw : r.write = false) (hf : ∀ f ∈ (wrenOf s r.tile).fills, f.id ≠ r.id) :
    exec (.cisternReadReturn r.id) s = .next (((s.taken r).formDrains r.tile.val).landed r) := by
  have hfills : (s.tile r.tile.val).wren.fills.any (fun f => decide (f.id = r.id)) = false := by
    simpa [wrenOf] using hf
  have hstep : cisternReadReturn r.id s = ((s.taken r).formDrains r.tile.val).landed r := by
    unfold cisternReadReturn
    rw [hr]
    dsimp only
    exact if_neg (by simp [hs, hw, hfills])
  rw [exec_readReturn, hstep]

/-- Where no drain's bias has come, the tile takes what the response brings and no drain forms. -/
theorem exec_cisternReadReturn_wait {s : State} {r : CisResp} (hs : s.silent = false) (hr : s.resp r.id = some r)
    (hw : r.write = false) (hf : ∀ f ∈ (wrenOf s r.tile).fills, f.id ≠ r.id)
    (hwait : ∀ d ∈ (s.tile r.tile.val).arr.drains, ∀ i, d.wait = some i → ¬ Biased (i.take r)) :
    ∃ s', exec (.cisternReadReturn r.id) s = .next s' ∧ (s'.tile r.tile.val).arr = ((s.taken r).tile r.tile.val).arr ∧
      (∃ fl, wrenOf s' r.tile = { wrenOf (s.taken r) r.tile with raised := fl }) ∧
      OnlyTile r.tile.val (s.withoutResp r) s' := by
  have hdrains : DrainsWait ((s.taken r).tile r.tile.val).arr := by
    rw [arr_taken]
    intro d hd i hi
    obtain ⟨e, he, rfl⟩ := List.mem_map.1 hd
    obtain ⟨j, hj, rfl⟩ := Option.map_eq_some_iff.1 hi
    exact hwait e he j hj
  rw [exec_cisternReadReturn hs hr hw hf, formDrains_wait hdrains]
  obtain ⟨harr, fl, hwren⟩ := tile_landed ((s.taken r).setArr r.tile.val (fun a => { a with
    drains := ((s.taken r).tile r.tile.val).arr.drains })) r
  refine ⟨_, rfl, harr.trans (by simp), ⟨fl, hwren.trans (by simp [wrenOf])⟩, ?_⟩
  exact onlyTile_trans (onlyTile_trans (onlyTile_taken s r) (onlyTile_setArr ..)) (onlyTile_landed ..)

theorem writeAck_lands {s : State} {r : CisResp} (hs : s.silent = false) (hr : s.resp r.id = some r) (hw : r.write = true) :
    ∃ s', exec (.cisternWriteAck r.id) s = .next s' ∧
      wrenOf s' r.tile = { wrenOf s r.tile with
        stores := (wrenOf s r.tile).stores.filter (fun e => decide (e.id ≠ r.id))
        vstores := (wrenOf s r.tile).vstores.filter (fun e => decide (e ≠ r.id))
        data := worstData (wrenOf s r.tile).data r.status } ∧
      (s'.tile r.tile.val).arr = { (s.tile r.tile.val).arr with
        drains := (s.tile r.tile.val).arr.drains.map (fun d => { d with ids := d.ids.filter (fun e => decide (e ≠ r.id)) }) } ∧
      (s'.tile r.tile.val).vec = (s.tile r.tile.val).vec ∧ OnlyTile r.tile.val (s.withoutResp r) s' := by
  have hexec : exec (.cisternWriteAck r.id) s = .next (((s.takeResp r).setWren r.tile.val (fun w => { w with
      stores := w.stores.filter (fun e => decide (e.id ≠ r.id))
      vstores := w.vstores.filter (fun e => decide (e ≠ r.id)) })).setArr r.tile.val (fun a => { a with
        drains := a.drains.map (fun d => { d with ids := d.ids.filter (fun e => decide (e ≠ r.id)) }) })) := by
    have hgo : ¬(s.silent || !r.write) = true := by simp [hs, hw]
    rw [exec_writeAck, cisternWriteAck, hr]
    dsimp only
    rw [if_neg hgo]
  refine ⟨_, hexec, ?_, ?_, ?_,
    onlyTile_trans (onlyTile_trans (onlyTile_takeResp s r) (onlyTile_setWren ..)) (onlyTile_setArr ..)⟩
  · simp [wrenOf]
  · simp
  · simp

theorem readX_setX (w : Wren) (rd : Nat) (v : DWord) (mark : Bool) (n : Nat) :
    readX (w.setX rd v mark).x n = if n = rd ∧ n ≠ 0 then v else readX w.x n := by
  unfold readX Wren.setX
  grind [spGet_spSet]

theorem marked_setX (w : Wren) (rd : Nat) (v : DWord) (mark : Bool) (n : Nat) :
    (w.setX rd v mark).marked n = if n = rd ∧ n ≠ 0 then mark else w.marked n := by
  unfold Wren.marked Wren.setX
  grind [spGet_spSet]

theorem setX_loads (w : Wren) (rd : Nat) (v : DWord) (mark : Bool) :
    (w.setX rd v mark).loads = w.loads ∧ (w.setX rd v mark).data = w.data := by
  unfold Wren.setX
  split <;> exact ⟨rfl, rfl⟩

/-- The die with other requests to the Cistern. -/
def State.withRequests (s : State) (n : Nat) (l : List CisReq) : State :=
  { s with
    nextId := n
    cis := { s.cis with reqs := l } }

theorem onlyTile_withRequests {t : Nat} {a b : State} (h : OnlyTile t a b) (n : Nat) (l : List CisReq) :
    OnlyTile t (a.withRequests n l) (b.withRequests n l) :=
  ⟨congrArg (fun x : State => x.withRequests n l) h.1, h.2⟩

/-- A drain that forms changes no more than what the die presents to the Cistern. -/
theorem formDrain_withRequests (u : State) (t : Fin 16) (i : ArrInstr) (d : Drain) :
    ∃ n l, (u.formDrain t.val i d).1 = u.withRequests n l := by
  by_cases h : ddDest i.xd0 = true
  · rw [formDrain_dest d h]
    exact ⟨u.nextId, u.cis.reqs, rfl⟩
  · rw [formDrain_cistern d (by simpa using h), State.drainOut, postLines_eq]
    exact ⟨_, _, rfl⟩

theorem sameRequests_taken (s : State) (r : CisResp) : SameRequests s (s.taken r) := ⟨rfl, rfl, rfl, rfl, rfl⟩

/-- The last line of its bias lets a drain form its outputs (R560). -/
theorem drain_lands {s : State} {r : CisResp} {pre post : List Drain} {i : ArrInstr} (hs : s.silent = false)
    (hr : s.resp r.id = some r) (hw : r.write = false) (hf : ∀ f ∈ (wrenOf s r.tile).fills, f.id ≠ r.id)
    (hwait : ∀ d ∈ pre ++ post, ∀ i, d.wait = some i → ¬ Biased (i.take r)) (hb : Biased (i.take r))
    (hds : (s.tile r.tile.val).arr.drains = pre ++ i.newDrain :: post) :
    ∃ s' d, exec (.cisternReadReturn r.id) s = .next s' ∧
      (s'.tile r.tile.val).arr.drains =
        pre.map (fun d : Drain => d.take r) ++ d :: post.map (fun d : Drain => d.take r) ∧
      CarriesCells r.tile s s' (i.take r) d ∧
      OnlyTile r.tile.val ((s.withoutResp r).withRequests s'.nextId s'.cis.reqs) s' := by
  have hdrains : ((s.taken r).tile r.tile.val).arr.drains =
      pre.map (fun d : Drain => d.take r) ++ i.newDrain.take r :: post.map (fun d : Drain => d.take r) := by
    rw [arr_taken, hds, List.map_append, List.map_cons]
  have hothers : ∀ e ∈ pre.map (fun d : Drain => d.take r) ++ post.map (fun d : Drain => d.take r),
      ∀ j, e.wait = some j → ¬ Biased j := by
    intro e he j hj
    rw [← List.map_append] at he
    obtain ⟨d, hd, rfl⟩ := List.mem_map.1 he
    obtain ⟨k, hk, rfl⟩ := Option.map_eq_some_iff.1 hj
    exact hwait d hd k hk
  have hexec := exec_cisternReadReturn hs hr hw hf
  rw [formDrains_one hdrains hothers rfl hb] at hexec
  generalize hd : i.newDrain.take r = d at hexec
  obtain ⟨n, l, hform⟩ := formDrain_withRequests (s.taken r) r.tile (i.take r) d
  generalize hf' : (s.taken r).formDrain r.tile.val (i.take r) d = f at *
  generalize hg : (fun a : Arr => { a with
    drains := pre.map (fun d : Drain => d.take r) ++ f.2 :: post.map (fun d : Drain => d.take r) }) = g
    at hexec
  have honly : OnlyTile r.tile.val f.1 ((f.1.setArr r.tile.val g).landed r) :=
    onlyTile_trans (onlyTile_setArr ..) (onlyTile_landed ..)
  have harr : (((f.1.setArr r.tile.val g).landed r).tile r.tile.val).arr = g (f.1.tile r.tile.val).arr :=
    (tile_landed _ r).1.trans (State.tile_setArr_arr ..)
  generalize (f.1.setArr r.tile.val g).landed r = s' at *
  have htile : f.1.tile r.tile.val = (s.taken r).tile r.tile.val := by rw [hform]; rfl
  have hid : s'.nextId = f.1.nextId := (congrArg (fun x : State => x.nextId) honly.1 :)
  have hreqs : s'.cis.reqs = f.1.cis.reqs := (congrArg (fun x : State => x.cis.reqs) honly.1 :)
  refine ⟨s', f.2, hexec, by rw [harr, ← hg], ?_, ?_⟩
  · rw [← hf'] at hid hreqs ⊢
    refine carriesCells_formDrain (sameRequests_taken s r) ?_ ?_ hreqs hid (by rw [← hd]; rfl) (by rw [← hd]; rfl)
    · rw [harr, ← hg, htile]
    · rw [harr, ← hg, htile]
  · have hout := onlyTile_withRequests (onlyTile_taken s r) n l
    rw [← hform] at hout
    rw [hid, hreqs, show f.1.nextId = n by rw [hform]; rfl, show f.1.cis.reqs = l by rw [hform]; rfl]
    exact onlyTile_trans hout honly

/-- Settles O19: by what each requester of a tile takes of a response. -/
theorem cisternResponsesLand : Obligations.CisternResponsesLand := by
  intro s r hs hr
  dsimp only
  refine ⟨writeAck_lands hs hr, fun l hw hf hwait hl => ?_, fun i l hw hf hwait hi hl hid => ?_,
    fun pre post i hw hf hwait hb hds => ?_⟩
  · obtain ⟨s', hexec, -, ⟨fl, hwren⟩, honly⟩ := exec_cisternReadReturn_wait hs hr hw hf hwait
    have hload : ({ wrenOf s r.tile with data := worstData (wrenOf s r.tile).data r.status } : Wren).takeLoad r =
        ({ wrenOf s r.tile with
          data := worstData (wrenOf s r.tile).data r.status
          loads := (wrenOf s r.tile).loads.filter (fun l => decide (l.id ≠ r.id)) } : Wren).setX l.rd
            (if r.marks.any id then 0 else loadValue l.size l.sx r.data) (r.marks.any id) := by
      unfold Wren.takeLoad
      dsimp only
      rw [hl]
      rfl
    rw [wren_taken, hload] at hwren
    obtain ⟨hloads, hdata⟩ := setX_loads ({ wrenOf s r.tile with
      data := worstData (wrenOf s r.tile).data r.status
      loads := (wrenOf s r.tile).loads.filter (fun l => decide (l.id ≠ r.id)) } : Wren) l.rd
        (if r.marks.any id then 0 else loadValue l.size l.sx r.data) (r.marks.any id)
    refine ⟨s', hexec, fun n => ?_, fun n => ?_, ?_, ?_, honly⟩ <;> rw [hwren]
    · exact readX_setX ..
    · exact marked_setX ..
    · exact hloads
    · exact hdata
  · obtain ⟨s', hexec, harr, -, honly⟩ := exec_cisternReadReturn_wait hs hr hw hf hwait
    rw [arr_taken] at harr
    refine ⟨s', i.take r, hexec, fun h => by rw [harr, h]; rfl, fun h => by rw [harr, h]; rfl, rfl, rfl, honly⟩
  · exact drain_lands hs hr hw hf hwait hb hds

end Sys2Proof.Machine

end

section

namespace Sys2Proof.Machine

/-! ## A row repair whose command has read poison (R123, R132) -/

/-- A REPAIR_ROW in flight whose dispatch has read poison. -/
def poisonedRepair : Cmd :=
  { origin := .queue 0, tag := 0, notify := false, ctx := 0, cls := 0, order := 0, serial := 0, wave := 0, opcode := 0x3D,
    flags := 0, data := stPoison, pins := [], job := .repair false 0 0 0 }

/-- The bank of that command, whose row has been sensed: the repair waits for its reserved slot. -/
def sensedBank : Bank := { Bank.reset with restart := true, repair := some { slot := 0, row := 0, spare := 0 } }

/-- Tract 0 is ON, and the repair of row 0 of its bank 0 is to be installed. -/
def beforeInstall : State :=
  { State.reset with
    rst := { Rst.reset with held := none, fuseDone := true }
    cis := { Cis.reset with tract := [(0, 3)], banks := [(0, sensedBank)] }
    pmh := { Pmh.reset with cmds := [(0, some poisonedRepair)] } }

/-- The repair is installed, and its command ends with the status of the poison that it read. -/
theorem status_beforeInstall :
    (reservedSlot 0 0 beforeInstall).pmh.compl.map (fun x => x.status) = [stPoison] := by decide

/-- Refutes O21: its repair clause asks that the command end with status OK whatever it holds, and a command whose dispatch
has read poison ends with DATA_POISON, as R123 has it and `Finished` says. The clause does not ask that the command has
read none: that of `beforeInstall` has. -/
theorem not_reservedSlotsRefreshAndRepair : ¬ Obligations.ReservedSlotsRefreshAndRepair := by
  intro h
  obtain ⟨-, hinstall⟩ := h 0 0 beforeInstall (by decide) (by decide) (by decide) (by decide)
  have halone : ∀ e ∈ beforeInstall.flying, e.1 ≠ 0 → ∀ restore row, e.2.job ≠ .repair restore 0 0 row := by
    intro e he hne
    obtain rfl : e = (0, poisonedRepair) := List.mem_singleton.1 he
    exact absurd rfl hne
  obtain ⟨s', x, hexec, -, -, -, -, -, hcompl, hx, -⟩ := hinstall { slot := 0, row := 0, spare := 0 } poisonedRepair 0 rfl
    halone (by decide) (by decide) rfl rfl
  have hs' : reservedSlot 0 0 beforeInstall = s' := Host.Outcome.next.inj hexec
  have hstatus : s'.pmh.compl.map (fun x => x.status) = [stPoison] := hs' ▸ status_beforeInstall
  rw [hcompl] at hstatus
  simp only [Prod.mk.injEq] at hx
  obtain ⟨-, -, -, hok, -⟩ := hx
  have hends : [x.status] = [stPoison] := hstatus
  rw [hok] at hends
  exact absurd hends (by decide)

end Sys2Proof.Machine

end

section

namespace Sys2Proof.Machine

/-! ## What an access leaves alone -/

section

variable {s u : State} (h : OnlyAccesses s u)
include h

theorem pmh_of_onlyAccesses : u.pmh = s.pmh := (congrArg (fun x : State => x.pmh) h.2 :)
theorem queues_of_onlyAccesses : u.queues = s.queues := (congrArg (fun x : State => x.queues) h.2 :)
theorem act_of_onlyAccesses : u.act = s.act := (congrArg (fun x : State => x.act) h.2 :)
theorem shd_of_onlyAccesses : u.shd = s.shd := (congrArg (fun x : State => x.shd) h.2 :)
theorem cfg_of_onlyAccesses : u.cfg = s.cfg := (congrArg (fun x : State => x.cfg) h.2 :)
theorem srv_of_onlyAccesses : u.srv = s.srv := (congrArg (fun x : State => x.srv) h.2 :)
theorem tract_of_onlyAccesses : u.cis.tract = s.cis.tract := (congrArg (fun x : State => x.cis.tract) h.2 :)
theorem walk_of_onlyAccesses : u.cis.walk = s.cis.walk := (congrArg (fun x : State => x.cis.walk) h.2 :)
theorem zeroWalks_of_onlyAccesses : u.cis.zeroWalks = s.cis.zeroWalks := (congrArg (fun x : State => x.cis.zeroWalks) h.2 :)

end

/-! ## What the effect of a walk leaves (R97, R121) -/

/-- Scrubbing a word touches no other. -/
theorem scrubWord_other (s : State) (i : AccessInfo) (w : Nat) :
    (∀ a, a / 32 ≠ w → memByte (s.scrubWord i w) a = memByte s a) ∧
      ∀ v, v ≠ w → (s.scrubWord i w).syndrome v = s.syndrome v := by
  have hmoved : ∀ {u v : State}, SameMemory u v →
      ((∀ a, a / 32 ≠ w → memByte u a = memByte s a) ∧ ∀ x, x ≠ w → u.syndrome x = s.syndrome x) →
      (∀ a, a / 32 ≠ w → memByte v a = memByte s a) ∧ ∀ x, x ≠ w → v.syndrome x = s.syndrome x := fun h g =>
    ⟨fun a ha => (memByte_of_sameMemory h a).trans (g.1 a ha), fun x hx => (syndrome_of_sameMemory h x).trans (g.2 x hx)⟩
  have hput : ∀ (d : List Byte) (y : BitVec 10), (∀ a, a / 32 ≠ w → memByte (s.putWord w d y) a = memByte s a) ∧
      ∀ v, v ≠ w → (s.putWord w d y).syndrome v = s.syndrome v := fun d y =>
    ⟨fun a ha => by rw [memByte_putWord, if_neg ha], fun v hv => by rw [syndrome_putWord, if_neg hv]⟩
  unfold State.scrubWord
  split
  · exact ⟨fun _ _ => rfl, fun _ _ => rfl⟩
  · exact hmoved (State.logCe_contents ..) (hput _ _)
  · exact ⟨fun _ _ => rfl, fun _ _ => rfl⟩
  · exact hmoved (State.logUe_contents ..) (hput _ _)

theorem scrubWord_clean {s : State} {w : Nat} (i : AccessInfo) (h : Clean s w) : s.scrubWord i w = s := by
  unfold State.scrubWord
  rw [show s.syndrome w = 0 from h]
  rfl

theorem scrubWords_other (i : AccessInfo) (l : List Nat) : ∀ s : State,
    (∀ a, a / 32 ∉ l → memByte (l.foldl (fun s k => s.scrubWord i k) s) a = memByte s a) ∧
      ∀ v, v ∉ l → (l.foldl (fun s k => s.scrubWord i k) s).syndrome v = s.syndrome v := by
  induction l with
  | nil => exact fun s => ⟨fun _ _ => rfl, fun _ _ => rfl⟩
  | cons w l ih =>
    intro s
    obtain ⟨hm, hs⟩ := ih (s.scrubWord i w)
    obtain ⟨hm', hs'⟩ := scrubWord_other s i w
    refine ⟨fun a ha => ?_, fun v hv => ?_⟩
    · rw [List.mem_cons, not_or] at ha
      exact (hm a ha.2).trans (hm' a ha.1)
    · rw [List.mem_cons, not_or] at hv
      exact (hs v hv.2).trans (hs' v hv.1)

theorem scrubWords_clean {s : State} (i : AccessInfo) {l : List Nat} (h : ∀ w ∈ l, Clean s w) :
    l.foldl (fun s k => s.scrubWord i k) s = s := by
  induction l with
  | nil => rfl
  | cons w l ih =>
    rw [List.foldl_cons, scrubWord_clean i (h w List.mem_cons_self)]
    exact ih (fun v hv => h v (List.mem_cons_of_mem _ hv))

/-- The walk of tract `tr` clears the byte at `a`. -/
def Walk.clearsAt (w : Walk) (tr a : Nat) : Bool := decide (a / 2 ^ 24 = tr) && w.clears a

/-- The words of a tract that the walk reads back: those that are listed with a syndrome and that it does not clear. -/
def State.readBack (s : State) (tr : Nat) (w : Walk) : List Nat :=
  sortBy (State.walkOrder { s with cis := { s.cis with
      mem := s.cis.mem.filter (fun e => !w.clearsAt tr e.1)
      synd := s.cis.synd.filter (fun e => !w.clearsAt tr (32 * e.1)) } })
    (((s.cis.synd.filter (fun e => !w.clearsAt tr (32 * e.1))).map (fun e => e.1)).filter
      (fun k => decide (32 * k / 2 ^ 24 = tr)))

theorem walkEffect_eq (s : State) (tr : Nat) (w : Walk) :
    s.walkEffect tr w = (s.readBack tr w).foldl (fun s k => s.scrubWord infoWalk k) { s with cis := { s.cis with
      mem := s.cis.mem.filter (fun e => !w.clearsAt tr e.1)
      synd := s.cis.synd.filter (fun e => !w.clearsAt tr (32 * e.1)) } } := rfl

theorem mem_insertBy {key : Nat → Nat} {x y : Nat} {l : List Nat} : x ∈ insertBy key y l ↔ x = y ∨ x ∈ l := by
  induction l with
  | nil => simp [insertBy]
  | cons z l ih =>
    rw [insertBy]
    split
    · simp
    · rw [List.mem_cons, ih, List.mem_cons]
      tauto

theorem mem_sortBy {key : Nat → Nat} {x : Nat} {l : List Nat} : x ∈ sortBy key l ↔ x ∈ l := by
  induction l with
  | nil => simp [sortBy]
  | cons y l ih =>
    have hcons : sortBy key (y :: l) = insertBy key y (sortBy key l) := rfl
    rw [hcons, mem_insertBy, ih, List.mem_cons]

theorem readBack_tract {s : State} {tr k : Nat} {w : Walk} (h : k ∈ s.readBack tr w) :
    32 * k / 2 ^ 24 = tr ∧ w.clearsAt tr (32 * k) = false := by
  obtain ⟨hmem, htract⟩ := List.mem_filter.1 (mem_sortBy.1 h)
  obtain ⟨e, he, rfl⟩ := List.mem_map.1 hmem
  exact ⟨by simpa using htract, by simpa using (List.mem_filter.1 he).2⟩

/-- All of a word lies in one granule. -/
theorem clearsAt_word (w : Walk) (tr a : Nat) : w.clearsAt tr (32 * (a / 32)) = w.clearsAt tr a := by
  rw [Walk.clearsAt, Walk.clearsAt, Walk.clears, Walk.clears, show 32 * (a / 32) / 2 ^ 24 = a / 2 ^ 24 by omega,
    show 32 * (a / 32) / 4096 = a / 4096 by omega]

/-- What a walk clears reads zero with right check bits. -/
theorem walkEffect_cleared {s : State} {tr a : Nat} {w : Walk} (h : w.clearsAt tr a = true) :
    memByte (s.walkEffect tr w) a = 0 ∧ (s.walkEffect tr w).syndrome (a / 32) = 0 := by
  have hout : a / 32 ∉ s.readBack tr w := fun hin => by
    have hclear := (readBack_tract hin).2
    rw [clearsAt_word, h] at hclear
    contradiction
  rw [walkEffect_eq]
  obtain ⟨hm, hs⟩ := scrubWords_other infoWalk (s.readBack tr w) { s with cis := { s.cis with
    mem := s.cis.mem.filter (fun e => !w.clearsAt tr e.1)
    synd := s.cis.synd.filter (fun e => !w.clearsAt tr (32 * e.1)) } }
  rw [hm a hout, hs _ hout]
  constructor
  · exact (spGet_filter (fun k => !w.clearsAt tr k)).trans (if_neg (by simp [h]))
  · exact (spGet_filter (fun k => !w.clearsAt tr (32 * k))).trans (if_neg (by simp [clearsAt_word, h]))

/-- A walk leaves the other tracts as they are. -/
theorem walkEffect_other {s : State} {tr a : Nat} (w : Walk) (h : a / 2 ^ 24 ≠ tr) :
    memByte (s.walkEffect tr w) a = memByte s a ∧ (s.walkEffect tr w).syndrome (a / 32) = s.syndrome (a / 32) := by
  have hclear : w.clearsAt tr a = false := by rw [Walk.clearsAt, decide_eq_false h, Bool.false_and]
  have hout : a / 32 ∉ s.readBack tr w := fun hin => h (by rw [← (readBack_tract hin).1]; omega)
  rw [walkEffect_eq]
  obtain ⟨hm, hs⟩ := scrubWords_other infoWalk (s.readBack tr w) { s with cis := { s.cis with
    mem := s.cis.mem.filter (fun e => !w.clearsAt tr e.1)
    synd := s.cis.synd.filter (fun e => !w.clearsAt tr (32 * e.1)) } }
  rw [hm a hout, hs _ hout]
  constructor
  · exact (spGet_filter (fun k => !w.clearsAt tr k)).trans (if_pos (by simp [hclear]))
  · exact (spGet_filter (fun k => !w.clearsAt tr (32 * k))).trans (if_pos (by simp [clearsAt_word, hclear]))

/-- Where no word is damaged a walk clears its granules and does nothing else. -/
theorem walkEffect_clean {s : State} (h : ∀ v, Clean s v) (tr : Nat) (w : Walk) :
    (∀ v, Clean (s.walkEffect tr w) v) ∧
      ∀ a, memByte (s.walkEffect tr w) a = if w.clearsAt tr a = true then 0 else memByte s a := by
  have hclean : ∀ v, Clean { s with cis := { s.cis with
      mem := s.cis.mem.filter (fun e => !w.clearsAt tr e.1)
      synd := s.cis.synd.filter (fun e => !w.clearsAt tr (32 * e.1)) } } v := fun v => by
    refine (spGet_filter (fun k => !w.clearsAt tr (32 * k))).trans ?_
    split
    · exact h v
    · rfl
  rw [walkEffect_eq, scrubWords_clean infoWalk (fun v _ => hclean v)]
  refine ⟨hclean, fun a => (spGet_filter (fun k => !w.clearsAt tr k)).trans ?_⟩
  cases hc : w.clearsAt tr a <;> simp [memByte, Memory.default]

/-! ## The walks of a swap (R100, R296) -/

/-- The walk that clears the granules of `l` in tract `t`. -/
def granuleWalk (l : List Nat) (t : Nat) : Walk := { all := false, granules := granulesIn t l, power := false }

theorem granuleWalk_clearsAt {l : List Nat} {t a : Nat} :
    (granuleWalk l t).clearsAt t a = true ↔ a / 2 ^ 24 = t ∧ a / 4096 ∈ l := by
  simp only [granuleWalk, Walk.clearsAt, Walk.clears, granulesIn, Bool.and_eq_true, decide_eq_true_eq, Bool.false_or,
    List.contains_iff_mem, List.mem_map, List.mem_filter]
  refine and_congr_right fun ht => ⟨?_, fun h => ⟨a / 4096, ⟨h, by omega⟩, rfl⟩⟩
  rintro ⟨g, ⟨hg, hgt⟩, hmod⟩
  rwa [show a / 4096 = g by omega]

/-- The effect of a walk changes what an access may change. -/
theorem walkEffect_onlyAccesses (s : State) (tr : Nat) (w : Walk) : OnlyAccesses s (s.walkEffect tr w) := by
  rw [walkEffect_eq]
  exact onlyAccesses_trans (b := { s with cis := { s.cis with
    mem := s.cis.mem.filter (fun e => !w.clearsAt tr e.1)
    synd := s.cis.synd.filter (fun e => !w.clearsAt tr (32 * e.1)) } }) ⟨fun _ _ => rfl, rfl⟩ (scrubWords_accessed ..).1

theorem walkOf_setWalk (s : State) (tr : Nat) (w : Option Walk) (t : Nat) :
    (s.setWalk tr w).walkOf t = if t = tr then w else s.walkOf t := spGet_spSet

theorem isSome_walkOf_startWalk (s : State) (tr : Nat) (w : Walk) (t : Nat) :
    ((s.startWalk tr w).walkOf t).isSome = (decide (t = tr) || (s.walkOf t).isSome) := by
  have hwalk : (s.walkEffect tr w).walkOf t = s.walkOf t := by
    rw [State.walkOf, walk_of_onlyAccesses (walkEffect_onlyAccesses s tr w), State.walkOf]
  rw [State.startWalk, walkOf_setWalk]
  split
  · next h => simp [h]
  · next h => simp [h, hwalk]

theorem memByte_startWalk (s : State) (tr : Nat) (w : Walk) (a : Nat) :
    memByte (s.startWalk tr w) a = memByte (s.walkEffect tr w) a := rfl

theorem syndrome_startWalk (s : State) (tr : Nat) (w : Walk) (v : Nat) :
    (s.startWalk tr w).syndrome v = (s.walkEffect tr w).syndrome v := rfl

/-- The walks of the granules of `l` in the tracts `ts`. -/
def State.walkAll (s : State) (l ts : List Nat) : State := ts.foldl (fun s t => s.startWalk t (granuleWalk l t)) s

theorem startWalks_eq (s : State) (l : List Nat) : s.startWalks l = s.walkAll l (s.walkTracts l) := rfl

theorem walkAll_cons (s : State) (l ts : List Nat) (t : Nat) :
    s.walkAll l (t :: ts) = (s.startWalk t (granuleWalk l t)).walkAll l ts := rfl

theorem walkOf_walkAll {l ts : List Nat} {t : Nat} : ∀ {s : State}, (t ∈ ts ∨ (s.walkOf t).isSome = true) →
    ((s.walkAll l ts).walkOf t).isSome = true := by
  induction ts with
  | nil => intro s h; simpa [State.walkAll] using h
  | cons u ts ih =>
    intro s h
    rw [walkAll_cons]
    refine ih ?_
    rw [isSome_walkOf_startWalk]
    by_cases htu : t = u
    · exact .inr (by simp [htu])
    · exact (h.imp_left (fun h => (List.mem_cons.1 h).resolve_left htu)).imp_right (fun h => by simp [h])

/-- A byte that the walks clear reads zero after them, and its word is clean. -/
theorem walkAll_cleared {l ts : List Nat} {a : Nat} (hl : a / 4096 ∈ l) : ∀ {s : State},
    (a / 2 ^ 24 ∈ ts ∨ memByte s a = 0 ∧ s.syndrome (a / 32) = 0) →
    memByte (s.walkAll l ts) a = 0 ∧ (s.walkAll l ts).syndrome (a / 32) = 0 := by
  induction ts with
  | nil => intro s h; simpa [State.walkAll] using h
  | cons t ts ih =>
    intro s h
    rw [walkAll_cons]
    refine ih ?_
    rw [memByte_startWalk, syndrome_startWalk]
    by_cases ht : a / 2 ^ 24 = t
    · exact .inr (walkEffect_cleared (granuleWalk_clearsAt.2 ⟨ht, hl⟩))
    · obtain ⟨hm, hs⟩ := walkEffect_other (s := s) (granuleWalk l t) ht
      rw [hm, hs]
      exact h.imp_left (fun h => (List.mem_cons.1 h).resolve_left ht)

/-- Where no word is damaged the walks touch no other byte. -/
theorem walkAll_kept {l ts : List Nat} {a : Nat} (hl : a / 4096 ∉ l) : ∀ {s : State}, (∀ v, Clean s v) →
    memByte (s.walkAll l ts) a = memByte s a := by
  induction ts with
  | nil => intro s _; rfl
  | cons t ts ih =>
    intro s h
    obtain ⟨hc, hm⟩ := walkEffect_clean h t (granuleWalk l t)
    rw [walkAll_cons, ih (s := s.startWalk t (granuleWalk l t)) hc, memByte_startWalk, hm,
      if_neg (fun hclear => hl (granuleWalk_clearsAt.1 hclear).2)]

end Sys2Proof.Machine

end

section

namespace Sys2Proof.Machine

/-! ## What a swap point does before its walks (R255, R296, R364) -/

theorem onlyPumphouse_trans {a b c : State} (h : OnlyPumphouse a b) (g : OnlyPumphouse b c) : OnlyPumphouse a c := by
  have h' := h
  unfold OnlyPumphouse at h' g ⊢
  exact (congrArg (fun x : State => { x with queues := a.queues, pmh := a.pmh }) g).trans h'

/-- A queue's reset discards what stands in its ring. -/
theorem discardQueue_eq (s : State) (q : Nat) (m : QMap) : ∃ n, s.discardQueue q m =
    State.setQueue { s with pmh := { s.pmh with qdiscard := n } } q
      { s.queue q with
        looked := min (s.queue q).looked ((s.queue q).decoded.length - 1)
        head := (s.queue q).tail } := by
  unfold State.discardQueue
  generalize s.ringPackets m (m.units + 1) (s.queue q).head (s.queue q).tail = n
  exact ⟨_, rfl⟩

/-- A queue's reset leaves what it has decoded, and no other queue and no command is touched. -/
theorem resetQueue_eq (s : State) (q : Nat) (m : QMap) : ∃ n, s.resetQueue q m =
    State.setQueue (State.setQueue { s with pmh := { s.pmh with qdiscard := n } } q
      { s.queue q with
        looked := min (s.queue q).looked ((s.queue q).decoded.length - 1)
        head := (s.queue q).tail }) q (resetOf (s.queue q)) := by
  obtain ⟨n, hn⟩ := discardQueue_eq s q m
  refine ⟨n, ?_⟩
  rw [State.resetQueue, hn]
  simp only [State.queue_setQueue_same]
  rfl

/-- The queues of a list have been reset. -/
structure QueuesReset (l : List Nat) (s u : State) : Prop where
  frame : OnlyPumphouse s u
  cmds : u.pmh.cmds = s.pmh.cmds
  compl : u.pmh.compl = s.pmh.compl
  queue : ∀ q, u.queue q = if q ∈ l then resetOf (s.queue q) else s.queue q

theorem resetQueue_reset (s : State) (q : Nat) (m : QMap) : QueuesReset [q] s (s.resetQueue q m) := by
  obtain ⟨n, hn⟩ := resetQueue_eq s q m
  rw [hn]
  refine ⟨rfl, rfl, rfl, fun r => ?_⟩
  by_cases hr : r = q
  · rw [hr, State.queue_setQueue_same, if_pos List.mem_cons_self]
  · rw [State.queue_setQueue_other _ _ _ _ hr, State.queue_setQueue_other _ _ _ _ hr,
      if_neg (by simpa using hr)]
    rfl

theorem resetQueues_reset {l : List Nat} (hl : l.Nodup) (s : State) :
    QueuesReset l s (l.foldl (fun s q => s.resetQueue q (s.act.qmap q)) s) := by
  induction l generalizing s with
  | nil => exact ⟨rfl, rfl, rfl, fun _ => by simp⟩
  | cons q l ih =>
    obtain ⟨hq, hl⟩ := List.nodup_cons.1 hl
    obtain ⟨f, hcmds, hcompl, hqueue⟩ := ih hl (s.resetQueue q (s.act.qmap q))
    obtain ⟨f', hcmds', hcompl', hqueue'⟩ := resetQueue_reset s q (s.act.qmap q)
    refine ⟨onlyPumphouse_trans f' f, hcmds.trans hcmds', hcompl.trans hcompl', fun r => ?_⟩
    rw [List.foldl_cons, hqueue, hqueue']
    by_cases hr : r = q
    · simp [hr, hq]
    · simp [hr]

/-- Customers that a context's range loses have no budget; no other field of any changes. -/
theorem zeroBudgets_frame (l : List Nat) (s : State) : { l.foldl State.zeroBudget s with srv := s.srv } = s := by
  induction l generalizing s with
  | nil => rfl
  | cons c l ih => exact (congrArg (fun x : State => { x with srv := s.srv }) (ih (s.zeroBudget c)) :)

theorem budget_zeroBudgets {l : List Nat} {c : Nat} : ∀ {s : State},
    (c ∈ l ∨ (spGet Customer.reset s.srv.cust c).budget = 0) →
    (spGet Customer.reset (l.foldl State.zeroBudget s).srv.cust c).budget = 0 := by
  induction l with
  | nil => intro s h; simpa using h
  | cons d l ih =>
    intro s h
    refine ih ?_
    by_cases hd : c = d
    · right; simp [State.zeroBudget, hd]
    · rw [State.zeroBudget, spGet_spModify_other hd]
      exact h.imp_left (fun h => (List.mem_cons.1 h).resolve_left hd)

/-- The shadow set has become active, the changed queues are reset and the customers that left have no budget. -/
structure SetsSwapped (s u : State) : Prop where
  frame : { u with queues := s.queues, pmh := s.pmh, srv := s.srv } = { s with act := s.shd, cfg := { s.cfg with swap := none } }
  cmds : u.pmh.cmds = s.pmh.cmds
  compl : u.pmh.compl = s.pmh.compl
  queue : ∀ q, u.queue q = if q ∈ s.changedQueues then resetOf (s.queue q) else s.queue q
  budget : ∀ c, c ∈ lostCustomers s.act s.shd → (spGet Customer.reset u.srv.cust c).budget = 0

/-- The state at a swap point whose changed queues have been reset. -/
def State.queuesSwapped (s : State) : State := s.changedQueues.foldl (fun s q => s.resetQueue q (s.act.qmap q)) s

/-- The state at a swap point whose shadow set has become active: the walks of R100 have not begun. -/
def State.swapped (s : State) : State :=
  (lostCustomers s.act s.queuesSwapped.shd).foldl State.zeroBudget
    { s.queuesSwapped with act := s.queuesSwapped.shd, cfg := { s.queuesSwapped.cfg with swap := none } }

theorem changedQueues_nodup (s : State) : s.changedQueues.Nodup := List.nodup_range.filter _

theorem setsSwapped_of_reset {s u v : State} (h : QueuesReset s.changedQueues s u)
    (hv : { v with srv := u.srv } = { u with act := u.shd, cfg := { u.cfg with swap := none } })
    (hbudget : ∀ c, c ∈ lostCustomers s.act u.shd → (spGet Customer.reset v.srv.cust c).budget = 0) : SetsSwapped s v := by
  obtain ⟨hframe, hcmds, hcompl, hqueue⟩ := h
  have hshd : u.shd = s.shd := (congrArg (fun x : State => x.shd) hframe :)
  have hpmh : v.pmh = u.pmh := (congrArg (fun x : State => x.pmh) hv :)
  have hqueues : v.queues = u.queues := (congrArg (fun x : State => x.queues) hv :)
  refine ⟨?_, by rw [hpmh, hcmds], by rw [hpmh, hcompl], fun q => ?_, fun c hc => hbudget c (hshd ▸ hc)⟩
  · have h1 := congrArg (fun x : State => { x with queues := s.queues, pmh := s.pmh, srv := s.srv }) hv
    have h2 := congrArg (fun x : State => { x with srv := s.srv, act := x.shd, cfg := { x.cfg with swap := none } }) hframe
    exact h1.trans h2
  · rw [State.queue, hqueues]
    exact hqueue q

theorem setsSwapped_swapped (s : State) : SetsSwapped s s.swapped := by
  have hreset : QueuesReset s.changedQueues s s.queuesSwapped := resetQueues_reset (changedQueues_nodup s) s
  rw [State.swapped]
  generalize s.queuesSwapped = u at hreset ⊢
  exact setsSwapped_of_reset hreset (zeroBudgets_frame ..) (fun c hc => budget_zeroBudgets (.inl hc))

section

variable {s u : State} (h : SetsSwapped s u)
include h

theorem SetsSwapped.cis : u.cis = s.cis := (congrArg (fun x : State => x.cis) h.frame :)
theorem SetsSwapped.fuse : u.fuse = s.fuse := (congrArg (fun x : State => x.fuse) h.frame :)
theorem SetsSwapped.act : u.act = s.shd := (congrArg (fun x : State => x.act) h.frame :)
theorem SetsSwapped.shd : u.shd = s.shd := (congrArg (fun x : State => x.shd) h.frame :)
theorem SetsSwapped.cfg : u.cfg = { s.cfg with swap := none } := (congrArg (fun x : State => x.cfg) h.frame :)

theorem SetsSwapped.walkTracts (l : List Nat) : u.walkTracts l = s.walkTracts l := by
  unfold State.walkTracts State.presentTracts State.tractOn State.tractState
  rw [h.fuse, h.cis]

theorem SetsSwapped.sameMemory : SameMemory s u := by
  rw [SameMemory, h.cis]
  exact ⟨rfl, rfl⟩

end

/-- What the swap point makes of the swapped state: the swap ends, or its walks begin. -/
def State.afterSwap (u : State) (p : Swap) (l : List Nat) : State :=
  if (u.walkTracts l).isEmpty then u.finishSwap p.slot p.affected 0
  else { u.startWalks l with cfg := { (u.startWalks l).cfg with walking := some { slot := p.slot, affected := p.affected,
                                                                                    tracts := u.walkTracts l,
                                                                                    walks := (u.walkTracts l).length } } }

theorem activate_eq (s : State) (p : Swap) : s.activate p = s.swapped.afterSwap p (newlyOwned s.act s.shd) := by
  have hqueues : s.changedQueues.foldl (fun s q => s.resetQueue q (s.act.qmap q)) s = s.queuesSwapped := rfl
  have hact : s.activate p = s.swapped.afterSwap p (newlyOwned s.act s.swapped.act) := by
    rw [State.activate, hqueues, State.swapped]
    generalize s.queuesSwapped = u
    refine id ?_
    rfl
  rw [hact, (setsSwapped_swapped s).act]

theorem exec_swapPoint {s : State} {p : Swap} (hs : s.silent = false) (hp : s.cfg.swap = some p) (hh : s.swapHeld p = false) :
    ∃ u, SetsSwapped s u ∧ exec .swapPoint s = .next (u.afterSwap p (newlyOwned s.act s.shd)) := by
  have hexec : exec .swapPoint s = .next (swapPoint s) := rfl
  have hgo : ¬(s.silent || s.swapHeld p) = true := by simp [hs, hh]
  refine ⟨s.swapped, setsSwapped_swapped s, ?_⟩
  rw [hexec, swapPoint, hp]
  dsimp only
  rw [if_neg hgo, activate_eq]

/-- The first half of O23: the walks of a swap. -/
theorem swapWalks_leaveZeros {s : State} {p : Swap} {g : Nat} (hs : s.silent = false) (hp : s.cfg.swap = some p)
    (hh : s.swapHeld p = false) (hg : g ∈ newlyOwned s.act s.shd) (hpresent : g / 4096 < s.fuse.tractCount)
    (hon : s.tractOn (g / 4096) = true) :
    ∃ s', exec .swapPoint s = .next s' ∧ (∃ w, s'.walkOf (g / 4096) = some w) ∧
      (∀ a, a / 4096 = g → memByte s' a = 0 ∧ s'.syndrome (a / 32) = 0) ∧
      ((∀ v, Clean s v) → ∀ a, a / 4096 ∉ newlyOwned s.act s.shd → memByte s' a = memByte s a) := by
  obtain ⟨u, hu, hexec⟩ := exec_swapPoint hs hp hh
  generalize newlyOwned s.act s.shd = l at *
  have hmem : g / 4096 ∈ u.walkTracts l := by
    rw [hu.walkTracts, State.walkTracts, List.mem_filter, State.presentTracts, List.mem_range]
    exact ⟨hpresent, by simpa [hon] using ⟨g, hg, rfl⟩⟩
  have hne : ¬(u.walkTracts l).isEmpty = true := by
    rw [List.isEmpty_iff]
    exact List.ne_nil_of_mem hmem
  rw [State.afterSwap, if_neg hne] at hexec
  refine ⟨_, hexec, Option.isSome_iff_exists.1 (walkOf_walkAll (.inl hmem)), fun a ha => ?_, fun hc a ha => ?_⟩
  · exact walkAll_cleared (s := u) (ts := u.walkTracts l) (ha ▸ hg)
      (.inl (by rwa [show a / 2 ^ 24 = g / 4096 by omega]))
  · exact (walkAll_kept (s := u) ha (fun v => (syndrome_of_sameMemory hu.sameMemory v).trans (hc v))).trans
      (memByte_of_sameMemory hu.sameMemory a)

end Sys2Proof.Machine

end

section

namespace Sys2Proof.Machine

/-! ## Commands in flight -/

theorem mem_flying_of_cmd {s : State} {k : Nat} {c : Cmd} (h : s.cmd k = some c) : (k, c) ∈ s.flying := by
  have hmem : ∀ m : Sparse (Option Cmd), spGet none m k = some c →
      (k, c) ∈ m.filterMap (fun e => e.2.map (fun c => (e.1, c))) := by
    intro m
    induction m with
    | nil => intro h; simp at h
    | cons e m ih =>
      obtain ⟨j, x⟩ := e
      intro h
      rw [spGet_cons] at h
      rw [List.mem_filterMap]
      split at h
      · next hk => exact ⟨(j, x), List.mem_cons_self, by simp [h, hk]⟩
      · obtain ⟨e, he, heq⟩ := List.mem_filterMap.1 (ih h)
        exact ⟨e, List.mem_cons_of_mem _ he, heq⟩
  exact hmem _ h

/-- No TRACT_POWER waits for tracts of an earlier one (R106). -/
def NoWaits (s : State) : Prop := ∀ k c, s.cmd k = some c → ∀ on ts, c.job ≠ .tractWait on ts

/-- No step script has a command in flight. -/
def NoScripts (s : State) : Prop := ∀ k c, s.cmd k = some c → ∀ x, c.origin ≠ .script x

theorem noWaits_of_flying {s : State} (h : ∀ e ∈ s.flying, ∀ on ts, e.2.job ≠ .tractWait on ts) : NoWaits s :=
  fun _ _ hc => h _ (mem_flying_of_cmd hc)

theorem noScripts_of_flying {s : State} (h : ∀ e ∈ s.flying, ∀ c, e.2.origin ≠ .script c) : NoScripts s :=
  fun _ _ hc => h _ (mem_flying_of_cmd hc)

/-- What the end of a walk does for the commands that waited on it: it powers no tract and counts no walk, it makes no command
wait for tracts, and where no step script has a command in flight it touches no byte. -/
structure WalkKept (s u : State) : Prop where
  zeroWalks : u.cis.zeroWalks = s.cis.zeroWalks
  tract : u.cis.tract = s.cis.tract
  waits : NoWaits s → NoWaits u
  mem : NoScripts s → NoScripts u ∧ SameMemory s u

theorem sameMemory_trans {a b c : State} (h : SameMemory a b) (g : SameMemory b c) : SameMemory a c :=
  ⟨g.1.trans h.1, g.2.trans h.2⟩

theorem WalkKept.refl (s : State) : WalkKept s s := ⟨rfl, rfl, id, fun h => ⟨h, rfl, rfl⟩⟩

theorem WalkKept.trans {a b c : State} (h : WalkKept a b) (g : WalkKept b c) : WalkKept a c where
  zeroWalks := g.zeroWalks.trans h.zeroWalks
  tract := g.tract.trans h.tract
  waits w := g.waits (h.waits w)
  mem w := ⟨(g.mem (h.mem w).1).1, sameMemory_trans (h.mem w).2 (g.mem (h.mem w).1).2⟩

theorem WalkKept.foldl {α : Type} {f : State → α → State} (hf : ∀ s a, WalkKept s (f s a)) (l : List α) (s : State) :
    WalkKept s (l.foldl f s) := by
  induction l generalizing s with
  | nil => exact .refl s
  | cons a l ih => exact (hf s a).trans (ih _)

/-- An update of the commands that leaves the Cistern alone. -/
theorem walkKept_of_cis {s u : State} (hcis : u.cis = s.cis) (hcmd : ∀ k c, u.cmd k = some c → ∃ d, s.cmd k = some d ∧
    c.origin = d.origin ∧ (c.job = d.job ∨ ∀ on ts, c.job ≠ .tractWait on ts)) : WalkKept s u where
  zeroWalks := by rw [hcis]
  tract := by rw [hcis]
  waits h k c hc := by
    obtain ⟨d, hd, -, hj | hj⟩ := hcmd k c hc
    · rw [hj]; exact h k d hd
    · exact hj
  mem h := ⟨fun k c hc => by
    obtain ⟨d, hd, ho, -⟩ := hcmd k c hc
    rw [ho]
    exact h k d hd, by rw [SameMemory, hcis]; exact ⟨rfl, rfl⟩⟩

theorem walkKept_of_samePmh {s u : State} (hcis : u.cis = s.cis) (hpmh : u.pmh = s.pmh) : WalkKept s u :=
  walkKept_of_cis hcis (fun k c hc => ⟨c, by rw [State.cmd, ← hpmh]; exact hc, rfl, .inl rfl⟩)

theorem setJob_walkKept (s : State) (k : Nat) {j : Job} (hj : ∀ on ts, j ≠ .tractWait on ts) : WalkKept s (s.setJob k j) := by
  cases hc : s.cmd k with
  | none => unfold State.setJob; rw [hc]; exact .refl s
  | some c =>
    refine walkKept_of_cis (State.setJob_cis ..) (fun n d hd => ?_)
    by_cases hn : n = k
    · subst hn
      rw [cmd_setJob_same hc] at hd
      obtain rfl := Option.some.inj hd
      exact ⟨c, hc, rfl, .inr hj⟩
    · rw [cmd_setJob_other hc j hn] at hd
      exact ⟨d, hd, rfl, .inl rfl⟩

/-! ## Pins of a command (R332) -/

/-- What accesses, walks and unpinned pages leave alone: the Pumphouse, the queues, the configuration sets, the customers,
the states of the tracts and the count of walks. -/
structure PagesMoved (s u : State) : Prop where
  pmh : u.pmh = s.pmh
  queues : u.queues = s.queues
  act : u.act = s.act
  shd : u.shd = s.shd
  cfg : u.cfg = s.cfg
  cust : u.srv.cust = s.srv.cust
  tract : u.cis.tract = s.cis.tract
  zeroWalks : u.cis.zeroWalks = s.cis.zeroWalks

theorem PagesMoved.refl (s : State) : PagesMoved s s := ⟨rfl, rfl, rfl, rfl, rfl, rfl, rfl, rfl⟩

theorem pagesMoved_trans {a b c : State} (h : PagesMoved a b) (g : PagesMoved b c) : PagesMoved a c where
  pmh := g.pmh.trans h.pmh
  queues := g.queues.trans h.queues
  act := g.act.trans h.act
  shd := g.shd.trans h.shd
  cfg := g.cfg.trans h.cfg
  cust := g.cust.trans h.cust
  tract := g.tract.trans h.tract
  zeroWalks := g.zeroWalks.trans h.zeroWalks

theorem pagesMoved_of_onlyAccesses {s u : State} (h : OnlyAccesses s u) : PagesMoved s u where
  pmh := pmh_of_onlyAccesses h
  queues := queues_of_onlyAccesses h
  act := act_of_onlyAccesses h
  shd := shd_of_onlyAccesses h
  cfg := cfg_of_onlyAccesses h
  cust := congrArg (fun x : Srv => x.cust) (srv_of_onlyAccesses h)
  tract := tract_of_onlyAccesses h
  zeroWalks := zeroWalks_of_onlyAccesses h

theorem pagesMoved_of_accessed {s u : State} (h : Accessed s u) : PagesMoved s u := pagesMoved_of_onlyAccesses h.1

theorem write_pagesMoved (x : Io) (c h off : Nat) (bs : List Byte) : PagesMoved x.s (x.write c h off bs).s :=
  pagesMoved_of_accessed (writeMarked_accessed ..)

theorem setPool_pagesMoved (x : Io) (c : Nat) (p : Pool) : PagesMoved x.s (x.setPool c p).s :=
  ⟨rfl, rfl, rfl, rfl, rfl, rfl, rfl, rfl⟩

theorem withFree_pagesMoved {s u : State} (h : PagesMoved s u) (n : Nat) : PagesMoved s { u with free := n } :=
  ⟨h.pmh, h.queues, h.act, h.shd, h.cfg, h.cust, h.tract, h.zeroWalks⟩

theorem push_pagesMoved (x : Io) (c n : Nat) : PagesMoved x.s (x.push c n).s := by
  unfold Io.push
  dsimp only
  split
  · exact pagesMoved_trans (setPool_pagesMoved ..) (write_pagesMoved ..)
  · exact withFree_pagesMoved (pagesMoved_trans (setPool_pagesMoved ..) (write_pagesMoved ..)) _

theorem unpin_pagesMoved (x : Io) (c n : Nat) : PagesMoved x.s (x.unpin c n).s := by
  have htouch : PagesMoved x.s (x.touchRec c n).s := pagesMoved_of_accessed (readBytes_accessed ..)
  unfold Io.unpin
  dsimp only
  split
  · exact pagesMoved_trans htouch (pagesMoved_trans (setPool_pagesMoved ..) (push_pagesMoved ..))
  · exact pagesMoved_trans htouch (write_pagesMoved ..)

theorem unpinAll_pagesMoved (s : State) (c : Nat) (pins : List Nat) : PagesMoved s (s.unpinAll c pins) := by
  have hfold : ∀ (l : List Nat) (x : Io), PagesMoved x.s (l.foldl (fun x n => x.unpin c n) x).s := by
    intro l
    induction l with
    | nil => exact fun x => .refl x.s
    | cons n l ih => exact fun x => pagesMoved_trans (unpin_pagesMoved x c n) (ih _)
  exact hfold pins (Io.of s)

/-! ## The end of a command -/

/-- A script's command leaves its slot: nothing else of the Pumphouse, no tract and no count of walks differs. -/
theorem scriptEnds_kept {s : State} {k : Nat} {c : Cmd} (hc : s.cmd k = some c) (x idx : Nat) (st : Half) (flags : BitVec 4) :
    PagesMoved (s.setCmd k none) (s.scriptEnds k x idx st flags) := by
  have hleft : PagesMoved (s.setCmd k none) ((s.unpinAll c.ctx c.pins).setCmd k none) := by
    have h := unpinAll_pagesMoved s c.ctx c.pins
    exact ⟨by simp only [State.setCmd, h.pmh], h.queues, h.act, h.shd, h.cfg, h.cust, h.tract, h.zeroWalks⟩
  unfold State.scriptEnds
  rw [hc]
  dsimp only
  split
  · exact hleft
  · exact pagesMoved_trans hleft ⟨rfl, rfl, rfl, rfl, rfl, rfl, rfl, rfl⟩

theorem finish_none {s : State} {k : Nat} (h : s.cmd k = none) (st : Half) (reason : Byte) (flags : BitVec 4) (data : List Byte) :
    s.finish k st reason flags data = s := by
  unfold State.finish State.finishLate
  rw [h]

theorem finish_script {s : State} {k x : Nat} {c : Cmd} (hc : s.cmd k = some c) (ho : c.origin = .script x) (st : Half)
    (reason : Byte) (flags : BitVec 4) (data : List Byte) :
    s.finish k st reason flags data = s.scriptEnds k x c.order (withData c.data st) (c.flags ||| flags) := by
  unfold State.finish State.finishLate
  rw [hc]
  simp only [ho]

/-- A command that ends powers no tract, and touches no byte unless a script sent it. -/
theorem finish_walkKept (s : State) (k : Nat) (st : Half) (reason : Byte) (flags : BitVec 4) (data : List Byte) :
    WalkKept s (s.finish k st reason flags data) := by
  cases hc : s.cmd k with
  | none => rw [finish_none hc]; exact .refl s
  | some c =>
    cases ho : c.origin with
    | queue q =>
      obtain ⟨hsame, hother, -⟩ := finish_queue hc ho st reason flags data
      refine walkKept_of_cis ?_ (fun n d hd => ?_)
      · exact (congrArg (fun x : State => x.cis) (finish_queue_frame hc ho st reason flags data) :)
      · by_cases hn : n = k
        · subst hn
          rw [hsame] at hd
          obtain rfl := Option.some.inj hd
          exact ⟨c, hc, rfl, .inr (by simp)⟩
        · exact ⟨d, (hother n hn).symm.trans hd, rfl, .inl rfl⟩
    | script x =>
      have hkept := scriptEnds_kept hc x c.order (withData c.data st) (c.flags ||| flags)
      rw [finish_script hc ho]
      refine ⟨hkept.zeroWalks, hkept.tract, fun h n d hd => ?_, fun h => absurd ho (h k c hc x)⟩
      rw [State.cmd, hkept.pmh] at hd
      by_cases hn : n = k
      · subst hn
        exact absurd ((State.cmd_setCmd_same s n none).symm.trans hd) (by simp)
      · exact h n d ((State.cmd_setCmd_other s k n none hn).symm.trans hd)

/-! ## What waited on the walk goes on (R101, R106, R132, R296) -/

theorem contextClosed_walkKept (s : State) (k : Nat) (j : CloseJob) : WalkKept s (s.contextClosed k j) := by
  unfold State.contextClosed
  dsimp only
  refine .trans ?_ (finish_walkKept ..)
  exact walkKept_of_samePmh rfl rfl

theorem closeWalked_walkKept (s : State) (tr k : Nat) : WalkKept s (s.closeWalked tr k) := by
  unfold State.closeWalked
  split
  · exact .refl s
  · split
    · split
      · dsimp only
        split
        · exact contextClosed_walkKept ..
        · exact setJob_walkKept _ _ (by simp)
      · exact .refl s
    · exact .refl s

theorem finishSwap_walkKept (s : State) (slot : Option Nat) (affected : Half) (walks : Nat) :
    WalkKept s (s.finishSwap slot affected walks) := by
  unfold State.finishSwap
  cases slot with
  | none => exact walkKept_of_samePmh rfl rfl
  | some k =>
    dsimp only
    refine .trans ?_ (finish_walkKept ..)
    exact walkKept_of_samePmh rfl rfl

theorem swapWalked_walkKept (s : State) (tr : Nat) : WalkKept s (s.swapWalked tr) := by
  unfold State.swapWalked
  split
  · exact .refl s
  · dsimp only
    split
    · exact finishSwap_walkKept ..
    · exact walkKept_of_samePmh rfl rfl

theorem walkOver_walkKept (s : State) (tr : Nat) : WalkKept s (s.walkOver tr) := by
  unfold State.walkOver
  extract_lets u
  have hu : WalkKept s u := .foldl (fun s c => by exact walkKept_of_samePmh rfl rfl) _ s
  exact hu.trans (.trans (.foldl (fun s k => closeWalked_walkKept s tr k) _ _) (swapWalked_walkKept ..))

theorem refuseRepairs_walkKept (s : State) (tr b : Nat) : WalkKept s (s.refuseRepairs tr b) := by
  unfold State.refuseRepairs
  refine .foldl (fun s e => ?_) _ s
  split
  · exact finish_walkKept ..
  · exact .refl s

/-- A TRACT_POWER that turns tracts on ends, or waits on for those that are not ON. -/
theorem powerGoesOn_walkKept {s : State} (h : NoWaits s) (k : Nat) : WalkKept s (s.powerGoesOn k) := by
  unfold State.powerGoesOn
  split
  · exact .refl s
  · next c hc =>
    split
    · dsimp only
      split
      · exact finish_walkKept ..
      · exact setJob_walkKept _ _ (by simp)
    · next on ts hj => exact absurd hj (h k c hc on ts)
    · exact .refl s

theorem powersGoOn_walkKept (l : List Nat) : ∀ {s : State}, NoWaits s →
    WalkKept s (l.foldl (fun s k => s.powerGoesOn k) s) := by
  induction l with
  | nil => intro s _; exact .refl s
  | cons k l ih =>
    intro s h
    have hk := powerGoesOn_walkKept h k
    exact hk.trans (ih (hk.waits h))

/-! ## Walks are counted as they end, whatever waits on them -/

/-- The count of walks is as it was. -/
def SameWalks (s u : State) : Prop := u.cis.zeroWalks = s.cis.zeroWalks

theorem SameWalks.trans {a b c : State} (h : SameWalks a b) (g : SameWalks b c) : SameWalks a c := Eq.trans g h

theorem SameWalks.foldl {α : Type} {f : State → α → State} (hf : ∀ s a, SameWalks s (f s a)) (l : List α) (s : State) :
    SameWalks s (l.foldl f s) := by
  induction l generalizing s with
  | nil => exact rfl
  | cons a l ih => exact (hf s a).trans (ih _)

theorem WalkKept.sameWalks {s u : State} (h : WalkKept s u) : SameWalks s u := h.zeroWalks

theorem installRepair_sameWalks (s : State) (k tr b row sp : Nat) (live : Bool) :
    SameWalks s (s.installRepair k tr b row sp live) := by
  unfold State.installRepair
  dsimp only
  refine .trans ?_ (refuseRepairs_walkKept ..).sameWalks
  refine .trans ?_ (finish_walkKept ..).sameWalks
  exact (zeroWalks_of_onlyAccesses (logError_accessed (s.setBank tr b _) ..).1).trans rfl

theorem recordRepair_sameWalks (s : State) (k tr b row : Nat) (restore : Bool) :
    SameWalks s (s.recordRepair k tr b row restore) := by
  unfold State.recordRepair
  dsimp only
  split
  · exact (finish_walkKept ..).sameWalks
  · exact installRepair_sameWalks ..
  · exact rfl

theorem scrubEnds_sameWalks (s : State) : SameWalks s s.scrubEnds := by
  unfold State.scrubEnds
  split <;> exact rfl

theorem tractOff_sameWalks (s : State) (tr : Nat) : SameWalks s (s.tractOff tr) := by
  unfold State.tractOff
  extract_lets u v w
  have hv : SameWalks s v := by
    unfold v
    split
    · refine .trans ?_ (walkOver_walkKept ..).sameWalks
      exact rfl
    · exact rfl
  have hw : SameWalks v w := .foldl (fun s b => by exact rfl) _ v
  refine (hv.trans hw).trans (.trans (.foldl (fun s e => ?_) _ w) (scrubEnds_sameWalks _))
  split
  · exact recordRepair_sameWalks ..
  · exact rfl

theorem power_sameWalks (s : State) (k : Nat) (on : Bool) (ts : List Nat) : SameWalks s (s.power k on ts) := by
  unfold State.power
  split
  · unfold State.powerOn
    extract_lets u rest
    have hu : SameWalks s u := .foldl (fun s t => by split <;> exact rfl) _ s
    split
    · exact hu.trans (finish_walkKept ..).sameWalks
    · exact hu.trans (setJob_walkKept _ _ (by simp)).sameWalks
  · unfold State.powerOff
    split
    · exact (finish_walkKept ..).sameWalks
    · exact .trans (.foldl tractOff_sameWalks ts s) (finish_walkKept ..).sameWalks

theorem powerGoesOn_sameWalks (s : State) (k : Nat) : SameWalks s (s.powerGoesOn k) := by
  unfold State.powerGoesOn
  split
  · exact rfl
  · split
    · dsimp only
      split
      · exact (finish_walkKept ..).sameWalks
      · exact (setJob_walkKept _ _ (by simp)).sameWalks
    · split
      · exact rfl
      · exact power_sameWalks ..
    · exact rfl

/-! ## The end of a walk (R97, R106, R110) -/

/-- Where no TRACT_POWER waits for tracts, what the end of a walk lets go on powers no tract. -/
theorem walkEnded_walkKept {s : State} (h : NoWaits s) (tr : Nat) : WalkKept s (s.walkEnded tr) := by
  unfold State.walkEnded
  extract_lets go u
  have hu : WalkKept s u := by
    unfold u
    split
    · exact .foldl (fun s b => refuseRepairs_walkKept s tr b) _ s
    · exact .refl s
  have hover := hu.trans (walkOver_walkKept u tr)
  have hon : WalkKept s (go Cmd.turnsOn (u.walkOver tr)) := hover.trans (powersGoOn_walkKept _ (hover.waits h))
  exact hon.trans (powersGoOn_walkKept _ (hon.waits h))

theorem walkEnded_sameWalks (s : State) (tr : Nat) : SameWalks s (s.walkEnded tr) := by
  unfold State.walkEnded
  extract_lets go u
  have hu : SameWalks s u := by
    unfold u
    split
    · exact .foldl (fun s b => (refuseRepairs_walkKept s tr b).sameWalks) _ s
    · exact rfl
  have hover := hu.trans (walkOver_walkKept u tr).sameWalks
  exact (hover.trans (.foldl powerGoesOn_sameWalks _ _)).trans (.foldl powerGoesOn_sameWalks _ _)

/-- The tract's walk is over and counted, and a tract that it powers is ON; nothing has gone on yet. -/
def State.walkCounted (s : State) (tr : Nat) (w : Walk) : State :=
  let u := { s.setWalk tr none with cis := { (s.setWalk tr none).cis with zeroWalks := s.cis.zeroWalks + 1 } }
  if w.power then u.setTract tr 3 else u

theorem exec_zeroWalkEnd {tr : Fin 64} {s : State} {w : Walk} (hrun : s.banksRun = true) (hw : s.walkOf tr.val = some w) :
    exec (.zeroWalkEnd tr) s = .next ((s.walkCounted tr.val w).walkEnded tr.val).zeroFilled := by
  have hexec : exec (.zeroWalkEnd tr) s = .next (zeroWalkEnd tr.val s) := rfl
  have hgo : ¬(!s.banksRun) = true := by simp [hrun]
  rw [hexec, zeroWalkEnd, hw]
  dsimp only
  rw [if_neg hgo]
  rfl

theorem walkCounted_cmd (s : State) (tr : Nat) (w : Walk) (k : Nat) : (s.walkCounted tr w).cmd k = s.cmd k := by
  unfold State.walkCounted
  dsimp only
  split <;> rfl

theorem walkCounted_zeroWalks (s : State) (tr : Nat) (w : Walk) :
    (s.walkCounted tr w).cis.zeroWalks = s.cis.zeroWalks + 1 := by
  unfold State.walkCounted
  dsimp only
  split <;> rfl

theorem walkCounted_sameMemory (s : State) (tr : Nat) (w : Walk) : SameMemory s (s.walkCounted tr w) := by
  unfold State.walkCounted
  dsimp only
  split <;> exact ⟨rfl, rfl⟩

theorem walkCounted_tractState (s : State) (tr : Nat) {w : Walk} (hp : w.power = true) :
    (s.walkCounted tr w).tractState tr = 3 := by
  unfold State.walkCounted
  dsimp only
  rw [if_pos hp]
  simp [State.tractState, State.setTract]

/-- Settles O23: a swap's walks take their effect as they begin, and what the end of a walk lets go on neither counts a walk
nor, where no TRACT_POWER waits and no step script has a command in flight, powers a tract or touches a byte. -/
theorem zeroWalkLeavesZeros : Obligations.ZeroWalkLeavesZeros := by
  refine ⟨fun s p g hs hp hh hg hpresent hon => swapWalks_leaveZeros hs hp hh hg hpresent hon, fun tr s w hrun hw => ?_⟩
  refine ⟨_, exec_zeroWalkEnd hrun hw, ?_, fun hwaits => ?_⟩
  · rw [State.zeroFilled_cis, walkEnded_sameWalks, walkCounted_zeroWalks]
  · have hno : NoWaits (s.walkCounted tr.val w) := fun k c hc =>
      noWaits_of_flying hwaits k c ((walkCounted_cmd s tr.val w k).symm.trans hc)
    have hkept := walkEnded_walkKept hno tr.val
    refine ⟨fun hpower => ?_, fun hscripts => ?_⟩
    · rw [State.tractState, State.zeroFilled_cis, hkept.tract]
      exact walkCounted_tractState s tr.val hpower
    · have hnone : NoScripts (s.walkCounted tr.val w) := fun k c hc =>
        noScripts_of_flying hscripts k c ((walkCounted_cmd s tr.val w k).symm.trans hc)
      have hmem := sameMemory_trans (walkCounted_sameMemory s tr.val w) (hkept.mem hnone).2
      rw [SameMemory, State.zeroFilled_cis]
      exact hmem

end Sys2Proof.Machine

end

section

namespace Sys2Proof.Machine

/-! ## What the end of a command leaves alone -/

/-- A command that ends changes no queue, no configuration and no customer. -/
theorem finish_sets (s : State) (k : Nat) (st : Half) (reason : Byte) (flags : BitVec 4) (data : List Byte) :
    ((s.finish k st reason flags data).act, (s.finish k st reason flags data).shd, (s.finish k st reason flags data).cfg,
      (s.finish k st reason flags data).queues, (s.finish k st reason flags data).srv.cust) =
      (s.act, s.shd, s.cfg, s.queues, s.srv.cust) := by
  cases hc : s.cmd k with
  | none => rw [finish_none hc]
  | some c =>
    cases ho : c.origin with
    | queue q =>
      have hframe := finish_queue_frame hc ho st reason flags data
      obtain ⟨-, -, hqueues, -⟩ := finish_queue hc ho st reason flags data
      exact (congrArg (fun x : State => (x.act, x.shd, x.cfg, x.queues, x.srv.cust)) hframe :)
    | script x =>
      rw [finish_script hc ho]
      have h := scriptEnds_kept hc x c.order (withData c.data st) (c.flags ||| flags)
      rw [h.act, h.shd, h.cfg, h.queues, h.cust]
      rfl

theorem startWalk_pagesMoved (s : State) (tr : Nat) (w : Walk) : PagesMoved s (s.startWalk tr w) :=
  pagesMoved_trans (pagesMoved_of_onlyAccesses (walkEffect_onlyAccesses s tr w)) ⟨rfl, rfl, rfl, rfl, rfl, rfl, rfl, rfl⟩

theorem walkAll_pagesMoved (l ts : List Nat) : ∀ s : State, PagesMoved s (s.walkAll l ts) := by
  induction ts with
  | nil => exact fun s => .refl s
  | cons t ts ih => exact fun s => pagesMoved_trans (startWalk_pagesMoved ..) (ih _)

/-! ## What a swap changes (Table CTX-1) -/

/-- Every word of the queue map is a word of the configuration. -/
theorem cfgItem_qmap {o : Nat} (h : offQmap ≤ o) (h' : o < offQmap + 0x1000) : ∃ i, cfgItem o = some i := by
  have hstatic : ¬o = offPwrStatic := by simp only [offPwrStatic, offQmap] at *; omega
  have hstatic2 : ¬o = offPwrStatic2 := by simp only [offPwrStatic2, offQmap] at *; omega
  have hgroup : ¬(offPwrGroup ≤ o ∧ o < offPwrGroup + 32) := by simp only [offPwrGroup, offQmap] at *; omega
  have hhnd : ¬(offHnd ≤ o ∧ o < offHnd + 0x8000) := by simp only [offHnd, offQmap] at *; omega
  unfold cfgItem
  rw [if_neg hstatic, if_neg hstatic2, if_neg hgroup, if_neg hhnd, if_pos ⟨h, h'⟩]
  exact ⟨_, rfl⟩

theorem word_ne_iff {a b : CfgSet} {o : Nat} {i : CfgItem} (h : cfgItem o = some i) :
    a.word o ≠ b.word o ↔ spGet 0 a (o / 4) ≠ spGet 0 b (o / 4) := by
  unfold CfgSet.word
  rw [h]
  exact not_congr (BitVec.xor_left_inj _)

/-- An entry that two maps give differently is listed in one of them. -/
theorem mem_keys_of_spGet_ne {α : Type} {d : α} {a b : Sparse α} {k : Nat} (h : spGet d a k ≠ spGet d b k) :
    k ∈ a.map (fun e => e.1) ++ b.map (fun e => e.1) := by
  have hnone : ∀ m : Sparse α, k ∉ m.map (fun e => e.1) → spGet d m k = d := by
    intro m
    induction m with
    | nil => intro _; rfl
    | cons e m ih =>
      intro hk
      obtain ⟨j, x⟩ := e
      simp only [List.map_cons, List.mem_cons, not_or] at hk
      rw [spGet_cons, if_neg hk.1]
      exact ih hk.2
  by_contra hk
  rw [List.mem_append, not_or] at hk
  exact h ((hnone a hk.1).trans (hnone b hk.2).symm)

theorem mem_changedWords {s : State} {o : Nat} (ho : o % 4 = 0) (h : spGet 0 s.act (o / 4) ≠ spGet 0 s.shd (o / 4)) :
    o ∈ s.changedWords :=
  List.mem_map.2 ⟨o / 4, List.mem_filter.2 ⟨mem_keys_of_spGet_ne h, by simpa using h⟩, by omega⟩

theorem changedWords_ne {s : State} {o : Nat} (h : o ∈ s.changedWords) :
    spGet 0 s.act (o / 4) ≠ spGet 0 s.shd (o / 4) := by
  obtain ⟨k, hk, rfl⟩ := List.mem_map.1 h
  rw [Nat.mul_div_cancel_left _ (by decide)]
  simpa using (List.mem_filter.1 hk).2

theorem mem_changedWords_qmap {s : State} {o : Nat} (h : offQmap ≤ o) (h' : o < offQmap + 0x1000) (ho : o % 4 = 0) :
    o ∈ s.changedWords ↔ s.act.word o ≠ s.shd.word o := by
  obtain ⟨i, hi⟩ := cfgItem_qmap h h'
  rw [word_ne_iff hi]
  exact ⟨changedWords_ne, mem_changedWords ho⟩

theorem mem_changedQueues {s : State} {q : Nat} (hq : q < 512) : q ∈ s.changedQueues ↔
    s.act.word (offQmap + 8 * q) ≠ s.shd.word (offQmap + 8 * q)
      ∨ s.act.word (offQmap + 8 * q + 4) ≠ s.shd.word (offQmap + 8 * q + 4) := by
  have hoff : offQmap % 4 = 0 := rfl
  rw [← mem_changedWords_qmap (by omega) (by omega) (by omega), ← mem_changedWords_qmap (by omega) (by omega) (by omega),
    State.changedQueues, List.mem_filter, List.mem_range]
  simp [hq]

theorem mem_lostCustomers {a b : CfgSet} {n x : Nat} (hx : x < 16) (ha : (a.range x).hasCust n = true)
    (hb : (b.range x).hasCust n = false) : n ∈ lostCustomers a b := by
  simp only [CtxRange.hasCust, Bool.and_eq_true, decide_eq_true_eq] at ha
  refine List.mem_flatMap.2 ⟨x, List.mem_range.2 hx,
    List.mem_filter.2 ⟨List.mem_map.2 ⟨n - (a.range x).custBase, ?_, by omega⟩, ?_⟩⟩
  · rw [List.mem_range]; omega
  · rw [hb]; rfl

/-! ## The swap point (R294, R296, R298) -/

theorem swapHeld_eq_false {s : State} {p : Swap}
    (hflying : ∀ e ∈ s.flying, bit p.affected.toNat e.2.ctx = true → some e.1 = p.slot)
    (hruns : ∀ c, c < 16 → bit p.affected.toNat c = true → s.ctxRuns c = false) : s.swapHeld p = false := by
  rw [State.swapHeld, Bool.or_eq_false_iff]
  constructor
  · rw [List.any_eq_false]
    intro e he
    simp only [Bool.and_eq_true, decide_eq_true_eq, not_and, not_not]
    exact hflying e he
  · rw [List.any_eq_false]
    intro c hc
    simp only [Bool.and_eq_true, not_and, Bool.not_eq_true]
    exact hruns c (List.mem_range.1 hc)

/-- A swap that has no walks ends at once. -/
theorem afterSwap_ends {u : State} {p : Swap} {l : List Nat} (h : u.walkTracts l = []) :
    u.afterSwap p l = u.finishSwap p.slot p.affected 0 := by
  rw [State.afterSwap, h]
  rfl

/-- A swap whose walks begin. -/
theorem afterSwap_walks {u : State} {p : Swap} {l : List Nat} (h : u.walkTracts l ≠ []) :
    u.afterSwap p l = { u.walkAll l (u.walkTracts l) with cfg := { (u.walkAll l (u.walkTracts l)).cfg with
      walking := some { slot := p.slot, affected := p.affected, tracts := u.walkTracts l, walks := (u.walkTracts l).length } } } := by
  rw [State.afterSwap, if_neg (by simpa using h)]
  rfl

theorem afterSwap_sets (u : State) (p : Swap) (l : List Nat) :
    (u.afterSwap p l).act = u.act ∧ (u.afterSwap p l).shd = u.shd ∧ (u.afterSwap p l).cfg.swap = u.cfg.swap ∧
      (u.afterSwap p l).queues = u.queues ∧ (u.afterSwap p l).srv.cust = u.srv.cust := by
  by_cases h : u.walkTracts l = []
  · rw [afterSwap_ends h]
    unfold State.finishSwap
    cases p.slot with
    | none => exact ⟨rfl, rfl, rfl, rfl, rfl⟩
    | some k =>
      have hsets := finish_sets { u with cfg := { u.cfg with walking := none, swaps := u.cfg.swaps + 1 } } k stOK 0 0
        (swapData p.affected 0)
      simp only [Prod.mk.injEq] at hsets
      obtain ⟨hact, hshd, hcfg, hqueues, hcust⟩ := hsets
      exact ⟨hact, hshd, (congrArg Cfg.swap hcfg :), hqueues, hcust⟩
  · have hpages := walkAll_pagesMoved l (u.walkTracts l) u
    rw [afterSwap_walks h]
    exact ⟨hpages.act, hpages.shd, (congrArg Cfg.swap hpages.cfg :), hpages.queues, hpages.cust⟩

/-- Settles O34: the swapped sets, and the swap's end or its walks. -/
theorem swapsActivateTheShadowSet : Obligations.SwapsActivateTheShadowSet := by
  intro p s hs hp hflying hruns
  obtain ⟨u, hu, hexec⟩ := exec_swapPoint hs hp (swapHeld_eq_false hflying hruns)
  have hts := hu.walkTracts (newlyOwned s.act s.shd)
  dsimp only
  generalize newlyOwned s.act s.shd = l at *
  obtain ⟨hact, hshd, hswap, hqueues, hcust⟩ := afterSwap_sets u p l
  refine ⟨_, hexec, hact.trans hu.act, hshd.trans hu.shd, hswap.trans (by rw [hu.cfg]), fun q hq => ?_, fun n x hx ha hb => ?_,
    fun hne => ?_, fun he => ?_⟩
  · rw [State.queue, hqueues]
    refine (hu.queue q).trans ?_
    simp only [mem_changedQueues hq]
  · rw [hcust]
    exact hu.budget n (mem_lostCustomers hx ha hb)
  · have hpages := walkAll_pagesMoved l (u.walkTracts l) u
    rw [afterSwap_walks (hts ▸ hne)]
    refine ⟨by rw [← hts], ?_, ?_, fun t ht => walkOf_walkAll (.inl (hts ▸ ht))⟩
    · exact (congrArg Cfg.swaps hpages.cfg).trans (by rw [hu.cfg])
    · exact (congrArg Pmh.compl hpages.pmh).trans hu.compl
  · rw [afterSwap_ends (hts ▸ he)]
    have hcfg : ∀ (v : State), { u.cfg with walking := none, swaps := u.cfg.swaps + 1 } = v.cfg →
        v.cfg.walking = none ∧ v.cfg.swaps = s.cfg.swaps + 1 := fun v hv => by rw [← hv, hu.cfg]; exact ⟨rfl, rfl⟩
    cases hslot : p.slot with
    | none => exact ⟨rfl, by rw [State.finishSwap, hu.cfg], fun k q c hk => by simp at hk⟩
    | some k =>
      have hsets := finish_sets { u with cfg := { u.cfg with walking := none, swaps := u.cfg.swaps + 1 } } k stOK 0 0
        (swapData p.affected 0)
      simp only [Prod.mk.injEq] at hsets
      obtain ⟨-, -, hcfg', -, -⟩ := hsets
      obtain ⟨hwalking, hswaps⟩ := hcfg _ hcfg'.symm
      refine ⟨hwalking, hswaps, fun k' q c hk hc ho => ?_⟩
      obtain rfl := Option.some.inj hk
      have hcmd : ({ u with cfg := { u.cfg with walking := none, swaps := u.cfg.swaps + 1 } } : State).cmd k = some c := by
        rw [← hc, State.cmd, State.cmd, hu.cmds]
      obtain ⟨hsame, -, -, hcompl⟩ := finish_queue hcmd ho stOK 0 0 (swapData p.affected 0)
      refine ⟨?_, ?_⟩
      · exact hsame.trans (by simp)
      · exact hcompl.trans (by simp [hu.compl, swapData])

end Sys2Proof.Machine

end

section

namespace Sys2Proof.Machine

/-! ## The books of a command that dispatch takes on and that goes on or ends by itself -/

section

variable {s u : State} {q k : Nat} {p : Pkt} {x : Queue} {j : Job} {done : List Compl}

theorem booked_of_same {v : State} (h : Booked s u q k x (some (entryOf s q p j)) done) (hpmh : v.pmh = u.pmh)
    (hqueues : v.queues = u.queues) : Booked s v q k x (some (entryOf s q p j)) done where
  queue := by rw [State.queue, hqueues]; exact h.queue
  queues r hr := by rw [State.queue, hqueues]; exact h.queues r hr
  cmd := by rw [State.cmd, hpmh]; exact h.cmd
  cmds n hn := by rw [State.cmd, hpmh]; exact h.cmds n hn
  compl := by rw [hpmh]; exact h.compl
  serial := by rw [hpmh]; exact h.serial

theorem booked_setJob (h : Booked s u q k x (some (entryOf s q p j)) done) (i : Job) :
    Booked s (u.setJob k i) q k x (some (entryOf s q p i)) done where
  queue := by rw [setJob_of_cmd h.cmd, queue_setCmd]; exact h.queue
  queues r hr := by rw [setJob_of_cmd h.cmd, queue_setCmd]; exact h.queues r hr
  cmd := cmd_setJob_same h.cmd i
  cmds n hn := (cmd_setJob_other h.cmd i hn).trans (h.cmds n hn)
  compl := by rw [setJob_of_cmd h.cmd, State.setCmd_pmh_compl]; exact h.compl
  serial := by rw [setJob_of_cmd h.cmd, State.setCmd_pmh_serial]; exact h.serial

theorem onlyPumphouse_setJob (h : OnlyPumphouse s u) (k : Nat) (i : Job) : OnlyPumphouse s (u.setJob k i) := by
  unfold State.setJob
  split
  · exact h
  · exact onlyPumphouse_setCmd h ..

theorem samePumphouse_setJob (h : SamePumphouse s u) (k : Nat) (i : Job) : SamePumphouse s (u.setJob k i) := by
  unfold State.setJob
  split
  · exact h
  · exact samePumphouse_setCmd h ..

/-- A command that a queue sent ends: its completion joins those that wait. -/
theorem booked_finish (h : Booked s u q k x (some (entryOf s q p j)) done) (st : Half) (reason : Byte) (data : List Byte) :
    Booked s (u.finish k st reason 0 data) q k x (some (entryOf s q p .ended)) (done ++ [complOf s q k p st reason data]) := by
  obtain ⟨hcmd, hother, hqueues, hcompl⟩ := finish_queue h.cmd rfl st reason 0 data
  exact {
    queue := by rw [State.queue, hqueues]; exact h.queue
    queues := fun r hr => by rw [State.queue, hqueues]; exact h.queues r hr
    cmd := hcmd.trans (by simp [entryOf, mkCmd])
    cmds := fun n hn => (hother n hn).trans (h.cmds n hn)
    compl := by rw [hcompl, h.compl, List.append_assoc]; simp [entryOf, mkCmd, complOf]
    serial := by
      have hserial : (u.finish k st reason 0 data).pmh.serial = u.pmh.serial := by
        unfold State.finish State.finishLate
        rw [h.cmd]
        rfl
      rw [hserial, h.serial] }

theorem finish_samePumphouse (h : Booked s u q k x (some (entryOf s q p j)) done) (hu : OnlyPumphouse s u ∧ SamePumphouse s u)
    (st : Half) (reason : Byte) (data : List Byte) :
    OnlyPumphouse s (u.finish k st reason 0 data) ∧ SamePumphouse s (u.finish k st reason 0 data) := by
  unfold State.finish State.finishLate
  rw [h.cmd]
  exact hu

end

section

variable {s : State} {q k : Nat} {p : Pkt} {rest : List Pkt}

/-- The state in which a command that dispatch takes on with `dispatchAs` begins its work. -/
theorem begun_inFlight (h : DispatchReady s q k p rest) (j : Job) :
    InFlight s ((atDispatch s q k p).setJob k j) q k p rest j := inFlight_of_run h j

/-- What `dispatchAs` leaves, where the command's work leaves it in its slot with job `j`. -/
theorem dispatchAs_apply {f : State → State} {i j : Job} {done : List Compl}
    (h : Booked s (f ((atDispatch s q k p).setJob k i)) q k (dispatched (s.queue q) k p rest) (some (entryOf s q p j)) done) :
    (dispatchAs (atDispatch s q k p) k i f).apply s k = (f ((atDispatch s q k p).setJob k i)).setJob k j := by
  unfold dispatchAs
  dsimp only
  rw [h.cmd]
  rfl

/-- A packet that ends in the wave of its dispatch. -/
theorem ended_frame (h : DispatchReady s q k p rest) (st : Half) (data : List Byte) :
    OnlyPumphouse s ((DispOut.fin (atDispatch s q k p) st 0 0 data).apply s k) ∧
      SamePumphouse s ((DispOut.fin (atDispatch s q k p) st 0 0 data).apply s k) := by
  have hbegun : Booked s (atDispatch s q k p) q k (dispatched (s.queue q) k p rest) (some (entryOf s q p .ended)) [] := {
    queue := atDispatch_queue h.head
    queues := fun r hr => atDispatch_queue_other s q k p hr
    cmd := atDispatch_cmd s q k p
    cmds := fun n hn => atDispatch_cmd_other s q k p hn
    compl := (List.append_nil _).symm
    serial := rfl }
  exact finish_samePumphouse hbegun ⟨atDispatch_frame s q k p, atDispatch_samePumphouse s q k p⟩ st 0 data

end

/-! ## Turning tracts on and off (R103 to R106) -/

theorem tractState_setTract (s : State) (tr : Nat) {code : Nat} (hc : code < 4) (t : Nat) :
    (s.setTract tr code).tractState t = if t = tr then code else s.tractState t := by
  unfold State.tractState State.setTract
  dsimp only
  rw [spGet_spSet]
  split
  · exact Nat.mod_eq_of_lt hc
  · rfl

theorem powerOn_off {s : State} {tr : Nat} (k : Nat) (h : s.tractState tr = 0) :
    s.powerOn k [tr] = (s.setTract tr 1).setJob k (.tractOn [tr]) := by
  have hon : (s.setTract tr 1).tractOn tr = false := by
    rw [State.tractOn, tractState_setTract s tr (by decide), if_pos rfl]
    rfl
  simp [State.powerOn, h, hon]

theorem powerOn_on {s : State} {tr : Nat} (k : Nat) (h : s.tractState tr = 3) : s.powerOn k [tr] = s.finish k stOK 0 0 [] := by
  simp [State.powerOn, State.tractOn, h]

/-- No repair waits for the tract. -/
theorem repairsOf_eq_nil {s : State} {tr : Nat} :
    s.repairsOf tr = [] ↔ ∀ n c, s.cmd n = some c → ∀ r b row, c.job ≠ .repair r tr b row := by
  unfold State.repairsOf
  rw [List.filterMap_eq_nil_iff]
  constructor
  · intro h n c hc r b row hj
    have hmem : (n, c) ∈ s.inOrder := by
      unfold State.inOrder
      refine List.mem_filterMap.2 ⟨n, mem_sortBy.2 (List.mem_map.2 ⟨(n, c), mem_flying_of_cmd hc, rfl⟩), by rw [hc]; rfl⟩
    have hnone := h _ hmem
    simp only [hj] at hnone
    simp at hnone
  · intro h e he
    obtain ⟨n, -, hn⟩ := List.mem_filterMap.1 he
    obtain ⟨c, hc, rfl⟩ := Option.map_eq_some_iff.1 hn
    cases hj : c.job with
    | repair r t b row =>
      have htr : t ≠ tr := fun ht => h n c hc r b row (ht ▸ hj)
      simp only [htr, if_false]
    | _ => rfl

/-- The scrub passes and the repairs of a tract's banks end. -/
def State.banksOff (s : State) (tr : Nat) : State :=
  (List.range 16).foldl (fun s b => s.setBank tr b { s.bank tr b with scrub := none, repair := none }) s

theorem banksOff_onlyBanks (s : State) (tr : Nat) : OnlyBanks s (s.banksOff tr) := by
  have hfold : ∀ (l : List Nat) (u : State), OnlyBanks s u →
      OnlyBanks s (l.foldl (fun s b => s.setBank tr b { s.bank tr b with scrub := none, repair := none }) u) := by
    intro l
    induction l with
    | nil => exact fun u h => h
    | cons b l ih => exact fun u h => ih _ h
  exact hfold _ s rfl

theorem pmh_of_onlyBanks {s u : State} (h : OnlyBanks s u) : u.pmh = s.pmh := (congrArg (fun x : State => x.pmh) h :)

theorem repairsOf_nil_of_pmh {s u : State} {tr : Nat} (h : u.pmh = s.pmh) (hr : s.repairsOf tr = []) : u.repairsOf tr = [] := by
  rw [repairsOf_eq_nil] at hr ⊢
  intro n c hc
  rw [State.cmd, h] at hc
  exact hr n c hc

theorem bank_setBank (s : State) (tr b c : Nat) (x : Bank) :
    (s.setBank tr b x).bank tr c = if c = b then x else s.bank tr c := by
  split
  · next h => rw [h]; exact bank_setBank_same ..
  · next h => exact spGet_spSet_other (by unfold bankKey; omega)

theorem bank_banksOff (s : State) (tr : Nat) {b : Nat} (hb : b < 16) :
    ((s.banksOff tr).bank tr b).scrub = none ∧ ((s.banksOff tr).bank tr b).repair = none := by
  have hfold : ∀ (l : List Nat) (u : State),
      (b ∈ l ∨ (u.bank tr b).scrub = none ∧ (u.bank tr b).repair = none) →
      let v := l.foldl (fun s b => s.setBank tr b { s.bank tr b with scrub := none, repair := none }) u
      (v.bank tr b).scrub = none ∧ (v.bank tr b).repair = none := by
    intro l
    induction l with
    | nil => intro u h; simpa using h
    | cons c l ih =>
      intro u h
      refine ih _ ?_
      rw [bank_setBank]
      by_cases hbc : b = c
      · right; simp [hbc]
      · rw [if_neg hbc]
        exact h.imp_left (fun h => (List.mem_cons.1 h).resolve_left hbc)
  exact hfold _ s (.inl (List.mem_range.2 hb))

theorem scrubEnds_frame (s : State) : { s.scrubEnds with cis := s.cis } = s ∧ s.scrubEnds.cis.mem = s.cis.mem ∧
    s.scrubEnds.cis.synd = s.cis.synd ∧ s.scrubEnds.cis.tract = s.cis.tract ∧ s.scrubEnds.cis.banks = s.cis.banks := by
  unfold State.scrubEnds
  split <;> exact ⟨rfl, rfl, rfl, rfl, rfl⟩

/-- What a tract that goes to OFF leaves, where no walk runs there and no repair waits for it. -/
structure TractIsOff (tr : Nat) (s u : State) : Prop where
  pmh : u.pmh = s.pmh
  queues : u.queues = s.queues
  state : ∀ t, u.tractState t = if t = tr then 0 else s.tractState t
  banks : ∀ b, b < 16 → (u.bank tr b).scrub = none ∧ (u.bank tr b).repair = none
  mem : ∀ a, memByte u a = if a / 2 ^ 24 = tr then 0 else memByte s a
  synd : ∀ v, u.syndrome v = if v / 2 ^ 19 = tr then 0 else s.syndrome v

theorem tractOff_eq {s : State} {tr : Nat} (hw : s.walkOf tr = none) (hr : s.repairsOf tr = []) :
    s.tractOff tr = (((s.emptyTract tr).setTract tr 0).banksOff tr).scrubEnds := by
  have hbanks := banksOff_onlyBanks ((s.emptyTract tr).setTract tr 0) tr
  have hnone : (((s.emptyTract tr).setTract tr 0).banksOff tr).repairsOf tr = [] :=
    repairsOf_nil_of_pmh (pmh_of_onlyBanks hbanks) hr
  have hwalk : ¬((s.emptyTract tr).walkOf tr).isSome = true := by
    rw [show (s.emptyTract tr).walkOf tr = none from hw]
    simp
  have hfold : ∀ u : State, (List.range 16).foldl
      (fun s b => s.setBank tr b { s.bank tr b with scrub := none, repair := none }) u = u.banksOff tr := fun _ => rfl
  unfold State.tractOff
  extract_lets u v w
  have hv : v = (s.emptyTract tr).setTract tr 0 := if_neg hwalk
  have hw : w = ((s.emptyTract tr).setTract tr 0).banksOff tr := by
    unfold w
    rw [hfold, hv]
  rw [hw, hnone, List.foldl_nil]

theorem tractOff_isOff {s : State} {tr : Nat} (hw : s.walkOf tr = none) (hr : s.repairsOf tr = []) :
    TractIsOff tr s (s.tractOff tr) := by
  rw [tractOff_eq hw hr]
  have hbanks := banksOff_onlyBanks ((s.emptyTract tr).setTract tr 0) tr
  have hoff := fun b (hb : b < 16) => bank_banksOff ((s.emptyTract tr).setTract tr 0) tr hb
  generalize ((s.emptyTract tr).setTract tr 0).banksOff tr = u at hbanks hoff ⊢
  obtain ⟨hframe, hmem, hsynd, htract, hbank⟩ := scrubEnds_frame u
  generalize u.scrubEnds = v at hframe hmem hsynd htract hbank ⊢
  refine ⟨?_, ?_, fun t => ?_, fun b hb => ?_, fun a => ?_, fun w => ?_⟩
  · exact (congrArg (fun x : State => x.pmh) hframe :).trans (congrArg (fun x : State => x.pmh) hbanks :)
  · exact (congrArg (fun x : State => x.queues) hframe :).trans (congrArg (fun x : State => x.queues) hbanks :)
  · rw [State.tractState, htract, show u.cis.tract = ((s.emptyTract tr).setTract tr 0).cis.tract from
      (congrArg (fun x : State => x.cis.tract) hbanks :)]
    exact tractState_setTract (s.emptyTract tr) tr (by decide) t
  · rw [State.bank, hbank]
    exact hoff b hb
  · rw [memByte, hmem, show u.cis.mem = (s.emptyTract tr).cis.mem from (congrArg (fun x : State => x.cis.mem) hbanks :)]
    refine (spGet_filter (fun i => decide (i / 2 ^ 24 ≠ tr))).trans ?_
    by_cases ha : a / 2 ^ 24 = tr
    · rw [if_pos ha, if_neg (by simpa using ha)]; rfl
    · rw [if_neg ha, if_pos (by simpa using ha)]; rfl
  · rw [State.syndrome, hsynd,
      show u.cis.synd = (s.emptyTract tr).cis.synd from (congrArg (fun x : State => x.cis.synd) hbanks :)]
    refine (spGet_filter (fun i => decide (i / 2 ^ 19 ≠ tr))).trans ?_
    by_cases ha : w / 2 ^ 19 = tr
    · rw [if_pos ha, if_neg (by simpa using ha)]
    · rw [if_neg ha, if_pos (by simpa using ha)]; rfl

end Sys2Proof.Machine

end

section

namespace Sys2Proof.Machine

/-! ## TRACT_POWER at dispatch (R104 to R106) -/

theorem exec_tractPowerOn (q : Fin 512) (s : State) : exec (.tractPowerOn q) s = .next (tractPowerOn q.val s) := rfl
theorem exec_tractPowerOff (q : Fin 512) (s : State) : exec (.tractPowerOff q) s = .next (tractPowerOff q.val s) := rfl
theorem exec_repairRowLive (q : Fin 512) (s : State) : exec (.repairRowLive q) s = .next (repairRowLive q.val s) := rfl
theorem exec_repairRowRestore (q : Fin 512) (s : State) : exec (.repairRowRestore q) s = .next (repairRowRestore q.val s) := rfl

theorem namedTracts_one {s : State} {p : Pkt} (hmode : p.byte 8 ≤ 1) (hscope : p.byte 9 = 0) (htr : p.byte 10 ≤ 63)
    (hpresent : s.tractPresent (p.byte 10) = true) : s.namedTracts p = .ok [p.byte 10] := by
  unfold State.namedTracts
  rw [if_neg (by omega), if_neg (by omega), if_pos hpresent]

/-- A TRACT_POWER that names one tract, which is not on its way to ON, acts on it at once. -/
theorem tractPowerAct_one {s : State} (k : Nat) {p : Pkt} (hmode : p.byte 8 ≤ 1) (hscope : p.byte 9 = 0)
    (htr : p.byte 10 ≤ 63) (hpresent : s.tractPresent (p.byte 10) = true) (hfailed : p.byte 8 = 1 → s.tractFailed (p.byte 10) = false)
    (hstate : s.tractState (p.byte 10) = 0 ∨ s.tractState (p.byte 10) = 3) :
    tractPowerAct s k p = dispatchAs s k .ended (fun s => s.power k (decide (p.byte 8 = 1)) [p.byte 10]) := by
  have hpermitted : ¬(decide (p.byte 8 = 1) && [p.byte 10].any s.tractFailed) = true := by
    simpa using hfailed
  have hwaking : ¬[p.byte 10].any s.tractWaking = true := by
    rcases hstate with h | h <;> simp [State.tractWaking, h]
  unfold tractPowerAct
  rw [namedTracts_one hmode hscope htr hpresent]
  dsimp only
  rw [if_neg hpermitted, if_neg hwaking]

section

variable {s : State} {q : Fin 512} {k : Nat} {p : Pkt} {rest : List Pkt}

/-- The command of the packet holds its slot and has ended, but for its completion: what its work starts from. -/
def begunAt (s : State) (q k : Nat) (p : Pkt) : State := (atDispatch s q k p).setJob k .ended

theorem begunAt_frame (s : State) (q k : Nat) (p : Pkt) :
    OnlyPumphouse s (begunAt s q k p) ∧ SamePumphouse s (begunAt s q k p) :=
  run_apply_frame s q k p .ended

theorem begunAt_cis (s : State) (q k : Nat) (p : Pkt) : (begunAt s q k p).cis = s.cis :=
  (congrArg (fun x : State => x.cis) (begunAt_frame s q k p).1 :)

theorem begunAt_act (s : State) (q k : Nat) (p : Pkt) : (begunAt s q k p).act = s.act :=
  (congrArg (fun x : State => x.act) (begunAt_frame s q k p).1 :)

theorem begunAt_tractState (s : State) (q k : Nat) (p : Pkt) (t : Nat) :
    (begunAt s q k p).tractState t = s.tractState t := by
  rw [State.tractState, begunAt_cis, State.tractState]

/-- What TRACT_POWER does to one tract that is not on its way to ON. -/
theorem tractPower_apply (hmode : p.byte 8 ≤ 1) (hscope : p.byte 9 = 0)
    (htr : p.byte 10 ≤ 63) (hpresent : s.tractPresent (p.byte 10) = true)
    (hfailed : p.byte 8 = 1 → s.tractFailed (p.byte 10) = false)
    (hstate : s.tractState (p.byte 10) = 0 ∨ s.tractState (p.byte 10) = 3) {j : Job} {done : List Compl}
    (hbooked : Booked s ((begunAt s q.val k p).power k (decide (p.byte 8 = 1)) [p.byte 10]) q.val k
      (dispatched (s.queue q.val) k p rest) (some (entryOf s q.val p j)) done) :
    (tractPowerAct (atDispatch s q.val k p) k p).apply s k =
      ((begunAt s q.val k p).power k (decide (p.byte 8 = 1)) [p.byte 10]).setJob k j := by
  have hframe : OnlyPumphouse s (atDispatch s q.val k p) := atDispatch_frame ..
  have hcis : (atDispatch s q.val k p).cis = s.cis := (congrArg (fun x : State => x.cis) hframe :)
  have hfuse : (atDispatch s q.val k p).fuse = s.fuse := fuse_of_onlyPumphouse hframe
  have hact := tractPowerAct_one (s := atDispatch s q.val k p) k hmode hscope htr
    (by rw [State.tractPresent, hfuse]; exact hpresent) (fun h1 => by rw [State.tractFailed, hcis]; exact hfailed h1)
    (by rw [State.tractState, hcis]; exact hstate)
  rw [hact]
  exact dispatchAs_apply (f := fun s => s.power k (decide (p.byte 8 = 1)) [p.byte 10]) hbooked

/-- Nothing but the Pumphouse, the queues and the states of the tracts differs. -/
def OnlyTracts (s u : State) : Prop :=
  { u with
      queues := s.queues
      pmh := s.pmh
      cis := { u.cis with tract := s.cis.tract } } = s

theorem onlyTracts_setTract {s u : State} (h : OnlyPumphouse s u) (tr code : Nat) : OnlyTracts s (u.setTract tr code) :=
  (congrArg (fun x : State => { x with cis := { x.cis with tract := s.cis.tract } }) h :)

theorem onlyTracts_setJob {s u : State} (h : OnlyTracts s u) (k : Nat) (j : Job) : OnlyTracts s (u.setJob k j) := by
  unfold State.setJob
  split
  · exact h
  · exact h

theorem tractPowerOn_wakes (h : DispatchReady s q.val k p rest) (hop : p.opcode = 0x3C) (hscope : p.byte 9 = 0)
    (htr : p.byte 10 ≤ 63) (hpresent : s.tractPresent (p.byte 10) = true) (hmode : p.byte 8 = 1)
    (hfailed : s.tractFailed (p.byte 10) = false) (hoff : s.tractState (p.byte 10) = 0) :
    ∃ s', exec (.tractPowerOn q) s = .next s' ∧ s'.tractState (p.byte 10) = 1 ∧
      (∀ t, t ≠ p.byte 10 → s'.tractState t = s.tractState t) ∧ SameMemory s s' ∧ SamePumphouse s s' ∧
      { s' with
          queues := s.queues
          pmh := s.pmh
          cis := { s'.cis with tract := s.cis.tract } } = s ∧
      InFlight s s' q.val k p rest (.tractOn [p.byte 10]) := by
  have hbegun := begun_inFlight h .ended
  obtain ⟨honly, hsame⟩ := begunAt_frame s q.val k p
  have hpower : (begunAt s q.val k p).power k (decide (p.byte 8 = 1)) [p.byte 10] =
      ((begunAt s q.val k p).setTract (p.byte 10) 1).setJob k (.tractOn [p.byte 10]) := by
    rw [State.power, if_pos (decide_eq_true hmode)]
    exact powerOn_off k ((begunAt_tractState ..).trans hoff)
  have hset : Booked s ((begunAt s q.val k p).setTract (p.byte 10) 1) q.val k _ _ _ := booked_of_same hbegun rfl rfl
  have hbooked := booked_setJob hset (.tractOn [p.byte 10])
  have happly := tractPower_apply (by omega) hscope htr hpresent (fun _ => hfailed) (.inl hoff) (hpower ▸ hbooked)
  rw [exec_tractPowerOn, tractPowerOn, dispatch_ready h (by simp [hop, hmode]), happly, hpower]
  have hcis := begunAt_cis s q.val k p
  have hstate : ∀ t, ((begunAt s q.val k p).setTract (p.byte 10) 1).tractState t =
      if t = p.byte 10 then 1 else s.tractState t := fun t => by
    rw [tractState_setTract _ _ (by decide), begunAt_tractState]
  refine ⟨_, rfl, ?_, fun t ht => ?_, ?_, ?_, ?_, booked_setJob hbooked _⟩
  · rw [State.tractState, setJob_cis, setJob_cis]
    exact (hstate _).trans (if_pos rfl)
  · rw [State.tractState, setJob_cis, setJob_cis]
    exact (hstate t).trans (if_neg ht)
  · rw [SameMemory, setJob_cis, setJob_cis]
    exact ⟨(congrArg (fun x : Cis => x.mem) hcis :), (congrArg (fun x : Cis => x.synd) hcis :)⟩
  · exact samePumphouse_setJob (samePumphouse_setJob (u := (begunAt s q.val k p).setTract (p.byte 10) 1) hsame k _) k _
  · exact onlyTracts_setJob (onlyTracts_setJob (onlyTracts_setTract honly _ _) _ _) _ _

theorem tractPowerOn_on (h : DispatchReady s q.val k p rest) (hop : p.opcode = 0x3C) (hscope : p.byte 9 = 0)
    (htr : p.byte 10 ≤ 63) (hpresent : s.tractPresent (p.byte 10) = true) (hmode : p.byte 8 = 1)
    (hfailed : s.tractFailed (p.byte 10) = false) (hon : s.tractState (p.byte 10) = 3) :
    ∃ s', exec (.tractPowerOn q) s = .next s' ∧ OnlyPumphouse s s' ∧ SamePumphouse s s' ∧
      Ended s s' q.val k p rest stOK 0 [] := by
  have hbegun := begun_inFlight h .ended
  have hpower : (begunAt s q.val k p).power k (decide (p.byte 8 = 1)) [p.byte 10] =
      (begunAt s q.val k p).finish k stOK 0 0 [] := by
    rw [State.power, if_pos (decide_eq_true hmode)]
    exact powerOn_on k ((begunAt_tractState ..).trans hon)
  have hbooked := booked_finish hbegun stOK 0 []
  obtain ⟨honly, hsame⟩ := finish_samePumphouse hbegun (begunAt_frame s q.val k p) stOK 0 []
  have happly := tractPower_apply (by omega) hscope htr hpresent (fun _ => hfailed) (.inr hon) (hpower ▸ hbooked)
  rw [exec_tractPowerOn, tractPowerOn, dispatch_ready h (by simp [hop, hmode]), happly, hpower]
  exact ⟨_, rfl, onlyPumphouse_setJob honly k _, samePumphouse_setJob hsame k _, booked_setJob hbooked _⟩

theorem tractPowerOff_spanned (h : DispatchReady s q.val k p rest) (hop : p.opcode = 0x3C) (hscope : p.byte 9 = 0)
    (htr : p.byte 10 ≤ 63) (hpresent : s.tractPresent (p.byte 10) = true) (hmode : p.byte 8 = 0)
    (hon : s.tractState (p.byte 10) = 3) (hspanned : s.act.spanned (p.byte 10) = true) :
    ∃ s', exec (.tractPowerOff q) s = .next s' ∧ OnlyPumphouse s s' ∧ SamePumphouse s s' ∧
      Ended s s' q.val k p rest stPermission 0 [] := by
  have hbegun := begun_inFlight h .ended
  have hpower : (begunAt s q.val k p).power k (decide (p.byte 8 = 1)) [p.byte 10] =
      (begunAt s q.val k p).finish k stPermission 0 0 [] := by
    rw [State.power, if_neg (by simp [hmode]), State.powerOff, begunAt_act]
    exact if_pos (by simp [hspanned])
  have hbooked := booked_finish hbegun stPermission 0 []
  obtain ⟨honly, hsame⟩ := finish_samePumphouse hbegun (begunAt_frame s q.val k p) stPermission 0 []
  have happly := tractPower_apply (by omega) hscope htr hpresent (by omega) (.inr hon) (hpower ▸ hbooked)
  rw [exec_tractPowerOff, tractPowerOff, dispatch_ready h (by simp [hop, hmode]), happly, hpower]
  exact ⟨_, rfl, onlyPumphouse_setJob honly k _, samePumphouse_setJob hsame k _, booked_setJob hbooked _⟩

theorem repairsOf_begunAt (h : DispatchReady s q.val k p rest) {tr : Nat} (hr : s.repairsOf tr = []) :
    (begunAt s q.val k p).repairsOf tr = [] := by
  have hbegun : InFlight s (begunAt s q.val k p) q.val k p rest .ended := begun_inFlight h .ended
  rw [repairsOf_eq_nil] at hr ⊢
  intro n c hc r b row
  by_cases hn : n = k
  · subst hn
    rw [hbegun.cmd] at hc
    obtain rfl := Option.some.inj hc
    simp [entryOf]
  · exact hr n c ((hbegun.cmds n hn).symm.trans hc) r b row

theorem tractPowerOff_off (h : DispatchReady s q.val k p rest) (hop : p.opcode = 0x3C) (hscope : p.byte 9 = 0)
    (htr : p.byte 10 ≤ 63) (hpresent : s.tractPresent (p.byte 10) = true) (hmode : p.byte 8 = 0)
    (hon : s.tractState (p.byte 10) = 3) (hspanned : s.act.spanned (p.byte 10) = false) (hwalk : s.walkOf (p.byte 10) = none)
    (hrepairs : s.repairsOf (p.byte 10) = []) :
    ∃ s', exec (.tractPowerOff q) s = .next s' ∧ s'.tractState (p.byte 10) = 0 ∧
      (∀ t, t ≠ p.byte 10 → s'.tractState t = s.tractState t) ∧
      (∀ b, b < 16 → (s'.bank (p.byte 10) b).scrub = none ∧ (s'.bank (p.byte 10) b).repair = none) ∧
      (∀ a, memByte s' a = if a / 2 ^ 24 = p.byte 10 then 0 else memByte s a) ∧
      (∀ v, s'.syndrome v = if v / 2 ^ 19 = p.byte 10 then 0 else s.syndrome v) ∧ Ended s s' q.val k p rest stOK 0 [] := by
  have hbegun := begun_inFlight h .ended
  have hpower : (begunAt s q.val k p).power k (decide (p.byte 8 = 1)) [p.byte 10] =
      ((begunAt s q.val k p).tractOff (p.byte 10)).finish k stOK 0 0 [] := by
    rw [State.power, if_neg (by simp [hmode]), State.powerOff, begunAt_act]
    exact if_neg (by simp [hspanned])
  have hoff : TractIsOff (p.byte 10) (begunAt s q.val k p) ((begunAt s q.val k p).tractOff (p.byte 10)) := tractOff_isOff
    (by rw [State.walkOf, begunAt_cis]; exact hwalk) (repairsOf_begunAt h hrepairs)
  have htaken : Booked s ((begunAt s q.val k p).tractOff (p.byte 10)) q.val k _ _ _ :=
    booked_of_same hbegun hoff.pmh hoff.queues
  have hbooked := booked_finish htaken stOK 0 []
  have happly := tractPower_apply (by omega) hscope htr hpresent (by omega) (.inr hon) (hpower ▸ hbooked)
  rw [exec_tractPowerOff, tractPowerOff, dispatch_ready h (by simp [hop, hmode]), happly, hpower]
  have hcis : ((((begunAt s q.val k p).tractOff (p.byte 10)).finish k stOK 0 0 []).setJob k .ended).cis =
      ((begunAt s q.val k p).tractOff (p.byte 10)).cis := by
    rw [setJob_cis]
    exact (congrArg (fun x : State => x.cis) (finish_queue_frame htaken.cmd rfl stOK 0 0 []) :)
  have hstate : ∀ t, ((begunAt s q.val k p).tractOff (p.byte 10)).tractState t =
      if t = p.byte 10 then 0 else s.tractState t := fun t => by rw [hoff.state, begunAt_tractState]
  refine ⟨_, rfl, ?_, fun t ht => ?_, fun b hb => ?_, fun a => ?_, fun v => ?_, booked_setJob hbooked _⟩
  · rw [State.tractState, hcis]
    exact (hstate _).trans (if_pos rfl)
  · rw [State.tractState, hcis]
    exact (hstate t).trans (if_neg ht)
  · rw [State.bank, hcis]
    exact hoff.banks b hb
  · rw [memByte, hcis]
    refine (hoff.mem a).trans ?_
    rw [memByte, begunAt_cis, memByte]
  · rw [State.syndrome, hcis]
    refine (hoff.synd v).trans ?_
    rw [State.syndrome, begunAt_cis, State.syndrome]

/-! ## REPAIR_ROW at dispatch (R131 to R133) -/

/-- A repair of a row of a tract that is ON waits for its bank, or ends at once where it installs nothing. -/
theorem repairAct_on {s : State} {k : Nat} {p : Pkt} (hmode : p.byte 8 ≤ 1) (hb : p.byte 10 ≤ 15) (htr : p.byte 9 ≤ 63)
    (hrow : p.u16 12 ≤ 511) (hpresent : s.tractPresent (p.byte 9) = true) (hon : s.tractState (p.byte 9) = 3) :
    ((s.bank (p.byte 9) (p.byte 10)).repairRefusal (decide (p.byte 8 = 1)) (p.u16 12) = none →
      repairAct s k p = .run s (.repair (decide (p.byte 8 = 1)) (p.byte 9) (p.byte 10) (p.u16 12))) ∧
    (∀ r, (s.bank (p.byte 9) (p.byte 10)).repairRefusal (decide (p.byte 8 = 1)) (p.u16 12) = some r →
      repairAct s k p = .ok s ((s.bank (p.byte 9) (p.byte 10)).repairData (p.u16 12) r)) := by
  have hparams : ¬(1 < p.byte 8 ∨ 15 < p.byte 10 ∨ 63 < p.byte 9 ∨ 511 < p.u16 12) := by omega
  have hthere : ¬(!s.tractPresent (p.byte 9)) = true := by simp [hpresent]
  have hold : ¬(s.tractState (p.byte 9) = 0 ∨ s.tractState (p.byte 9) = 1) := by omega
  have hwaking : ¬s.tractState (p.byte 9) = 2 := by omega
  unfold repairAct
  dsimp only
  rw [if_neg hparams, if_neg hthere, if_neg hold, if_neg hwaking]
  exact ⟨fun hnone => by rw [hnone], fun r hr => by rw [hr]⟩

/-- What REPAIR_ROW comes to for a row of a tract that is ON. -/
theorem repair_dispatches (h : DispatchReady s q.val k p rest) (hmode : p.byte 8 ≤ 1) (hb : p.byte 10 ≤ 15)
    (htr : p.byte 9 ≤ 63) (hrow : p.u16 12 ≤ 511) (hpresent : s.tractPresent (p.byte 9) = true)
    (hon : s.tractState (p.byte 9) = 3) :
    let x := s.bank (p.byte 9) (p.byte 10)
    let s' := (repairAct (atDispatch s q.val k p) k p).apply s k
    OnlyPumphouse s s' ∧ SamePumphouse s s' ∧
      (x.repairRefusal (decide (p.byte 8 = 1)) (p.u16 12) = none →
        InFlight s s' q.val k p rest (.repair (decide (p.byte 8 = 1)) (p.byte 9) (p.byte 10) (p.u16 12))) ∧
      (∀ r, x.repairRefusal (decide (p.byte 8 = 1)) (p.u16 12) = some r →
        Ended s s' q.val k p rest stOK 0 (x.repairData (p.u16 12) r)) := by
  have hframe : OnlyPumphouse s (atDispatch s q.val k p) := atDispatch_frame ..
  have hcis : (atDispatch s q.val k p).cis = s.cis := (congrArg (fun x : State => x.cis) hframe :)
  have hbank : (atDispatch s q.val k p).bank (p.byte 9) (p.byte 10) = s.bank (p.byte 9) (p.byte 10) := by
    rw [State.bank, hcis, State.bank]
  obtain ⟨hrun, hok⟩ := repairAct_on (s := atDispatch s q.val k p) (k := k) hmode hb htr hrow
    (by rw [State.tractPresent, fuse_of_onlyPumphouse hframe]; exact hpresent) (by rw [State.tractState, hcis]; exact hon)
  rw [hbank] at hrun hok
  dsimp only
  cases hrefusal : (s.bank (p.byte 9) (p.byte 10)).repairRefusal (decide (p.byte 8 = 1)) (p.u16 12) with
  | none =>
    rw [hrun hrefusal]
    obtain ⟨honly, hsame⟩ := run_apply_frame s q.val k p (.repair (decide (p.byte 8 = 1)) (p.byte 9) (p.byte 10) (p.u16 12))
    exact ⟨honly, hsame, fun _ => inFlight_of_run h _, fun r hr => by simp at hr⟩
  | some r =>
    rw [hok r hrefusal, DispOut.ok]
    obtain ⟨honly, hsame⟩ := ended_frame h stOK ((s.bank (p.byte 9) (p.byte 10)).repairData (p.u16 12) r)
    refine ⟨honly, hsame, fun hn => by simp at hn, fun r' hr => ?_⟩
    obtain rfl := Option.some.inj hr
    exact ended_of_fin h stOK 0 _

theorem repairRowLive_dispatches (h : DispatchReady s q.val k p rest) (hop : p.opcode = 0x3D) (hb : p.byte 10 ≤ 15)
    (htr : p.byte 9 ≤ 63) (hrow : p.u16 12 ≤ 511) (hpresent : s.tractPresent (p.byte 9) = true)
    (hon : s.tractState (p.byte 9) = 3) (hmode : p.byte 8 = 0) :
    let x := s.bank (p.byte 9) (p.byte 10)
    ∃ s', exec (.repairRowLive q) s = .next s' ∧ OnlyPumphouse s s' ∧ SamePumphouse s s' ∧
      (x.freeSpare ≠ none → InFlight s s' q.val k p rest (.repair false (p.byte 9) (p.byte 10) (p.u16 12))) ∧
      (x.freeSpare = none → Ended s s' q.val k p rest stOK 0
        (leBytes 1 2 ++ leBytes 1 ((x.spareOf (p.u16 12)).getD 0xFF) ++ leBytes 1 x.freeCount)) := by
  have hlive : decide (p.byte 8 = 1) = false := by simp [hmode]
  obtain ⟨honly, hsame, hwaits, hends⟩ := repair_dispatches h (by omega) hb htr hrow hpresent hon
  rw [hlive] at hwaits hends
  rw [exec_repairRowLive, repairRowLive, dispatch_ready h (by simp [hop, hmode])]
  refine ⟨_, rfl, honly, hsame, fun hfree => hwaits ?_, fun hfree => hends 2 ?_⟩
  · simp [Bank.repairRefusal, hfree]
  · simp [Bank.repairRefusal, hfree]

theorem repairRowRestore_dispatches (h : DispatchReady s q.val k p rest) (hop : p.opcode = 0x3D) (hb : p.byte 10 ≤ 15)
    (htr : p.byte 9 ≤ 63) (hrow : p.u16 12 ≤ 511) (hpresent : s.tractPresent (p.byte 9) = true)
    (hon : s.tractState (p.byte 9) = 3) (hmode : p.byte 8 = 1) :
    let x := s.bank (p.byte 9) (p.byte 10)
    ∃ s', exec (.repairRowRestore q) s = .next s' ∧ OnlyPumphouse s s' ∧ SamePumphouse s s' ∧
      (x.spareOf (p.u16 12) = none → x.freeSpare ≠ none →
        InFlight s s' q.val k p rest (.repair true (p.byte 9) (p.byte 10) (p.u16 12))) ∧
      (∀ n, x.spareOf (p.u16 12) = some n → Ended s s' q.val k p rest stOK 0
        (leBytes 1 1 ++ leBytes 1 n ++ leBytes 1 x.freeCount)) := by
  have hrestore : decide (p.byte 8 = 1) = true := by simp [hmode]
  obtain ⟨honly, hsame, hwaits, hends⟩ := repair_dispatches h (by omega) hb htr hrow hpresent hon
  rw [hrestore] at hwaits hends
  rw [exec_repairRowRestore, repairRowRestore, dispatch_ready h (by simp [hop, hmode])]
  refine ⟨_, rfl, honly, hsame, fun hnone hfree => hwaits ?_, fun n hn => ?_⟩
  · simp [Bank.repairRefusal, hnone, hfree]
  · have hended := hends 1 (by simp [Bank.repairRefusal, hn])
    rw [Bank.repairData, hn] at hended
    exact hended

/-- Settles O36: TRACT_POWER on one tract, and REPAIR_ROW in a tract that is ON. -/
theorem tractPowerAndRepairs : Obligations.TractPowerAndRepairs := by
  intro q k p rest s h
  refine ⟨fun hop hscope htr hpresent => ⟨?_, ?_, ?_, ?_⟩, fun hop hb htr hrow hpresent hon => ⟨?_, ?_⟩⟩
  · exact tractPowerOn_wakes h hop hscope htr hpresent
  · exact tractPowerOn_on h hop hscope htr hpresent
  · exact tractPowerOff_spanned h hop hscope htr hpresent
  · exact tractPowerOff_off h hop hscope htr hpresent
  · exact repairRowLive_dispatches h hop hb htr hrow hpresent hon
  · exact repairRowRestore_dispatches h hop hb htr hrow hpresent hon

end

end Sys2Proof.Machine

end

section

namespace Sys2Proof.Machine

/-! ## The syndromes of the integrity code (R116 to R118) -/

/-- A column is ten bits wide and has three or five of them set (R116). -/
theorem popcount_column {c : Nat} (h : c ∈ columns) : c < 1024 ∧ (popcount 10 c = 3 ∨ popcount 10 c = 5) := by
  rcases List.mem_append.1 (List.mem_of_mem_take h) with hc | hc <;> obtain ⟨hlt, hcount⟩ := List.mem_filter.1 hc
  · exact ⟨List.mem_range.1 hlt, .inl (of_decide_eq_true hcount)⟩
  · exact ⟨List.mem_range.1 hlt, .inr (of_decide_eq_true hcount)⟩

/-- The columns of three bits and those of five are each without repetition, and have none in common. -/
theorem columns_nodup : columns.Nodup := by
  refine (List.Nodup.append (List.nodup_range.filter _) (List.nodup_range.filter _) fun c h3 h5 => ?_).sublist
    (List.take_sublist ..)
  have hc3 : popcount 10 c = 3 := of_decide_eq_true (List.mem_filter.1 h3).2
  have hc5 : popcount 10 c = 5 := of_decide_eq_true (List.mem_filter.1 h5).2
  omega

theorem length_columns : columns.length = 256 := by decide +kernel

theorem findIdx_column {i : Nat} (h : i < columns.length) :
    columns.findIdx? (fun c => decide (c = columns[i])) = some i := by
  rw [List.findIdx?_eq_some_iff_getElem]
  refine ⟨h, decide_eq_true rfl, fun j hj => ?_⟩
  simp only [decide_eq_true_eq, columns_nodup.getElem_inj_iff]
  omega

/-- A syndrome that is the column of a data bit names that bit: it has too many bits for a check bit's and too few for
poison's. -/
theorem wordState_column {c i : Nat} (hmem : c ∈ columns) (hidx : columns.findIdx? (fun x => decide (x = c)) = some i) :
    wordState (BitVec.ofNat 10 c) = .correctable (some i) := by
  obtain ⟨hlt, hcount⟩ := popcount_column hmem
  have hnat : (BitVec.ofNat 10 c).toNat = c := by rw [BitVec.toNat_ofNat, Nat.mod_eq_of_lt hlt]
  have hne : ∀ y : BitVec 10, popcount 10 y.toNat ≠ 3 → popcount 10 y.toNat ≠ 5 → BitVec.ofNat 10 c ≠ y := by
    rintro y h3 h5 rfl
    rw [hnat] at h3 h5
    exact hcount.elim h3 h5
  rw [wordState, if_neg (hne 0 (by decide) (by decide)), if_neg (hne synPoison (by decide) (by decide)), hnat,
    if_neg (by omega), hidx]

theorem syndromesNameTheBit : SyndromesNameTheBitRule := by
  refine ⟨length_columns, columns_nodup, fun i hi => ?_, by decide, by decide, by decide⟩
  have hlen : i < columns.length := length_columns ▸ hi
  rw [List.getD_eq_getElem _ _ hlen]
  exact wordState_column (List.getElem_mem hlen) (findIdx_column hlen)

/-! ## Rewriting a damaged word (Table INT-2) -/

theorem length_setAt {α : Type} (l : List α) (i : Nat) (a : α) : (setAt l i a).length = l.length := by
  induction l generalizing i with
  | nil => rfl
  | cons b l ih =>
    cases i with
    | zero => rfl
    | succ i => exact congrArg (· + 1) (ih i)

theorem length_stored (s : State) (w : Nat) : (s.stored w).length = 32 := by simp [State.stored]

/-- The bytes of a word once its bit in error, if that is a data bit, is corrected. -/
def State.corrected (s : State) (w : Nat) (d : Option Nat) : List Byte :=
  match d with
  | none => s.stored w
  | some k => flipBit (s.stored w) k

theorem length_corrected (s : State) (w : Nat) (d : Option Nat) : (s.corrected w d).length = 32 := by
  cases d with
  | none => exact length_stored s w
  | some k => exact (length_setAt ..).trans (length_stored s w)

/-- Word `w` now holds `data` with syndrome `y`, and every other word is as it was. -/
structure WordRewritten (s u : State) (w : Nat) (data : List Byte) (y : BitVec 10) : Prop where
  stored : u.stored w = data
  syndrome : u.syndrome w = y
  others : (∀ a, a / 32 ≠ w → memByte u a = memByte s a) ∧ ∀ v, v ≠ w → u.syndrome v = s.syndrome v

theorem byteAt_of_lt {l : List Byte} {k : Nat} (h : k < l.length) : byteAt l k = l[k] := List.getD_eq_getElem _ _ h

theorem wordRewritten_putWord (s : State) (w : Nat) {data : List Byte} (y : BitVec 10) (h : data.length = 32) :
    WordRewritten s (s.putWord w data y) w data y where
  stored := by
    refine List.ext_getElem ((length_stored ..).trans h.symm) fun k hk hk' => ?_
    have hlt : k < 32 := h ▸ hk'
    rw [← byteAt_of_lt hk, ← byteAt_of_lt hk', byteAt_stored _ _ hlt, memByte_putWord, if_pos (by omega),
      Nat.mul_add_mod, Nat.mod_eq_of_lt hlt]
  syndrome := by rw [syndrome_putWord, if_pos rfl]
  others := ⟨fun a ha => by rw [memByte_putWord, if_neg ha], fun v hv => by rw [syndrome_putWord, if_neg hv]⟩

theorem WordRewritten.moved {s u v : State} {w : Nat} {data : List Byte} {y : BitVec 10}
    (h : WordRewritten s u w data y) (g : SameMemory u v) : WordRewritten s v w data y where
  stored := by rw [State.stored, g.1]; exact h.stored
  syndrome := (syndrome_of_sameMemory g w).trans h.syndrome
  others := ⟨fun a ha => (memByte_of_sameMemory g a).trans (h.others.1 a ha),
    fun x hx => (syndrome_of_sameMemory g x).trans (h.others.2 x hx)⟩

/-! ## The counts of errors (R137, R138) -/

/-- Stated for any entry, so that the kernel does not unfold the one that is appended. -/
theorem log_counts (s : State) (e : Sparse (BitVec 256)) (h : BitVec 7) (l : Word) :
    let u := { s with cis := { s.cis with elog := e, elogHead := h, elogLost := l } }
    u.cis.ce = s.cis.ce ∧ u.cis.ue = s.cis.ue := ⟨rfl, rfl⟩

theorem logError_counts (s : State) (a k : Nat) (y : BitVec 10) (i : AccessInfo) :
    (s.logError a k y i).cis.ce = s.cis.ce ∧ (s.logError a k y i).cis.ue = s.cis.ue := by
  unfold State.logError
  dsimp only
  split
  · exact log_counts s _ _ s.cis.elogLost
  · exact log_counts s s.cis.elog s.cis.elogHead _

theorem logCe_counts (s : State) (a : Nat) (y : BitVec 10) (i : AccessInfo) :
    (s.logCe a y i).cis.ce = s.cis.ce + 1 ∧ (s.logCe a y i).cis.ue = s.cis.ue := by
  obtain ⟨hce, hue⟩ := logError_counts s a kindCe y i
  simp only [State.logCe, cis_ite, State.notify_cis, ite_self, hce, hue, and_self]

theorem logUe_counts (s : State) (a : Nat) (y : BitVec 10) (i : AccessInfo) :
    (s.logUe a y i).cis.ue = s.cis.ue + 1 ∧ (s.logUe a y i).cis.ce = s.cis.ce := by
  obtain ⟨hce, hue⟩ := logError_counts s a kindUe y i
  simp only [State.logUe, State.notify_cis, hce, hue, and_self]

/-! ## Narrow reads of damaged words (Table INT-2, Read) -/

theorem readNarrow_correctable {s : State} {a : Nat} {d : Option Nat} (i : AccessInfo) (n : Nat)
    (h : wordState (s.syndrome (a / 32)) = .correctable d) :
    ∃ u, s.readNarrow i a n = { bytes := ((s.corrected (a / 32) d).drop (a % 32)).take n, marks := [false], status := stOK
                                state := u } ∧
      WordRewritten s u (a / 32) (s.corrected (a / 32) d) 0 ∧ u.cis.ce = s.cis.ce + 1 ∧ u.cis.ue = s.cis.ue := by
  refine ⟨(s.putWord (a / 32) (s.corrected (a / 32) d) 0).logCe (32 * (a / 32)) (s.syndrome (a / 32)) i, ?_, ?_,
    logCe_counts ..⟩
  · simp only [State.readNarrow, State.readWord, h, countPoison_ok]
    rfl
  · exact (wordRewritten_putWord s _ 0 (length_corrected ..)).moved (State.logCe_contents ..)

theorem drop_take_zeroWord {o n : Nat} (h : o + n ≤ 32) : (zeroWord.drop o).take n = List.replicate n 0 := by
  rw [zeroWord, List.drop_replicate, List.take_replicate, Nat.min_eq_left (by omega)]

theorem readNarrow_poisoned {s : State} {a n : Nat} (i : AccessInfo) (hn : a % 32 + n ≤ 32)
    (h : wordState (s.syndrome (a / 32)) = .poisoned) :
    s.readNarrow i a n = { bytes := List.replicate n 0, marks := [true], status := stPoison
                           state := { s with cis := { s.cis with poisonReads := s.cis.poisonReads + 1 } } } := by
  simp only [State.readNarrow, State.readWord, h, drop_take_zeroWord hn, State.countPoison, if_true]

theorem readNarrow_uncorrectable {s : State} {a n : Nat} (i : AccessInfo) (hn : a % 32 + n ≤ 32)
    (h : wordState (s.syndrome (a / 32)) = .uncorrectable) :
    ∃ u, s.readNarrow i a n = { bytes := List.replicate n 0, marks := [true], status := stUncorrectable, state := u } ∧
      WordRewritten s u (a / 32) (s.stored (a / 32)) synPoison ∧ u.cis.ue = s.cis.ue + 1 ∧ u.cis.ce = s.cis.ce := by
  have hcount : ∀ u : State, u.countPoison stUncorrectable = u := fun _ => if_neg (by decide)
  refine ⟨(s.putWord (a / 32) (s.stored (a / 32)) synPoison).logUe (32 * (a / 32)) (s.syndrome (a / 32)) i, ?_, ?_,
    logUe_counts ..⟩
  · simp only [State.readNarrow, State.readWord, h, drop_take_zeroWord hn, hcount]
  · exact (wordRewritten_putWord s _ synPoison (length_stored ..)).moved (State.logUe_contents ..)

/-- An open slot that grants a narrow read which gives `g`: it stores and counts what the read does, and answers. -/
theorem bankSlot_readNarrow {s : State} {tr b n : Nat} {r : CisReq} {g : Got} (h : SlotOpen s tr b)
    (hg : s.grant tr b = some r) (hk : r.kind = .readNarrow n) (hread : (s.atGrant tr b r).readNarrow r.info r.addr n = g) :
    SameMemory g.state (bankSlot tr b s) ∧ (bankSlot tr b s).cis.ce = g.state.cis.ce ∧
      (bankSlot tr b s).cis.ue = g.state.cis.ue ∧ (bankSlot tr b s).cis.poisonReads = g.state.cis.poisonReads ∧
      ∃ a, (bankSlot tr b s).cis.resps = s.cis.resps ++ [a] ∧
        (a.data, a.marks, a.status) = (g.bytes, g.marks, g.status) := by
  obtain ⟨a, hp, hans⟩ : ∃ a, (s.atGrant tr b r).perform r = (g.state, a) ∧
      (a.data, a.marks, a.status) = (g.bytes, g.marks, g.status) := by
    simp only [State.perform, hk, hread]
    exact ⟨_, rfl, rfl⟩
  obtain ⟨hsame, hresps⟩ := bankSlot_performed h hg hp
  refine ⟨hsame, ?_, ?_, ?_, a, hresps, hans⟩ <;> rw [bankSlot_grant h hg, hp]

/-- The state at the grant holds the words of `s`, so the rules of the read speak of them. -/
theorem readsOfDamagedWords : ReadsOfDamagedWordsRule := by
  intro tr b s r n hopen hg hk hn
  simp only [exec_bankSlot]
  refine ⟨fun d hd => ?_, fun hd => ?_, fun hd => ?_⟩
  · obtain ⟨u, hread, hword, hce, hue⟩ := readNarrow_correctable (s := s.atGrant tr.val b.val r) r.info n hd
    obtain ⟨hsame, hce', hue', -, a, hresps, hans⟩ := bankSlot_readNarrow hopen hg hk hread
    obtain ⟨hstored, hsyn, hothers⟩ := hword.moved hsame
    exact ⟨_, a, rfl, hstored, hsyn, hothers, hce'.trans hce, hue'.trans hue, hresps, hans⟩
  · have hread := readNarrow_poisoned (s := s.atGrant tr.val b.val r) r.info hn hd
    obtain ⟨hsame, hce, hue, hpoison, a, hresps, hans⟩ := bankSlot_readNarrow hopen hg hk hread
    exact ⟨_, a, rfl, hsame, hce, hue, hpoison, hresps, hans⟩
  · obtain ⟨u, hread, hword, hue, hce⟩ := readNarrow_uncorrectable (s := s.atGrant tr.val b.val r) r.info hn hd
    obtain ⟨hsame, hce', hue', -, a, hresps, hans⟩ := bankSlot_readNarrow hopen hg hk hread
    obtain ⟨hstored, hsyn, hothers⟩ := hword.moved hsame
    exact ⟨_, a, rfl, hstored, hsyn, hothers, hue'.trans hue, hce'.trans hce, hresps, hans⟩

/-- Settles O18: what a narrow read does to a word that is not clean, and what the columns of the code tell. -/
theorem damagedWords : Obligations.DamagedWords := ⟨readsOfDamagedWords, syndromesNameTheBit⟩

end Sys2Proof.Machine

end

section

namespace Sys2Proof.Machine

/-! ## A scrub pass starts (R126) -/

/-- The banks, as pairs of tract and bank, that a scrub pass starts in: all those of the tracts that are ON. -/
def State.scrubbedBanks (s : State) : List (Nat × Nat) :=
  (s.presentTracts.filter s.tractOn).flatMap (fun t => (List.range 16).map (fun b => (t, b)))

theorem mem_scrubbedBanks {s : State} {t b : Nat} :
    (t, b) ∈ s.scrubbedBanks ↔ (t < s.fuse.tractCount ∧ s.tractOn t = true) ∧ b < 16 := by
  simp [State.scrubbedBanks, State.presentTracts]

/-- The banks of `ks` begin a pass at their first line. -/
def State.scrubFrom (s : State) (ks : List (Nat × Nat)) : State :=
  ks.foldl (fun s k => s.setBank k.1 k.2 { s.bank k.1 k.2 with scrub := some 0 }) s

theorem scrubFrom_cons (s : State) (t b : Nat) (ks : List (Nat × Nat)) :
    s.scrubFrom ((t, b) :: ks) = (s.setBank t b { s.bank t b with scrub := some 0 }).scrubFrom ks := rfl

theorem scrubFrom_onlyBanks (ks : List (Nat × Nat)) : ∀ s : State, OnlyBanks s (s.scrubFrom ks) := by
  induction ks with
  | nil => exact fun s => rfl
  | cons k ks ih =>
    intro s
    exact congrArg (fun u : State => { u with cis := { u.cis with banks := s.cis.banks } })
      (ih (s.setBank k.1 k.2 { s.bank k.1 k.2 with scrub := some 0 }))

/-- A tract has sixteen banks, so two of them are one only where tract and bank agree. -/
theorem bank_setBank_pair (s : State) {t b t' b' : Nat} (x : Bank) (hb : b < 16) (hb' : b' < 16) :
    (s.setBank t' b' x).bank t b = if (t, b) = (t', b') then x else s.bank t b := by
  have hkey : bankKey t b = bankKey t' b' ↔ (t, b) = (t', b') := by
    rw [Prod.mk.injEq, bankKey, bankKey]
    omega
  rw [← if_congr hkey rfl rfl]
  exact spGet_spSet

theorem bank_scrubFrom {ks : List (Nat × Nat)} (hks : ∀ k ∈ ks, k.2 < 16) {t b : Nat} (hb : b < 16) : ∀ s : State,
    (s.scrubFrom ks).bank t b = if (t, b) ∈ ks then { s.bank t b with scrub := some 0 } else s.bank t b := by
  induction ks with
  | nil => exact fun s => rfl
  | cons k ks ih =>
    intro s
    obtain ⟨t', b'⟩ := k
    rw [scrubFrom_cons, ih (fun k hk => hks k (List.mem_cons_of_mem _ hk)),
      bank_setBank_pair s _ hb (hks _ List.mem_cons_self)]
    by_cases hhead : (t, b) = (t', b')
    · cases hhead
      simp
    · simp [hhead]

/-- Where a tract is ON, a pass starts. -/
theorem scrubPassStart_eq {s : State} (hrun : s.banksRun = true) (hon : ∃ t, t < s.fuse.tractCount ∧ s.tractOn t = true) :
    scrubPassStart s =
      { s.scrubFrom s.scrubbedBanks with cis := { (s.scrubFrom s.scrubbedBanks).cis with scrubbing := true } } := by
  obtain ⟨t, ht⟩ := hon
  have hne : s.scrubbedBanks.isEmpty = false :=
    List.isEmpty_eq_false_iff.2 (List.ne_nil_of_mem (mem_scrubbedBanks.2 ⟨ht, Nat.zero_lt_succ 15⟩))
  have hstart : scrubPassStart s = if !s.banksRun then s else if s.scrubbedBanks.isEmpty then s else
      { s.scrubFrom s.scrubbedBanks with cis := { (s.scrubFrom s.scrubbedBanks).cis with scrubbing := true } } := rfl
  simp [hstart, hrun, hne]

theorem exec_scrubPassStart (s : State) : exec .scrubPassStart s = .next (scrubPassStart s) := rfl

theorem scrubPassStart_starts {s : State} (hrun : s.banksRun = true)
    (hon : ∃ t, t < s.fuse.tractCount ∧ s.tractOn t = true) :
    ∃ s', exec .scrubPassStart s = .next s' ∧ s'.cis.scrubbing = true ∧
      (∀ t b, b < 16 → s'.bank t b =
        if t < s.fuse.tractCount ∧ s.tractOn t = true then { s.bank t b with scrub := some 0 } else s.bank t b) ∧
      { s' with cis := { s'.cis with banks := [], scrubbing := false } } =
        { s with cis := { s.cis with banks := [], scrubbing := false } } := by
  rw [exec_scrubPassStart, scrubPassStart_eq hrun hon]
  refine ⟨_, rfl, rfl, fun t b hb => ?_, ?_⟩
  · have hbank := bank_scrubFrom (ks := s.scrubbedBanks) (fun k hk => (mem_scrubbedBanks.1 hk).2) (t := t) hb s
    simp only [mem_scrubbedBanks, hb, and_true] at hbank
    exact hbank
  · exact congrArg (fun u : State => { u with cis := { u.cis with banks := [], scrubbing := false } })
      (scrubFrom_onlyBanks s.scrubbedBanks s)

/-! ## A waking tract begins its walk (R99, R106) -/

/-- The walk of every line of a tract that is to be powered. -/
def wholeWalk : Walk := { all := true, granules := [], power := true }

/-- A tract without a walk goes to CLEARING: its bytes and syndromes go, and the walk stands. -/
theorem clearTract_eq {s : State} {tr : Nat} (hw : s.walkOf tr = none) :
    s.clearTract tr = State.setWalk { s.setTract tr 2 with cis := { (s.setTract tr 2).cis with
      mem := s.cis.mem.filter (fun e => !decide (e.1 / 2 ^ 24 = tr))
      synd := s.cis.synd.filter (fun e => !decide (32 * e.1 / 2 ^ 24 = tr)) } } tr (some wholeWalk) := by
  have hnone : (s.setTract tr 2).walkOf tr = none := hw
  rw [State.clearTract, State.startWalk, walkEffect_of_all _ _ rfl, hnone]
  rfl

section

variable {s : State} {tr : Nat} (hw : s.walkOf tr = none)
include hw

theorem syndrome_clearTract (v : Nat) : (s.clearTract tr).syndrome v = if v / 2 ^ 19 = tr then 0 else s.syndrome v := by
  rw [clearTract_eq hw]
  refine (spGet_filter (fun k => !decide (32 * k / 2 ^ 24 = tr))).trans ?_
  rw [show 32 * v / 2 ^ 24 = v / 2 ^ 19 by omega]
  by_cases h : v / 2 ^ 19 = tr
  · rw [decide_eq_true h, if_pos h]
    rfl
  · rw [decide_eq_false h, if_neg h]
    rfl

theorem walkOf_clearTract (t : Nat) : (s.clearTract tr).walkOf t = if t = tr then some wholeWalk else s.walkOf t := by
  rw [clearTract_eq hw]
  exact walkOf_setWalk ..

theorem tractState_clearTract (t : Nat) : (s.clearTract tr).tractState t = if t = tr then 2 else s.tractState t := by
  rw [clearTract_eq hw]
  exact tractState_setTract s tr (code := 2) (by decide) t

theorem clearTract_frame :
    { s.clearTract tr with cis := { (s.clearTract tr).cis with tract := [], walk := [], mem := [], synd := [] } } =
      { s with cis := { s.cis with tract := [], walk := [], mem := [], synd := [] } } := by
  rw [clearTract_eq hw]
  rfl

end

theorem exec_tractWakeEnd (tr : Fin 64) (s : State) : exec (.tractWakeEnd tr) s = .next (tractWakeEnd tr.val s) := rfl

theorem tractWakeEnd_waking {s : State} {tr : Nat} (hs : s.silent = false) (hwaking : s.tractState tr = 1) :
    tractWakeEnd tr s = s.clearTract tr := by
  simp [tractWakeEnd, hs, hwaking]

/-- Settles O22: the banks that a scrub pass starts in, and the walk with which a waking tract begins. -/
theorem scrubsAndWakingsBegin : Obligations.ScrubsAndWakingsBegin := by
  refine ⟨fun s hrun hon => scrubPassStart_starts hrun hon, fun tr s hs hwaking hw => ?_⟩
  rw [exec_tractWakeEnd, tractWakeEnd_waking hs hwaking]
  refine ⟨_, rfl, ?_, ?_, fun t ht => ⟨?_, ?_⟩, memByte_clearTract s tr.val, syndrome_clearTract hw, clearTract_frame hw⟩
  · rw [tractState_clearTract hw, if_pos rfl]
  · rw [walkOf_clearTract hw, if_pos rfl]
    rfl
  · rw [tractState_clearTract hw, if_neg ht]
  · rw [walkOf_clearTract hw, if_neg ht]

end Sys2Proof.Machine

end


section

namespace Sys2Proof.Machine

/-! ## A list of values in a sparse map -/

theorem spGet_spEntries_getD {α : Type} [DecidableEq α] {d : α} {m : Sparse α} {i : Nat} (hm : spGet d m i = d)
    (vs : List α) {b : Nat} (hi : b ≤ i) : spGet d (spEntries d b vs ++ m) i = vs.getD (i - b) d := by
  induction vs generalizing b with
  | nil => simpa [spEntries] using hm
  | cons a vs ih =>
    rcases Nat.eq_or_lt_of_le hi with rfl | hlt
    · have htail : spGet d (spEntries d (b + 1) vs ++ m) b = d := by rw [spGet_spEntries (.inl (by omega)), hm]
      by_cases ha : a = d <;> simp [spEntries, ha, htail, spGet_cons]
    · have hstep : i - b = i - (b + 1) + 1 := by omega
      by_cases ha : a = d <;> simp [spEntries, ha, spGet_cons, ih hlt, hstep, show i ≠ b by omega]

/-- What an update by a list leaves at every key. -/
theorem spGet_spSetList {α : Type} [DecidableEq α] (d : α) (m : Sparse α) (b : Nat) (vs : List α) (i : Nat) :
    spGet d (spSetList d m b vs) i = if b ≤ i ∧ i < b + vs.length then vs.getD (i - b) d else spGet d m i := by
  have hrest : spGet d (m.filter (fun e => decide (b + vs.length ≤ e.1))) i =
      if b + vs.length ≤ i then spGet d m i else d := by
    rw [spGet_filter (fun k => decide (b + vs.length ≤ k))]
    simp
  have hbelow : decide (i < b) = true →
      spGet d (spEntries d b vs ++ m.filter (fun e => decide (b + vs.length ≤ e.1))) i = d := by
    intro hi
    have hi := of_decide_eq_true hi
    rw [spGet_spEntries (.inl hi), hrest, if_neg (by omega)]
  rw [spSetList, spGet_append_filter (fun k => decide (k < b)) hbelow]
  by_cases hlow : i < b
  · simp [hlow, show ¬ b ≤ i by omega]
  · by_cases hin : i < b + vs.length
    · rw [spGet_spEntries_getD (by rw [hrest, if_neg (by omega)]) vs (by omega)]
      simp [hlow, hin, show b ≤ i by omega]
    · rw [spGet_spEntries (.inr (by omega)), hrest]
      simp [hlow, hin, show b + vs.length ≤ i by omega]

/-! ## Registers of the Vector Engine -/

theorem elem_putReg (v : Vec) (d n : Nat) {l : List Word} {e : Nat} (hl : l.length = 4096) (he : e < 4096) :
    (v.putReg d l).elem n e = if n = d then l.getD e 0 else v.elem n e := by
  rw [Vec.putReg, Vec.elem, spGet_spSetList, hl]
  by_cases hn : n = d
  · rw [if_pos (by omega), if_pos hn, hn, Nat.add_sub_cancel_left]
  · rw [if_neg (by omega), if_neg hn, Vec.elem]

theorem regMarked_putMarks (v : Vec) (d : Nat) (f : Nat → Bool) {n r : Nat} (hn : n < 32) (hr : r < 32) :
    (v.putMarks d f).regMarked n r = if n = d then f r else v.regMarked n r := by
  rw [Vec.putMarks, Vec.regMarked, if_pos hn, Vec.regMarked, if_pos hn, spGet_spSetList, List.length_map, List.length_range]
  by_cases h : n = d
  · rw [if_pos (by omega), if_pos h, h, Nat.add_sub_cancel_left]
    simp [hr]
  · rw [if_neg (by omega), if_neg h]

theorem regMarked_putReg (v : Vec) (d : Nat) (l : List Word) (n r : Nat) : (v.putReg d l).regMarked n r = v.regMarked n r := rfl
theorem elem_putMarks (v : Vec) (d : Nat) (f : Nat → Bool) (n e : Nat) : (v.putMarks d f).elem n e = v.elem n e := rfl

/-! ## Lanes (R205, R222) -/

/-- What element `e` of register `d` reads after its lanes are written with `value`. -/
def Vec.laneElem (v : Vec) (w d : Nat) (value : Nat → Word) (e : Nat) : Word :=
  if v.active w e then value e else if vsMz w then 0 else v.elem d e

/-- The mark of row `r` of register `d` after its lanes are written from sources that give the mark `mark`. -/
def Vec.laneMark (v : Vec) (w d : Nat) (mark : Nat → Bool) (r : Nat) : Bool :=
  mark r || (vsMen w && v.regMarked (32 + vsMk w) r) || (v.keeps w r && v.regMarked d r)

/-- Elements that `p` leaves out raise no flag. -/
theorem fl_activeTable {α : Type} (p : Nat → Bool) (f : Nat → Res α) (old : Nat → α) (n : Nat) :
    (resTable (fun e => if p e then f e else ⟨old e, 0⟩) n).fl = flagsOf p f n := by
  have hstep (a : Flags) (e : Nat) : a ||| (if p e then f e else ⟨old e, 0⟩).fl = if p e then a ||| (f e).fl else a := by
    cases p e <;> simp
  rw [fl_resTable, flagsOf, List.filter_true, flagsOf, List.foldl_filter]
  simp only [hstep]

section

variable {v : Vec} {w d n : Nat} {mark : Nat → Bool} {f : Nat → Res Word}

theorem elem_laneMarked {e : Nat} (he : e < 4096) :
    (v.laneMarked w d mark f).out.elem n e =
      if n = d then v.laneElem w d (fun k => (f k).out) e else v.elem n e := by
  refine (elem_putReg v d n (by simp [out_resTable]) he).trans ?_
  simp [out_resTable, he, Vec.laneElem, apply_ite Res.out]

theorem regMarked_laneMarked {r : Nat} (hn : n < 32) (hr : r < 32) :
    (v.laneMarked w d mark f).out.regMarked n r = if n = d then v.laneMark w d mark r else v.regMarked n r :=
  regMarked_putMarks (v.putReg d _) d (v.laneMark w d mark) hn hr

theorem fl_laneMarked : (v.laneMarked w d mark f).fl = flagsOf (v.active w) f 4096 := by
  simp only [Vec.laneMarked, fl_activeTable]

end

/-- Row `r` keeps an old element where not all of its elements are active and MZ is 0. -/
theorem keeps_eq (v : Vec) (w r : Nat) :
    v.keeps w r = (!vsMz w && (List.range 128).any (fun j => !v.active w (128 * r + j))) := by
  rw [Vec.keeps, List.not_all_eq_any_not]

/-- Of the engine after an instruction, `LanesWritten` reads the tile registers and their marks alone. -/
theorem lanesWritten_of_regs {v u u' : Vec} {w : Nat} {wide : Bool} {value : Nat → Res DWord} {mark : Nat → Bool}
    (hv : u'.v = u.v) (hm : u'.vMark = u.vMark) (h : LanesWritten v u w wide value mark) :
    LanesWritten v u' w wide value mark := by
  obtain ⟨helem, hmark⟩ := h
  refine ⟨fun n e hn he => ?_, fun n r hn hr => ?_⟩
  · rw [← helem n e hn he, Vec.elem, hv, Vec.elem]
  · rw [← hmark n r hn hr, Vec.regMarked, if_pos hn, hm, Vec.regMarked, if_pos hn]

theorem flagsOf_of_fl {α β : Type} {f : Nat → Res α} {g : Nat → Res β} (h : ∀ e, (f e).fl = (g e).fl) (p : Nat → Bool)
    (n : Nat) : flagsOf p f n = flagsOf p g n := by
  simp only [flagsOf, h]

section

variable (v : Vec) (w : Nat) (srcs : List Nat) (f : Nat → Res DWord)

/-- The lanes of VD in `Vec.pairLane`, and those of VD + 1. -/
def Vec.lowLane : Res Vec := v.lane w srcs (vsVd w) (fun e => ⟨BitVec.ofNat 32 (f e).out.toNat, (f e).fl⟩)
def Vec.highLane : Res Vec := v.lane w srcs (vsVd w + 1) (fun e => ⟨BitVec.ofNat 32 ((f e).out.toNat / 2 ^ 32), 0⟩)

theorem pairLane_single : v.pairLane w srcs false f = v.lowLane w srcs f := rfl

theorem pairLane_pair : v.pairLane w srcs true f =
    ⟨((v.lowLane w srcs f).out.putReg (vsVd w + 1)
      ((List.range 4096).map ((v.highLane w srcs f).out.elem (vsVd w + 1)))).putMarks (vsVd w + 1)
      ((v.highLane w srcs f).out.regMarked (vsVd w + 1)), (v.lowLane w srcs f).fl⟩ := rfl

theorem lanesWritten_pairLane (wide : Bool) :
    LanesWritten v (v.pairLane w srcs wide f).out w wide f (fun r => srcs.any (fun n => v.regMarked n r)) := by
  cases wide
  case false =>
    rw [pairLane_single, Vec.lowLane, Vec.lane]
    refine ⟨fun n e hn he => ?_, fun n r hn hr => ?_⟩
    · rw [elem_laneMarked he]
      by_cases h : n = vsVd w <;> simp [h, Vec.laneElem]
    · rw [regMarked_laneMarked hn hr]
      by_cases h : n = vsVd w <;> simp [h, Vec.laneMark, keeps_eq]
  case true =>
    rw [pairLane_pair]
    refine ⟨fun n e hn he => ?_, fun n r hn hr => ?_⟩
    · rw [elem_putMarks, elem_putReg _ _ _ (by simp) he, Vec.lowLane, Vec.highLane, Vec.lane, Vec.lane,
        elem_laneMarked he]
      by_cases hhigh : n = vsVd w + 1
      · simp [hhigh, he, elem_laneMarked he, Vec.laneElem]
      · by_cases hlow : n = vsVd w <;> simp [hlow, hhigh, Vec.laneElem]
    · rw [regMarked_putMarks _ _ _ hn hr, regMarked_putReg, Vec.lowLane, Vec.highLane, Vec.lane, Vec.lane,
        regMarked_laneMarked hn hr]
      by_cases hhigh : n = vsVd w + 1
      · subst hhigh
        simp [regMarked_laneMarked hn hr, Vec.laneMark, keeps_eq]
      · by_cases hlow : n = vsVd w <;> simp [hlow, hhigh, Vec.laneMark, keeps_eq]

theorem fl_pairLane (wide : Bool) : (v.pairLane w srcs wide f).fl = flagsOf (v.active w) f 4096 := by
  have hlow : (v.lowLane w srcs f).fl = flagsOf (v.active w) f 4096 := by
    rw [Vec.lowLane, Vec.lane, fl_laneMarked]
    exact flagsOf_of_fl (fun _ => rfl) _ _
  cases wide
  · rw [pairLane_single, hlow]
  · rw [pairLane_pair, hlow]

theorem pairLane_frame (wide : Bool) : { (v.pairLane w srcs wide f).out with v := v.v, vMark := v.vMark } = v := by
  cases wide <;> rfl

end

/-! ## The running maximum (R156, R157) -/

theorem maxWord_eq_greatest (a : Word) (xs : List Val) : maxWord a xs = greatest a xs := by
  rw [maxWord, greatest, List.foldl_map]

theorem holdLater_none (xs : List Val) {ls : List VecLoad} (h : ls.all (fun l => !l.orders) = true) :
    holdLater xs ls = none := by
  induction ls with
  | nil => rfl
  | cons l ls ih =>
    simp only [List.all_cons, Bool.and_eq_true, Bool.not_eq_true'] at h
    simp [holdLater, ih h.2, h.1]

/-- The last conversion in flight holds the values. -/
theorem holdLater_last (xs : List Val) (older : List VecLoad) {l : VecLoad} {newer : List VecLoad} (hl : l.orders = true)
    (h : newer.all (fun l => !l.orders) = true) :
    holdLater xs (older ++ l :: newer) = some (older ++ { l with later := greatest l.later xs } :: newer) := by
  induction older with
  | nil => simp [holdLater, holdLater_none xs h, hl, maxWord_eq_greatest]
  | cons k older ih => simp [holdLater, ih]

theorem maximumTaken_maximum {v u : Vec} (ha : u.amax = v.amax) (hl : u.loads = v.loads) (xs : List Val) :
    MaximumTaken v (u.maximum xs) xs := by
  refine ⟨fun h => ?_, fun older l newer hls ho h => ?_⟩
  · rw [Vec.maximum, holdLater_none xs (by rwa [hl])]
    exact ⟨(maxWord_eq_greatest ..).trans (by rw [ha]), hl⟩
  · rw [Vec.maximum, hl, hls, holdLater_last xs older ho h]
    exact ⟨ha, rfl⟩

theorem maximum_frame (v : Vec) (xs : List Val) : { v.maximum xs with amax := v.amax, loads := v.loads } = v := by
  unfold Vec.maximum
  split <;> rfl

/-! ## Issue of a vector slot -/

/-- The Wren as the slots of its bundle find it: at the first of them its registers have been noted (R225). -/
def Wren.opened (w : Wren) : Wren := if w.issued = 0 then w.snap else w

/-- A slot that is ready has its effect on a state in which the Wren alone has opened its bundle. -/
theorem issueSlot_opened {s : State} {t : Fin 16} {k : Nat} {p : Prog} (h : SlotReady s t k p) {row : Nat → Bool}
    (hr : row (bits (wrenOf s t).bundle (32 * k) 32) = true) (act : State → Prog → State) :
    ∃ u, OnlyWren t s u ∧ wrenOf u t = (wrenOf s t).opened ∧
      s.issueSlot t.val k row act = (act u p).setWren t.val (fun w => w.slotIssued k) := by
  refine ⟨_, ?_, ?_, issueSlot_ready h hr⟩
  · split
    · exact onlyWren_setWren ..
    · exact onlyWren_refl ..
  · unfold Wren.opened
    split
    · exact State.tile_setWren_wren ..
    · rfl

theorem slotIssued_eq (w : Wren) (k : Nat) : w.slotIssued k =
    if setBit w.issued k true = 0xF then
      { w with issued := 0, pc := w.target.getD (w.pc + 1), target := none, bundles := w.bundles + 1 }
    else { w with issued := setBit w.issued k true } := rfl

/-- Of what is not in a `SlotBook` the issue of a slot changes nothing. -/
theorem slotIssued_kept (w : Wren) (k : Nat) :
    (w.slotIssued k).rest = w.rest ∧ SameX w (w.slotIssued k) ∧ (w.slotIssued k).p = w.p := by
  rw [slotIssued_eq]
  split <;> exact ⟨rfl, ⟨rfl, rfl⟩, rfl⟩

theorem opened_kept (w : Wren) :
    w.opened.rest = w.rest ∧ SameX w w.opened ∧ w.opened.p = w.p ∧ w.opened.vector = w.vector := by
  unfold Wren.opened
  split <;> exact ⟨rfl, ⟨rfl, rfl⟩, rfl, rfl⟩

/-- The `SlotBook` of a slot, whatever flags it raised. -/
theorem slotBook_slotIssued (w : Wren) (k : Nat) (fl : Flags) :
    SlotBook w (Wren.slotIssued { w.opened with raised := fl } k) k w.target := by
  rw [slotIssued_eq]
  unfold Wren.opened SlotBook
  by_cases hw : w.issued = 0
  · simp only [hw, if_true, Wren.snap]
    split <;> simp
  · simp only [hw, if_false]
    split <;> simp

section

variable {s : State} {t : Fin 16} {p : Prog} {op : Nat}

/-- A vector slot that is ready leaves in its tile what it computes, with the engine's 32 rows (R204) and the flags (R158). -/
theorem tile_vectorOn (h : SlotReady s t 3 p) (hop : vsOp (wrenOf s t).vector = op) {f : Wren → Nat → Vec → Res Vec}
    {v : Vec} {r : Res Vec} (hv : (s.tile t.val).vec = v) (hr : f (wrenOf s t).opened (wrenOf s t).vector v = r) :
    ((s.vectorOn t.val op f).tile t.val).vec =
        { r.out with busy := true, rows := v.rows + 32, flags := r.out.flags ||| r.fl } ∧
      wrenOf (s.vectorOn t.val op f) t =
        Wren.slotIssued { (wrenOf s t).opened with raised := (wrenOf s t).opened.raised ||| r.fl } 3 ∧
      ((s.vectorOn t.val op f).tile t.val).arr = (s.tile t.val).arr ∧ OnlyTile t.val s (s.vectorOn t.val op f) := by
  subst hv
  obtain ⟨u, ⟨honly, harr, hvec⟩, hwren, hslot⟩ := issueSlot_opened h (row := fun w => decide (vsOp w = op))
    (decide_eq_true hop) (fun s _ =>
      let x := s.tile t.val
      let r := f x.wren x.wren.vector x.vec
      (s.setVec t.val (fun _ => { r.out with busy := true, rows := x.vec.rows + 32 })).raiseVec t.val r.fl)
  have hru : f (u.tile t.val).wren (u.tile t.val).wren.vector (u.tile t.val).vec = r := by
    obtain ⟨-, -, -, hvector⟩ := opened_kept (wrenOf s t)
    rw [← hr, ← hvector, ← hwren, hvec, wrenOf]
  change s.vectorOn t.val op f = _ at hslot
  simp only [hru] at hslot
  refine ⟨?_, ?_, ?_, ?_⟩
  · simp [hslot, State.raiseVec, hvec]
  · rw [← hwren]
    simp [hslot, State.raiseVec, wrenOf]
  · simp [hslot, State.raiseVec, harr]
  · rw [hslot]
    exact onlyTile_trans honly (onlyTile_trans (onlyTile_trans (onlyTile_trans (onlyTile_setVec ..) (onlyTile_setVec ..))
      (onlyTile_setWren ..)) (onlyTile_setWren ..))

/-- A vector slot issues where what it computes leaves VEC_FLAGS, VEC_QSCALE and VEC_STALLS of the engine alone. -/
theorem vectorIssued_vectorOn (h : SlotReady s t 3 p) (hop : vsOp (wrenOf s t).vector = op) {f : Wren → Nat → Vec → Res Vec}
    {v : Vec} {r : Res Vec} (hv : (s.tile t.val).vec = v) (hr : f (wrenOf s t).opened (wrenOf s t).vector v = r)
    (hkept : (r.out.flags, r.out.qscale, r.out.stalls) = (v.flags, v.qscale, v.stalls)) :
    VectorIssued t s (s.vectorOn t.val op f) r.fl := by
  obtain ⟨hvec, hwren, harr, honly⟩ := tile_vectorOn h hop hv hr
  obtain ⟨horest, hox, hopred, -⟩ := opened_kept (wrenOf s t)
  obtain ⟨hrest, hx, hpred⟩ := slotIssued_kept { (wrenOf s t).opened with raised := (wrenOf s t).opened.raised ||| r.fl } 3
  subst hv
  simp only [Prod.mk.injEq] at hkept
  obtain ⟨hflags, hqscale, hstalls⟩ := hkept
  unfold VectorIssued
  rw [hvec, hwren]
  refine ⟨by simp [hflags, hqscale, hstalls], ?_, ⟨hx.1.trans hox.1, hx.2.trans hox.2⟩, hpred.trans hopred,
    slotBook_slotIssued .., harr, honly⟩
  rw [hrest]
  exact (congrArg (fun w : Wren => { w with raised := w.raised ||| r.fl }) horest :)

/-- A lane row issues where its slot computes lanes of VD, what VEC_AMAX takes, and nothing else in the engine. -/
theorem laneRowIssues_of_lanes (h : SlotReady s t 3 p) (hop : vsOp (wrenOf s t).vector = op)
    {f : Wren → Nat → Vec → Res Vec} {row : LaneRow} (hexec : exec row.row s = .next (s.vectorOn t.val op f)) {xs : List Val}
    {v : Vec} {w : Nat} {r : Res Vec} (hv : (s.tile t.val).vec = v) (hw : (wrenOf s t).vector = w) (hr : f (wrenOf s t).opened w v = r)
    (hlanes : LanesWritten v r.out w (row.wide w) (row.value (bundleX s t) w v) (row.mark (bundleMark s t) w v))
    (hmax : MaximumTaken v r.out xs)
    (hframe : { r.out with v := v.v, vMark := v.vMark, amax := v.amax, loads := v.loads } = v)
    (hfl : r.fl = flagsOf (v.active w) (row.value (bundleX s t) w v) 4096) : LaneRowIssues t s row xs := by
  subst hv hw
  have hkept : (r.out.flags, r.out.qscale, r.out.stalls) =
      ((s.tile t.val).vec.flags, (s.tile t.val).vec.qscale, (s.tile t.val).vec.stalls) :=
    (congrArg (fun v : Vec => (v.flags, v.qscale, v.stalls)) hframe :)
  obtain ⟨hvec, -⟩ := tile_vectorOn h hop rfl hr
  refine ⟨_, hexec, ?_, ?_, ?_, by rw [← hfl]; exact vectorIssued_vectorOn h hop rfl hr hkept⟩
  · rw [hvec]
    exact lanesWritten_of_regs rfl rfl hlanes
  · rw [hvec]
    exact hmax
  · rw [hvec]
    exact (congrArg (fun v : Vec => { v with
      busy := (s.tile t.val).vec.busy, rows := (s.tile t.val).vec.rows, flags := (s.tile t.val).vec.flags }) hframe :)

end

/-! ## VCVT (R208) -/

theorem any_pairOf (wide : Bool) (n : Nat) (q : Nat → Bool) : (pairOf wide n).any q = (q n || (wide && q (n + 1))) := by
  cases wide <;> simp [pairOf]

/-- A source value of VCVT in the destination format, with its flags. -/
def Vec.cvtStored (v : Vec) (w e : Nat) : Res DWord :=
  let x := elemStore (vsVc w % 16) (bit (vsVc w) 4) (v.cvtSource w e)
  ⟨BitVec.ofNat 64 x.out, x.fl⟩

/-- The lanes that VCVT writes, before VEC_AMAX takes its source values. -/
def Vec.cvtLanes (v : Vec) (w : Nat) : Res Vec :=
  v.pairLane w (pairOf (decide (vsVb w % 16 = fFP64)) (vsVa w)) (decide (vsVc w % 16 = fFP64)) (v.cvtStored w)

theorem convert_eq (v : Vec) (w : Nat) : v.convert w =
    ⟨(v.cvtLanes w).out.maximum ((v.activeList w).map (v.cvtSource w)), (v.cvtLanes w).fl⟩ := rfl

theorem cvtLanes_frame (v : Vec) (w : Nat) : { (v.cvtLanes w).out with v := v.v, vMark := v.vMark } = v := pairLane_frame ..

theorem lanesWritten_cvtLanes (v : Vec) (w : Nat) :
    LanesWritten v (v.cvtLanes w).out w (decide (vsVc w % 16 = fFP64)) (v.cvtStored w)
      (fun r => v.regMarked (vsVa w) r || (decide (vsVb w % 16 = fFP64) && v.regMarked (vsVa w + 1) r)) := by
  have hmark := funext (fun r => any_pairOf (decide (vsVb w % 16 = fFP64)) (vsVa w) (fun n => v.regMarked n r))
  rw [← hmark]
  exact lanesWritten_pairLane ..

theorem exec_vcvt (t : Fin 16) (s : State) :
    exec (.vcvt t) s = .next (s.vectorOn t.val 0x15 (fun _ w v => v.convert w)) := rfl

/-- Settles O9: VCVT's slot writes the lanes of the converted elements, and then the engine takes the source values. -/
theorem vectorConvertIssues : Obligations.VectorConvertIssues := by
  intro t s p hready hop
  generalize hv : (s.tile t.val).vec = v
  generalize hw : (wrenOf s t).vector = w
  change LaneRowIssues t s _ ((v.activeList w).map (v.cvtSource w))
  have hframe := cvtLanes_frame v w
  have hamax : (v.cvtLanes w).out.amax = v.amax := (congrArg Vec.amax hframe :)
  have hloads : (v.cvtLanes w).out.loads = v.loads := (congrArg Vec.loads hframe :)
  have hconvert := convert_eq v w
  generalize (v.activeList w).map (v.cvtSource w) = xs at hconvert ⊢
  have hrest := maximum_frame (v.cvtLanes w).out xs
  refine laneRowIssues_of_lanes hready hop (exec_vcvt t s) hv hw hconvert ?_ ?_ ?_ ?_
  · exact lanesWritten_of_regs (congrArg Vec.v hrest :) (congrArg Vec.vMark hrest :) (lanesWritten_cvtLanes v w)
  · exact maximumTaken_maximum hamax hloads _
  · exact (congrArg (fun u : Vec => { u with v := v.v, vMark := v.vMark, amax := v.amax, loads := v.loads }) hrest :).trans
      (congrArg (fun u : Vec => { u with amax := v.amax, loads := v.loads }) hframe :)
  · exact fl_pairLane ..

end Sys2Proof.Machine

end

section

namespace Sys2Proof.Machine

/-! ## The waves of a frame (R179, R490) -/

/-- `b` is `a` after waves of instruction `i`: the operand waves that it has fired meanwhile count, and no more fire than
the instruction has. -/
structure CountsWaves (i : ArrInstr) (a b : Arr) : Prop where
  frame : { b with
    place := a.place, fired := a.fired, ramp := a.ramp, opWaves := a.opWaves, pairWaves := a.pairWaves
    bubbles := a.bubbles, govIdle := a.govIdle } = a
  low : a.fired ≤ b.fired
  high : b.fired ≤ max a.fired i.waves
  op : b.opWaves = a.opWaves + BitVec.ofNat 32 (b.fired - a.fired)
  pair : ∀ k, spGet 0 b.pairWaves k =
    spGet 0 a.pairWaves k + (if k = 16 * i.fa + i.fb then BitVec.ofNat 32 (b.fired - a.fired) else 0)

theorem countsWaves_refl (i : ArrInstr) (a : Arr) : CountsWaves i a a where
  frame := rfl
  low := le_rfl
  high := le_max_left ..
  op := by simp
  pair := by simp

/-- A wave either fires the next operand wave or fires none. -/
theorem wave_cases (a : Arr) (i : ArrInstr) (empty : Bool) :
    { a.wave i empty with place := a.place, ramp := a.ramp, bubbles := a.bubbles, govIdle := a.govIdle } = a ∨
      { a.wave i empty with place := a.place, ramp := a.ramp } = { a with
        fired := a.fired + 1
        opWaves := a.opWaves + 1
        pairWaves := spSet 0 a.pairWaves (16 * i.fa + i.fb) (spGet 0 a.pairWaves (16 * i.fa + i.fb) + 1) } := by
  unfold Arr.wave
  dsimp only
  split
  · exact .inl rfl
  · split
    · exact .inl rfl
    · split
      · exact .inr rfl
      · exact .inl rfl

theorem countsWaves_wave {i : ArrInstr} {a b : Arr} (h : CountsWaves i a b) (hb : b.fired < i.waves) (empty : Bool) :
    CountsWaves i a (b.wave i empty) := by
  obtain ⟨hframe, hlow, hhigh, hop, hpair⟩ := h
  rcases wave_cases b i empty with hnone | hfires <;> generalize b.wave i empty = c at *
  · have hfired : c.fired = b.fired := (congrArg Arr.fired hnone :)
    have hopc : c.opWaves = b.opWaves := (congrArg Arr.opWaves hnone :)
    have hpairc : c.pairWaves = b.pairWaves := (congrArg Arr.pairWaves hnone :)
    refine ⟨?_, by omega, by omega, by rw [hopc, hfired, hop], fun k => by rw [hpairc, hfired, hpair]⟩
    exact (congrArg (fun x : Arr => { x with
      place := a.place, fired := a.fired, ramp := a.ramp, opWaves := a.opWaves, pairWaves := a.pairWaves
      bubbles := a.bubbles, govIdle := a.govIdle }) hnone).trans hframe
  · have hfired : c.fired = b.fired + 1 := (congrArg Arr.fired hfires :)
    have hopc : c.opWaves = b.opWaves + 1 := (congrArg Arr.opWaves hfires :)
    have hpairc : c.pairWaves = _ := (congrArg Arr.pairWaves hfires :)
    have hone : BitVec.ofNat 32 (c.fired - a.fired) = BitVec.ofNat 32 (b.fired - a.fired) + 1 := by
      rw [hfired, Nat.sub_add_comm hlow, BitVec.ofNat_add]
      rfl
    refine ⟨?_, by omega, by omega, by rw [hopc, hone, hop, BitVec.add_assoc], fun k => ?_⟩
    · exact (congrArg (fun x : Arr => { x with
        place := a.place, fired := a.fired, ramp := a.ramp, opWaves := a.opWaves, pairWaves := a.pairWaves
        bubbles := a.bubbles, govIdle := a.govIdle }) hfires).trans hframe
    · rw [hpairc, spGet_spSet, hone, hpair, hpair]
      by_cases hk : k = 16 * i.fa + i.fb
      · simp only [hk, if_true, BitVec.add_assoc]
      · simp only [hk, if_false]

/-- A frame counts the operand waves that it lets the running instruction fire. -/
theorem countsWaves_frame (a : Arr) (i : ArrInstr) (empty : Byte) : CountsWaves i a (a.frame i empty) := by
  unfold Arr.frame
  refine List.foldlRecOn (List.range 8) _ (countsWaves_refl i a) (fun b hb j _ => ?_)
  split
  · next hj => exact countsWaves_wave hb hj.2 _
  · exact hb

/-- The operand waves that a frame counts are those that were still to fire, where the last of them fires in it. -/
theorem fired_frame {a : Arr} {i : ArrInstr} {empty : Byte} (h : operandWaves i ≤ (a.frame i empty).fired) :
    (a.frame i empty).fired - a.fired = operandWaves i - a.fired := by
  obtain ⟨-, hlow, hhigh, -, -⟩ := countsWaves_frame a i empty
  have hwaves : i.waves = operandWaves i := rfl
  omega

/-! ## The cells after an instruction (R163 to R177, R191) -/

/-- What an update by a whole block of `n` entries leaves in each block. -/
theorem spGet_spSetList_block {α : Type} [DecidableEq α] {d : α} {m : Sparse α} {vs : List α} {n c : Nat}
    (hl : vs.length = n) (hc : c < n) (b k : Nat) :
    spGet d (spSetList d m (b * n) vs) (k * n + c) = if k = b then vs.getD c d else spGet d m (k * n + c) := by
  rw [spGet_spSetList, hl]
  rcases Nat.lt_trichotomy k b with hk | hk | hk
  · have hle : (k + 1) * n ≤ b * n := Nat.mul_le_mul_right n hk
    rw [Nat.succ_mul] at hle
    rw [if_neg (by omega), if_neg (by omega)]
  · rw [if_pos (by subst hk; omega), if_pos hk, hk, Nat.add_sub_cancel_left]
  · have hle : (b + 1) * n ≤ k * n := Nat.mul_le_mul_right n hk
    rw [Nat.succ_mul] at hle
    rw [if_neg (by omega), if_neg (by omega)]

theorem length_resTable {α : Type} (f : Nat → Res α) (n : Nat) : (resTable f n).out.length = n := by
  simp [out_resTable]

theorem getD_resTable {α : Type} (f : Nat → Res α) {n k : Nat} (h : k < n) (d : α) :
    (resTable f n).out.getD k d = (f k).out := by
  simp [out_resTable, h]

theorem cells_eq (a : Arr) (i : ArrInstr) :
    a.cells i = resTable (fun c => cellAfter i (c / 128) (c % 128) (a.startWord i c)) 16384 := rfl

theorem longCells_eq (a : Arr) (i : ArrInstr) :
    a.longCells i = resTable (fun c => longCellAfter i (c / 16) (c % 16) (a.startDword i c)) 256 := rfl

/-- The flags that the cells of an instruction raise (R158). -/
def Arr.endFlags (a : Arr) (i : ArrInstr) : Flags :=
  if decide (i.op = opDTILE) then
    flagsOf (fun _ => true) (fun c => longCellAfter i (c / 16) (c % 16) (a.startDword i c)) 256
  else flagsOf (fun _ => true) (fun c => cellAfter i (c / 128) (c % 128) (a.startWord i c)) 16384

/-- The array with the marks that instruction `i` leaves. -/
def Arr.remarked (a : Arr) (i : ArrInstr) : Arr :=
  { a with
    rowMark := spSetList false a.rowMark (i.set * 128) (i.newMarks a.rowMark i.fa .a .sa)
    colMark := spSetList false a.colMark (i.set * 128) (i.newMarks a.colMark i.fb .b .sb) }

theorem after_long {i : ArrInstr} (h : i.op = opDTILE) (a : Arr) : a.after i =
    ({ a.remarked i with dacc := spSetList 0 a.dacc (i.acc * 256) (a.longCells i).out }, (a.longCells i).fl) := by
  unfold Arr.after
  exact if_pos h

theorem after_main {i : ArrInstr} (h : i.op ≠ opDTILE) (a : Arr) : a.after i =
    ({ a.remarked i with acc := spSetList 0 a.acc (i.acc * 16384) (a.cells i).out }, (a.cells i).fl) := by
  unfold Arr.after
  exact if_neg h

theorem after_frame (a : Arr) (i : ArrInstr) :
    { (a.after i).1 with acc := a.acc, dacc := a.dacc, rowMark := a.rowMark, colMark := a.colMark } = a := by
  by_cases h : i.op = opDTILE
  · rw [after_long h]
    rfl
  · rw [after_main h]
    rfl

/-- The marks of the rows, or columns, of the instruction's set (R198). -/
theorem spGet_newMarks (i : ArrInstr) (old : Sparse Bool) (f : Nat) (blk scl : OpPart) {k : Nat} (hk : k < i.size) :
    spGet false (spSetList false old (i.set * 128) (i.newMarks old f blk scl)) (i.set * 128 + k) =
      ((i.init && spGet false old (i.set * 128 + k)) || rowMarked (i.partMarks blk) (i.rowBytes f) k ||
        rowMarked (i.partMarks scl) (i.depth / 32) k) := by
  have hlen : (i.newMarks old f blk scl).length = i.size := by simp [ArrInstr.newMarks]
  rw [spGet_spSetList, hlen, if_pos (by omega), Nat.add_sub_cancel_left]
  simp [ArrInstr.newMarks, hk]

/-! ## The last operand wave (R179, R191) -/

theorem fed_eq_true {i : ArrInstr} : i.fed = true ↔ Fed i := by
  simp only [ArrInstr.fed, Fed, List.all_eq_true, Bool.or_eq_true, decide_eq_true_eq]
  grind

/-- The array at the end of instruction `i`: the frame has passed, and the cells have accumulated. -/
def Arr.finish (a : Arr) (i : ArrInstr) (empty : Byte) : Arr × Flags := (a.frame i empty).after i

/-- What a frame does not touch of the array. -/
theorem frame_keeps (a : Arr) (i : ArrInstr) (empty : Byte) :
    (a.frame i empty).acc = a.acc ∧ (a.frame i empty).dacc = a.dacc ∧ (a.frame i empty).rowMark = a.rowMark ∧
      (a.frame i empty).colMark = a.colMark ∧ (a.frame i empty).flags = a.flags ∧ (a.frame i empty).drains = a.drains := by
  have h := (countsWaves_frame a i empty).frame
  generalize a.frame i empty = b at h ⊢
  rw [← h]
  exact ⟨rfl, rfl, rfl, rfl, rfl, rfl⟩

theorem acc_finish (a : Arr) (i : ArrInstr) (empty : Byte) (n : Nat) {r j : Nat} (hr : r < 128) (hj : j < 128) :
    spGet 0 (a.finish i empty).1.acc (n * 16384 + (128 * r + j)) =
      if n = i.acc ∧ decide (i.op = opDTILE) = false then
        (cellAfter i r j (if i.init then spGet 0 a.acc (n * 16384 + (128 * r + j)) else 0)).out
      else spGet 0 a.acc (n * 16384 + (128 * r + j)) := by
  obtain ⟨hacc, -⟩ := frame_keeps a i empty
  rw [Arr.finish, ← hacc]
  generalize a.frame i empty = b
  by_cases h : i.op = opDTILE
  · rw [after_long h, if_neg (by simp [h])]
    rfl
  · have hc : 128 * r + j < 16384 := by omega
    have hrow : (128 * r + j) / 128 = r := by omega
    have hcol : (128 * r + j) % 128 = j := by omega
    rw [after_main h, cells_eq]
    dsimp only
    rw [spGet_spSetList_block (length_resTable ..) hc, getD_resTable _ hc, hrow, hcol]
    by_cases hn : n = i.acc
    · simp [hn, h, Arr.startWord]
    · simp [hn]

theorem dacc_finish (a : Arr) (i : ArrInstr) (empty : Byte) (n : Nat) {r j : Nat} (hr : r < 16) (hj : j < 16) :
    spGet 0 (a.finish i empty).1.dacc (n * 256 + (16 * r + j)) =
      if n = i.acc ∧ decide (i.op = opDTILE) = true then
        (longCellAfter i r j (if i.init then spGet 0 a.dacc (n * 256 + (16 * r + j)) else 0)).out
      else spGet 0 a.dacc (n * 256 + (16 * r + j)) := by
  obtain ⟨-, hdacc, -⟩ := frame_keeps a i empty
  rw [Arr.finish, ← hdacc]
  generalize a.frame i empty = b
  by_cases h : i.op = opDTILE
  · have hc : 16 * r + j < 256 := by omega
    have hrow : (16 * r + j) / 16 = r := by omega
    have hcol : (16 * r + j) % 16 = j := by omega
    rw [after_long h, longCells_eq]
    dsimp only
    rw [spGet_spSetList_block (length_resTable ..) hc, getD_resTable _ hc, hrow, hcol]
    by_cases hn : n = i.acc
    · simp [hn, h, Arr.startDword]
    · simp [hn]
  · rw [after_main h, if_neg (by simp [h])]
    rfl

theorem marks_finish (a : Arr) (i : ArrInstr) (empty : Byte) {k : Nat} (hk : k < i.size) :
    spGet false (a.finish i empty).1.rowMark (i.set * 128 + k) =
        ((i.init && spGet false a.rowMark (i.set * 128 + k)) || rowMarked (i.partMarks .a) (i.rowBytes i.fa) k ||
          rowMarked (i.partMarks .sa) (i.depth / 32) k) ∧
      spGet false (a.finish i empty).1.colMark (i.set * 128 + k) =
        ((i.init && spGet false a.colMark (i.set * 128 + k)) || rowMarked (i.partMarks .b) (i.rowBytes i.fb) k ||
          rowMarked (i.partMarks .sb) (i.depth / 32) k) := by
  obtain ⟨-, -, hrow, hcol, -⟩ := frame_keeps a i empty
  rw [Arr.finish, ← hrow, ← hcol, ← spGet_newMarks i _ i.fa .a .sa hk, ← spGet_newMarks i _ i.fb .b .sb hk]
  generalize a.frame i empty = b
  by_cases h : i.op = opDTILE
  · rw [after_long h]
    exact ⟨rfl, rfl⟩
  · rw [after_main h]
    exact ⟨rfl, rfl⟩

theorem fl_finish (a : Arr) (i : ArrInstr) (empty : Byte) : (a.finish i empty).2 = a.endFlags i := by
  obtain ⟨hacc, hdacc, -⟩ := frame_keeps a i empty
  rw [Arr.finish]
  by_cases h : i.op = opDTILE
  · rw [after_long h, longCells_eq, fl_resTable, Arr.endFlags, if_pos (decide_eq_true h)]
    simp only [Arr.startDword, hdacc]
  · rw [after_main h, cells_eq, fl_resTable, Arr.endFlags, if_neg (by simpa using h)]
    simp only [Arr.startWord, hacc]

theorem finish_frame (a : Arr) (i : ArrInstr) (empty : Byte) :
    { (a.finish i empty).1 with acc := a.acc, dacc := a.dacc, rowMark := a.rowMark, colMark := a.colMark } =
      a.frame i empty := by
  obtain ⟨hacc, hdacc, hrow, hcol, -⟩ := frame_keeps a i empty
  rw [Arr.finish, ← hacc, ← hdacc, ← hrow, ← hcol]
  exact after_frame ..

/-- The flags rise and the drain starts behind the last operand wave. -/
theorem finish_keeps (a : Arr) (i : ArrInstr) (empty : Byte) :
    (a.finish i empty).1.flags = a.flags ∧ (a.finish i empty).1.drains = a.drains := by
  have h := finish_frame a i empty
  obtain ⟨-, -, -, -, hflags, hdrains⟩ := frame_keeps a i empty
  exact ⟨(congrArg Arr.flags h :).trans hflags, (congrArg Arr.drains h :).trans hdrains⟩

/-- But for cells, marks, flags and drains, an array whose instruction has ended is as its frame left it. -/
theorem finish_ended_frame (a : Arr) (i : ArrInstr) (empty : Byte) (fl : Flags) (ds : List Drain) :
    { ({ (a.finish i empty).1 with run := none, flags := fl, drains := ds } : Arr) with
      acc := a.acc, dacc := a.dacc, rowMark := a.rowMark, colMark := a.colMark, flags := a.flags, drains := a.drains } =
      { a.frame i empty with run := none } := by
  have hfinish := finish_frame a i empty
  obtain ⟨-, -, -, -, hflags, hdrains⟩ := frame_keeps a i empty
  generalize a.frame i empty = b at hfinish hflags hdrains ⊢
  generalize (a.finish i empty).1 = r at hfinish ⊢
  rw [← hfinish] at hflags hdrains ⊢
  rw [← hflags, ← hdrains]

/-- The operand waves that were still to fire count, by their formats too (R179, R489). -/
theorem waves_finish {a : Arr} {i : ArrInstr} {empty : Byte} (hw : operandWaves i ≤ (a.frame i empty).fired) :
    (a.finish i empty).1.opWaves = a.opWaves + BitVec.ofNat 32 (operandWaves i - a.fired) ∧
      ∀ k, spGet 0 (a.finish i empty).1.pairWaves k = spGet 0 a.pairWaves k +
        (if k = 16 * i.fa + i.fb then BitVec.ofNat 32 (operandWaves i - a.fired) else 0) := by
  have h := finish_frame a i empty
  have hop : (a.finish i empty).1.opWaves = (a.frame i empty).opWaves := (congrArg Arr.opWaves h :)
  have hpair : (a.finish i empty).1.pairWaves = (a.frame i empty).pairWaves := (congrArg Arr.pairWaves h :)
  have hcount := countsWaves_frame a i empty
  rw [hop, hpair, ← fired_frame hw]
  exact ⟨hcount.op, hcount.pair⟩

/-- The die after the last operand wave of instruction `i`, its drain not begun. -/
def State.accumulated (s : State) (t : Nat) (i : ArrInstr) (empty : Byte) : State :=
  (s.setArr t (fun _ => { ((s.tile t).arr.finish i empty).1 with run := none })).raiseArr t ((s.tile t).arr.finish i empty).2

theorem exec_arrayInstrEnd {t : Fin 16} {s : State} {i : ArrInstr} {empty : Byte} (hs : s.silent = false)
    (hrun : (s.tile t.val).arr.run = some i) (hfed : Fed i)
    (hw : operandWaves i ≤ ((s.tile t.val).arr.frame i empty).fired) :
    exec (.arrayInstrEnd t empty) s = .next
      (if i.drain then (s.accumulated t.val i empty).startDrain t.val i else s.accumulated t.val i empty) := by
  have hlast : ¬ (s.silent || !i.fed || decide (((s.tile t.val).arr.frame i empty).fired < i.waves)) = true := by
    have hwaves : i.waves = operandWaves i := rfl
    simp [hs, fed_eq_true.2 hfed, hwaves, hw]
  have hend : arrayInstrEnd t.val empty s =
      if i.drain then (s.accumulated t.val i empty).startDrain t.val i else s.accumulated t.val i empty := by
    unfold arrayInstrEnd
    rw [hrun]
    dsimp only
    rw [if_neg hlast]
    rfl
  exact congrArg Host.Outcome.next hend

theorem arr_accumulated (s : State) (t : Nat) (i : ArrInstr) (empty : Byte) :
    ((s.accumulated t i empty).tile t).arr = { ((s.tile t).arr.finish i empty).1 with
      run := none
      flags := (s.tile t).arr.flags ||| (s.tile t).arr.endFlags i } := by
  obtain ⟨hflags, -⟩ := finish_keeps (s.tile t).arr i empty
  simp [State.accumulated, State.raiseArr, hflags, fl_finish]

theorem wren_accumulated (s : State) (t : Fin 16) (i : ArrInstr) (empty : Byte) :
    wrenOf (s.accumulated t.val i empty) t =
      { wrenOf s t with raised := (wrenOf s t).raised ||| (s.tile t.val).arr.endFlags i } := by
  simp [State.accumulated, State.raiseArr, wrenOf, fl_finish]

theorem vec_accumulated (s : State) (t : Nat) (i : ArrInstr) (empty : Byte) :
    ((s.accumulated t i empty).tile t).vec = (s.tile t).vec := by
  simp [State.accumulated, State.raiseArr]

theorem onlyTile_accumulated (s : State) (t : Nat) (i : ArrInstr) (empty : Byte) : OnlyTile t s (s.accumulated t i empty) :=
  onlyTile_trans (onlyTile_setArr ..) (onlyTile_trans (onlyTile_setArr ..) (onlyTile_setWren ..))

theorem sameRequests_of_onlyTile {t : Nat} {s u : State} (h : OnlyTile t s u) : SameRequests s u :=
  ⟨(congrArg State.nextId h.1 :), (congrArg (fun x : State => x.cis.reqs) h.1 :), (congrArg State.time h.1 :),
    (congrArg State.fuse h.1 :), (congrArg State.act h.1 :)⟩

/-- The end of an instruction leaves the drains that were there. -/
theorem drains_accumulated (s : State) (t : Nat) (i : ArrInstr) (empty : Byte) :
    ((s.accumulated t i empty).tile t).arr.drains = (s.tile t).arr.drains := by
  obtain ⟨-, hdrains⟩ := finish_keeps (s.tile t).arr i empty
  rw [arr_accumulated]
  exact hdrains

/-! ## A drain begins (R193, R560) -/

/-- But for what it presents to the Cistern, `u` becomes `s'` by other drains in the array of tile `t`. -/
structure DrainsBecome (t : Fin 16) (u s' : State) (ds : List Drain) : Prop where
  arr : (s'.tile t.val).arr = { (u.tile t.val).arr with drains := ds }
  wren : wrenOf s' t = wrenOf u t
  vec : (s'.tile t.val).vec = (u.tile t.val).vec
  only : OnlyTile t.val (u.withRequests s'.nextId s'.cis.reqs) s'

theorem drainsBecome_refl (t : Fin 16) (u : State) : DrainsBecome t u u (u.tile t.val).arr.drains :=
  ⟨rfl, rfl, rfl, rfl, fun _ _ => rfl⟩

theorem drainsBecome_setArr (t : Fin 16) (u : State) (ds : List Drain) :
    DrainsBecome t u (u.setArr t.val (fun a => { a with drains := ds })) ds :=
  ⟨State.tile_setArr_arr .., State.tile_setArr_wren .., State.tile_setArr_vec .., onlyTile_setArr u ..⟩

theorem drainsBecome_trans {t : Fin 16} {u v w : State} {ds es : List Drain} (h : DrainsBecome t u v ds)
    (g : DrainsBecome t v w es) : DrainsBecome t u w es where
  arr := by rw [g.arr, h.arr]
  wren := g.wren.trans h.wren
  vec := g.vec.trans h.vec
  only := onlyTile_trans (onlyTile_withRequests h.only w.nextId w.cis.reqs) g.only

theorem drainsBecome_formDrain (t : Fin 16) (u : State) (i : ArrInstr) (d : Drain) :
    DrainsBecome t u (u.formDrain t.val i d).1 (u.tile t.val).arr.drains := by
  obtain ⟨n, l, hform⟩ := formDrain_withRequests u t i d
  rw [hform]
  exact ⟨rfl, rfl, rfl, rfl, fun _ _ => rfl⟩

/-- The drain of an instruction whose bias is late waits behind the others. -/
theorem startDrain_waits {t : Fin 16} {u : State} {i : ArrInstr} (hwait : DrainsWait (u.tile t.val).arr)
    (hb : ¬ Biased i) :
    DrainsBecome t u (u.startDrain t.val i) ((u.tile t.val).arr.drains ++ [i.newDrain]) ∧
      (u.startDrain t.val i).cis = u.cis ∧ (u.startDrain t.val i).nextId = u.nextId := by
  have hnew := drainsBecome_setArr t u ((u.tile t.val).arr.drains ++ [i.newDrain])
  have hall : DrainsWait ((u.setArr t.val (fun a => { a with drains := a.drains ++ [i.newDrain] })).tile t.val).arr := by
    rw [State.tile_setArr_arr]
    intro d hd j hj
    rcases List.mem_append.1 hd with hd | hd
    · exact hwait d hd j hj
    · rw [List.mem_singleton.1 hd] at hj
      rwa [← Option.some.inj hj]
  rw [State.startDrain, formDrains_wait hall, State.tile_setArr_arr]
  exact ⟨drainsBecome_trans hnew (drainsBecome_setArr t _ _), rfl, rfl⟩

/-- The drain of an instruction whose bias has come forms its outputs behind the drains that wait. -/
theorem startDrain_forms {t : Fin 16} {s u : State} {i : ArrInstr} (hu : SameRequests s u)
    (hwait : DrainsWait (u.tile t.val).arr) (hb : Biased i) :
    ∃ d, DrainsBecome t u (u.startDrain t.val i) ((u.tile t.val).arr.drains ++ [d]) ∧
      CarriesCells t s (u.startDrain t.val i) i d := by
  let v := u.setArr t.val (fun a => { a with drains := a.drains ++ [i.newDrain] })
  have hdrains : (v.tile t.val).arr.drains = (u.tile t.val).arr.drains ++ i.newDrain :: [] := by
    rw [State.tile_setArr_arr]
  have hstart : u.startDrain t.val i = (v.formDrain t.val i i.newDrain).1.setArr t.val (fun a => { a with
      drains := (u.tile t.val).arr.drains ++ [(v.formDrain t.val i i.newDrain).2] }) :=
    formDrains_one hdrains (by rw [List.append_nil]; exact hwait) rfl hb
  have hform := drainsBecome_formDrain t v i i.newDrain
  have hend := drainsBecome_trans hform
    (drainsBecome_setArr t _ ((u.tile t.val).arr.drains ++ [(v.formDrain t.val i i.newDrain).2]))
  refine ⟨(v.formDrain t.val i i.newDrain).2, ?_, ?_⟩
  · rw [hstart]
    exact drainsBecome_trans (drainsBecome_setArr t u _) hend
  · rw [hstart]
    exact carriesCells_formDrain hu (congrArg Arr.acc hend.arr :) (congrArg Arr.dacc hend.arr :) rfl rfl rfl rfl

theorem carriesCells_vreg {t : Fin 16} {s s' : State} {i : ArrInstr} {d : Drain} (h : CarriesCells t s s' i d) :
    d.vreg.isSome = ddDest i.xd0 := by
  obtain ⟨-, -, -, hvec, hcis⟩ := h
  by_cases hd : ddDest i.xd0 = true
  · rw [(hvec hd).1, hd]
    rfl
  · have hd : ddDest i.xd0 = false := by simpa using hd
    rw [(hcis hd).1, hd]
    rfl

theorem newDrain_vreg (i : ArrInstr) : i.newDrain.vreg.isSome = ddDest i.xd0 := by
  unfold ArrInstr.newDrain
  cases ddDest i.xd0 <;> rfl

/-! ## The end of an array instruction (R163, R191, R198, R560) -/

theorem drainsWait_accumulated {s : State} {t : Nat} (h : DrainsWait (s.tile t).arr) (i : ArrInstr) (empty : Byte) :
    DrainsWait ((s.accumulated t i empty).tile t).arr := by
  unfold DrainsWait
  rw [drains_accumulated]
  exact h

/-- The drain of the instruction: none, one that waits for its bias, or one that forms its outputs. -/
theorem exec_arrayInstrEnd_drains {t : Fin 16} {s : State} {i : ArrInstr} {empty : Byte} (hs : s.silent = false)
    (hrun : (s.tile t.val).arr.run = some i) (hfed : Fed i) (hwait : DrainsWait (s.tile t.val).arr)
    (hw : operandWaves i ≤ ((s.tile t.val).arr.frame i empty).fired) :
    ∃ s' ds, exec (.arrayInstrEnd t empty) s = .next s' ∧
      DrainsBecome t (s.accumulated t.val i empty) s' ((s.tile t.val).arr.drains ++ ds) ∧
      (i.drain = false → ds = [] ∧ s'.cis = s.cis ∧ s'.nextId = s.nextId) ∧
      (i.drain = true → ¬ Biased i → ds = [i.newDrain] ∧ s'.cis = s.cis ∧ s'.nextId = s.nextId) ∧
      (i.drain = true → Biased i → ∃ d, ds = [d] ∧ CarriesCells t s s' i d) := by
  have hexec := exec_arrayInstrEnd hs hrun hfed hw
  have honly := onlyTile_accumulated s t.val i empty
  have hcis : (s.accumulated t.val i empty).cis = s.cis := (congrArg State.cis honly.1 :)
  have hid : (s.accumulated t.val i empty).nextId = s.nextId := (congrArg State.nextId honly.1 :)
  have hwait := drainsWait_accumulated hwait i empty
  rw [← drains_accumulated s t.val i empty]
  by_cases hd : i.drain = true
  · rw [if_pos hd] at hexec
    by_cases hb : Biased i
    · obtain ⟨d, hdrains, hcells⟩ := startDrain_forms (sameRequests_of_onlyTile honly) hwait hb
      exact ⟨_, [d], hexec, hdrains, fun h => by simp [hd] at h, fun _ h => absurd hb h, fun _ _ => ⟨d, rfl, hcells⟩⟩
    · obtain ⟨hdrains, hlate, hnext⟩ := startDrain_waits hwait hb
      exact ⟨_, [i.newDrain], hexec, hdrains, fun h => by simp [hd] at h,
        fun _ _ => ⟨rfl, hlate.trans hcis, hnext.trans hid⟩, fun _ h => absurd h hb⟩
  · rw [if_neg hd] at hexec
    refine ⟨_, [], hexec, ?_, fun _ => ⟨rfl, hcis, hid⟩, fun h => absurd h hd, fun h => absurd h hd⟩
    rw [List.append_nil]
    exact drainsBecome_refl ..

theorem arrayInstructionEnds : ArrayInstructionEndsRule := by
  intro t s i empty hs hrun hfed hwait a hw long fl
  obtain ⟨s', ds, hexec, ⟨harr, hwren, hvec, honly⟩, hnone, hlate, hforms⟩ :=
    exec_arrayInstrEnd_drains hs hrun hfed hwait hw
  rw [arr_accumulated] at harr
  rw [wren_accumulated] at hwren
  rw [vec_accumulated] at hvec
  have honly := onlyTile_trans (onlyTile_withRequests (onlyTile_accumulated s t.val i empty) s'.nextId s'.cis.reqs) honly
  refine ⟨s', hexec, ?_⟩
  rw [harr]
  refine ⟨fun n r j hr hj => acc_finish a i empty n hr hj, fun n r j hr hj => dacc_finish a i empty n hr hj,
    finish_ended_frame a i empty _ _, (waves_finish hw).1, (waves_finish hw).2, fun k hk => marks_finish a i empty hk,
    rfl, hwren, fun hd => ?_, fun hd => ?_,
    (congrArg (fun x : State => x.cis.mem) honly.1 :), hvec, honly⟩
  · obtain ⟨rfl, hcis, hid⟩ := hnone hd
    exact ⟨List.append_nil _, hcis, hid⟩
  · by_cases hb : Biased i
    · obtain ⟨d, rfl, hcells⟩ := hforms hd hb
      have hvreg := carriesCells_vreg hcells
      obtain ⟨hformed, hset, -⟩ := hcells
      exact ⟨d, rfl, hset, hvreg, fun _ => hformed, fun h => absurd hb h⟩
    · obtain ⟨rfl, hcis, hid⟩ := hlate hd hb
      exact ⟨i.newDrain, rfl, rfl, newDrain_vreg i, fun h => absurd h hb, fun _ => ⟨rfl, rfl, hcis, hid⟩⟩

theorem drainCarriesTheCells : DrainCarriesTheCellsRule := by
  intro t s i empty hs hrun hfed hb hd hwait hw
  obtain ⟨s', ds, hexec, ⟨harr, -⟩, -, -, hforms⟩ := exec_arrayInstrEnd_drains hs hrun hfed hwait hw
  obtain ⟨d, rfl, hcells⟩ := hforms hd hb
  exact ⟨s', d, hexec, congrArg Arr.drains harr, hcells⟩

/-- Settles O14: a frame counts the waves that it fires, the cells accumulate from the tables of `Arr.after`, and the drain
of the instruction is the only one whose bias may have come. -/
theorem arrayInstructionsAndDrainsEnd : Obligations.ArrayInstructionsAndDrainsEnd :=
  ⟨arrayInstructionEnds, drainCarriesTheCells⟩

end Sys2Proof.Machine

end

section

namespace Sys2Proof.Machine

/-! ## The operand reads of an array instruction (R180, R186, R187, R560) -/

section

variable (s : State) (t : Fin 16) (p : Prog) (n : Nat) (l l' : List (Requester × OpPart × DWord × Nat × Nat))

theorem rangeAccesses_congr {s u : State} (htime : u.time = s.time) (hfuse : u.fuse = s.fuse) (hact : u.act = s.act) :
    rangeAccesses u t p n l = rangeAccesses s t p n l := by
  induction l generalizing n with
  | nil => rfl
  | cons r l ih =>
    obtain ⟨who, part, d, o, k⟩ := r
    simp only [rangeAccesses, ih, lineAccesses, State.phys, State.arrival, htime, hfuse, hact]

theorem rangeAccesses_append :
    rangeAccesses s t p n (l ++ l') = rangeAccesses s t p n l ++ rangeAccesses s t p (n + rangeCount l) l' := by
  induction l generalizing n with
  | nil => rfl
  | cons r l ih =>
    obtain ⟨who, part, d, o, k⟩ := r
    simp [rangeAccesses, rangeCount, ih, Nat.add_assoc]

theorem rangeLines_append : rangeLines n (l ++ l') = rangeLines n l ++ rangeLines (n + rangeCount l) l' := by
  induction l generalizing n with
  | nil => rfl
  | cons r l ih =>
    obtain ⟨who, part, d, o, k⟩ := r
    simp [rangeLines, rangeCount, ih, Nat.add_assoc]

theorem rangeCount_append : rangeCount (l ++ l') = rangeCount l + rangeCount l' := by
  simp [rangeCount]

/-- The line reads of ranges are presented: the die then, and the lines that they bring. -/
def State.present : State × List OpLine :=
  (s.withRequests (s.nextId + rangeCount l) (s.cis.reqs ++ rangeAccesses s t p s.nextId l), rangeLines s.nextId l)

theorem present_nil : s.present t p [] = (s, []) := by
  simp [State.present, State.withRequests, rangeAccesses, rangeLines, rangeCount]

/-- Ranges are presented one after the other. -/
theorem present_append :
    s.present t p (l ++ l') =
      (((s.present t p l).1.present t p l').1, (s.present t p l).2 ++ ((s.present t p l).1.present t p l').2) := by
  have hsame : rangeAccesses (s.present t p l).1 t p = rangeAccesses s t p := by
    funext n k
    exact rangeAccesses_congr t p n k (s := s) (u := (s.present t p l).1) rfl rfl rfl
  have hrest : (s.present t p l).1.present t p l' =
      ((s.present t p l).1.withRequests (s.nextId + rangeCount l + rangeCount l')
        ((s.cis.reqs ++ rangeAccesses s t p s.nextId l) ++ rangeAccesses s t p (s.nextId + rangeCount l) l'),
        rangeLines (s.nextId + rangeCount l) l') := by
    rw [State.present, hsame]
    rfl
  rw [hrest, State.present, rangeAccesses_append, rangeLines_append, rangeCount_append, ← Nat.add_assoc, ← List.append_assoc]
  rfl

/-- The reads of one operand range. -/
theorem readOperand_eq (who : Requester) (part : OpPart) (d : DWord) (o : Nat) :
    s.readOperand t.val who part p.ctx (fdHandle d) o n = s.present t p [(who, part, d, o, n)] := by
  simp only [State.readOperand, postLines_eq, State.present, rangeAccesses, rangeLines, rangeCount, List.append_nil,
    List.map_cons, List.map_nil, List.sum_cons, List.sum_nil, Nat.add_zero]
  rfl

/-- Ranges that an instruction may leave out. -/
theorem present_ite (c : Prop) [Decidable c] :
    (if c then s.present t p l else (s, [])) = s.present t p (if c then l else []) := by
  split
  · rfl
  · exact (present_nil s t p).symm

theorem readOperands_eq {i : ArrInstr} (hctx : i.ctx = p.ctx) :
    s.readOperands t.val i = s.present t p (operandRanges i) := by
  have hblocks (a b : Requester × OpPart × DWord × Nat × Nat) : [a, b] = [a] ++ [b] := rfl
  simp only [State.readOperands, operandRanges, hctx, readOperand_eq, present_ite, hblocks, present_append]

/-- Tiles have no part in what is presented. -/
theorem onlyTile_present {s u : State} {t : Fin 16} (h : OnlyTile t.val s u) :
    OnlyTile t.val (s.present t p l).1 (u.present t p l).1 ∧ (u.present t p l).2 = (s.present t p l).2 := by
  obtain ⟨hnext, hreqs, htime, hfuse, hact⟩ := sameRequests_of_onlyTile h
  simp only [State.present, hnext, hreqs, rangeAccesses_congr t p _ l htime hfuse hact, and_true]
  exact onlyTile_withRequests h ..

end

/-! ## Issue of a tensor slot (R180, R183, R192) -/

theorem exec_tnop (t : Fin 16) (s : State) : exec (.tnop t) s = .next (tnopSlot t.val s) := rfl

theorem exec_tensorRow {t : Fin 16} {r : Instr × Nat} (hr : r ∈ tensorRows t) (s : State) :
    exec r.1 s = .next (s.tensorSlot t.val r.2) := by
  simp only [tensorRows, List.mem_cons, List.not_mem_nil, or_false] at hr
  obtain rfl | rfl | rfl | rfl := hr <;> rfl

/-- An opened bundle has noted the registers that its slots read (R225). -/
theorem readX_opened (s : State) (t : Fin 16) : readX (wrenOf s t).opened.snapX = bundleX s t := by
  funext r
  unfold bundleX Wren.opened
  split <;> rfl

theorem opened_tensor (w : Wren) : w.opened.tensor = w.tensor := by
  unfold Wren.opened
  split <;> rfl

/-- What the issue of a slot without flags leaves in the Wren. -/
theorem slotIssued_opened (w : Wren) (k : Nat) :
    (w.opened.slotIssued k).rest = w.rest ∧ SameX w (w.opened.slotIssued k) ∧ (w.opened.slotIssued k).p = w.p ∧
      SlotBook w (w.opened.slotIssued k) k w.target := by
  obtain ⟨horest, hox, hop, -⟩ := opened_kept w
  obtain ⟨hrest, hx, hp⟩ := slotIssued_kept w.opened k
  exact ⟨hrest.trans horest, ⟨hx.1.trans hox.1, hx.2.trans hox.2⟩, hp.trans hop, slotBook_slotIssued w k w.opened.raised⟩

/-- The instruction of the tensor slot of a bundle, before its reads are presented. -/
def State.slotInstr (s : State) (t : Fin 16) (p : Prog) : ArrInstr :=
  arrInstrOf (wrenOf s t).tensor (bundleX s t) (s.tile t.val).arr p.ctx

/-- The instruction as it issues, its lines under way. -/
def State.tensorInstr (s : State) (t : Fin 16) (p : Prog) : ArrInstr :=
  { s.slotInstr t p with lines := rangeLines s.nextId (operandRanges (s.slotInstr t p)) }

section

variable {s : State} {t : Fin 16} {p : Prog}

/-- In an opened bundle the effect of the slot is to present the reads of its instruction, which then is pending. -/
theorem tensorAct_opened {u : State} (hu : OnlyWren t.val s u) (hwren : wrenOf u t = (wrenOf s t).opened) :
    let i := s.tensorInstr t p
    tensorAct t.val u p = (u.present t p (operandRanges i)).1.setArr t.val (fun a =>
      { a with pend := some i, kind := spSet kindEmpty a.kind i.set i.kind }) := by
  obtain ⟨honly, harr, -⟩ := hu
  have hinstr : arrInstrOf (u.tile t.val).wren.tensor (readX (u.tile t.val).wren.snapX) (u.tile t.val).arr p.ctx =
      s.slotInstr t p := by
    rw [show (u.tile t.val).wren = (wrenOf s t).opened from hwren, readX_opened, opened_tensor, harr, State.slotInstr]
  have hread : u.readOperands t.val (s.slotInstr t p) = u.present t p (operandRanges (s.slotInstr t p)) :=
    readOperands_eq u t p rfl
  have hlines := (onlyTile_present p (operandRanges (s.slotInstr t p)) honly).2
  simp only [tensorAct, hinstr, hread, hlines]
  rfl

/-- A tensor slot that is ready leaves its instruction pending, its set's kind, and its reads at the Cistern. -/
theorem tensorSlot_issues {op : Nat} (h : SlotReady s t 2 p) (hop : tsOp (wrenOf s t).tensor = op) :
    let i := s.tensorInstr t p
    let s' := s.tensorSlot t.val op
    (s'.tile t.val).arr = { (s.tile t.val).arr with
        pend := some i
        kind := spSet kindEmpty (s.tile t.val).arr.kind i.set i.kind } ∧
      (s'.tile t.val).vec = (s.tile t.val).vec ∧ wrenOf s' t = (wrenOf s t).opened.slotIssued 2 ∧
      OnlyTile t.val (s.present t p (operandRanges i)).1 s' := by
  intro i s'
  obtain ⟨u, hu, hwren, hslot⟩ := issueSlot_opened h (row := fun w => decide (tsOp w = op)) (decide_eq_true hop)
    (tensorAct t.val)
  rw [tensorAct_opened hu hwren] at hslot
  change s' = _ at hslot
  obtain ⟨honly, harr, hvec⟩ := hu
  have htile : (u.present t p (operandRanges i)).1.tile t.val = u.tile t.val := rfl
  refine ⟨?_, ?_, ?_, ?_⟩
  · rw [hslot, State.tile_setWren_arr, State.tile_setArr_arr, htile, harr]
  · rw [hslot, State.tile_setWren_vec, State.tile_setArr_vec, htile, hvec]
  · rw [hslot, wrenOf, State.tile_setWren_wren, State.tile_setArr_wren, htile]
    exact congrArg (fun w : Wren => w.slotIssued 2) hwren
  · rw [hslot]
    exact onlyTile_trans (onlyTile_present p _ honly).1 (onlyTile_trans (onlyTile_setArr ..) (onlyTile_setWren ..))

/-- TNOP only issues. -/
theorem tnopSlot_issues (h : SlotReady s t 2 p) (hop : tsOp (wrenOf s t).tensor = 0) :
    wrenOf (tnopSlot t.val s) t = (wrenOf s t).opened.slotIssued 2 ∧ OnlyWren t.val s (tnopSlot t.val s) := by
  obtain ⟨u, hu, hwren, hslot⟩ := issueSlot_opened h (row := fun w => decide (tsOp w = 0) || decide (opDTILE < tsOp w))
    (Bool.or_eq_true_iff.2 (.inl (decide_eq_true hop))) (fun s _ => s)
  change tnopSlot t.val s = _ at hslot
  rw [hslot]
  refine ⟨?_, onlyWren_trans hu (onlyWren_setWren ..)⟩
  rw [wrenOf, State.tile_setWren_wren]
  exact congrArg (fun w : Wren => w.slotIssued 2) hwren

end

/-- Settles O13: the slot's effect is to present the ranges of its instruction one after the other and to hold it pending. -/
theorem tensorSlotsIssue : Obligations.TensorSlotsIssue := by
  intro t s p h
  obtain ⟨hrest, hx, hp, hbook⟩ := slotIssued_opened (wrenOf s t) 2
  refine ⟨fun hop => ?_, fun r hr hop => ?_⟩
  · obtain ⟨hwren, honly⟩ := tnopSlot_issues h hop
    refine ⟨_, exec_tnop t s, ?_⟩
    rw [hwren]
    exact ⟨hrest, hx, hp, hbook, honly⟩
  · obtain ⟨harr, hvec, hwren, honly⟩ := tensorSlot_issues h hop
    refine ⟨_, s.tensorInstr t p, exec_tensorRow hr s, ?_⟩
    rw [harr, hwren]
    refine ⟨?_, rfl, fun hd => ?_, ?_, rfl, rfl, fun k => ?_, hvec, hrest, hx, hp, hbook, honly⟩
    · rw [← hop]
      rfl
    · simp only [State.tensorInstr, State.slotInstr, arrInstrOf, show tsDrain (wrenOf s t).tensor = true from hd, if_true]
    · rw [← hop]
      simp [State.tensorInstr, State.slotInstr, arrInstrOf]
    · rw [← hop]
      exact spGet_spSet

/-! ## An array instruction starts, and an array goes cold (R193, R195, R197, R490) -/

theorem exec_arrayInstrStart {t : Fin 16} {s : State} {i : ArrInstr} (hs : s.silent = false)
    (hpend : (s.tile t.val).arr.pend = some i) (hrun : (s.tile t.val).arr.run = none) (hstop : s.arrStopped t.val = false)
    (hset : (s.tile t.val).arr.draining i.set = false) (wave : Fin 8) :
    exec (.arrayInstrStart t wave) s = .next (s.setArr t.val (fun a => { a with
      run := some i
      pend := none
      place := max a.place wave.val
      fired := 0
      ramp := if a.cold = true ∧ i.op ≠ opDTILE then 0 else 64
      cold := a.cold && decide (i.op = opDTILE)
      coldStarts := if a.cold = true ∧ i.op ≠ opDTILE then a.coldStarts + 1 else a.coldStarts })) := by
  have hstart : ¬ (s.silent || s.arrStopped t.val || (s.tile t.val).arr.run.isSome || (s.tile t.val).arr.draining i.set) =
      true := by
    simp [hs, hstop, hrun, hset]
  refine congrArg Host.Outcome.next ?_
  unfold arrayInstrStart
  dsimp only
  rw [hpend]
  dsimp only
  rw [if_neg hstart]
  simp

theorem exec_arrayGoesCold {t : Fin 16} {s : State} (hs : s.silent = false)
    (hidle : ∀ i, (s.tile t.val).arr.run = some i → i.op = opDTILE) :
    exec (.arrayGoesCold t) s = .next (s.setArr t.val (fun a => { a with cold := true })) := by
  refine congrArg Host.Outcome.next ?_
  unfold arrayGoesCold
  cases hrun : (s.tile t.val).arr.run with
  | none => simp [hs]
  | some i => simp [hs, hidle i hrun]

/-! ## A drain ends (R189, R222, R560) -/

/-- The place of the first element that `p` takes. -/
theorem findIdx?_first {α : Type} {p : α → Bool} {pre : List α} {d : α} (hpre : ∀ y ∈ pre, p y = false)
    (hd : p d = true) (post : List α) : (pre ++ d :: post).findIdx? p = some pre.length := by
  rw [List.findIdx?_append, List.findIdx?_eq_none_iff.2 hpre, List.findIdx?_cons, if_pos hd]
  simp

theorem exec_drainEnd {t : Fin 16} {s : State} {pre post : List Drain} {d : Drain} (hs : s.silent = false)
    (hdrains : (s.tile t.val).arr.drains = pre ++ d :: post) (hpre : ∀ y ∈ pre, (s.tile t.val).drainDone y = false)
    (hd : (s.tile t.val).drainDone d = true) :
    exec (.drainEnd t) s = .next ((s.setTile t.val { s.tile t.val with
      arr := { (s.tile t.val).arr with drains := pre ++ post }
      vec := (s.tile t.val).vec.takeDrain d }).raiseArr t.val d.flags) := by
  refine congrArg Host.Outcome.next ?_
  unfold drainEnd
  simp only [hdrains, findIdx?_first hpre hd]
  simp [hs, List.eraseIdx_append_of_length_le]

theorem takeDrain_cistern {d : Drain} (h : d.vreg = none) (v : Vec) : v.takeDrain d = v := by
  simp only [Vec.takeDrain, h]

section

variable {d : Drain} {n : Nat} (hreg : d.vreg = some n)
include hreg

theorem elem_takeDrain (hlen : d.values.length = 4 * 4096) (v : Vec) (m : Nat) {e : Nat} (he : e < 4096) :
    (v.takeDrain d).elem m e = if n ≤ m ∧ m < n + 4 then d.values.getD (4096 * (m - n) + e) 0 else v.elem m e := by
  simp only [Vec.takeDrain, hreg, Vec.elem, spGet_spSetList, hlen]
  by_cases h : n ≤ m ∧ m < n + 4
  · rw [if_pos (by omega), if_pos h, show 4096 * m + e - 4096 * n = 4096 * (m - n) + e by omega]
  · rw [if_neg (by omega), if_neg h]

theorem regMarked_takeDrain (hlen : d.rowMarks.length = 4 * 32) (v : Vec) {m r : Nat} (hm : m < 32) (hr : r < 32) :
    (v.takeDrain d).regMarked m r =
      if n ≤ m ∧ m < n + 4 then d.rowMarks.getD (32 * (m - n) + r) false else v.regMarked m r := by
  simp only [Vec.takeDrain, hreg, Vec.regMarked, if_pos hm, spGet_spSetList, hlen]
  by_cases h : n ≤ m ∧ m < n + 4
  · rw [if_pos (by omega), if_pos h, show 32 * m + r - 32 * n = 32 * (m - n) + r by omega]
  · rw [if_neg (by omega), if_neg h]

theorem takeDrain_frame (v : Vec) : { v.takeDrain d with v := v.v, vMark := v.vMark } = v := by
  simp only [Vec.takeDrain, hreg]

end

/-- Settles O15: where their conditions hold the three events are one update of the array, and a drain's outputs are four
registers of elements and marks. -/
theorem arraysStartAndDrainsEnd : Obligations.ArraysStartAndDrainsEnd := by
  intro t s hs x a
  refine ⟨fun i hpend hrun hstop hset wave => ?_, fun hidle => ?_, fun pre post d hdrains hpre hd => ?_⟩
  · exact ⟨_, exec_arrayInstrStart hs hpend hrun hstop hset wave, State.tile_setArr_arr .., State.tile_setArr_vec ..,
      State.tile_setArr_wren .., onlyTile_setArr ..⟩
  · exact ⟨_, exec_arrayGoesCold hs hidle, State.tile_setArr_arr .., State.tile_setArr_vec .., State.tile_setArr_wren ..,
      onlyTile_setArr ..⟩
  · refine ⟨_, exec_drainEnd hs hdrains hpre hd, by simp [State.raiseArr, a, x], by simp [State.raiseArr, wrenOf],
      fun hreg => ?_, fun v hreg hvalues hmarks => ?_,
      onlyTile_trans (onlyTile_setTile ..) (onlyTile_trans (onlyTile_setArr ..) (onlyTile_setWren ..))⟩
    · simp [State.raiseArr, takeDrain_cistern hreg, x]
    · simp only [State.raiseArr, State.tile_setWren_vec, State.tile_setArr_vec, State.tile_setTile_same]
      exact ⟨fun n e he => elem_takeDrain hreg hvalues x.vec n he,
        fun n r hn hr => regMarked_takeDrain hreg hmarks x.vec hn hr, takeDrain_frame hreg x.vec⟩

end Sys2Proof.Machine

end

section

namespace Sys2Proof.Machine

/-! ## Rows that write lanes (R205, R222) -/

/-- What a slot computes is lanes of VD, or of its pair, and nothing else in the engine. -/
structure WritesLanes (v : Vec) (w : Nat) (r : Res Vec) (wide : Bool) (value : Nat → Res DWord) (mark : Nat → Bool) :
    Prop where
  lanes : LanesWritten v r.out w wide value mark
  frame : { r.out with v := v.v, vMark := v.vMark } = v
  flags : r.fl = flagsOf (v.active w) value 4096

/-- A word as the low half of a two-word result. -/
def lowWord (r : Res Word) : Res DWord := ⟨r.out.setWidth 64, r.fl⟩

theorem setWidth_lowWord (r : Res Word) : (lowWord r).out.setWidth 32 = r.out :=
  BitVec.setWidth_setWidth_of_le _ (by decide)

theorem lowWord_ofNat (n : Nat) : lowWord ⟨BitVec.ofNat 32 n, 0⟩ = ⟨BitVec.ofNat 64 (n % 2 ^ 32), 0⟩ := by
  simp only [lowWord, ← BitVec.ofNat_toNat, BitVec.toNat_ofNat]

section

variable (v : Vec) (w : Nat)

theorem writesLanes_pairLane (srcs : List Nat) (wide : Bool) (f : Nat → Res DWord) :
    WritesLanes v w (v.pairLane w srcs wide f) wide f (fun r => srcs.any (fun n => v.regMarked n r)) :=
  ⟨lanesWritten_pairLane .., pairLane_frame .., fl_pairLane ..⟩

theorem writesLanes_laneMarked (mark : Nat → Bool) (f : Nat → Res Word) :
    WritesLanes v w (v.laneMarked w (vsVd w) mark f) false (fun e => lowWord (f e)) mark := by
  refine ⟨⟨fun n e hn he => ?_, fun n r hn hr => ?_⟩, rfl, ?_⟩
  · rw [elem_laneMarked he]
    by_cases h : n = vsVd w <;> simp [h, Vec.laneElem, setWidth_lowWord]
  · rw [regMarked_laneMarked hn hr]
    by_cases h : n = vsVd w <;> simp [h, Vec.laneMark, keeps_eq]
  · rw [fl_laneMarked]
    exact flagsOf_of_fl (fun _ => rfl) _ _

/-- A floating-point result is rounded once, and half a pair has the mark of its own row (R206, R222). -/
theorem writesLanes_fpLane (srcs : List Nat) (f : Nat → Val) :
    WritesLanes v w (v.fpLane w srcs f) (vsD w) (fun e => roundedTo w (f e))
      (fun r => srcs.any (fun n => v.regMarked n r || (decide (n < 32) && vsD w && v.regMarked (n + 1) r))) := by
  have hsrc (r n : Nat) : (if n < 32 then pairOf (vsD w) n else [n]).any (fun n => v.regMarked n r) =
      (v.regMarked n r || (decide (n < 32) && vsD w && v.regMarked (n + 1) r)) := by
    by_cases hn : n < 32 <;> simp [hn, any_pairOf]
  simp only [← hsrc, ← List.any_flatMap]
  exact writesLanes_pairLane ..

end

theorem greatest_nil (a : Word) : greatest a [] = a := by simp [greatest]

/-- An engine whose VEC_AMAX and loads stand has taken no values. -/
theorem maximumTaken_nil {v u : Vec} (ha : u.amax = v.amax) (hl : u.loads = v.loads) : MaximumTaken v u [] := by
  refine ⟨fun _ => ⟨by rw [ha, greatest_nil], hl⟩, fun older l newer hls _ _ => ⟨ha, ?_⟩⟩
  rw [hl, hls, greatest_nil]

section

variable {s : State} {t : Fin 16} {p : Prog} {op : Nat}

/-- A row of the vector slot that computes lanes issues, and VEC_AMAX takes nothing. -/
theorem laneRowIssues_of_writesLanes (h : SlotReady s t 3 p) (hop : vsOp (wrenOf s t).vector = op)
    {f : Wren → Nat → Vec → Res Vec} {row : LaneRow} (hexec : exec row.row s = .next (s.vectorOn t.val op f))
    (hf : ∀ v w, WritesLanes v w (f (wrenOf s t).opened w v) (row.wide w) (row.value (bundleX s t) w v)
      (row.mark (bundleMark s t) w v)) : LaneRowIssues t s row [] := by
  obtain ⟨hlanes, hframe, hflags⟩ := hf (s.tile t.val).vec (wrenOf s t).vector
  refine laneRowIssues_of_lanes h hop hexec rfl rfl rfl hlanes ?_ ?_ hflags
  · exact maximumTaken_nil (congrArg Vec.amax hframe :) (congrArg Vec.loads hframe :)
  · exact (congrArg (fun u : Vec => { u with amax := (s.tile t.val).vec.amax, loads := (s.tile t.val).vec.loads }) hframe :)

/-! ## Floating-point rows (R206, R207, R215, R216) -/

/-- A row whose slot rounds the values `f` of the lanes. -/
theorem fpRow_issues (h : SlotReady s t 3 p) (hop : vsOp (wrenOf s t).vector = op) {row : Instr} {srcs : Nat → List Nat}
    {f : Nat → Vec → Nat → Val}
    (hexec : exec row s = .next (s.vectorSlot t.val op (fun w v => v.fpLane w (srcs w) (f w v)))) :
    LaneRowIssues t s (fpRow row op srcs f) [] :=
  laneRowIssues_of_writesLanes h hop hexec (fun v w => writesLanes_fpLane v w (srcs w) (f w v))

end

theorem vectorFloatRows : VectorFloatRowsRule := by
  intro t s p r hr h hop
  simp only [floatRows, List.mem_cons, List.not_mem_nil, or_false] at hr
  obtain rfl | rfl | rfl | rfl | rfl | rfl | rfl | rfl | rfl | rfl | rfl | rfl := hr <;> exact fpRow_issues h hop rfl

/-! ## Word rows (R202, R206, R207, R221) -/

section

variable {s : State} {t : Fin 16} {p : Prog} {op : Nat}

/-- A row whose slot computes the words `g` of the lanes, which are the table's `f`. -/
theorem wordRow_issues (h : SlotReady s t 3 p) (hop : vsOp (wrenOf s t).vector = op) {row : Instr} {srcs : Nat → List Nat}
    {f g : Nat → Vec → Nat → Res Word} (hfg : g = f)
    (hexec : exec row s = .next (s.vectorSlot t.val op (fun w v => v.lane w (srcs w) (vsVd w) (g w v)))) :
    LaneRowIssues t s (wordRow row op srcs f) [] := by
  subst hfg
  exact laneRowIssues_of_writesLanes h hop hexec (fun v w => writesLanes_laneMarked v w _ (g w v))

/-- A row whose result is an operation on the words of VA and VB. -/
theorem binaryRow_issues (h : SlotReady s t 3 p) (hop : vsOp (wrenOf s t).vector = op) {row : Instr}
    {g : Word → Word → Res Word} (f : Word → Word → Res Word) (hfg : ∀ a b, g a b = f a b)
    (hexec : exec row s = .next (s.vectorSlot t.val op (fun w v => v.wordLane w g))) :
    LaneRowIssues t s (wordRow row op (fun w => [vsVa w, vsVb w])
      (fun w v e => f (v.src (vsVa w) e) (v.src (vsVb w) e))) [] := by
  have hfg : g = f := funext fun a => funext fun b => hfg a b
  subst hfg
  exact wordRow_issues h hop rfl hexec

end

theorem shiftLeft_eq (a : Word) (n : Nat) : a <<< n = BitVec.ofNat 32 (a.toNat * 2 ^ n) := by
  apply BitVec.eq_of_toNat_eq
  simp [Nat.shiftLeft_eq]

theorem shiftRight_eq (a : Word) (n : Nat) : a >>> n = BitVec.ofNat 32 (a.toNat / 2 ^ n) := by
  apply BitVec.eq_of_toNat_eq
  rw [BitVec.toNat_ushiftRight, Nat.shiftRight_eq_div_pow, BitVec.toNat_ofNat,
    Nat.mod_eq_of_lt (Nat.lt_of_le_of_lt (Nat.div_le_self ..) a.isLt)]

theorem sshiftRight_eq (a : Word) (n : Nat) : a.sshiftRight n = BitVec.ofInt 32 (a.toInt / 2 ^ n) := by
  rw [BitVec.sshiftRight, Int.shiftRight_eq_div_pow]
  norm_cast

/-- The model's clamp is the saturation of R206. -/
theorem clampWord_eq (i : Int) : clampWord i = saturated i := by
  have hclamp : clampInt intMin32 intMax32 i =
      (max (-2 ^ 31) (min (2 ^ 31 - 1) i), !decide (-2 ^ 31 ≤ i ∧ i ≤ 2 ^ 31 - 1)) := by
    unfold clampInt intMin32 intMax32
    split
    · simp; omega
    · split <;> simp <;> omega
  simp only [clampWord, hclamp, saturated, flagIf, Bool.not_eq_true', decide_eq_false_iff_not, ite_not]

/-- The active lanes of a row below lane `k`. -/
theorem activeLanes_below (v : Vec) (w r : Nat) {k : Nat} (hk : k ≤ 128) :
    (v.activeLanes w r).filter (fun j => decide (j < k)) = (List.range k).filter (fun j => v.active w (128 * r + j)) := by
  have hlow (j : Nat) (hj : j ∈ List.range k) : decide (j < k) = true := by simpa using hj
  have hhigh (j : Nat) (hj : j ∈ (List.range (128 - k)).map (k + ·)) : ¬ decide (j < k) = true := by
    obtain ⟨i, -, rfl⟩ := List.mem_map.1 hj
    simp
  rw [Vec.activeLanes, List.filter_comm, show 128 = k + (128 - k) by omega, List.range_add, List.filter_append,
    List.filter_eq_self.2 hlow, List.filter_eq_nil_iff.2 hhigh, List.append_nil]

/-- The element that VSEL selects. -/
def Vec.selected (v : Vec) (w e : Nat) : Res DWord :=
  ⟨v.src64 (vsD w) (if v.srcBit (vsVc w % 8) e then vsVa w else vsVb w) e, 0⟩

/-- The lanes that VSEL writes. -/
def Vec.selectLanes (v : Vec) (w : Nat) : Res Vec :=
  v.pairLane w ([vsVa w, vsVb w].flatMap (pairOf (vsD w)) ++ [32 + vsVc w % 8]) (vsD w) (v.selected w)

/-- A selection's sources are those of both registers and the mask (R202, R222). -/
theorem writesLanes_selectLanes (v : Vec) (w : Nat) :
    WritesLanes v w (v.selectLanes w) (vsD w) (v.selected w) (fun r => v.regMarked (32 + vsVc w % 8) r ||
      (vsVa w :: [vsVb w]).any (fun n => v.regMarked n r || (vsD w && v.regMarked (n + 1) r))) := by
  have hmark (r : Nat) : (v.regMarked (32 + vsVc w % 8) r ||
      (vsVa w :: [vsVb w]).any (fun n => v.regMarked n r || (vsD w && v.regMarked (n + 1) r))) =
      ([vsVa w, vsVb w].flatMap (pairOf (vsD w)) ++ [32 + vsVc w % 8]).any (fun n => v.regMarked n r) := by
    simp only [List.any_append, List.any_flatMap, any_pairOf, List.any_cons, List.any_nil, Bool.or_false]
    exact Bool.or_comm ..
  simp only [hmark]
  exact writesLanes_pairLane ..

theorem exec_vsel (t : Fin 16) (s : State) :
    exec (.vsel t) s = .next (s.vectorOn t.val 0x0A (fun _ w v => v.selectLanes w)) := rfl

theorem exec_vbcast (t : Fin 16) (s : State) :
    exec (.vbcast t) s = .next (s.vectorOn t.val 0x16 (fun _ w v => v.broadcast w)) := rfl

/-- VBCAST's lanes are those of row 0 with its mark (R202, R222). -/
theorem writesLanes_broadcast (v : Vec) (w : Nat) :
    WritesLanes v w (v.broadcast w) false (fun e => lowWord ⟨v.src (vsVa w) (e % 128), 0⟩)
      (fun _ => v.regMarked (vsVa w) 0) := writesLanes_laneMarked ..

theorem snapMarked_opened (s : State) (t : Fin 16) : (wrenOf s t).opened.snapMarked = bundleMark s t := by
  funext r
  unfold bundleMark Wren.opened
  split <;> rfl

/-- The element of VA that VEXPD reads for element `e` (R221). -/
def Vec.expandSource (v : Vec) (w e : Nat) : Res Word :=
  ⟨v.src (vsVa w) (128 * (e / 128) + ((v.activeLanes w (e / 128)).filter (fun j => decide (j < e % 128))).length), 0⟩

/-- It is the one that as many active lanes precede as precede lane `e % 128`. -/
theorem expandSource_eq : (fun w v => Vec.expandSource v w) = fun w v e =>
    ⟨v.src (vsVa w) (128 * (e / 128) +
      ((List.range (e % 128)).filter (fun j => v.active w (128 * (e / 128) + j))).length), 0⟩ := by
  funext w v e
  rw [Vec.expandSource, activeLanes_below v w _ (Nat.le_of_lt (Nat.mod_lt e (by decide)))]

/-- The lanes that VSPLAT writes, from the Wren of its bundle. -/
def splatLanes (x : Wren) (w : Nat) (v : Vec) : Res Vec :=
  v.laneMarked w (vsVd w)
    (fun r => x.snapMarked (vsVa w) && (vsMz w || (List.range 128).any (fun j => v.active w (128 * r + j))))
    (fun _ => ⟨BitVec.ofNat 32 (readX x.snapX (vsVa w)).toNat, 0⟩)

theorem exec_vsplat (t : Fin 16) (s : State) : exec (.vsplat t) s = .next (s.vectorOn t.val 0x17 splatLanes) := rfl

/-- VSPLAT's lanes are the low word of an x register as the bundle reads it (R202, R222). -/
theorem splat_issues {s : State} {t : Fin 16} {p : Prog} (h : SlotReady s t 3 p) (hop : vsOp (wrenOf s t).vector = 0x17) :
    LaneRowIssues t s
      { row := .vsplat t, op := 0x17, wide := fun _ => false,
        value := fun xs w _ _ => ⟨BitVec.ofNat 64 ((xs (vsVa w)).toNat % 2 ^ 32), 0⟩,
        mark := fun marks w v r => marks (vsVa w) && (vsMz w || (List.range 128).any (fun j => v.active w (128 * r + j))) }
      [] := by
  refine laneRowIssues_of_writesLanes h hop (exec_vsplat t s) (fun v w => ?_)
  have hlanes := writesLanes_laneMarked v w
    (fun r => bundleMark s t (vsVa w) && (vsMz w || (List.range 128).any (fun j => v.active w (128 * r + j))))
    (fun _ => ⟨BitVec.ofNat 32 (bundleX s t (vsVa w)).toNat, 0⟩)
  rw [splatLanes, snapMarked_opened, readX_opened]
  simpa only [lowWord_ofNat] using hlanes

theorem vectorWordRows : VectorWordRowsRule := by
  intro t s p r hr h hop
  simp only [wordRows, List.mem_cons, List.not_mem_nil, or_false] at hr
  obtain rfl | rfl | rfl | rfl | rfl | rfl | rfl | rfl | rfl | rfl | rfl | rfl | rfl | rfl := hr
  -- VAND, VOR, VXOR, VNOT
  · exact binaryRow_issues h hop (fun a b => ⟨a &&& b, 0⟩) (fun _ _ => rfl) rfl
  · exact binaryRow_issues h hop (fun a b => ⟨a ||| b, 0⟩) (fun _ _ => rfl) rfl
  · exact binaryRow_issues h hop (fun a b => ⟨a ^^^ b, 0⟩) (fun _ _ => rfl) rfl
  · exact wordRow_issues h hop rfl rfl
  -- VSHL, VSHR, VSRA
  · exact binaryRow_issues h hop (fun a b => ⟨BitVec.ofNat 32 (a.toNat * 2 ^ (b.toNat % 32)), 0⟩)
      (fun a b => congrArg (Res.mk · 0) (shiftLeft_eq a (b.toNat % 32))) rfl
  · exact binaryRow_issues h hop (fun a b => ⟨BitVec.ofNat 32 (a.toNat / 2 ^ (b.toNat % 32)), 0⟩)
      (fun a b => congrArg (Res.mk · 0) (shiftRight_eq a (b.toNat % 32))) rfl
  · exact binaryRow_issues h hop (fun a b => ⟨BitVec.ofInt 32 (a.toInt / 2 ^ (b.toNat % 32)), 0⟩)
      (fun a b => congrArg (Res.mk · 0) (sshiftRight_eq a (b.toNat % 32))) rfl
  -- VIADD, VISUB, VIMUL
  · exact binaryRow_issues h hop (fun a b => saturated (a.toInt + b.toInt)) (fun _ _ => clampWord_eq _) rfl
  · exact binaryRow_issues h hop (fun a b => saturated (a.toInt - b.toInt)) (fun _ _ => clampWord_eq _) rfl
  · exact binaryRow_issues h hop (fun a b => saturated (a.toInt * b.toInt)) (fun _ _ => clampWord_eq _) rfl
  -- VBCAST, VSPLAT, VEXPD, VSEL
  · exact laneRowIssues_of_writesLanes h hop (exec_vbcast t s) writesLanes_broadcast
  · exact splat_issues h hop
  · exact wordRow_issues h hop expandSource_eq rfl
  · exact laneRowIssues_of_writesLanes h hop (exec_vsel t s) writesLanes_selectLanes

/-- Settles O8: each row's slot computes lanes, of words, of rounded values, or of the three rows that copy. -/
theorem vectorRows : Obligations.VectorRows := ⟨vectorFloatRows, vectorWordRows⟩

end Sys2Proof.Machine

end

section

namespace Sys2Proof.Machine

/-! ## Reductions (R218 to R220, R222) -/

/-- The result of a reduction over row `k`, and over the lanes `j`, of VA: only active elements take part. -/
def Vec.rowResult (v : Vec) (w : Nat) (g : Nat → (Nat → Bool) → (Nat → Word) → Res Word) (k : Nat) : Res Word :=
  g 128 (fun j => v.active w (128 * k + j)) (fun j => v.src (vsVa w) (128 * k + j))
def Vec.laneResult (v : Vec) (w : Nat) (g : Nat → (Nat → Bool) → (Nat → Word) → Res Word) (j : Nat) : Res Word :=
  g 32 (fun k => v.active w (128 * k + j)) (fun k => v.src (vsVa w) (128 * k + j))

/-- A reduction over the lanes of each row, or over the rows of each lane. -/
def Vec.reduction (v : Vec) (rowwise : Bool) (g : Nat → (Nat → Bool) → (Nat → Word) → Res Word) (w : Nat) : Res Vec :=
  if rowwise then v.reduceRows w (v.rowResult w g) else v.reduceLanes w (v.laneResult w g)

/-- The mark that row `k` of VA and of the mask in force gives. -/
def Vec.rowSourceMarked (v : Vec) (w k : Nat) : Bool := v.regMarked (vsVa w) k || (vsMen w && v.regMarked (32 + vsMk w) k)

theorem sourceMarked_va (v : Vec) (w : Nat) : v.sourceMarked w [vsVa w] = v.rowSourceMarked w := by
  funext k
  simp [Vec.sourceMarked, Vec.rowSourceMarked]

section

variable (v : Vec) (w : Nat) (f : Nat → Res Word)

theorem elem_reduceRows (n : Nat) {e : Nat} (he : e < 4096) :
    (v.reduceRows w f).out.elem n e = if n = vsVd w then (f (e / 128)).out else v.elem n e := by
  refine (elem_putReg v (vsVd w) n (by simp) he).trans ?_
  have hrow : e / 128 < 32 := by omega
  have hval : ((List.range 4096).map (fun e => (resTable f 32).out.getD (e / 128) 0)).getD e 0 = (f (e / 128)).out := by
    rw [← getD_resTable f hrow 0]
    simp [he]
  rw [hval]

theorem regMarked_reduceRows {n k : Nat} (hn : n < 32) (hk : k < 32) :
    (v.reduceRows w f).out.regMarked n k = if n = vsVd w then v.rowSourceMarked w k else v.regMarked n k := by
  rw [← sourceMarked_va]
  exact regMarked_putMarks (v.putReg (vsVd w) _) (vsVd w) (v.sourceMarked w [vsVa w]) hn hk

theorem elem_reduceLanes (n : Nat) {e : Nat} (he : e < 4096) :
    (v.reduceLanes w f).out.elem n e = if n = vsVd w ∧ e < 128 then (f e).out else v.elem n e := by
  simp only [Vec.reduceLanes, Vec.elem, spGet_spSetList, length_resTable]
  by_cases h : n = vsVd w ∧ e < 128
  · rw [if_pos (by omega), if_pos h, h.1, Nat.add_sub_cancel_left, getD_resTable f h.2]
  · rw [if_neg (by omega), if_neg h]

theorem regMarked_reduceLanes {n k : Nat} (hn : n < 32) (hk : k < 32) :
    (v.reduceLanes w f).out.regMarked n k =
      if n = vsVd w ∧ k = 0 then (List.range 32).any (v.rowSourceMarked w) else v.regMarked n k := by
  simp only [Vec.reduceLanes, Vec.regMarked, if_pos hn, spGet_spSet, sourceMarked_va]
  by_cases h : n = vsVd w ∧ k = 0
  · rw [if_pos (by omega), if_pos h]
  · rw [if_neg (by omega), if_neg h]

variable (rowwise : Bool) (g : Nat → (Nat → Bool) → (Nat → Word) → Res Word)

theorem elem_reduction (n : Nat) {e : Nat} (he : e < 4096) : (v.reduction rowwise g w).out.elem n e =
    if n = vsVd w ∧ rowwise = true then (v.rowResult w g (e / 128)).out
    else if n = vsVd w ∧ e < 128 then (v.laneResult w g e).out else v.elem n e := by
  cases rowwise
  case true =>
    refine (elem_reduceRows v w _ n he).trans ?_
    by_cases hn : n = vsVd w <;> simp [hn]
  case false =>
    refine (elem_reduceLanes v w _ n he).trans ?_
    simp

theorem regMarked_reduction {n k : Nat} (hn : n < 32) (hk : k < 32) : (v.reduction rowwise g w).out.regMarked n k =
    if n = vsVd w ∧ rowwise = true then v.rowSourceMarked w k
    else if n = vsVd w ∧ k = 0 then (List.range 32).any (v.rowSourceMarked w) else v.regMarked n k := by
  cases rowwise
  case true =>
    refine (regMarked_reduceRows v w _ hn hk).trans ?_
    by_cases hd : n = vsVd w <;> simp [hd]
  case false =>
    refine (regMarked_reduceLanes v w _ hn hk).trans ?_
    simp

theorem fl_reduction : (v.reduction rowwise g w).fl =
    if rowwise then flagsOf (fun _ => true) (v.rowResult w g) 32 else flagsOf (fun _ => true) (v.laneResult w g) 128 := by
  cases rowwise <;> exact fl_resTable ..

theorem reduction_frame : { (v.reduction rowwise g w).out with v := v.v, vMark := v.vMark } = v := by
  cases rowwise <;> rfl

end

theorem values_rowSources (v : Vec) (w k : Nat) : (v.rowSources w k).map (fun x => x.2) =
    ((List.range 128).filter (fun j => v.active w (128 * k + j))).map (fun j => val32 (v.src (vsVa w) (128 * k + j))) := by
  rw [Vec.rowSources, List.map_map]
  rfl

theorem values_laneSources (v : Vec) (w j : Nat) : (v.laneSources w j).map (fun x => x.2) =
    ((List.range 32).filter (fun k => v.active w (128 * k + j))).map (fun k => val32 (v.src (vsVa w) (128 * k + j))) := by
  rw [Vec.laneSources, List.map_map]
  rfl

/-- Each reduction's slot computes the table's result over rows or over lanes. -/
theorem exec_reduceRow {t : Fin 16} {q : Instr × Nat × Bool × (Nat → (Nat → Bool) → (Nat → Word) → Res Word)}
    (hq : q ∈ reduceRows t) (s : State) :
    exec q.1 s = .next (s.vectorSlot t.val q.2.1 (fun w v => v.reduction q.2.2.1 q.2.2.2 w)) := by
  have hrow (m : Bool) (w : Nat) (v : Vec) :
      v.reduceRows w (fun k => reduceMinMax m ((v.rowSources w k).map (fun x => x.2))) =
      v.reduction true (fun n a x => reduceMinMax m (((List.range n).filter a).map (fun i => val32 (x i)))) w := by
    simp only [values_rowSources]
    rfl
  have hlane (m : Bool) (w : Nat) (v : Vec) :
      v.reduceLanes w (fun k => reduceMinMax m ((v.laneSources w k).map (fun x => x.2))) =
      v.reduction false (fun n a x => reduceMinMax m (((List.range n).filter a).map (fun i => val32 (x i)))) w := by
    simp only [values_laneSources]
    rfl
  simp only [reduceRows, List.mem_cons, List.not_mem_nil, or_false] at hq
  obtain rfl | rfl | rfl | rfl | rfl | rfl | rfl | rfl := hq
  · rfl
  · simp only [← hrow]; rfl
  · simp only [← hrow]; rfl
  · rfl
  · rfl
  · simp only [← hlane]; rfl
  · simp only [← hlane]; rfl
  · rfl

/-- What the slot of a vector row leaves in the engine, where it computes registers, masks or marks alone. -/
theorem vectorSlot_issues {s : State} {t : Fin 16} {p : Prog} {op : Nat} (h : SlotReady s t 3 p)
    (hop : vsOp (wrenOf s t).vector = op) {f : Nat → Vec → Res Vec} {v : Vec} {r : Res Vec} (hv : (s.tile t.val).vec = v)
    (hr : f (wrenOf s t).vector v = r)
    (hkept : (r.out.busy, r.out.rows, r.out.flags, r.out.qscale, r.out.stalls) =
      (v.busy, v.rows, v.flags, v.qscale, v.stalls)) :
    let u := ((s.vectorSlot t.val op f).tile t.val).vec
    u.elem = r.out.elem ∧ u.mbit = r.out.mbit ∧ u.regMarked = r.out.regMarked ∧
      { u with busy := v.busy, rows := v.rows, flags := v.flags } = r.out ∧
      VectorIssued t s (s.vectorSlot t.val op f) r.fl := by
  intro u
  obtain ⟨hvec, -⟩ := tile_vectorOn h hop (f := fun _ => f) hv hr
  change u = _ at hvec
  simp only [Prod.mk.injEq] at hkept
  obtain ⟨hbusy, hrows, hflags, hqscale, hstalls⟩ := hkept
  refine ⟨by rw [hvec]; rfl, by rw [hvec]; rfl, by rw [hvec]; rfl, ?_, vectorIssued_vectorOn h hop hv hr ?_⟩
  · rw [hvec, ← hbusy, ← hrows, ← hflags]
  · rw [hflags, hqscale, hstalls]

/-- The same, where it computes tile registers and their marks alone. -/
theorem registersRow_issues {s : State} {t : Fin 16} {p : Prog} {op : Nat} (h : SlotReady s t 3 p)
    (hop : vsOp (wrenOf s t).vector = op) {f : Nat → Vec → Res Vec} {v : Vec} {r : Res Vec} (hv : (s.tile t.val).vec = v)
    (hr : f (wrenOf s t).vector v = r) (hframe : { r.out with v := v.v, vMark := v.vMark } = v) :
    let u := ((s.vectorSlot t.val op f).tile t.val).vec
    u.elem = r.out.elem ∧ u.regMarked = r.out.regMarked ∧
      { u with v := v.v, vMark := v.vMark, busy := v.busy, rows := v.rows, flags := v.flags } = v ∧
      VectorIssued t s (s.vectorSlot t.val op f) r.fl := by
  obtain ⟨helem, -, hmark, hrest, hissued⟩ := vectorSlot_issues h hop hv hr
    (congrArg (fun v : Vec => (v.busy, v.rows, v.flags, v.qscale, v.stalls)) hframe :)
  exact ⟨helem, hmark, (congrArg (fun u : Vec => { u with v := v.v, vMark := v.vMark }) hrest).trans hframe, hissued⟩

/-- Settles O10: the two shapes of a reduction. -/
theorem vectorReductions : Obligations.VectorReductions := by
  intro t s p q hq h hop v w src row lane
  obtain ⟨row, op, rowwise, g⟩ := q
  obtain ⟨helem, hmark, hframe, hissued⟩ := registersRow_issues h hop (f := fun w v => v.reduction rowwise g w) rfl rfl
    (reduction_frame v w rowwise g)
  rw [fl_reduction] at hissued
  refine ⟨_, exec_reduceRow hq s, fun n e _ he => ?_, fun n k hn hk => ?_, hframe, hissued⟩
  · rw [helem]
    exact elem_reduction v w rowwise g n he
  · rw [hmark]
    exact regMarked_reduction v w rowwise g hn hk

end Sys2Proof.Machine

end

section

namespace Sys2Proof.Machine

/-! ## Rows that write a mask (R205, R222) -/

section

variable (v : Vec) (w : Nat) (srcs : List Nat) (f : Nat → Res Bool)

theorem mbit_maskLane (n : Nat) {e : Nat} (he : e < 4096) : (v.maskLane w srcs f).out.mbit n e =
    if n = vsVd w % 8 then (if v.active w e then (f e).out else !vsMz w && v.mbit n e) else v.mbit n e := by
  simp only [Vec.maskLane, Vec.mbit, spGet_spSetList, length_resTable]
  by_cases hn : n = vsVd w % 8
  · rw [if_pos (by omega), if_pos hn, hn, Nat.add_sub_cancel_left, getD_resTable _ he, apply_ite Res.out]
  · rw [if_neg (by omega), if_neg hn]

theorem regMarked_maskLane {n k : Nat} (hn : n < 8) (hk : k < 32) : (v.maskLane w srcs f).out.regMarked (32 + n) k =
    if n = vsVd w % 8 then
      srcs.any (fun a => v.regMarked a k) || (vsMen w && v.regMarked (32 + vsMk w) k) ||
        (!vsMz w && (List.range 128).any (fun j => !v.active w (128 * k + j)) && v.regMarked (32 + n) k)
    else v.regMarked (32 + n) k := by
  have hmask (u : Vec) : u.regMarked (32 + n) k = spGet false u.mMark (32 * n + k) := by
    rw [Vec.regMarked, if_neg (by omega), if_pos (by omega), Nat.add_sub_cancel_left]
  rw [hmask, Vec.maskLane, spGet_spSetList, List.length_map, List.length_range]
  by_cases hd : n = vsVd w % 8
  · rw [if_pos (by omega), if_pos hd, hd, Nat.add_sub_cancel_left]
    simp [hk, Vec.sourceMarked, keeps_eq]
  · rw [if_neg (by omega), if_neg hd, hmask]

theorem fl_maskLane : (v.maskLane w srcs f).fl = flagsOf (v.active w) f 4096 := by
  simp only [Vec.maskLane, fl_activeTable]

theorem maskLane_frame : { (v.maskLane w srcs f).out with m := v.m, mMark := v.mMark } = v := rfl

end

theorem flatMap_pairOf (wide : Bool) (a b : Nat) :
    [a, b].flatMap (pairOf wide) = if wide then [a, a + 1, b, b + 1] else [a, b] := by
  cases wide <;> rfl

theorem exec_maskRow {t : Fin 16} {r : Instr × Nat × (Nat → List Nat) × (Nat → Vec → Nat → Res Bool)} (hr : r ∈ maskRows t)
    (s : State) : exec r.1 s = .next (s.vectorSlot t.val r.2.1 (fun w v => v.maskLane w (r.2.2.1 w) (r.2.2.2 w v))) := by
  simp only [maskRows, List.mem_cons, List.not_mem_nil, or_false] at hr
  obtain rfl | rfl | rfl | rfl | rfl := hr
  · simp only [← flatMap_pairOf]
    rfl
  all_goals rfl

theorem vectorMaskRows : VectorMaskRowsRule := by
  intro t s p r hr h hop v w
  obtain ⟨row, op, srcs, f⟩ := r
  have hframe := maskLane_frame v w (srcs w) (f w v)
  have hfl := fl_maskLane v w (srcs w) (f w v)
  obtain ⟨-, hbit, hmark, hrest, hissued⟩ := vectorSlot_issues h hop (f := fun w v => v.maskLane w (srcs w) (f w v)) rfl rfl
    (congrArg (fun v : Vec => (v.busy, v.rows, v.flags, v.qscale, v.stalls)) hframe :)
  rw [hfl] at hissued
  refine ⟨_, exec_maskRow hr s, fun n e _ he => ?_, fun n k hn hk => ?_, ?_, hissued⟩
  · rw [hbit]
    exact mbit_maskLane v w (srcs w) (f w v) n he
  · rw [hmark]
    exact regMarked_maskLane v w (srcs w) (f w v) hn hk
  · exact (congrArg (fun u : Vec => { u with m := v.m, mMark := v.mMark }) hrest).trans hframe

/-! ## Compress (R221, R222) -/

/-- Blocks of one length, one after the other. -/
theorem getD_flatMap_blocks {α : Type} {f : Nat → List α} {c n : Nat} (hf : ∀ r, r < n → (f r).length = c) :
    ((List.range n).flatMap f).length = c * n ∧
      ∀ (d : α) r j, r < n → j < c → ((List.range n).flatMap f).getD (c * r + j) d = (f r).getD j d := by
  induction n with
  | zero => simp
  | succ n ih =>
    obtain ⟨hlen, hget⟩ := ih (fun r hr => hf r (by omega))
    simp only [List.range_succ, List.flatMap_append, List.flatMap_cons, List.flatMap_nil, List.append_nil]
    refine ⟨by rw [List.length_append, hlen, hf n (by omega), Nat.mul_succ], fun d r j hr hj => ?_⟩
    by_cases hrn : r = n
    · rw [List.getD_append_right _ _ _ _ (by rw [hlen, hrn]; omega), hlen, hrn, Nat.add_sub_cancel_left]
    · have hle : c * (r + 1) ≤ c * n := Nat.mul_le_mul_left c (by omega)
      rw [List.getD_append _ _ _ _ (by rw [hlen]; rw [Nat.mul_succ] at hle; omega), hget d r j (by omega) hj]

/-- The active elements of row `r` of VA, in order, and zeros above them. -/
def Vec.packed (v : Vec) (w r : Nat) : List Word := (v.activeLanes w r).map (fun j => v.src (vsVa w) (128 * r + j))
def Vec.packedRow (v : Vec) (w r : Nat) : List Word := v.packed w r ++ List.replicate (128 - (v.packed w r).length) 0

theorem length_packedRow (v : Vec) (w r : Nat) : (v.packedRow w r).length = 128 := by
  have hle : (v.packed w r).length ≤ 128 := by
    simpa [Vec.packed, Vec.activeLanes] using List.length_filter_le (fun j => v.active w (128 * r + j)) (List.range 128)
  rw [Vec.packedRow, List.length_append, List.length_replicate]
  omega

theorem getD_packedRow (v : Vec) (w r j : Nat) : (v.packedRow w r).getD j 0 = (v.packed w r).getD j 0 := by
  rw [Vec.packedRow]
  rcases Nat.lt_or_ge j (v.packed w r).length with hj | hj
  · rw [List.getD_append _ _ _ _ hj]
  · rw [List.getD_append_right _ _ _ _ hj, List.getD_eq_default _ _ hj]
    simp

/-- The count of row `r` goes to lane 0 of register `d`, with the mark of the row's sources. -/
def Vec.putCount (d : Nat) (count : Nat → Nat) (mark : Nat → Bool) (u : Vec) (r : Nat) : Vec :=
  { u with
    v := spSet 0 u.v (4096 * d + 128 * r) (BitVec.ofNat 32 (count r))
    vMark := spSet false u.vMark (32 * d + r) (mark r || u.regMarked d r) }

section

variable {d : Nat} {count : Nat → Nat} {mark : Nat → Bool} {u : Vec}

theorem elem_putCounts {m : Nat} (hm : m ≤ 32) (n : Nat) {e : Nat} (he : e < 4096) :
    ((List.range m).foldl (Vec.putCount d count mark) u).elem n e =
      if n = d ∧ e % 128 = 0 ∧ e / 128 < m then BitVec.ofNat 32 (count (e / 128)) else u.elem n e := by
  induction m with
  | zero => simp
  | succ m ih =>
    have ih := ih (by omega)
    rw [List.range_succ, List.foldl_append, List.foldl_cons, List.foldl_nil, Vec.putCount, Vec.elem, spGet_spSet,
      ← Vec.elem, ih]
    by_cases hlast : n = d ∧ e % 128 = 0 ∧ e / 128 = m
    · obtain ⟨hn, hlane, hrow⟩ := hlast
      rw [if_pos (by omega), if_pos (by omega), hrow]
    · rw [if_neg (by omega)]
      exact if_congr (by omega) rfl rfl

theorem regMarked_putCounts {m n k : Nat} (hm : m ≤ 32) (hn : n < 32) (hk : k < 32) :
    ((List.range m).foldl (Vec.putCount d count mark) u).regMarked n k =
      if n = d ∧ k < m then mark k || u.regMarked n k else u.regMarked n k := by
  induction m with
  | zero => simp
  | succ m ih =>
    have ih := ih (by omega)
    rw [List.range_succ, List.foldl_append, List.foldl_cons, List.foldl_nil, Vec.putCount]
    generalize (List.range m).foldl (Vec.putCount d count mark) u = x at *
    have hset (y : Bool) : Vec.regMarked { x with vMark := spSet false x.vMark (32 * d + m) y } n k =
        if n = d ∧ k = m then y else x.regMarked n k := by
      simp only [Vec.regMarked, if_pos hn, spGet_spSet]
      by_cases hlast : n = d ∧ k = m
      · rw [if_pos (by omega), if_pos hlast]
      · rw [if_neg (by omega), if_neg hlast]
    refine (hset _).trans ?_
    by_cases hlast : n = d ∧ k = m
    · obtain ⟨rfl, rfl⟩ := hlast
      rw [ih]
      simp
    · rw [if_neg hlast, ih]
      exact if_congr (by omega) rfl rfl

theorem putCount_frame (r : Nat) : { Vec.putCount d count mark u r with v := u.v, vMark := u.vMark } = u := rfl

theorem putCounts_frame (m : Nat) :
    { (List.range m).foldl (Vec.putCount d count mark) u with v := u.v, vMark := u.vMark } = u := by
  induction m with
  | zero => rfl
  | succ m ih =>
    rw [List.range_succ, List.foldl_append, List.foldl_cons, List.foldl_nil]
    exact ih

end

theorem compress_eq (v : Vec) (w : Nat) : v.compress w =
    ⟨(List.range 32).foldl (Vec.putCount (vsVc w) (fun r => (v.packed w r).length) (v.rowSourceMarked w))
      ((v.putReg (vsVd w) ((List.range 32).flatMap (v.packedRow w))).putMarks (vsVd w) (v.rowSourceMarked w)), 0⟩ := by
  have hat (r : Nat) (hr : r ∈ List.range 32) : ((List.range 32).map (v.packed w)).getD r [] = v.packed w r := by
    simp [List.mem_range.1 hr]
  have hrows : (List.range 32).flatMap (fun r => ((List.range 32).map (v.packed w)).getD r [] ++
      List.replicate (128 - (((List.range 32).map (v.packed w)).getD r []).length) 0) =
      (List.range 32).flatMap (v.packedRow w) :=
    List.flatMap_congr (fun r hr => by rw [hat r hr, Vec.packedRow])
  rw [← sourceMarked_va, ← hrows]
  refine congrArg (fun x => (⟨x, 0⟩ : Res Vec)) (List.foldl_ext _ _ _ (fun u r hr => ?_))
  rw [Vec.putCount, ← hat r hr]
  rfl

/-- The element of a register after a compress (R221). -/
theorem elem_compress (v : Vec) (w n : Nat) {e : Nat} (he : e < 4096) : (v.compress w).out.elem n e =
    if n = vsVc w ∧ e % 128 = 0 then BitVec.ofNat 32 (v.packed w (e / 128)).length
    else if n = vsVd w then (v.packed w (e / 128)).getD (e % 128) 0 else v.elem n e := by
  have hrow : e / 128 < 32 := by omega
  obtain ⟨hlen, hget⟩ := getD_flatMap_blocks (n := 32) (fun r _ => length_packedRow v w r)
  have hget := hget 0 (e / 128) (e % 128) hrow (Nat.mod_lt _ (by decide))
  rw [Nat.div_add_mod, getD_packedRow] at hget
  rw [compress_eq, elem_putCounts le_rfl _ he, elem_putMarks, elem_putReg _ _ _ hlen he, hget]
  simp [hrow]

theorem regMarked_compress (v : Vec) (w : Nat) {n k : Nat} (hn : n < 32) (hk : k < 32) : (v.compress w).out.regMarked n k =
    if n = vsVd w then v.rowSourceMarked w k
    else if n = vsVc w then v.rowSourceMarked w k || v.regMarked n k else v.regMarked n k := by
  rw [compress_eq, regMarked_putCounts le_rfl hn hk, regMarked_putMarks _ _ _ hn hk, regMarked_putReg]
  by_cases hd : n = vsVd w
  · simp [hd]
  · simp [hd, hk]

theorem compress_frame (v : Vec) (w : Nat) : { (v.compress w).out with v := v.v, vMark := v.vMark } = v := by
  rw [compress_eq]
  have hcounts := putCounts_frame (d := vsVc w) (count := fun r => (v.packed w r).length) (mark := v.rowSourceMarked w)
    (u := (v.putReg (vsVd w) ((List.range 32).flatMap (v.packedRow w))).putMarks (vsVd w) (v.rowSourceMarked w)) 32
  generalize (List.range 32).foldl _ _ = x at *
  exact (congrArg (fun u : Vec => { u with v := v.v, vMark := v.vMark }) hcounts :)

theorem exec_vcomp (t : Fin 16) (s : State) :
    exec (.vcomp t) s = .next (s.vectorSlot t.val 0x30 (fun w v => v.compress w)) := rfl

theorem vectorCompressIssues : VectorCompressIssuesRule := by
  intro t s p h hop v w act src
  obtain ⟨helem, hmark, hframe, hissued⟩ := registersRow_issues h hop (f := fun w v => v.compress w) rfl rfl
    (compress_frame v w)
  refine ⟨_, exec_vcomp t s, fun n e _ he => ?_, fun n k hn hk => ?_, hframe, hissued⟩
  · rw [helem]
    refine (elem_compress v w n he).trans ?_
    simp only [Vec.packed, List.length_map]
    rfl
  · rw [hmark]
    exact regMarked_compress v w hn hk

/-- Settles O11: the masks' lanes, and what a compress packs and counts. -/
theorem vectorMasksAndCompress : Obligations.VectorMasksAndCompress := ⟨vectorMaskRows, vectorCompressIssues⟩

end Sys2Proof.Machine

end

section

namespace Sys2Proof.Machine

/-! ## A load's register fills (R205, R212) -/

section

variable (v : Vec) (l : VecLoad) (vd : Nat)

/-- What element `e` of the register or pair holds once the load has landed. -/
def Vec.landedElem (e : Nat) : DWord :=
  if l.active e then (l.elem e).out else if l.mz then 0 else v.bits64 (decide (l.fmt = fFP64)) vd e

/-- The mark of row `r` of register `n` then. -/
def Vec.landedMark (n r : Nat) : Bool :=
  l.rowMark (elemBytes l.fmt 128) r || spGet false l.maskMarks r || (l.keeps r && v.regMarked n r)

/-- One register takes the words that `f` makes of the load's elements. -/
def Vec.landHalf (n : Nat) (f : DWord → Word) (u : Vec) : Vec :=
  (u.putReg n ((List.range 4096).map (fun e => f (v.landedElem l vd e)))).putMarks n (v.landedMark l n)

theorem takeReg_eq : v.takeReg l vd =
    ⟨if l.fmt = fFP64 then
        v.landHalf l vd (vd + 1) (fun x => BitVec.ofNat 32 (x.toNat / 2 ^ 32))
          (v.landHalf l vd vd (fun x => BitVec.ofNat 32 x.toNat) v)
      else v.landHalf l vd vd (fun x => BitVec.ofNat 32 x.toNat) v, flagsOf l.active l.elem 4096⟩ := by
  have hout : (fun e => (if l.active e then l.elem e
      else ⟨if l.mz then 0 else v.bits64 (decide (l.fmt = fFP64)) vd e, 0⟩ : Res DWord).out) = v.landedElem l vd := by
    funext e
    rw [Vec.landedElem, apply_ite Res.out]
  simp only [Vec.takeReg, fl_activeTable, out_resTable, hout, List.map_map]
  by_cases hwide : l.fmt = fFP64
  · rw [if_pos (decide_eq_true hwide), if_pos hwide]
    rfl
  · rw [if_neg (by simpa using hwide), if_neg hwide]
    rfl

theorem elem_landHalf (n m : Nat) (f : DWord → Word) (u : Vec) {e : Nat} (he : e < 4096) :
    (v.landHalf l vd n f u).elem m e = if m = n then f (v.landedElem l vd e) else u.elem m e := by
  rw [Vec.landHalf, elem_putMarks, elem_putReg _ _ _ (by simp) he]
  simp [he]

theorem low_bits64 (wide : Bool) (n e : Nat) : BitVec.ofNat 32 (v.bits64 wide n e).toNat = v.elem n e := by
  have hlow := (v.elem n e).isLt
  apply BitVec.eq_of_toNat_eq
  rw [Vec.bits64, BitVec.toNat_ofNat, BitVec.toNat_ofNat]
  split <;> omega

theorem high_bits64 (n e : Nat) : BitVec.ofNat 32 ((v.bits64 true n e).toNat / 2 ^ 32) = v.elem (n + 1) e := by
  have hlow := (v.elem n e).isLt
  have hhigh := (v.elem (n + 1) e).isLt
  apply BitVec.eq_of_toNat_eq
  rw [Vec.bits64, BitVec.toNat_ofNat, BitVec.toNat_ofNat, if_pos rfl]
  omega

theorem elem_takeReg (n : Nat) {e : Nat} (he : e < 4096) : (v.takeReg l vd).out.elem n e =
    if n = vd ∨ (decide (l.fmt = fFP64) = true ∧ n = vd + 1) then
      (if l.active e then BitVec.ofNat 32 ((l.elem e).out.toNat / (if n = vd then 1 else 2 ^ 32))
       else if l.mz then 0 else v.elem n e)
    else v.elem n e := by
  have hlow (h : n = vd) : BitVec.ofNat 32 (v.landedElem l vd e).toNat =
      if l.active e then BitVec.ofNat 32 (l.elem e).out.toNat else if l.mz then 0 else v.elem n e := by
    rw [Vec.landedElem, h]
    split
    · rfl
    · split
      · rfl
      · rw [low_bits64]
  have hhigh (hwide : l.fmt = fFP64) (h : n = vd + 1) : BitVec.ofNat 32 ((v.landedElem l vd e).toNat / 2 ^ 32) =
      if l.active e then BitVec.ofNat 32 ((l.elem e).out.toNat / 2 ^ 32) else if l.mz then 0 else v.elem n e := by
    rw [Vec.landedElem, h, decide_eq_true hwide]
    split
    · rfl
    · split
      · rfl
      · rw [high_bits64]
  have hwords : (v.takeReg l vd).out.elem n e =
      if l.fmt = fFP64 ∧ n = vd + 1 then BitVec.ofNat 32 ((v.landedElem l vd e).toNat / 2 ^ 32)
      else if n = vd then BitVec.ofNat 32 (v.landedElem l vd e).toNat else v.elem n e := by
    rw [takeReg_eq]
    dsimp only
    by_cases hwide : l.fmt = fFP64
    · rw [if_pos hwide, elem_landHalf v l vd _ _ _ _ he, elem_landHalf v l vd _ _ _ _ he]
      exact if_congr (by simp [hwide]) rfl rfl
    · rw [if_neg hwide, elem_landHalf v l vd _ _ _ _ he,
        if_neg (show ¬ (l.fmt = fFP64 ∧ n = vd + 1) from fun h => hwide h.1)]
  rw [hwords]
  by_cases hn : n = vd
  · rw [if_neg (by omega), if_pos hn, hlow hn, if_pos (show n = vd ∨ _ from .inl hn), if_pos hn, Nat.div_one]
  · rw [if_neg hn, if_neg hn]
    by_cases hpair : l.fmt = fFP64 ∧ n = vd + 1
    · rw [if_pos hpair, hhigh hpair.1 hpair.2,
        if_pos (show _ ∨ decide (l.fmt = fFP64) = true ∧ n = vd + 1 from .inr ⟨decide_eq_true hpair.1, hpair.2⟩)]
    · rw [if_neg hpair, if_neg (by simpa [hn] using hpair)]

theorem fl_takeReg : (v.takeReg l vd).fl = flagsOf l.active l.elem 4096 := by rw [takeReg_eq]

theorem takeReg_frame : { (v.takeReg l vd).out with v := v.v, vMark := v.vMark } = v := by
  rw [takeReg_eq]
  dsimp only
  split <;> rfl

end

/-! ## Loads land in issue order (R157, R204) -/

/-- Loads that have not come wait on. -/
theorem landAll_waiting (v : Vec) {ls : List VecLoad} (h : ∀ l ∈ ls, l.come = false) (before rest : List VecLoad) :
    v.landAll before (ls ++ rest) = v.landAll (before ++ ls) rest := by
  induction ls generalizing before with
  | nil => simp
  | cons l ls ih =>
    rw [List.cons_append, Vec.landAll, if_neg (by simp [h l List.mem_cons_self]),
      ih (fun k hk => h k (List.mem_cons_of_mem _ hk)), List.append_assoc]
    rfl

/-- One load has come and fills its destination; those before it and behind it wait on. -/
theorem landAll_one (v : Vec) {pre post : List VecLoad} {l : VecLoad} (hcome : l.come = true)
    (hwait : ∀ k ∈ pre ++ post, k.come = false) :
    let x := { v with loads := pre }.takeLoad l
    let y := x.out.maximum [val32 l.maximum]
    v.landAll [] (pre ++ l :: post) = ⟨{ y with loads := y.loads ++ post }, x.fl⟩ := by
  intro x y
  have hpost := landAll_waiting y (fun k hk => hwait k (List.mem_append_right _ hk)) y.loads []
  rw [List.append_nil] at hpost
  rw [landAll_waiting v (fun k hk => hwait k (List.mem_append_left _ hk)), List.nil_append, Vec.landAll, if_pos hcome]
  change Res.mk (y.landAll y.loads post).out (x.fl ||| (y.landAll y.loads post).fl) = _
  rw [hpost, Vec.landAll]
  simp

theorem tile_landLoads_vec (s : State) (t : Nat) :
    let r := (s.tile t).vec.landAll [] (s.tile t).vec.loads
    ((s.landLoads t).tile t).vec = { r.out with flags := r.out.flags ||| r.fl } := by
  simp [State.landLoads, State.raiseVec]

/-- Drains that form their outputs change no tile but in its array. -/
theorem tile_formDrains_vec (s : State) (t : Fin 16) : ((s.formDrains t.val).tile t.val).vec = (s.tile t.val).vec := by
  have hfold (ds : List Drain) (a : State × List Drain) :
      (ds.foldl (State.formNext t.val) a).1.tile t.val = a.1.tile t.val := by
    induction ds generalizing a with
    | nil => rfl
    | cons d ds ih =>
      rw [List.foldl_cons, ih]
      unfold State.formNext
      split
      · rfl
      · next i _ =>
        split
        · obtain ⟨n, l, hform⟩ := formDrain_withRequests a.1 t i d
          rw [hform]
          rfl
        · rfl
  rw [formDrains_eq, State.tile_setArr_vec, hfold]

theorem tile_taken_vec (s : State) (r : CisResp) : ((s.taken r).tile r.tile.val).vec = (s.tile r.tile.val).vec := by
  simp [State.taken]

/-- What the loads leave in the engine where one of them has come with response `r`. -/
theorem landed_one {s : State} {r : CisResp} {v : Vec} {pre post : List VecLoad} {l : VecLoad}
    (hv : (s.tile r.tile.val).vec = v) (hloads : v.loads = pre ++ l :: post) (hcome : (loadAfter r l).come = true)
    (hwait : ∀ o ∈ pre ++ post, (loadAfter r o).come = false) :
    let x := { v with loads := pre.map (loadAfter r) }.takeLoad (loadAfter r l)
    let y := x.out.maximum [val32 (loadAfter r l).maximum]
    ((s.landed r).tile r.tile.val).vec =
      { y with loads := y.loads ++ post.map (loadAfter r), flags := y.flags ||| x.fl } := by
  have hwait' : ∀ k ∈ pre.map (loadAfter r) ++ post.map (loadAfter r), k.come = false := by
    intro k hk
    rw [← List.map_append] at hk
    obtain ⟨o, ho, rfl⟩ := List.mem_map.1 hk
    exact hwait o ho
  have hland := landAll_one { v with loads := v.loads.map (loadAfter r) } hcome hwait'
  have hmap : v.loads.map (loadAfter r) = pre.map (loadAfter r) ++ loadAfter r l :: post.map (loadAfter r) := by
    rw [hloads, List.map_append, List.map_cons]
  intro x y
  have hvec := tile_landLoads_vec (s.setVec r.tile.val (fun v => { v with loads := v.loads.map (loadAfter r) })) r.tile.val
  rw [State.tile_setVec_vec, hv] at hvec
  dsimp only at hvec hland
  rw [← hmap] at hland
  rw [hland] at hvec
  exact hvec

theorem loadAfter_maximum (r : CisResp) (l : VecLoad) :
    (loadAfter r l).maximum = if l.orders then
      greatest l.later (if l.orders then ((List.range 4096).filter l.active).map (loadAfter r l).val else []) else l.later := by
  have horders : (loadAfter r l).orders = l.orders := rfl
  rw [VecLoad.maximum, horders, maxWord_eq_greatest]
  by_cases h : l.orders = true
  · simp only [h, if_true]
    rfl
  · simp only [if_neg h]
    rfl

/-- Settles O20: the load that has come fills its register, and then VEC_AMAX takes what the load gives it. -/
theorem vectorLoadLands : Obligations.VectorLoadLands := by
  intro s r pre post l vd hs hr hw t v c wide hf hloads hdest hcome hwait
  have hexec := exec_cisternReadReturn hs hr hw hf
  have hvec : (((s.taken r).formDrains t.val).tile t.val).vec = v := (tile_formDrains_vec ..).trans (tile_taken_vec ..)
  have hland := landed_one hvec hloads hcome hwait
  have htake : Vec.takeLoad { v with loads := pre.map (loadAfter r) } c =
      Vec.takeReg { v with loads := pre.map (loadAfter r) } c vd := by
    rw [Vec.takeLoad, show c.dest = .reg vd from hdest]
  have helem := elem_takeReg { v with loads := pre.map (loadAfter r) } c vd
  have hframe := takeReg_frame { v with loads := pre.map (loadAfter r) } c vd
  have hfl := fl_takeReg { v with loads := pre.map (loadAfter r) } c vd
  dsimp only at hland
  rw [htake] at hland
  generalize Vec.takeReg { v with loads := pre.map (loadAfter r) } c vd = x at *
  have hrest := maximum_frame x.out [val32 c.maximum]
  have hmax : MaximumTaken { v with loads := pre.map (loadAfter r) } (x.out.maximum [val32 c.maximum]) [val32 c.maximum] :=
    maximumTaken_maximum (u := x.out) (congrArg Vec.amax hframe :) (congrArg Vec.loads hframe :) _
  rw [show c.maximum = _ from loadAfter_maximum r l] at hland hrest hmax
  generalize x.out.maximum _ = y at *
  refine ⟨_, hexec, ?_⟩
  rw [hland]
  refine ⟨⟨y.loads, rfl, hmax⟩, fun n e _ he => ?_, ?_, ?_⟩
  · have hy : y.elem n e = x.out.elem n e := (congrArg (fun u : Vec => u.elem n e) hrest :)
    exact hy.trans (helem n he)
  · exact (congrArg (fun u : Vec => (u.m, u.mMark, u.t, u.tMark)) hrest :).trans
      (congrArg (fun u : Vec => (u.m, u.mMark, u.t, u.tMark)) hframe :)
  · have hy : y.flags = v.flags := (congrArg Vec.flags hrest :).trans (congrArg Vec.flags hframe :)
    rw [hfl, hy]
    rfl

end Sys2Proof.Machine

end

section

namespace Sys2Proof.Machine

/-! ## Vector loads issue (R212, R214) -/

/-- The ranges that a vector load reads: `n` lines of the block and `m` of its scales. -/
def vectorRanges (d : DWord) (n m : Nat) : List (Requester × OpPart × DWord × Nat × Nat) :=
  [(.vec, .a, d, fdOff d, n), (.vec, .sa, d, fdScale d, m)]

section

variable (s : State) (t : Fin 16) (p : Prog)

theorem tile_present (l : List (Requester × OpPart × DWord × Nat × Nat)) (n : Nat) :
    (s.present t p l).1.tile n = s.tile n := rfl

/-- A vector load presents its block, and then its scales where it takes them. -/
theorem readOperand_block_scale (d : DWord) (n : Nat) (scaled : Bool) :
    let a := s.readOperand t.val .vec .a p.ctx (fdHandle d) (fdOff d) n
    let b := if scaled then a.1.readOperand t.val .vec .sa p.ctx (fdHandle d) (fdScale d) 1 else (a.1, [])
    (b.1, a.2 ++ b.2) = s.present t p (vectorRanges d n (if scaled then 1 else 0)) := by
  have hscale (u : State) : (if scaled then u.readOperand t.val .vec .sa p.ctx (fdHandle d) (fdScale d) 1 else (u, [])) =
      u.present t p [(.vec, .sa, d, fdScale d, if scaled then 1 else 0)] := by
    rw [← readOperand_eq]
    cases scaled <;> rfl
  dsimp only
  rw [hscale, readOperand_eq]
  exact (present_append s t p [_] [_]).symm

theorem vectorLoad_eq (dest : Nat → VLoadDest) (fmt bytes : Nat → Nat) (scalable : Bool) (rows : Nat) :
    let x := (s.tile t.val).wren
    let d := readX x.snapX (vsVa x.vector)
    let scaled := scalable && fdScaled d
    let a := s.present t p (vectorRanges d (bytes x.vector / 256) (if scaled then 1 else 0))
    s.vectorLoad t.val p dest fmt bytes scalable rows = (a.1.setVec t.val (fun v => { v with
      loads := v.loads ++ [(s.tile t.val).vec.startLoad x.vector (dest x.vector) (fmt x.vector) scaled a.2] })).vecIssued t.val
        rows := by
  intro x d scaled a
  have h := readOperand_block_scale s t p d (bytes x.vector / 256) scaled
  have h1 := congrArg Prod.fst h
  have h2 := congrArg Prod.snd h
  dsimp only at h1 h2
  rw [State.vectorLoad, ← h1, ← h2]

end

theorem active_startLoad (v : Vec) (w : Nat) (d : VLoadDest) (fmt : Nat) (scaled : Bool) (lines : List OpLine) {e : Nat}
    (he : e < 4096) : (v.startLoad w d fmt scaled lines).active e = v.active w e := by
  unfold Vec.startLoad VecLoad.active Vec.loadMask Vec.active
  cases hmen : vsMen w
  · simp
  · simp [spGet_spSetList, he]

theorem exec_loadRow {t : Fin 16} {r : Instr × Nat × (Nat → VLoadDest) × (Nat → Nat) × (Nat → Nat) × Bool × Nat}
    (hr : r ∈ loadRows t) (s : State) : ∃ bytes : Nat → Nat, (∀ w, bytes w / 256 = r.2.2.2.2.1 w) ∧
      exec r.1 s = .next (s.issueSlot t.val 3 (fun w => decide (vsOp w = r.2.1)) (fun s p =>
        s.vectorLoad t.val p r.2.2.1 r.2.2.2.1 bytes r.2.2.2.2.2.1 r.2.2.2.2.2.2)) := by
  simp only [loadRows, List.mem_cons, List.not_mem_nil, or_false] at hr
  obtain rfl | rfl | rfl := hr
  · exact ⟨fun w => elemBytes (vsVc w % 16) 4096, fun _ => rfl, rfl⟩
  · exact ⟨fun _ => 1280, fun _ => by simp, rfl⟩
  · exact ⟨fun _ => 512, fun _ => by simp, rfl⟩

section

variable {s : State} {t : Fin 16} {p : Prog} {op : Nat}

/-- A vector load's slot that is ready puts its load in flight and its reads at the Cistern. -/
theorem vectorLoad_issues (h : SlotReady s t 3 p) (hop : vsOp (wrenOf s t).vector = op) (dest : Nat → VLoadDest)
    (fmt bytes : Nat → Nat) (scalable : Bool) (rows : Nat) :
    let w := (wrenOf s t).vector
    let d := bundleX s t (vsVa w)
    let scaled := scalable && fdScaled d
    let ranges := vectorRanges d (bytes w / 256) (if scaled then 1 else 0)
    let s' := s.issueSlot t.val 3 (fun w => decide (vsOp w = op)) (fun s p =>
      s.vectorLoad t.val p dest fmt bytes scalable rows)
    (s'.tile t.val).vec = { (s.tile t.val).vec with
        busy := true
        rows := (s.tile t.val).vec.rows + BitVec.ofNat 32 rows
        loads := (s.tile t.val).vec.loads ++
          [(s.tile t.val).vec.startLoad w (dest w) (fmt w) scaled (rangeLines s.nextId ranges)] } ∧
      (s'.tile t.val).arr = (s.tile t.val).arr ∧ wrenOf s' t = (wrenOf s t).opened.slotIssued 3 ∧
      OnlyTile t.val (s.present t p ranges).1 s' := by
  intro w d scaled ranges s'
  obtain ⟨u, ⟨honly, harr, hvec⟩, hwren, hslot⟩ := issueSlot_opened h (row := fun w => decide (vsOp w = op))
    (decide_eq_true hop) (fun s p => s.vectorLoad t.val p dest fmt bytes scalable rows)
  change s' = _ at hslot
  have hx : (u.tile t.val).wren = (wrenOf s t).opened := hwren
  have hw : (wrenOf s t).opened.vector = w := (opened_kept _).2.2.2
  rw [vectorLoad_eq, hx, hw, readX_opened, hvec] at hslot
  obtain ⟨hpresent, hlines⟩ := onlyTile_present p ranges honly
  rw [hlines] at hslot
  refine ⟨?_, ?_, ?_, ?_⟩
  · rw [hslot, State.tile_setWren_vec, State.vecIssued, State.tile_setVec_vec, State.tile_setVec_vec, tile_present, hvec]
    rfl
  · rw [hslot]
    simp [State.vecIssued, tile_present, harr]
  · rw [hslot]
    simp [State.vecIssued, tile_present, wrenOf, hx]
  · rw [hslot]
    exact onlyTile_trans hpresent
      (onlyTile_trans (onlyTile_trans (onlyTile_setVec ..) (onlyTile_setVec ..)) (onlyTile_setWren ..))

end

theorem rangeLines_vector (i n m : Nat) (d : DWord) :
    rangeLines i (vectorRanges d n m) = awaited .a i n ++ awaited .sa (i + n) m := by
  simp [vectorRanges, rangeLines]

theorem present_vector (s : State) (t : Fin 16) (p : Prog) (d : DWord) (n m : Nat) :
    (s.present t p (vectorRanges d n m)).1 = s.withRequests (s.nextId + n + m)
      (s.cis.reqs ++ lineAccesses s t p .vec d s.nextId (fdOff d) n (fun _ => .readLine) ++
        lineAccesses s t p .vec d (s.nextId + n) (fdScale d) m (fun _ => .readLine)) := by
  simp [State.present, vectorRanges, rangeAccesses, rangeCount, Nat.add_assoc]

theorem vectorLoadsIssue : VectorLoadsIssueRule := by
  intro t s p r hr h hop v w d n scaled m
  obtain ⟨bytes, hbytes, hexec⟩ := exec_loadRow hr s
  obtain ⟨hvec, harr, hwren, honly⟩ := vectorLoad_issues h hop r.2.2.1 r.2.2.2.1 bytes r.2.2.2.2.2.1 r.2.2.2.2.2.2
  obtain ⟨hrest, hx, hp, hbook⟩ := slotIssued_opened (wrenOf s t) 3
  rw [hbytes, rangeLines_vector] at hvec
  rw [hbytes, present_vector] at honly
  refine ⟨_, hexec, ⟨_, hvec, rfl, fun e he => active_startLoad v w _ _ _ _ he, rfl⟩, harr, ?_⟩
  rw [hwren]
  exact ⟨hrest, hx, hp, hbook, honly⟩

end Sys2Proof.Machine

end

section

namespace Sys2Proof.Machine

/-! ## Line writes of a store (R154, R213, R561) -/

/-- The line writes that carry the bytes `bs`. -/
def storeLines (bs : List Byte) (mask : Word) (poison : Nat → Byte) : List AccessKind :=
  (List.range ((bs.length + 255) / 256)).map (fun k => .writeLine (padTo 256 (bs.drop (256 * k))) mask (poison k))

theorem length_storeLines (bs : List Byte) (mask : Word) (poison : Nat → Byte) :
    (storeLines bs mask poison).length = (bs.length + 255) / 256 := by simp [storeLines]

theorem writesOf_storeLines {bs : List Byte} {mask : Word} {poison : Nat → Byte} {clean : Prop}
    (h : clean → ∀ k, poison k = 0) : WritesOf bs mask clean (storeLines bs mask poison) := ⟨poison, h, rfl⟩

/-- The accesses that a store presents: its block's line writes, and then those of its scales. -/
def State.storeRequests (s : State) (t : Fin 16) (p : Prog) (ws ss : List AccessKind) : State :=
  let d := bundleX s t (vsVa (wrenOf s t).vector)
  s.withRequests (s.nextId + ws.length + ss.length)
    (s.cis.reqs ++ lineAccesses s t p .vec d s.nextId (fdOff d) ws.length (fun k => ws.getD k .readLine) ++
      lineAccesses s t p .vec d (s.nextId + ws.length) (fdScale d) ss.length (fun k => ss.getD k .readLine))

theorem storeRequests_block (s : State) (t : Fin 16) (p : Prog) (ws : List AccessKind) :
    let d := bundleX s t (vsVa (wrenOf s t).vector)
    s.storeRequests t p ws [] = s.withRequests (s.nextId + ws.length)
      (s.cis.reqs ++ lineAccesses s t p .vec d s.nextId (fdOff d) ws.length (fun k => ws.getD k .readLine)) := by
  simp [State.storeRequests, lineAccesses]

theorem lineAccesses_congr {s u : State} (h : SameRequests s u) (t : Fin 16) (p : Prog) (who : Requester) (d : DWord)
    (i o n : Nat) (kind : Nat → AccessKind) : lineAccesses u t p who d i o n kind = lineAccesses s t p who d i o n kind := by
  obtain ⟨-, -, htime, hfuse, hact⟩ := h
  simp only [lineAccesses, State.phys, State.arrival, htime, hfuse, hact]

/-- What one run of lines of a store leaves. -/
theorem vectorStore_eq (s : State) (t : Fin 16) (p : Prog) (d : DWord) (o : Nat) (bs : List Byte) (mask : Word)
    (poison : Nat → Byte) :
    let ks := storeLines bs mask poison
    s.vectorStore t.val p (fdHandle d) o bs mask poison = (s.withRequests (s.nextId + ks.length)
      (s.cis.reqs ++ lineAccesses s t p .vec d s.nextId o ks.length (fun k => ks.getD k .readLine))).setWren t.val
        (fun x => { x with vstores := x.vstores ++ (List.range ks.length).map (fun i => s.nextId + i) }) := by
  intro ks
  have hkinds : (List.range ks.length).map (s.lineReq t .vec p.ctx (fdHandle d) o (fun k => ks.getD k .readLine)) =
      (List.range ks.length).map (s.lineReq t .vec p.ctx (fdHandle d) o (fun k =>
        .writeLine (padTo 256 (bs.drop (256 * k))) mask (poison k))) := by
    refine List.map_congr_left (fun k hk => ?_)
    have hk : k < (bs.length + 255) / 256 := by simpa [ks, length_storeLines] using hk
    simp [State.lineReq, ks, storeLines, hk]
  rw [show ks.length = (bs.length + 255) / 256 from length_storeLines ..] at hkinds ⊢
  rw [State.vectorStore, postLines_eq, ← hkinds]
  rfl

/-- The lines `ws` of the block and `ss` of the scales stand presented and await their acknowledgements. -/
structure StoredAt (s : State) (t : Fin 16) (p : Prog) (ws ss : List AccessKind) (x : State) : Prop where
  wren : wrenOf x t = { (wrenOf s t).opened with
    vstores := (wrenOf s t).vstores ++ (List.range (ws.length + ss.length)).map (fun i => s.nextId + i) }
  vec : (x.tile t.val).vec = (s.tile t.val).vec
  arr : (x.tile t.val).arr = (s.tile t.val).arr
  only : OnlyTile t.val (s.storeRequests t p ws ss) x

section

variable {s : State} {t : Fin 16} {p : Prog} (bs : List Byte) (mask : Word) (poison : Nat → Byte)

theorem storedAt_block {u : State} (hu : OnlyWren t.val s u) (hwren : wrenOf u t = (wrenOf s t).opened) :
    let d := bundleX s t (vsVa (wrenOf s t).vector)
    StoredAt s t p (storeLines bs mask poison) [] (u.vectorStore t.val p (fdHandle d) (fdOff d) bs mask poison) := by
  obtain ⟨honly, harr, hvec⟩ := hu
  obtain ⟨horest, -⟩ := opened_kept (wrenOf s t)
  have hvstores : (wrenOf s t).opened.vstores = (wrenOf s t).vstores := (congrArg Wren.vstores horest :)
  have hsame := sameRequests_of_onlyTile honly
  intro d
  rw [vectorStore_eq, lineAccesses_congr hsame]
  obtain ⟨hnext, hreqs, -⟩ := hsame
  rw [hnext, hreqs]
  refine ⟨?_, ?_, ?_, ?_⟩
  · rw [← hvstores, ← hwren]
    exact State.tile_setWren_wren ..
  · exact (State.tile_setWren_vec ..).trans hvec
  · exact (State.tile_setWren_arr ..).trans harr
  · rw [storeRequests_block]
    exact onlyTile_trans (onlyTile_withRequests honly ..) (onlyTile_setWren ..)

theorem storedAt_scale {x : State} {ws : List AccessKind} (hx : StoredAt s t p ws [] x) :
    let d := bundleX s t (vsVa (wrenOf s t).vector)
    StoredAt s t p ws (storeLines bs mask poison) (x.vectorStore t.val p (fdHandle d) (fdScale d) bs mask poison) := by
  obtain ⟨hwren, hvec, harr, honly⟩ := hx
  rw [storeRequests_block] at honly
  have hsame := sameRequests_of_onlyTile honly
  intro d
  rw [vectorStore_eq, lineAccesses_congr hsame]
  obtain ⟨hnext, hreqs, -⟩ := hsame
  rw [hnext, hreqs]
  refine ⟨?_, (State.tile_setWren_vec ..).trans hvec, (State.tile_setWren_arr ..).trans harr, ?_⟩
  · have hids (m : Nat) : (List.range (ws.length + m)).map (fun i => s.nextId + i) =
        (List.range ws.length).map (fun i => s.nextId + i) ++ (List.range m).map (fun i => s.nextId + ws.length + i) := by
      simp [List.range_add, Nat.add_assoc]
    rw [hids, ← List.append_assoc]
    refine (State.tile_setWren_wren ..).trans ?_
    change ({ wrenOf x t with vstores := (wrenOf x t).vstores ++ _ } : Wren) = _
    rw [hwren]
    rfl
  · exact onlyTile_trans (onlyTile_withRequests honly ..) (onlyTile_setWren ..)

end

/-! ## Stores issue -/

section

variable {s : State} {t : Fin 16} {p : Prog}

theorem slotIssued_vstores (w : Wren) (l : List Nat) (k : Nat) :
    ({ w with vstores := l } : Wren).slotIssued k = { w.slotIssued k with vstores := l } := by
  simp only [slotIssued_eq]
  split <;> rfl

/-- A store whose lines stand presented issues, where it leaves in the engine what VEC_AMAX takes and its flags. -/
theorem storeIssues_of {ws ss : List AccessKind} {x y : State} (hx : StoredAt s t p ws ss x) {g : Vec} {fl : Flags}
    {xs : List Val} (hg : { g with amax := (s.tile t.val).vec.amax, loads := (s.tile t.val).vec.loads } = (s.tile t.val).vec)
    (hmax : MaximumTaken (s.tile t.val).vec g xs)
    (hvec : (y.tile t.val).vec = { g with busy := true, rows := g.rows + 32, flags := g.flags ||| fl })
    (harr : (y.tile t.val).arr = (x.tile t.val).arr)
    (hwren : wrenOf y t = { wrenOf x t with raised := (wrenOf x t).raised ||| fl }) (honly : OnlyTile t.val x y) :
    StoreIssues t p s (y.setWren t.val (fun w => w.slotIssued 3)) ws ss fl xs := by
  obtain ⟨hxwren, -, hxarr, hxonly⟩ := hx
  obtain ⟨horest, hox, hop, -⟩ := opened_kept (wrenOf s t)
  obtain ⟨hrest, hx, hp⟩ := slotIssued_kept (wrenOf y t) 3
  have hbook := slotBook_slotIssued (wrenOf s t) 3 ((wrenOf s t).opened.raised ||| fl)
  have hy : wrenOf y t = { ({ (wrenOf s t).opened with raised := (wrenOf s t).opened.raised ||| fl } : Wren) with
      vstores := (wrenOf s t).vstores ++ (List.range (ws.length + ss.length)).map (fun i => s.nextId + i) } := by
    rw [hwren, hxwren]
  have hs' : wrenOf (y.setWren t.val (fun w => w.slotIssued 3)) t = (wrenOf y t).slotIssued 3 := State.tile_setWren_wren ..
  unfold StoreIssues
  rw [hs', State.tile_setWren_vec, State.tile_setWren_arr, hvec]
  refine ⟨onlyTile_trans hxonly (onlyTile_trans honly (onlyTile_setWren ..)), hmax, ?_, harr.trans hxarr, ?_, ?_, ?_, ?_⟩
  · exact (congrArg (fun u : Vec => { u with busy := true, rows := u.rows + 32, flags := u.flags ||| fl }) hg :)
  · rw [hrest, hy]
    exact (congrArg (fun w : Wren => { w with
      raised := w.raised ||| fl
      vstores := (wrenOf s t).vstores ++ (List.range (ws.length + ss.length)).map (fun i => s.nextId + i) }) horest :)
  · exact ⟨hx.1.trans ((congrArg Wren.x hy :).trans hox.1), hx.2.trans ((congrArg Wren.xMark hy :).trans hox.2)⟩
  · exact hp.trans ((congrArg Wren.p hy :).trans hop)
  · rw [hy, slotIssued_vstores]
    exact hbook

/-- The end of a store: its flags rise, and its rows count. -/
def State.storeEnds (x : State) (t : Nat) (fl : Flags) : State := (x.raiseVec t fl).vecIssued t 32

/-- What the end of a store changes in its tile. -/
theorem tile_storeEnds (x : State) (t : Fin 16) (fl : Flags) :
    ((x.storeEnds t.val fl).tile t.val).vec = { (x.tile t.val).vec with
        busy := true
        rows := (x.tile t.val).vec.rows + 32
        flags := (x.tile t.val).vec.flags ||| fl } ∧
      ((x.storeEnds t.val fl).tile t.val).arr = (x.tile t.val).arr ∧
      wrenOf (x.storeEnds t.val fl) t = { wrenOf x t with raised := (wrenOf x t).raised ||| fl } ∧
      OnlyTile t.val x (x.storeEnds t.val fl) := by
  refine ⟨?_, ?_, ?_, ?_⟩
  · simp [State.storeEnds, State.vecIssued, State.raiseVec]
  · simp [State.storeEnds, State.vecIssued, State.raiseVec]
  · simp [State.storeEnds, State.vecIssued, State.raiseVec, wrenOf]
  · exact onlyTile_trans (onlyTile_trans (onlyTile_setVec ..) (onlyTile_setWren ..)) (onlyTile_setVec ..)

/-- A VST whose lines stand presented issues: VEC_AMAX takes the source values where it converts, and flags rise. -/
theorem storeIssues_converting {ws ss : List AccessKind} {x : State} (hx : StoredAt s t p ws ss x) (plain : Prop)
    [Decidable plain] (xs : Vec → List Val) (fl : Flags) :
    StoreIssues t p s (((if plain then x else x.setVec t.val (fun v => v.maximum (xs v))).storeEnds t.val fl).setWren t.val
      (fun w => w.slotIssued 3)) ws ss fl (if plain then [] else xs (s.tile t.val).vec) := by
  have hvec := hx.vec
  by_cases hplain : plain
  · rw [if_pos hplain, if_pos hplain]
    obtain ⟨hvec', harr, hwren, honly⟩ := tile_storeEnds x t fl
    rw [hvec] at hvec'
    exact storeIssues_of hx rfl (maximumTaken_nil rfl rfl) hvec' harr hwren honly
  · rw [if_neg hplain, if_neg hplain]
    obtain ⟨hvec', harr, hwren, honly⟩ := tile_storeEnds (x.setVec t.val (fun v => v.maximum (xs v))) t fl
    rw [State.tile_setVec_vec, hvec] at hvec'
    rw [State.tile_setVec_arr] at harr
    rw [show wrenOf (x.setVec t.val (fun v => v.maximum (xs v))) t = wrenOf x t from State.tile_setVec_wren ..] at hwren
    exact storeIssues_of hx (maximum_frame ..) (maximumTaken_maximum rfl rfl _) hvec' harr hwren
      (onlyTile_trans (onlyTile_setVec ..) honly)

end

/-! ## The bytes of a store (R154, R213, R214) -/

theorem poisonOf_clean {marked : Nat → Bool} (h : ∀ r, r < 32 → marked r = false) (rowBytes line : Nat) :
    poisonOf marked rowBytes line = 0 := by
  have hnone (a : Nat) : (List.range 32).any (fun r => marked r && meets a 32 (r * rowBytes) rowBytes) = false := by
    simp only [List.any_eq_false, List.mem_range]
    intro r hr
    simp [h r hr]
  simp [poisonOf, hnone, b2n, at_]

/-- A number made of bits has them. -/
theorem bit_sumBits (f : Nat → Bool) (n : Nat) :
    let m := (List.range n).foldl (fun m i => m + at_ (b2n (f i)) i) 0
    m < 2 ^ n ∧ ∀ i, i < n → bit m i = f i := by
  induction n with
  | zero => simp
  | succ n ih =>
    obtain ⟨hlt, hbit⟩ := ih
    dsimp only
    rw [List.range_succ, List.foldl_append, List.foldl_cons, List.foldl_nil]
    generalize (List.range n).foldl (fun m i => m + at_ (b2n (f i)) i) 0 = m at *
    have hsum : m + at_ (b2n (f n)) n = 2 ^ n * b2n (f n) + m := by rw [at_]; ring
    have hb : b2n (f n) ≤ 1 := by unfold b2n; split <;> omega
    refine ⟨?_, fun i hi => ?_⟩
    · rw [hsum, pow_succ]
      nlinarith
    · have htest (k j : Nat) : bit k j = Nat.testBit k j := (Nat.testBit_eq_decide_div_mod_eq ..).symm
      rw [htest, hsum, Nat.testBit_two_pow_mul_add _ hlt]
      by_cases hin : i < n
      · rw [if_pos hin, ← htest, hbit i hin]
      · rw [if_neg hin, show i - n = 0 by omega, show i = n by omega]
        cases f n <;> rfl

theorem length_maskBytes (v : Vec) (n : Nat) : (v.maskBytes n).length = 512 := by simp [Vec.maskBytes]

theorem bit_maskBytes (v : Vec) (n : Nat) {e : Nat} (he : e < 4096) :
    bit (byteAt (v.maskBytes n) (e / 8)).toNat (e % 8) = v.srcBit n e := by
  obtain ⟨hlt, hbit⟩ := bit_sumBits (fun i => v.srcBit n (8 * (e / 8) + i)) 8
  have hbit := hbit (e % 8) (Nat.mod_lt _ (by decide))
  rw [Nat.div_add_mod] at hbit
  have hrow : e / 8 < 512 := by omega
  rw [← hbit, byteAt, Vec.maskBytes]
  simp only [List.getD_eq_getElem?_getD, List.getElem?_map, List.getElem?_range hrow, Option.map_some, Option.getD_some]
  rw [BitVec.toNat_ofNat, Nat.mod_eq_of_lt hlt]

/-! ## VST and MST issue (R213, R214) -/

/-- What a VST stores: its elements, and its scale bytes. -/
def Vec.vstData (v : Vec) (w : Nat) (scaled : Bool) : Res (List Nat × List Byte) :=
  if scaled then v.stScaled w else ⟨((v.stPlain w).out, []), (v.stPlain w).fl⟩

/-- Without SCALED a VST stores its elements one by one, and no scales (R213). -/
theorem vstData_plain (v : Vec) (w : Nat) :
    let el := fun (e : Nat) =>
      if vsVc w % 16 = stSource w then (⟨(v.stBits w e).toNat, 0⟩ : Res Nat)
      else elemStore (vsVc w % 16) (bit (vsVc w) 4) (v.stVal w e)
    v.vstData w false = ⟨((List.range 4096).map (fun e => (el e).out), []), flagsOf (fun _ => true) el 4096⟩ := by
  intro el
  rw [Vec.vstData, if_neg Bool.false_ne_true, ← out_resTable, ← fl_resTable]
  rfl

/-- With SCALED it stores blocks of 32 lanes and their scale bytes (R154, R213). -/
theorem vstData_scaled (v : Vec) (w : Nat) :
    let blk := fun (b : Nat) => blockConvert (vsVc w % 16) (bit (vsVc w) 4) (val32 v.qscale)
      ((List.range 32).map (fun i => v.stVal w (32 * b + i)))
    v.vstData w true = ⟨((List.range 128).flatMap (fun b => (blk b).2.out),
      (List.range 128).map (fun b => BitVec.ofNat 8 (blk b).1)), flagsOf (fun _ => true) (fun b => (blk b).2) 128⟩ := by
  rw [Vec.vstData, if_pos rfl]
  simp [Vec.stScaled, flagsOf, List.flatMap_map, List.foldl_map, Function.comp_def]

/-- The poison of its block's lines: the words of marked rows (R222). -/
def Vec.vstPoison (v : Vec) (w : Nat) : Nat → Byte :=
  poisonOf (fun k => (pairOf (decide (vsVc w % 16 = fFP64)) (vsVb w)).any (fun n => v.regMarked n k))
    (elemBytes (vsVc w % 16) 128)

/-- The line writes of its block, and of its scales. -/
def Vec.vstBlock (v : Vec) (w : Nat) (scaled : Bool) : List AccessKind :=
  storeLines (packElems (vsVc w % 16) (v.vstData w scaled).out.1) 0xFFFFFFFF (v.vstPoison w)
def Vec.vstScales (v : Vec) (w : Nat) (scaled : Bool) : List AccessKind :=
  if scaled then storeLines (v.vstData w scaled).out.2 0x0000FFFF (fun _ => 0) else []

section

variable {s : State} {t : Fin 16} {p : Prog}

/-- The lines that a VST presents in an opened bundle. -/
def State.vstPresented (s u : State) (t : Fin 16) (p : Prog) : State :=
  let v := (s.tile t.val).vec
  let w := (wrenOf s t).vector
  let d := bundleX s t (vsVa w)
  let r := v.vstData w (fdScaled d)
  let x := u.vectorStore t.val p (fdHandle d) (fdOff d) (packElems (vsVc w % 16) r.out.1) 0xFFFFFFFF (v.vstPoison w)
  if fdScaled d then x.vectorStore t.val p (fdHandle d) (fdScale d) r.out.2 0x0000FFFF (fun _ => 0) else x

theorem vstAct_opened {u : State} (hu : OnlyWren t.val s u) (hwren : wrenOf u t = (wrenOf s t).opened) :
    let v := (s.tile t.val).vec
    let w := (wrenOf s t).vector
    let x := s.vstPresented u t p
    vstAct t.val u p = (if vsVc w % 16 = fFP32 ∨ vsVc w % 16 = fInt32 then x
      else x.setVec t.val (fun v => v.maximum ((List.range 4096).map (v.stVal w)))).storeEnds t.val
        (v.vstData w (fdScaled (bundleX s t (vsVa w)))).fl := by
  obtain ⟨-, -, hvec⟩ := hu
  have hx : (u.tile t.val).wren = (wrenOf s t).opened := hwren
  have hw : (wrenOf s t).opened.vector = (wrenOf s t).vector := (opened_kept _).2.2.2
  rw [vstAct, hx, hw, readX_opened, hvec]
  simp only [State.vstPresented, Vec.vstData, Vec.vstPoison, State.storeEnds]

theorem storedAt_vst {u : State} (hu : OnlyWren t.val s u) (hwren : wrenOf u t = (wrenOf s t).opened) :
    let v := (s.tile t.val).vec
    let w := (wrenOf s t).vector
    let scaled := fdScaled (bundleX s t (vsVa w))
    StoredAt s t p (v.vstBlock w scaled) (v.vstScales w scaled) (s.vstPresented u t p) := by
  intro v w scaled
  have hblock := storedAt_block (p := p) (packElems (vsVc w % 16) (v.vstData w scaled).out.1) 0xFFFFFFFF (v.vstPoison w)
    hu hwren
  unfold State.vstPresented Vec.vstScales
  dsimp only
  by_cases hscaled : scaled = true
  · rw [if_pos hscaled, if_pos hscaled]
    exact storedAt_scale _ _ _ hblock
  · rw [if_neg hscaled, if_neg hscaled]
    exact hblock

/-- A VST's slot that is ready issues. -/
theorem vstSlot_issues (h : SlotReady s t 3 p) (hop : vsOp (wrenOf s t).vector = 0x39) :
    let v := (s.tile t.val).vec
    let w := (wrenOf s t).vector
    let scaled := fdScaled (bundleX s t (vsVa w))
    StoreIssues t p s (vstSlot t.val s) (v.vstBlock w scaled) (v.vstScales w scaled) (v.vstData w scaled).fl
      (if vsVc w % 16 = fFP32 ∨ vsVc w % 16 = fInt32 then [] else (List.range 4096).map (v.stVal w)) := by
  intro v w scaled
  obtain ⟨u, hu, hwren, hslot⟩ := issueSlot_opened h (row := fun w => decide (vsOp w = 0x39)) (decide_eq_true hop)
    (vstAct t.val)
  change vstSlot t.val s = _ at hslot
  rw [hslot, vstAct_opened hu hwren]
  exact storeIssues_converting (storedAt_vst hu hwren) _ (fun v => (List.range 4096).map (v.stVal w)) _

/-- An MST's slot that is ready issues. -/
theorem mstSlot_issues (h : SlotReady s t 3 p) (hop : vsOp (wrenOf s t).vector = 0x3C) :
    let v := (s.tile t.val).vec
    let m := vsVd (wrenOf s t).vector % 8
    StoreIssues t p s (mstSlot t.val s)
      (storeLines (v.maskBytes m) 0xFFFFFFFF (poisonOf (v.regMarked (32 + m)) 16)) [] 0 [] := by
  intro v m
  obtain ⟨u, hu, hwren, hslot⟩ := issueSlot_opened h (row := fun w => decide (vsOp w = 0x3C)) (decide_eq_true hop)
    (mstAct t.val)
  change mstSlot t.val s = _ at hslot
  have hx : (u.tile t.val).wren = (wrenOf s t).opened := hwren
  have hw : (wrenOf s t).opened.vector = (wrenOf s t).vector := (opened_kept _).2.2.2
  have hstored := storedAt_block (p := p) (v.maskBytes m) 0xFFFFFFFF (poisonOf (v.regMarked (32 + m)) 16) hu hwren
  obtain ⟨-, -, hvecu⟩ := hu
  rw [hslot, mstAct, hx, hw, readX_opened, hvecu]
  have hvec := hstored.vec
  have hzero (a : Flags) : a ||| 0 = a := BitVec.or_zero
  refine storeIssues_of hstored (g := v) rfl (maximumTaken_nil rfl rfl) ?_ ?_ ?_ (onlyTile_setVec ..)
  · refine (State.tile_setVec_vec ..).trans ?_
    rw [hvec, hzero]
    rfl
  · exact State.tile_setVec_arr ..
  · rw [hzero]
    exact State.tile_setVec_wren ..

end

theorem exec_vst (t : Fin 16) (s : State) : exec (.vst t) s = .next (vstSlot t.val s) := rfl
theorem exec_mst (t : Fin 16) (s : State) : exec (.mst t) s = .next (mstSlot t.val s) := rfl

theorem vectorStoresIssue : VectorStoresIssueRule := by
  intro t s p h v w d fmt clean xs
  have hpoison (hclean : clean) (k : Nat) : v.vstPoison w k = 0 := by
    refine poisonOf_clean (fun r hr => ?_) ..
    obtain ⟨hlow, hhigh, -⟩ := hclean r hr
    rw [any_pairOf, hlow, hhigh, Bool.and_false, Bool.or_false]
  have hissues (hop : vsOp w = 0x39) : StoreIssues t p s (vstSlot t.val s) (v.vstBlock w (fdScaled d))
      (v.vstScales w (fdScaled d)) (v.vstData w (fdScaled d)).fl xs := vstSlot_issues h hop
  refine ⟨fun hop hscaled _ => ?_, fun hop hscaled _ => ?_, fun hop => ?_⟩
  · have hissues := hissues hop
    rw [hscaled, Vec.vstBlock, Vec.vstScales, if_neg Bool.false_ne_true, vstData_plain] at hissues
    dsimp only at hissues
    exact ⟨_, _, exec_vst t s, writesOf_storeLines hpoison, hissues⟩
  · have hissues := hissues hop
    rw [hscaled, Vec.vstBlock, Vec.vstScales, if_pos rfl, vstData_scaled] at hissues
    dsimp only at hissues
    exact ⟨_, _, _, exec_vst t s, writesOf_storeLines hpoison, writesOf_storeLines (fun _ _ => rfl), hissues⟩
  · refine ⟨_, _, v.maskBytes (vsVd w % 8), exec_mst t s, length_maskBytes .., fun e he => bit_maskBytes v _ he, ?_,
      mstSlot_issues h hop⟩
    exact writesOf_storeLines (fun hclean k => poisonOf_clean (fun r hr => (hclean r hr).2.2) ..)

/-! ## The engine (R204) -/

theorem exec_vnop (t : Fin 16) (s : State) : exec (.vnop t) s = .next (vnopSlot t.val s) := rfl

theorem exec_vectorRowsIssued (t : Fin 16) (s : State) :
    exec (.vectorRowsIssued t) s = .next (vectorRowsIssued t.val s) := rfl

/-- VNOP only issues. -/
theorem vnopSlot_issues {s : State} {t : Fin 16} {p : Prog} (h : SlotReady s t 3 p)
    (hop : vsOp (wrenOf s t).vector = 0) :
    wrenOf (vnopSlot t.val s) t = (wrenOf s t).opened.slotIssued 3 ∧ OnlyWren t.val s (vnopSlot t.val s) := by
  obtain ⟨u, hu, hwren, hslot⟩ := issueSlot_opened h (row := fun w => decide (vsOp w = 0) || !vectorKnown (vsOp w))
    (Bool.or_eq_true_iff.2 (.inl (decide_eq_true hop))) (fun s _ => s)
  change vnopSlot t.val s = _ at hslot
  rw [hslot]
  refine ⟨?_, onlyWren_trans hu (onlyWren_setWren ..)⟩
  rw [wrenOf, State.tile_setWren_wren]
  exact congrArg (fun w : Wren => w.slotIssued 3) hwren

/-- The engine free for its next instruction, `n` waves of stalls counted. -/
def Vec.freed (v : Vec) (n : Word) : Vec := { v with busy := false, stalls := v.stalls + n }

theorem vectorRowsIssued_busy {s : State} {t : Nat} (hs : s.silent = false) (hbusy : (s.tile t).vec.busy = true) :
    vectorRowsIssued t s =
      { s.setVec t (fun v => v.freed (Config.rowStalls s.free)) with free := s.free + 1 } := by
  simp [vectorRowsIssued, hs, hbusy]
  rfl

theorem vectorEngine : VectorEngineRule := by
  intro t s
  refine ⟨fun p h hop => ?_, fun hs hbusy => ?_⟩
  · obtain ⟨hwren, honly⟩ := vnopSlot_issues h hop
    obtain ⟨hrest, hx, hp, hbook⟩ := slotIssued_opened (wrenOf s t) 3
    refine ⟨_, exec_vnop t s, ?_⟩
    rw [hwren]
    exact ⟨hrest, hx, hp, hbook, honly⟩
  · have hvec := State.tile_setVec_vec s t.val (fun v => v.freed (Config.rowStalls s.free))
    have hwren := State.tile_setVec_wren s t.val (fun v => v.freed (Config.rowStalls s.free))
    have harr := State.tile_setVec_arr s t.val (fun v => v.freed (Config.rowStalls s.free))
    obtain ⟨hrest, hother⟩ := onlyTile_setVec s t.val (fun v => v.freed (Config.rowStalls s.free))
    refine ⟨_, exec_vectorRowsIssued t s, ?_⟩
    rw [vectorRowsIssued_busy hs hbusy]
    exact ⟨⟨_, hvec⟩, hwren, harr, (congrArg (fun u : State => { u with free := s.free + 1 }) hrest :), hother⟩

/-- Settles O12: loads put their reads in flight, stores present the lines of their bytes, and the engine goes on. -/
theorem vectorAccessesIssue : Obligations.VectorAccessesIssue := ⟨vectorLoadsIssue, vectorStoresIssue, vectorEngine⟩

end Sys2Proof.Machine

end

section

namespace Sys2Proof.Machine

/-! ## The Wren as a slot of its bundle leaves it (R225) -/

theorem wrenOf_setWren (s : State) (t : Fin 16) (f : Wren → Wren) : wrenOf (s.setWren t.val f) t = f (wrenOf s t) :=
  State.tile_setWren_wren ..

/-- The registers that a bundle reads and how far it has come, but for its target. -/
def Wren.progress (w : Wren) : Sparse DWord × Sparse Bool × BitVec 8 × BitVec 4 × Nat × Word :=
  (w.snapX, w.snapMark, w.snapP, w.issued, w.pc, w.bundles)

theorem slotBook_of_progress {w v : Wren} (h : v.progress = w.opened.progress) (k : Nat) :
    SlotBook w (v.slotIssued k) k v.target := by
  simp only [Wren.progress, Prod.mk.injEq] at h
  obtain ⟨hx, hmark, hp, hissued, hpc, hbundles⟩ := h
  rw [slotIssued_eq, hissued, hpc, hbundles]
  unfold Wren.opened at *
  unfold SlotBook
  by_cases hw : w.issued = 0
  · simp only [hw, if_true, Wren.snap] at *
    split <;> simp [*]
  · simp only [hw, if_false] at *
    split <;> simp [*]

theorem opened_scalar (w : Wren) : w.opened.scalar = w.scalar := by
  unfold Wren.opened
  split <;> rfl

theorem opened_move (w : Wren) : w.opened.move = w.move := by
  unfold Wren.opened
  split <;> rfl

theorem opened_target (w : Wren) : w.opened.target = w.target := by
  unfold Wren.opened
  split <;> rfl

theorem opened_stores (w : Wren) : w.opened.stores = w.stores := by
  unfold Wren.opened
  split <;> rfl

/-- An opened bundle has noted the predicates that its slots read. -/
theorem snapP_opened (s : State) (t : Fin 16) : (wrenOf s t).opened.snapP = bundleP s t := by
  unfold bundleP Wren.opened
  split <;> rfl

theorem sameX_trans {u v w : Wren} (h : SameX u v) (g : SameX v w) : SameX u w := ⟨g.1.trans h.1, g.2.trans h.2⟩

/-- An effect of a slot that changes neither registers nor the progress of the bundle. -/
def ActsOnRest (g : Wren → Wren) : Prop :=
  ∀ v, (g v).rest = g v.rest ∧ SameX v (g v) ∧ (g v).p = v.p ∧ (g v).progress = v.progress ∧ (g v).target = v.target

/-- A slot with such an effect leaves it behind in the Wren, beside the books of its issue. -/
theorem slotIssued_actsOnRest {g : Wren → Wren} (hg : ActsOnRest g) (w : Wren) (k : Nat) :
    ((g w.opened).slotIssued k).rest = g w.rest ∧ SameX w ((g w.opened).slotIssued k) ∧
      ((g w.opened).slotIssued k).p = w.p ∧ SlotBook w ((g w.opened).slotIssued k) k w.target := by
  obtain ⟨horest, hox, hop, -⟩ := opened_kept w
  obtain ⟨hgrest, hgx, hgp, hprogress, htarget⟩ := hg w.opened
  obtain ⟨hrest, hx, hp⟩ := slotIssued_kept (g w.opened) k
  refine ⟨?_, sameX_trans hox (sameX_trans hgx hx), hp.trans (hgp.trans hop), ?_⟩
  · rw [hrest, hgrest, horest]
  · rw [← opened_target, ← htarget]
    exact slotBook_of_progress hprogress k

theorem setX_kept (w : Wren) (rd : Nat) (v : DWord) (mark : Bool) :
    (w.setX rd v mark).rest = w.rest ∧ (w.setX rd v mark).p = w.p ∧ (w.setX rd v mark).progress = w.progress ∧
      (w.setX rd v mark).target = w.target := by
  unfold Wren.setX
  split <;> exact ⟨rfl, rfl, rfl, rfl⟩

theorem setP_kept (w : Wren) (n : Nat) (b : Bool) :
    (w.setP n b).rest = w.rest ∧ SameX w (w.setP n b) ∧ (w.setP n b).progress = w.progress ∧
      (w.setP n b).target = w.target := by
  unfold Wren.setP
  split <;> exact ⟨rfl, ⟨rfl, rfl⟩, rfl, rfl⟩

theorem marked_of_sameX {w v : Wren} (h : SameX w v) (n : Nat) : v.marked n = w.marked n := by
  rw [Wren.marked, h.2, Wren.marked]

/-- A slot that writes an x register leaves its value and mark there, and beside it the books of its issue. -/
theorem slotIssued_setX (w : Wren) (k rd : Nat) (v : DWord) (mark : Bool) :
    let w' := (w.opened.setX rd v mark).slotIssued k
    (∀ n, readX w'.x n = if n = rd ∧ n ≠ 0 then v else readX w.x n) ∧
      (∀ n, w'.marked n = if n = rd ∧ n ≠ 0 then mark else w.marked n) ∧
      w'.p = w.p ∧ w'.rest = w.rest ∧ SlotBook w w' k w.target := by
  obtain ⟨horest, hox, hop, -⟩ := opened_kept w
  obtain ⟨hsrest, hsp, hprogress, htarget⟩ := setX_kept w.opened rd v mark
  obtain ⟨hrest, hx, hp⟩ := slotIssued_kept (w.opened.setX rd v mark) k
  refine ⟨fun n => ?_, fun n => ?_, hp.trans (hsp.trans hop), hrest.trans (hsrest.trans horest), ?_⟩
  · rw [hx.1, readX_setX, hox.1]
  · rw [marked_of_sameX hx, marked_setX, marked_of_sameX hox]
  · rw [← opened_target, ← htarget]
    exact slotBook_of_progress hprogress k

/-! ## Predicates (R224) -/

theorem bit_setBit (m : BitVec 8) (i : Nat) {j : Nat} (hj : j < 8) (b : Bool) :
    bit (setBit m i b).toNat j = if j = i then b else bit m.toNat j := by
  have htest (v : BitVec 8) : bit v.toNat j = v.getLsbD j := by
    rw [bit, BitVec.getLsbD, Nat.testBit_eq_decide_div_mod_eq]
  have hmask : (BitVec.ofNat 8 (2 ^ i)).getLsbD j = decide (j = i) := by
    rw [BitVec.getLsbD_ofNat, Nat.testBit_two_pow]
    simp [hj, eq_comm]
  rw [htest, htest, setBit]
  cases b
  · simp only [Bool.false_eq_true, if_false, BitVec.getLsbD_and, BitVec.getLsbD_not, hmask]
    by_cases h : j = i <;> simp [h, hj]
  · simp only [if_true, BitVec.getLsbD_or, hmask]
    by_cases h : j = i <;> simp [h]

theorem readP_setP (w : Wren) (i : Nat) {j : Nat} (hj : j < 8) (b : Bool) :
    readP (w.setP i b).p j = if j = i ∧ j ≠ 0 then b else readP w.p j := by
  unfold Wren.setP readP
  split
  · next h => simp [h]
  · next h =>
    rw [bit_setBit w.p i hj]
    by_cases hji : j = i <;> simp [hji, h]

/-- The same of a slot that writes a predicate. -/
theorem slotIssued_setP (w : Wren) (k i : Nat) (b : Bool) :
    let w' := (w.opened.setP i b).slotIssued k
    (∀ n, n < 8 → readP w'.p n = if n = i ∧ n ≠ 0 then b else readP w.p n) ∧
      SameX w w' ∧ w'.rest = w.rest ∧ SlotBook w w' k w.target := by
  obtain ⟨horest, hox, hop, -⟩ := opened_kept w
  obtain ⟨hsrest, hsx, hprogress, htarget⟩ := setP_kept w.opened i b
  obtain ⟨hrest, hx, hp⟩ := slotIssued_kept (w.opened.setP i b) k
  refine ⟨fun n hn => ?_, sameX_trans hox (sameX_trans hsx hx), hrest.trans (hsrest.trans horest), ?_⟩
  · rw [hp, readP_setP _ _ hn, hop]
  · rw [← opened_target, ← htarget]
    exact slotBook_of_progress hprogress k

/-! ## Scalar arithmetic and predicates (Table WRN-2) -/

section

variable {s : State} {t : Fin 16} {p : Prog} {op : Nat}

/-- A slot whose effect is on the Wren of its tile, where it is ready. -/
theorem wrenSlot_issues {k : Nat} {row : Nat → Bool} (h : SlotReady s t k p)
    (hr : row (bits (wrenOf s t).bundle (32 * k) 32) = true) (g : Wren → Wren) :
    let s' := s.issueSlot t.val k row (fun s _ => s.setWren t.val g)
    wrenOf s' t = (g (wrenOf s t).opened).slotIssued k ∧ OnlyWren t s s' := by
  obtain ⟨u, hu, hwren, hslot⟩ := issueSlot_opened h hr (fun s _ => s.setWren t.val g)
  simp only [hslot]
  refine ⟨?_, onlyWren_trans hu (onlyWren_trans (onlyWren_setWren ..) (onlyWren_setWren ..))⟩
  rw [wrenOf_setWren, wrenOf_setWren, hwren]

/-- A scalar slot that is ready has its effect on the Wren where its guard holds, and otherwise none. -/
theorem scalarSlot_issues (h : SlotReady s t 0 p) (hop : slOp (wrenOf s t).scalar = op) (f : Nat → Wren → Wren) :
    wrenOf (s.scalarSlot t.val op f) t =
        (if guardOf (bundleP s t) (wrenOf s t).scalar then f (wrenOf s t).scalar (wrenOf s t).opened
         else (wrenOf s t).opened).slotIssued 0 ∧
      OnlyWren t s (s.scalarSlot t.val op f) := by
  have hissues := wrenSlot_issues h (row := fun w => decide (slOp w = op)) (decide_eq_true hop)
    (fun w => if guardOf w.snapP w.scalar then f w.scalar w else w)
  rwa [snapP_opened, opened_scalar] at hissues

theorem scalarSlot_guarded (h : SlotReady s t 0 p) (hop : slOp (wrenOf s t).scalar = op)
    (hguard : guardOf (bundleP s t) (wrenOf s t).scalar = true) (f : Nat → Wren → Wren) :
    wrenOf (s.scalarSlot t.val op f) t = (f (wrenOf s t).scalar (wrenOf s t).opened).slotIssued 0 ∧
      OnlyWren t s (s.scalarSlot t.val op f) := by
  have hissues := scalarSlot_issues h hop f
  rwa [if_pos hguard] at hissues

end

/-! ### The table's arithmetic on register values (R224) -/

theorem sub_eq_ofInt (a b : DWord) : a - b = BitVec.ofInt 64 ((a.toNat : Int) - b.toNat) := by
  rw [sub_eq_add_neg, sub_eq_add_neg, BitVec.ofInt_add, BitVec.ofInt_neg, BitVec.ofInt_natCast, BitVec.ofInt_natCast,
    BitVec.ofNat_toNat, BitVec.ofNat_toNat, BitVec.setWidth_eq, BitVec.setWidth_eq]

theorem shl_eq_ofNat (a : DWord) (n : Nat) : a <<< n = BitVec.ofNat 64 (a.toNat * 2 ^ n) := by
  apply BitVec.eq_of_toNat_eq
  simp [Nat.shiftLeft_eq]

theorem shr_eq_ofNat (a : DWord) (n : Nat) : a >>> n = BitVec.ofNat 64 (a.toNat / 2 ^ n) := by
  apply BitVec.eq_of_toNat_eq
  rw [BitVec.toNat_ushiftRight, Nat.shiftRight_eq_div_pow, BitVec.toNat_ofNat,
    Nat.mod_eq_of_lt (Nat.lt_of_le_of_lt (Nat.div_le_self ..) a.isLt)]

theorem sra_eq_ofInt (a : DWord) (n : Nat) : a.sshiftRight n = BitVec.ofInt 64 (a.toInt / 2 ^ n) := by
  rw [BitVec.sshiftRight, Int.shiftRight_eq_div_pow]
  norm_cast

theorem add_ofInt_eq (a : DWord) (i : Int) : a + BitVec.ofInt 64 i = BitVec.ofInt 64 (a.toInt + i) := by
  rw [BitVec.ofInt_add, BitVec.ofInt_toInt]

/-- LIMM's immediate fills the twelve low bits that the shift has cleared. -/
theorem shl_or_ofNat (a : DWord) {n : Nat} (hn : n < 2 ^ 12) :
    (a <<< 12) ||| BitVec.ofNat 64 n = BitVec.ofNat 64 (a.toNat * 2 ^ 12 + n) := by
  rw [shl_eq_ofNat, ← BitVec.ofNat_or, Nat.mul_comm, Nat.two_pow_add_eq_or_of_lt hn]

/-- The effect of a scalar row on x[RD] and its mark (R224, R229). -/
def scalarEffect (r : ScalarRow) (w : Nat) (v : Wren) : Wren :=
  v.setX (slRd w) (r.value (readX v.snapX) w) ((r.sources w).any v.snapMarked)

/-- A row over two x registers, where the model's operation is the table's. -/
theorem exec_aluRow {t : Fin 16} {s : State} {row : Instr} {op : Nat} {f g : DWord → DWord → DWord}
    (hexec : exec row s = .next (s.aluSlot t.val op f)) (hfg : ∀ a b, f a b = g a b) :
    exec row s = .next (s.scalarSlot t.val op (scalarEffect (aluRow row op g))) := by
  rw [hexec, State.aluSlot]
  congr 2
  funext w v
  simp [scalarEffect, aluRow, hfg]

theorem exec_scalarRow {t : Fin 16} {r : ScalarRow} (hr : r ∈ scalarRows t) (s : State) :
    exec r.row s = .next (s.scalarSlot t.val r.op (scalarEffect r)) := by
  simp only [scalarRows, List.mem_cons, List.not_mem_nil, or_false] at hr
  obtain rfl | rfl | rfl | rfl | rfl | rfl | rfl | rfl | rfl | rfl | rfl := hr
  -- ADD, SUB, MUL
  · exact exec_aluRow rfl (fun _ _ => rfl)
  · exact exec_aluRow rfl sub_eq_ofInt
  · exact exec_aluRow rfl (fun _ _ => rfl)
  -- AND, OR, XOR
  · exact exec_aluRow rfl (fun _ _ => by simp [BitVec.ofNat_and])
  · exact exec_aluRow rfl (fun _ _ => by simp [BitVec.ofNat_or])
  · exact exec_aluRow rfl (fun _ _ => by simp [BitVec.ofNat_xor])
  -- SHL, SHR, SRA
  · exact exec_aluRow rfl (fun a b => shl_eq_ofNat a (b.toNat % 64))
  · exact exec_aluRow rfl (fun a b => shr_eq_ofNat a (b.toNat % 64))
  · exact exec_aluRow rfl (fun a b => sra_eq_ofInt a (b.toNat % 64))
  -- ADDI, LIMM
  · refine congrArg (fun f => Host.Outcome.next (s.scalarSlot t.val 0x0A f)) (funext fun w => funext fun v => ?_)
    simp [scalarEffect, addiImm, add_ofInt_eq]
  · refine congrArg (fun f => Host.Outcome.next (s.scalarSlot t.val 0x0B f)) (funext fun w => funext fun v => ?_)
    have himm : bits w 20 12 < 2 ^ 12 := Nat.mod_lt _ (by decide)
    rw [shl_or_ofNat _ himm]
    simp [scalarEffect]

/-- The compares of the table are the bit vectors' own. -/
theorem exec_predicateRow {t : Fin 16} {r : Instr × Nat × ((Nat → DWord) → (Nat → Bool) → Nat → Bool)}
    (hr : r ∈ predicateRows t) (s : State) :
    exec r.1 s = .next (s.scalarSlot t.val r.2.1 (fun w v => v.setP (slPd w) (r.2.2 (readX v.snapX) (readP v.snapP) w))) := by
  simp only [predicateRows, List.mem_cons, List.not_mem_nil, or_false] at hr
  obtain rfl | rfl | rfl | rfl | rfl | rfl := hr <;> rfl

theorem scalarArithmetic : ScalarArithmeticRule := by
  intro t s p r hr h hop hguard
  obtain ⟨hwren, honly⟩ := scalarSlot_guarded h hop hguard (scalarEffect r)
  rw [scalarEffect, readX_opened, snapMarked_opened] at hwren
  obtain ⟨hx, hmark, hp, hrest, hbook⟩ := slotIssued_setX (wrenOf s t) 0 (slRd (wrenOf s t).scalar)
    (r.value (bundleX s t) (wrenOf s t).scalar) ((r.sources (wrenOf s t).scalar).any (bundleMark s t))
  refine ⟨_, exec_scalarRow hr s, ?_⟩
  rw [hwren]
  exact ⟨hx, hmark, hp, hrest, hbook, honly⟩

theorem scalarPredicates : ScalarPredicatesRule := by
  intro t s p r hr h hop hguard
  obtain ⟨hwren, honly⟩ := scalarSlot_guarded h hop hguard
    (fun w v => v.setP (slPd w) (r.2.2 (readX v.snapX) (readP v.snapP) w))
  rw [readX_opened, snapP_opened] at hwren
  obtain ⟨hp, hx, hrest, hbook⟩ := slotIssued_setP (wrenOf s t) 0 (slPd (wrenOf s t).scalar)
    (r.2.2 (bundleX s t) (readP (bundleP s t)) (wrenOf s t).scalar)
  refine ⟨_, exec_predicateRow hr s, ?_⟩
  rw [hwren]
  exact ⟨hp, hx, hrest, hbook, honly⟩

/-- Settles O2: each row's slot writes one x register with its mark, or one predicate, from what the bundle reads. -/
theorem scalarComputes : Obligations.ScalarComputes := ⟨scalarArithmetic, scalarPredicates⟩

end Sys2Proof.Machine

end

section

namespace Sys2Proof.Machine

/-! ## NOP, BR, END and false guards (R225, R233, R70) -/

section

variable {s : State} {t : Fin 16} {p : Prog} {op : Nat}

/-- A slot without an effect only issues. -/
theorem idleSlot_issues {k : Nat} {row : Nat → Bool} (h : SlotReady s t k p)
    (hr : row (bits (wrenOf s t).bundle (32 * k) 32) = true) :
    let s' := s.issueSlot t.val k row (fun s _ => s)
    wrenOf s' t = (wrenOf s t).opened.slotIssued k ∧ OnlyWren t s s' := by
  obtain ⟨u, hu, hwren, hslot⟩ := issueSlot_opened h hr (fun s _ => s)
  simp only [hslot]
  refine ⟨?_, onlyWren_trans hu (onlyWren_setWren ..)⟩
  rw [wrenOf_setWren, hwren]

theorem scalarNopSlot_issues (h : SlotReady s t 0 p) (hop : slOp (wrenOf s t).scalar = 0) :
    wrenOf (scalarNopSlot t.val s) t = (wrenOf s t).opened.slotIssued 0 ∧ OnlyWren t s (scalarNopSlot t.val s) :=
  idleSlot_issues h (Bool.or_eq_true_iff.2 (.inl (decide_eq_true hop)))

theorem mnopSlot_issues (h : SlotReady s t 1 p) (hop : slOp (wrenOf s t).move = 0) :
    wrenOf (mnopSlot t.val s) t = (wrenOf s t).opened.slotIssued 1 ∧ OnlyWren t s (mnopSlot t.val s) :=
  idleSlot_issues h (Bool.or_eq_true_iff.2 (.inl (decide_eq_true hop)))

/-- What BR does to the Wren, whose guard may hold or not, `pr` and `m` being the predicates and the word it reads. -/
def Wren.branch (w : Wren) (pr : BitVec 8) (m : Nat) : Wren :=
  { w with target := if guardOf pr m then some (bits m 11 10) else none
           mispred := if guardOf pr m = bit m 10 then w.mispred else w.mispred + 1 }

theorem brSlot_issues (h : SlotReady s t 0 p) (hop : slOp (wrenOf s t).scalar = 0x20) :
    wrenOf (brSlot t.val s) t = ((wrenOf s t).opened.branch (bundleP s t) (wrenOf s t).scalar).slotIssued 0 ∧
      OnlyWren t s (brSlot t.val s) := by
  have hissues := wrenSlot_issues h (row := fun w => decide (slOp w = 0x20)) (decide_eq_true hop)
    (fun w => w.branch w.snapP w.scalar)
  rwa [snapP_opened, opened_scalar] at hissues

/-- A move slot that is ready has its effect, where its guard holds, on a state in which its bundle has opened. -/
theorem moveSlot_opened (h : SlotReady s t 1 p) (hop : slOp (wrenOf s t).move = op) (act : Nat → Prog → State → State) :
    ∃ u, OnlyWren t s u ∧ wrenOf u t = (wrenOf s t).opened ∧
      s.moveSlot t.val op act = (if guardOf (bundleP s t) (wrenOf s t).move then act (wrenOf s t).move p u else u).setWren
        t.val (fun w => w.slotIssued 1) := by
  obtain ⟨u, hu, hwren, hslot⟩ := issueSlot_opened h (row := fun w => decide (slOp w = op)) (decide_eq_true hop)
    (fun s p => if guardOf (s.tile t.val).wren.snapP (s.tile t.val).wren.move then act (s.tile t.val).wren.move p s else s)
  refine ⟨u, hu, hwren, ?_⟩
  rw [show (u.tile t.val).wren = (wrenOf s t).opened from hwren, snapP_opened, opened_move] at hslot
  exact hslot

/-- What a move slot whose guard holds leaves, `w` being the Wren and `v` the die but for it that its effect leaves. -/
theorem moveSlot_issues (h : SlotReady s t 1 p) (hop : slOp (wrenOf s t).move = op)
    (hguard : guardOf (bundleP s t) (wrenOf s t).move = true) {act : Nat → Prog → State → State} {v : State} {w : Wren}
    (hact : ∀ u, OnlyWren t s u → wrenOf u t = (wrenOf s t).opened →
      wrenOf (act (wrenOf s t).move p u) t = w ∧ OnlyWren t v (act (wrenOf s t).move p u)) :
    wrenOf (s.moveSlot t.val op act) t = w.slotIssued 1 ∧ OnlyWren t v (s.moveSlot t.val op act) := by
  obtain ⟨u, hu, hwren, hslot⟩ := moveSlot_opened h hop act
  obtain ⟨hw, honly⟩ := hact u hu hwren
  rw [if_pos hguard] at hslot
  rw [hslot]
  refine ⟨?_, onlyWren_trans honly (onlyWren_setWren ..)⟩
  rw [wrenOf_setWren, hw]

theorem moveSlot_unguarded (h : SlotReady s t 1 p) (hop : slOp (wrenOf s t).move = op)
    (hguard : guardOf (bundleP s t) (wrenOf s t).move = false) (act : Nat → Prog → State → State) :
    wrenOf (s.moveSlot t.val op act) t = (wrenOf s t).opened.slotIssued 1 ∧ OnlyWren t s (s.moveSlot t.val op act) := by
  obtain ⟨u, hu, hwren, hslot⟩ := moveSlot_opened h hop act
  rw [hguard, if_neg Bool.false_ne_true] at hslot
  rw [hslot]
  refine ⟨?_, onlyWren_trans hu (onlyWren_setWren ..)⟩
  rw [wrenOf_setWren, hwren]

theorem scalarSlot_unguarded (h : SlotReady s t 0 p) (hop : slOp (wrenOf s t).scalar = op)
    (hguard : guardOf (bundleP s t) (wrenOf s t).scalar = false) (f : Nat → Wren → Wren) :
    wrenOf (s.scalarSlot t.val op f) t = (wrenOf s t).opened.slotIssued 0 ∧ OnlyWren t s (s.scalarSlot t.val op f) := by
  have hissues := scalarSlot_issues h hop f
  rwa [hguard, if_neg Bool.false_ne_true] at hissues

/-- A row that a false guard leaves without effect issues its slot and does nothing else. -/
theorem guardedRow_idles {r : Instr × Nat × Nat} (hr : r ∈ guardedRows t) (h : SlotReady s t r.2.1 p)
    (hop : slOp (bits (wrenOf s t).bundle (32 * r.2.1) 32) = r.2.2)
    (hguard : guardOf (bundleP s t) (bits (wrenOf s t).bundle (32 * r.2.1) 32) = false) :
    ∃ s', exec r.1 s = .next s' ∧ wrenOf s' t = (wrenOf s t).opened.slotIssued r.2.1 ∧ OnlyWren t s s' := by
  simp only [guardedRows, List.mem_append, List.mem_map, List.mem_cons, List.not_mem_nil, or_false] at hr
  obtain (⟨q, hq, rfl⟩ | ⟨q, hq, rfl⟩) | rfl | rfl | rfl | rfl | rfl | rfl | rfl | rfl | rfl := hr
  · exact ⟨_, exec_scalarRow hq s, scalarSlot_unguarded h hop hguard _⟩
  · exact ⟨_, exec_predicateRow hq s, scalarSlot_unguarded h hop hguard _⟩
  · exact ⟨_, rfl, scalarSlot_unguarded h hop hguard _⟩
  · exact ⟨_, rfl, mnopSlot_issues h hop⟩
  all_goals exact ⟨_, rfl, moveSlot_unguarded h hop hguard _⟩

end

theorem exec_scalarNop (t : Fin 16) (s : State) : exec (.scalarNop t) s = .next (scalarNopSlot t.val s) := rfl
theorem exec_br (t : Fin 16) (s : State) : exec (.br t) s = .next (brSlot t.val s) := rfl
theorem exec_opEnd (t : Fin 16) (s : State) :
    exec (.opEnd t) s = .next (s.scalarSlot t.val 0x21 (fun _ w => { w with ended := true })) := rfl

theorem branch_kept (w : Wren) (pr : BitVec 8) (m : Nat) :
    (w.branch pr m).rest = { w.rest with
        mispred := if guardOf pr m = bit m 10 then w.mispred else w.mispred + 1 } ∧
      SameX w (w.branch pr m) ∧ (w.branch pr m).p = w.p ∧ (w.branch pr m).progress = w.progress :=
  ⟨rfl, ⟨rfl, rfl⟩, rfl, rfl⟩

theorem scalarControlRows : ScalarControlRule := by
  intro t s p h
  refine ⟨fun hop => ?_, fun hop => ?_, fun hop hguard => ?_⟩
  · obtain ⟨hwren, honly⟩ := scalarNopSlot_issues h hop
    obtain ⟨hrest, hx, hp, hbook⟩ := slotIssued_opened (wrenOf s t) 0
    refine ⟨_, exec_scalarNop t s, ?_⟩
    rw [hwren]
    exact ⟨hrest, hx, hp, hbook, honly⟩
  · obtain ⟨hwren, honly⟩ := brSlot_issues h hop
    obtain ⟨horest, hox, hop', -⟩ := opened_kept (wrenOf s t)
    obtain ⟨hbrest, hbx, hbp, hprogress⟩ := branch_kept (wrenOf s t).opened (bundleP s t) (wrenOf s t).scalar
    obtain ⟨hrest, hx, hp⟩ := slotIssued_kept ((wrenOf s t).opened.branch (bundleP s t) (wrenOf s t).scalar) 0
    have hmispred : (wrenOf s t).opened.mispred = (wrenOf s t).mispred :=
      (congrArg Wren.mispred horest :)
    refine ⟨_, exec_br t s, ?_⟩
    rw [hwren]
    refine ⟨?_, sameX_trans hox (sameX_trans hbx hx), hp.trans (hbp.trans hop'), slotBook_of_progress hprogress 0, honly⟩
    rw [hrest, hbrest, horest, hmispred]
  · obtain ⟨hwren, honly⟩ := scalarSlot_guarded h hop hguard (fun _ w => { w with ended := true })
    obtain ⟨hrest, hx, hp, hbook⟩ := slotIssued_actsOnRest (g := fun w => { w with ended := true })
      (fun _ => ⟨rfl, ⟨rfl, rfl⟩, rfl, rfl, rfl⟩) (wrenOf s t) 0
    refine ⟨_, exec_opEnd t s, ?_⟩
    rw [hwren]
    exact ⟨hrest, hx, hp, hbook, honly⟩

theorem falseGuard : FalseGuardRule := by
  intro t s p r hr h hop hguard
  obtain ⟨s', hexec, hwren, honly⟩ := guardedRow_idles hr h hop hguard
  obtain ⟨hrest, hx, hp, hbook⟩ := slotIssued_opened (wrenOf s t) r.2.1
  refine ⟨s', hexec, ?_⟩
  rw [hwren]
  exact ⟨hrest, hx, hp, hbook, honly⟩

/-- Settles O3: NOP only issues, BR and END act on the Wren alone, and a false guard leaves its slot idle. -/
theorem scalarControl : Obligations.ScalarControl := ⟨scalarControlRows, falseGuard⟩

/-! ## Semaphore rows (Table WRN-3) -/

/-- An update of the Wren of an opened bundle. -/
theorem setWren_opened {s u : State} {t : Fin 16} (hu : OnlyWren t s u) (hwren : wrenOf u t = (wrenOf s t).opened)
    (g : Wren → Wren) : wrenOf (u.setWren t.val g) t = g (wrenOf s t).opened ∧ OnlyWren t s (u.setWren t.val g) := by
  rw [← hwren]
  exact ⟨wrenOf_setWren .., onlyWren_trans hu (onlyWren_setWren ..)⟩

theorem actsOnRest_semaphoreRow {t : Fin 16} {r : Instr × Nat × (Nat → Wren → Wren)} (hr : r ∈ semaphoreRows t) (m : Nat) :
    ActsOnRest (r.2.2 m) := by
  simp only [semaphoreRows, List.mem_cons, List.not_mem_nil, or_false] at hr
  obtain rfl | rfl | rfl | rfl | rfl := hr <;> exact fun _ => ⟨rfl, ⟨rfl, rfl⟩, rfl, rfl, rfl⟩

/-- A semaphore row leaves its signal or its wait in the Wren. -/
theorem semaphoreRow_issues {s : State} {t : Fin 16} {p : Prog} {r : Instr × Nat × (Nat → Wren → Wren)}
    (hr : r ∈ semaphoreRows t) (h : SlotReady s t 1 p) (hop : slOp (wrenOf s t).move = r.2.1)
    (hguard : guardOf (bundleP s t) (wrenOf s t).move = true) :
    ∃ s', exec r.1 s = .next s' ∧ wrenOf s' t = (r.2.2 (wrenOf s t).move (wrenOf s t).opened).slotIssued 1 ∧
      OnlyWren t s s' := by
  simp only [semaphoreRows, List.mem_cons, List.not_mem_nil, or_false] at hr
  obtain rfl | rfl | rfl | rfl | rfl := hr
  · exact ⟨_, rfl, mnopSlot_issues h hop⟩
  all_goals exact ⟨_, rfl, moveSlot_issues h hop hguard (fun _ hu hwren => setWren_opened hu hwren _)⟩

/-- Settles O5: each row's effect is on the Wren beside its registers, so no semaphore changes. -/
theorem semaphoreSlotsIssue : Obligations.SemaphoreSlotsIssue := by
  intro t s p r hr h hop hguard
  obtain ⟨s', hexec, hwren, honly⟩ := semaphoreRow_issues hr h hop hguard
  obtain ⟨hrest, hx, hp, hbook⟩ := slotIssued_actsOnRest (actsOnRest_semaphoreRow hr (wrenOf s t).move) (wrenOf s t) 1
  refine ⟨s', hexec, ?_⟩
  rw [hwren]
  exact ⟨hrest, hx, hp, hbook, honly⟩

end Sys2Proof.Machine

end

section

namespace Sys2Proof.Machine

/-! ## Narrow accesses and fills at their issue (R227 to R231, R240) -/

/-- The offset of a narrow access has its immediate; an IFILL has none. -/
theorem moveAddr_narrow {m : Nat} (h : slOp m ≠ opIFILL) (d : DWord) :
    moveAddr m d = (fdOff d : Int) + signed (bits m 23 9) 9 := by
  rw [moveAddr, if_neg h]

theorem onlyWren_withRequests {t : Nat} {a b : State} (h : OnlyWren t a b) (n : Nat) (l : List CisReq) :
    OnlyWren t (a.withRequests n l) (b.withRequests n l) := ⟨onlyTile_withRequests h.1 n l, h.2⟩

theorem forward_of_stores {v w : Wren} (h : v.stores = w.stores) (l : NarrowLoad) : v.forward l = w.forward l := by
  simp only [Wren.forward, Wren.overlaps, h]

theorem forward_none {w : Wren} {l : NarrowLoad} (h : w.overlaps l = []) : w.forward l = none := by
  rw [Wren.forward, h]
  cases w.stores.getLast? <;> rfl

theorem forward_youngest {w : Wren} {l : NarrowLoad} {e : StoreEntry} (hlast : w.stores.getLast? = some e)
    (hover : w.overlaps l = [e]) (hlow : e.addr ≤ l.addr) (hhigh : l.addr + l.size ≤ e.addr + e.bytes.length) :
    w.forward l = some e := by
  simp [Wren.forward, hlast, hover, hlow, hhigh]

/-- NLD of the load `l`. -/
def issueLoad (t : Nat) (p : Prog) (l : NarrowLoad) (s : State) : State :=
  match (s.tile t).wren.forward l with
  | some e => s.setWren t (fun w => w.loaded l ((e.bytes.drop (l.addr - e.addr)).take l.size) e.poison)
  | none =>
    (s.post t .wren p.ctx l.handle l.addr (.readNarrow l.size)).setWren t (fun w => { w with loads := w.loads ++ [l] })

theorem nldAct_eq (t m : Nat) (p : Prog) (s : State) :
    nldAct t m p s = issueLoad t p { s.loadOf p m (s.tile t).wren.snapX with id := s.nextId } s := rfl

theorem issueLoad_forward {t : Nat} {s : State} {l : NarrowLoad} {e : StoreEntry} (h : (s.tile t).wren.forward l = some e)
    (p : Prog) : issueLoad t p l s =
      s.setWren t (fun w => w.loaded l ((e.bytes.drop (l.addr - e.addr)).take l.size) e.poison) := by
  simp only [issueLoad, h]

theorem issueLoad_read {t : Nat} {s : State} {l : NarrowLoad} (h : (s.tile t).wren.forward l = none) (p : Prog) :
    issueLoad t p l s =
      (s.post t .wren p.ctx l.handle l.addr (.readNarrow l.size)).setWren t (fun w => { w with loads := w.loads ++ [l] }) := by
  simp only [issueLoad, h]

section

variable {s u : State} {t : Fin 16} {p : Prog} (hu : OnlyWren t s u) (hwren : wrenOf u t = (wrenOf s t).opened)

include hu

/-- An access of the Wren is presented as it would have been before its bundle opened. -/
theorem post_opened (addr : Nat) (kind : AccessKind) :
    u.post t.val .wren p.ctx (fdHandle (moveDesc s t)) addr kind =
      u.withRequests (s.nextId + 1) (s.cis.reqs ++ [wrenAccess s t p addr kind]) := by
  obtain ⟨hnext, hreqs, htime, hfuse, hact⟩ := sameRequests_of_onlyTile hu.1
  simp [State.post, State.withRequests, wrenAccess, State.arrival, hnext, hreqs, htime, hfuse, hact]

/-- So are the line reads of an instruction fill. -/
theorem postLines_opened (n : Nat) :
    u.postLines t.val .wren p.ctx (fdHandle (moveDesc s t)) (fdOff (moveDesc s t)) (fun _ => .readLine) n =
      u.withRequests (s.nextId + n) (s.cis.reqs ++ (List.range n).map (fun i =>
        { wrenAccess s t p (s.phys p.ctx (fdHandle (moveDesc s t)) (fdOff (moveDesc s t) + 256 * i)) .readLine with
          id := s.nextId + i })) := by
  obtain ⟨hnext, hreqs, htime, hfuse, hact⟩ := sameRequests_of_onlyTile hu.1
  rw [postLines_eq]
  simp [State.withRequests, State.lineReq, wrenAccess, State.arrival, State.phys, hnext, hreqs, htime, hfuse, hact]

include hwren

/-- Presenting accesses and updating the Wren, in an opened bundle. -/
theorem request_opened (n : Nat) (l : List CisReq) (g : Wren → Wren) :
    wrenOf ((u.withRequests n l).setWren t.val g) t = g (wrenOf s t).opened ∧
      OnlyWren t (s.withRequests n l) ((u.withRequests n l).setWren t.val g) := by
  rw [← hwren]
  exact ⟨wrenOf_setWren (u.withRequests n l) t g, onlyWren_trans (onlyWren_withRequests hu n l) (onlyWren_setWren ..)⟩

/-- The load that the slot's word names is the one that an opened bundle issues. -/
theorem loadOf_opened (hop : slOp (wrenOf s t).move = 1) :
    { u.loadOf p (wrenOf s t).move (u.tile t.val).wren.snapX with id := u.nextId } = narrowLoad s t p := by
  obtain ⟨hnext, -, -, -, hact⟩ := sameRequests_of_onlyTile hu.1
  have hne : slOp (wrenOf s t).move ≠ opIFILL := by rw [hop]; decide
  simp only [State.loadOf, show (u.tile t.val).wren = (wrenOf s t).opened from hwren, readX_opened, moveAddr_narrow hne,
    State.phys, hact, hnext]
  rfl

theorem nldAct_read (hop : slOp (wrenOf s t).move = 1) (hover : (wrenOf s t).overlaps (narrowLoad s t p) = []) :
    wrenOf (nldAct t.val (wrenOf s t).move p u) t =
        { (wrenOf s t).opened with loads := (wrenOf s t).opened.loads ++ [narrowLoad s t p] } ∧
      OnlyWren t (s.withRequests (s.nextId + 1) (s.cis.reqs ++
        [wrenAccess s t p (narrowLoad s t p).addr (.readNarrow (narrowLoad s t p).size)]))
        (nldAct t.val (wrenOf s t).move p u) := by
  have hforward : (u.tile t.val).wren.forward (narrowLoad s t p) = none := by
    rw [← forward_none hover]
    exact forward_of_stores (show (wrenOf u t).stores = _ by rw [hwren, opened_stores]) _
  rw [nldAct_eq, loadOf_opened hu hwren hop, issueLoad_read hforward,
    show (narrowLoad s t p).handle = fdHandle (moveDesc s t) from rfl, post_opened hu]
  exact request_opened hu hwren _ _ (fun w => { w with loads := w.loads ++ [narrowLoad s t p] })

theorem nldAct_forwarded (hop : slOp (wrenOf s t).move = 1) {e : StoreEntry}
    (he : (wrenOf s t).forward (narrowLoad s t p) = some e) :
    let l := narrowLoad s t p
    wrenOf (nldAct t.val (wrenOf s t).move p u) t =
        (wrenOf s t).opened.loaded l ((e.bytes.drop (l.addr - e.addr)).take l.size) e.poison ∧
      OnlyWren t s (nldAct t.val (wrenOf s t).move p u) := by
  have hforward : (u.tile t.val).wren.forward (narrowLoad s t p) = some e := by
    rw [← he]
    exact forward_of_stores (show (wrenOf u t).stores = _ by rw [hwren, opened_stores]) _
  intro l
  rw [nldAct_eq, loadOf_opened hu hwren hop, issueLoad_forward hforward]
  exact setWren_opened hu hwren (fun w => w.loaded l ((e.bytes.drop (l.addr - e.addr)).take l.size) e.poison)

/-- NST's entry and its access, of the low bytes of x[RS]. -/
theorem nstAct_opened (hop : slOp (wrenOf s t).move = 2) :
    let bytes := leBytes (slSize (wrenOf s t).move) (bundleX s t (slRd (wrenOf s t).move)).toNat
    let mark := bundleMark s t (slRd (wrenOf s t).move)
    wrenOf (nstAct t.val (wrenOf s t).move p u) t = { (wrenOf s t).opened with
        stores := (wrenOf s t).opened.stores ++ [StoreEntry.mk s.nextId (narrowAddr s t p) bytes mark] } ∧
      OnlyWren t (s.withRequests (s.nextId + 1)
        (s.cis.reqs ++ [wrenAccess s t p (narrowAddr s t p) (.writeNarrow bytes mark)]))
        (nstAct t.val (wrenOf s t).move p u) := by
  intro bytes mark
  obtain ⟨hnext, -, -, -, hset⟩ := sameRequests_of_onlyTile hu.1
  have hne : slOp (wrenOf s t).move ≠ opIFILL := by rw [hop]; decide
  have haddr : u.phys p.ctx (fdHandle (moveDesc s t)) (moveAddr (wrenOf s t).move (moveDesc s t)).toNat = narrowAddr s t p := by
    rw [moveAddr_narrow hne, State.phys, hset]
    rfl
  have hact : nstAct t.val (wrenOf s t).move p u =
      (u.post t.val .wren p.ctx (fdHandle (moveDesc s t)) (narrowAddr s t p) (.writeNarrow bytes mark)).setWren t.val
        (fun w => { w with stores := w.stores ++ [StoreEntry.mk s.nextId (narrowAddr s t p) bytes mark] }) := by
    rw [← haddr, ← hnext, nstAct, show (u.tile t.val).wren = (wrenOf s t).opened from hwren, readX_opened, snapMarked_opened]
    rfl
  rw [hact, post_opened hu]
  exact request_opened hu hwren _ _
    (fun w => { w with stores := w.stores ++ [StoreEntry.mk s.nextId (narrowAddr s t p) bytes mark] })

theorem ifillAct_opened :
    let n := bits (wrenOf s t).move 10 5 + 1
    wrenOf (ifillAct t.val (wrenOf s t).move p u) t = { (wrenOf s t).opened with
        fills := (wrenOf s t).opened.fills ++
          (List.range n).map (fun i => FillLine.mk (s.nextId + i) (bits (wrenOf s t).move 20 10 + 16 * i))
        owner := some p.ctx } ∧
      OnlyWren t (s.withRequests (s.nextId + n) (s.cis.reqs ++ (List.range n).map (fun i =>
        { wrenAccess s t p (s.phys p.ctx (fdHandle (moveDesc s t)) (fdOff (moveDesc s t) + 256 * i)) .readLine with
          id := s.nextId + i }))) (ifillAct t.val (wrenOf s t).move p u) := by
  obtain ⟨hnext, -⟩ := sameRequests_of_onlyTile hu.1
  have hdesc : readX (u.tile t.val).wren.snapX (slRa (wrenOf s t).move) = moveDesc s t := by
    rw [show (u.tile t.val).wren = (wrenOf s t).opened from hwren, readX_opened, moveDesc]
  intro n
  rw [ifillAct, hdesc, hnext, postLines_opened hu]
  exact request_opened hu hwren _ _ (fun w => { w with
    fills := w.fills ++ (List.range n).map (fun i => FillLine.mk (s.nextId + i) (bits (wrenOf s t).move 20 10 + 16 * i))
    owner := some p.ctx })

end

theorem exec_nld (t : Fin 16) (s : State) : exec (.nld t) s = .next (s.moveSlot t.val opNLD (nldAct t.val)) := rfl
theorem exec_nst (t : Fin 16) (s : State) : exec (.nst t) s = .next (s.moveSlot t.val opNST (nstAct t.val)) := rfl
theorem exec_ifill (t : Fin 16) (s : State) : exec (.ifill t) s = .next (s.moveSlot t.val opIFILL (ifillAct t.val)) := rfl

/-- A load that overlaps no entry goes to the Cistern. -/
theorem nldSlot_reads {s : State} {t : Fin 16} {p : Prog} (h : SlotReady s t 1 p) (hop : slOp (wrenOf s t).move = 1)
    (hguard : guardOf (bundleP s t) (wrenOf s t).move = true) (hover : (wrenOf s t).overlaps (narrowLoad s t p) = []) :
    let l := narrowLoad s t p
    ∃ s', exec (.nld t) s = .next s' ∧
      (wrenOf s' t).rest = { (wrenOf s t).rest with loads := (wrenOf s t).loads ++ [l] } ∧
      SameX (wrenOf s t) (wrenOf s' t) ∧ (wrenOf s' t).p = (wrenOf s t).p ∧
      SlotBook (wrenOf s t) (wrenOf s' t) 1 (wrenOf s t).target ∧
      OnlyWren t (s.withRequests (s.nextId + 1) (s.cis.reqs ++ [wrenAccess s t p l.addr (.readNarrow l.size)])) s' := by
  obtain ⟨hwren, honly⟩ := moveSlot_issues h hop hguard (fun _ hu hwren => nldAct_read hu hwren hop hover)
  obtain ⟨hrest, hx, hp, hbook⟩ := slotIssued_actsOnRest (g := fun w => { w with loads := w.loads ++ [narrowLoad s t p] })
    (fun _ => ⟨rfl, ⟨rfl, rfl⟩, rfl, rfl, rfl⟩) (wrenOf s t) 1
  refine ⟨_, exec_nld t s, ?_⟩
  rw [show opNLD = 1 from rfl, hwren]
  exact ⟨hrest, hx, hp, hbook, honly⟩

theorem narrowLoadIssues : NarrowLoadIssuesRule := by
  intro t s p h hop hguard l
  refine ⟨nldSlot_reads h hop hguard, fun e hlast hover hlow hhigh => ?_⟩
  obtain ⟨hwren, honly⟩ := moveSlot_issues h hop hguard
    (fun _ hu hwren => nldAct_forwarded hu hwren hop (forward_youngest hlast hover hlow hhigh))
  rw [Wren.loaded] at hwren
  obtain ⟨hx, hmark, hp, hrest, hbook⟩ := slotIssued_setX (wrenOf s t) 1 l.rd
    (if e.poison then 0 else loadValue l.size l.sx ((e.bytes.drop (l.addr - e.addr)).take l.size)) e.poison
  refine ⟨_, exec_nld t s, ?_⟩
  rw [show opNLD = 1 from rfl, hwren]
  exact ⟨hx, hmark, hrest, hp, hbook, honly⟩

theorem narrowStoreAndFillIssue : NarrowStoreAndFillIssueRule := by
  intro t s p h hguard
  constructor
  · intro hop bytes mark
    obtain ⟨hwren, honly⟩ := moveSlot_issues h hop hguard (fun _ hu hwren => nstAct_opened hu hwren hop)
    obtain ⟨hrest, hx, hp, hbook⟩ := slotIssued_actsOnRest
      (g := fun w => { w with stores := w.stores ++ [StoreEntry.mk s.nextId (narrowAddr s t p) bytes mark] })
      (fun _ => ⟨rfl, ⟨rfl, rfl⟩, rfl, rfl, rfl⟩) (wrenOf s t) 1
    refine ⟨_, exec_nst t s, ?_⟩
    rw [show opNST = 2 from rfl, hwren]
    exact ⟨hrest, hx, hp, hbook, honly⟩
  · intro hop n
    obtain ⟨hwren, honly⟩ := moveSlot_issues h hop hguard (fun _ hu hwren => ifillAct_opened hu hwren)
    obtain ⟨hrest, hx, hp, hbook⟩ := slotIssued_actsOnRest
      (g := fun w => { w with
        fills := w.fills ++
          (List.range n).map (fun i => FillLine.mk (s.nextId + i) (bits (wrenOf s t).move 20 10 + 16 * i))
        owner := some p.ctx })
      (fun _ => ⟨rfl, ⟨rfl, rfl⟩, rfl, rfl, rfl⟩) (wrenOf s t) 1
    refine ⟨_, exec_ifill t s, ?_⟩
    rw [show opIFILL = 7 from rfl, hwren]
    exact ⟨hrest, hx, hp, hbook, honly⟩

/-- Settles O4: in an opened bundle the three rows present their accesses as before it opened, or a load takes its entry's
bytes. -/
theorem narrowAccessesIssue : Obligations.NarrowAccessesIssue := ⟨narrowLoadIssues, narrowStoreAndFillIssue⟩

end Sys2Proof.Machine

end

section

namespace Sys2Proof.Machine

/-! ## A held load issues (R231) -/

/-- The die with the hold of tile `t`'s load lifted. -/
def State.unheld (s : State) (t : Fin 16) : State := s.setWren t.val (fun w => { w with held := none })

theorem wrenOf_unheld (s : State) (t : Fin 16) : wrenOf (s.unheld t) t = { wrenOf s t with held := none } :=
  wrenOf_setWren ..

theorem onlyWren_unheld (s : State) (t : Fin 16) : OnlyWren t s (s.unheld t) := onlyWren_setWren ..

theorem mayIssue_unheld (s : State) (t : Fin 16) : (s.unheld t).mayIssue t.val = s.mayIssue t.val := by
  simp only [State.mayIssue, show ((s.unheld t).tile t.val).wren = { wrenOf s t with held := none } from wrenOf_unheld s t]
  rfl

theorem bundleX_unheld (s : State) (t : Fin 16) : bundleX (s.unheld t) t = bundleX s t := by
  funext r
  rw [bundleX, wrenOf_unheld, bundleX]

theorem moveDesc_unheld (s : State) (t : Fin 16) : moveDesc (s.unheld t) t = moveDesc s t := by
  rw [moveDesc, bundleX_unheld, wrenOf_unheld]
  rfl

theorem narrowAddr_unheld (s : State) (t : Fin 16) (p : Prog) : narrowAddr (s.unheld t) t p = narrowAddr s t p := by
  rw [narrowAddr, moveDesc_unheld, wrenOf_unheld]
  rfl

theorem narrowLoad_unheld (s : State) (t : Fin 16) (p : Prog) : narrowLoad (s.unheld t) t p = narrowLoad s t p := by
  rw [narrowLoad, narrowAddr_unheld, moveDesc_unheld, wrenOf_unheld]
  rfl

theorem wrenAccess_unheld (s : State) (t : Fin 16) (p : Prog) (addr : Nat) (kind : AccessKind) :
    wrenAccess (s.unheld t) t p addr kind = wrenAccess s t p addr kind := by
  rw [wrenAccess, moveDesc_unheld]
  rfl

/-- A held load that no entry overlaps any longer issues as an NLD does without the hold. -/
theorem exec_heldLoadIssue {t : Fin 16} {s : State} {l : NarrowLoad} (hheld : (wrenOf s t).held = some l)
    (hmay : s.mayIssue t.val = true) (hkill : (wrenOf s t).kill = none) (hover : (wrenOf s t).overlaps l = [])
    (hfate : (s.unheld t).fate t.val = .issues) : exec (.heldLoadIssue t) s = exec (.nld t) (s.unheld t) := by
  refine congrArg Host.Outcome.next ?_
  simp only [wrenOf] at hheld hkill hover
  rw [State.unheld] at hfate
  simp [heldLoadIssue, hheld, hmay, hkill, hover, hfate, nldSlot, State.unheld]

theorem heldLoad_issues {s : State} {t : Fin 16} {p : Prog} {h : NarrowLoad} (hready : SlotReady (s.unheld t) t 1 p)
    (hissued : (wrenOf s t).issued = 0) (hheld : (wrenOf s t).held = some h) (hkill : (wrenOf s t).kill = none)
    (hover : (wrenOf s t).overlaps h = []) (hop : slOp (wrenOf s t).move = 1)
    (hguard : guardOf (wrenOf s t).p (wrenOf s t).move = true) (hnone : (wrenOf s t).overlaps (narrowLoad s t p) = []) :
    ∃ s', exec (.heldLoadIssue t) s = .next s' ∧
      (wrenOf s' t).rest = { (wrenOf s t).rest with held := none, loads := (wrenOf s t).loads ++ [narrowLoad s t p] } ∧
      SameX (wrenOf s t) (wrenOf s' t) ∧ (wrenOf s' t).p = (wrenOf s t).p ∧
      SlotBook (wrenOf s t) (wrenOf s' t) 1 (wrenOf s t).target ∧
      OnlyWren t (s.withRequests (s.nextId + 1) (s.cis.reqs ++
        [wrenAccess s t p (narrowAddr s t p) (.readNarrow (slSize (wrenOf s t).move))])) s' := by
  have hwren := wrenOf_unheld s t
  have ⟨_, _, _, hfirst⟩ := hready
  obtain ⟨hmay, -, hfate⟩ := hfirst (by rw [hwren]; exact hissued)
  have hpred : bundleP (s.unheld t) t = (wrenOf s t).p := by
    rw [bundleP, hwren]
    exact if_pos hissued
  obtain ⟨s', hexec, hrest, hx, hp, hbook, honly⟩ := nldSlot_reads hready (by rw [hwren]; exact hop)
    (by rw [hpred, hwren]; exact hguard) (by rw [narrowLoad_unheld, hwren]; exact hnone)
  rw [hwren] at hrest hx hp hbook
  rw [narrowLoad_unheld] at hrest honly
  rw [wrenAccess_unheld] at honly
  refine ⟨s', ?_, hrest, hx, hp, hbook, onlyWren_trans (onlyWren_withRequests (onlyWren_unheld s t) ..) honly⟩
  rw [exec_heldLoadIssue hheld (by rwa [mayIssue_unheld] at hmay) hkill hover hfate, hexec]

/-! ## Instruction lines land (R240) -/

/-- The die with the response of access `id` taken out of the network. -/
def State.responseTaken (s : State) (id : Nat) : State :=
  { s with cis := { s.cis with resps := s.cis.resps.filter (fun q => decide (q.id ≠ id)) } }

/-- A line of a fill in the buffer of a Wren, and its status for the program (R123, R240). -/
def Wren.lineLanded (w : Wren) (f : FillLine) (rest : List FillLine) (r : CisResp) : Wren :=
  { w.putLine f.dest r.data (fun k => wordStatus (r.marks.getD k false) (r.ue.getD k false)) with
    fills := rest, data := worstData w.data r.status }

theorem exec_ifillLineLand {t : Fin 16} {s : State} {f : FillLine} {rest : List FillLine} {r : CisResp}
    (hs : s.silent = false) (hfills : (wrenOf s t).fills = f :: rest) (hresp : s.resp f.id = some r) :
    exec (.ifillLineLand t) s = .next ((s.responseTaken f.id).setWren t.val (fun w => w.lineLanded f rest r)) := by
  refine congrArg Host.Outcome.next ?_
  rw [State.resp] at hresp
  rw [wrenOf] at hfills
  simp only [ifillLineLand, hfills, hresp, hs]
  rfl

theorem spGet_lineLanded_ibuf (w : Wren) (f : FillLine) (rest : List FillLine) (r : CisResp) (b : Nat) :
    spGet 0 (w.lineLanded f rest r).ibuf b =
      if f.dest ≤ b ∧ b < f.dest + 16 then BitVec.ofNat 128 (fieldAt r.data (16 * (b - f.dest)) 16)
      else spGet 0 w.ibuf b :=
  spGet_putLine_ibuf w f.dest r.data (fun k => wordStatus (r.marks.getD k false) (r.ue.getD k false)) b

theorem spGet_lineLanded_ibMark (w : Wren) (f : FillLine) (rest : List FillLine) (r : CisResp) (b : Nat) :
    spGet stOK (w.lineLanded f rest r).ibMark b =
      if f.dest ≤ b ∧ b < f.dest + 16 then
        wordStatus (r.marks.getD ((b - f.dest) / 2) false) (r.ue.getD ((b - f.dest) / 2) false)
      else spGet stOK w.ibMark b :=
  spGet_spSetRange

/-- Settles O7: a line lands by one range of bundles and of their marks, and a held load issues as an NLD without its hold. -/
theorem fillsLandAndHeldLoadsIssue : Obligations.FillsLandAndHeldLoadsIssue := by
  intro t s
  refine ⟨fun f rest r hs hfills hresp => ?_, fun p h => heldLoad_issues⟩
  refine ⟨_, exec_ifillLineLand hs hfills hresp, ?_⟩
  rw [wrenOf_setWren]
  exact ⟨spGet_lineLanded_ibuf (wrenOf s t) f rest r, spGet_lineLanded_ibMark (wrenOf s t) f rest r, rfl, onlyWren_setWren ..⟩

end Sys2Proof.Machine

end

section

namespace Sys2Proof.Machine

/-! ## Signals and waits (R236 to R239) -/

/-- The saturating sum of R236. -/
theorem toNat_satAdd32 (a b : Word) : (satAdd32 a b).toNat = min (a.toNat + b.toNat) 0xFFFFFFFF := by
  unfold satAdd32
  split
  · next h => rw [BitVec.toNat_add, Nat.mod_eq_of_lt h]; omega
  · next h =>
    change 0xFFFFFFFF = _
    omega

/-- A semaphore that takes a value, saturating, and the others. -/
theorem toNat_spGet_satAdd (m : Sparse Word) (k n : Nat) (v : Word) :
    (spGet 0 (spSet 0 m k (satAdd32 (spGet 0 m k) v)) n).toNat =
      if n = k then min ((spGet 0 m n).toNat + v.toNat) 0xFFFFFFFF else (spGet 0 m n).toNat := by
  rw [spGet_spSet]
  split
  · next h => rw [h, toNat_satAdd32]
  · rfl

/-- The die as the signal that tile `t` holds leaves. -/
def State.signalSent (s : State) (t : Fin 16) (g : HeldSignal) : State :=
  { s with
    nextId := s.nextId + 1
    pmh := { s.pmh with sigs := s.pmh.sigs ++ [{ id := s.nextId, source := t, tile := g.tile, sem := g.sem, value := g.value }] } }

theorem exec_signalLeave {s : State} {t : Fin 16} {g : HeldSignal} (h : BetweenBundles s t) (hsig : (wrenOf s t).sig = some g)
    (hdone : (s.tile t.val).writesDone = true) :
    exec (.signalLeave t) s = .next ((s.signalSent t g).setWren t.val (fun w => { w with sig := none })) := by
  obtain ⟨hs, hissued⟩ := h
  rw [wrenOf] at hsig hissued
  refine congrArg Host.Outcome.next ?_
  simp [signalLeave, hsig, hs, hissued, hdone, State.signalSent]

theorem exec_tileSemArrive {s : State} {t : Fin 16} {g : Signal} (hs : s.silent = false) (hg : s.signal g.id = some g)
    (ht : g.tile = some t) : exec (.tileSemArrive g.id) s =
      .next ((s.dropSignal g.id).setWren t.val (fun w => w.addSem g.sem g.value)) := by
  refine congrArg Host.Outcome.next ?_
  simp [tileSemArrive, hg, ht, hs]

theorem exec_dieSemArrive {s : State} {g : Signal} (hs : s.silent = false) (hg : s.signal g.id = some g)
    (ht : g.tile = none) : exec (.dieSemArrive g.id) s = .next ((s.dropSignal g.id).addSem g.sem g.value) := by
  refine congrArg Host.Outcome.next ?_
  simp [dieSemArrive, hg, ht, hs]

/-- A Wren whose wait has ended. -/
def Wren.waited (w : Wren) (x : TileWait) : Wren :=
  { w with wait := none, tsem := if x.take then spModify 0 w.tsem x.sem (fun v => v - x.value) else w.tsem }

theorem exec_tileWaitSatisfied {s : State} {t : Fin 16} {x : TileWait} (h : BetweenBundles s t)
    (hwait : (wrenOf s t).wait = some x) (hvalue : x.value.toNat ≤ (spGet 0 (wrenOf s t).tsem x.sem).toNat) :
    exec (.tileWaitSatisfied t) s = .next (s.setWren t.val (fun w => w.waited x)) := by
  obtain ⟨hs, hissued⟩ := h
  rw [wrenOf] at hwait hissued hvalue
  refine congrArg Host.Outcome.next ?_
  have hreached : decide ((spGet 0 (s.tile t.val).wren.tsem x.sem).toNat < x.value.toNat) = false :=
    decide_eq_false (Nat.not_lt.2 hvalue)
  simp only [tileWaitSatisfied, hwait, hs, hissued, hreached]
  rfl

/-- TTAKE subtracts VALUE, which the semaphore has reached; TWAIT leaves it. -/
theorem toNat_tsem_waited {w : Wren} {x : TileWait} (hvalue : x.value.toNat ≤ (spGet 0 w.tsem x.sem).toNat) (n : Nat) :
    (spGet 0 (w.waited x).tsem n).toNat =
      (spGet 0 w.tsem n).toNat - (if n = x.sem ∧ x.take = true then x.value.toNat else 0) := by
  unfold Wren.waited
  cases htake : x.take
  · simp
  · by_cases hn : n = x.sem
    · subst hn
      simp only [if_true, and_self, spGet_spModify_same]
      exact BitVec.toNat_sub_of_le (BitVec.le_def.2 hvalue)
    · simp [hn, spGet_spModify_other]

/-- Settles O6: each event is one update of the Wren or of the Pumphouse, and the sums saturate as the words do. -/
theorem tileSignalsTravel : Obligations.TileSignalsTravel := by
  intro t s
  refine ⟨fun g h hsig hdone => ?_, fun g hs hg ht => ?_, fun g hs hg ht => ?_, fun x h hwait hvalue => ?_⟩
  · exact ⟨_, exec_signalLeave h hsig hdone, wrenOf_setWren .., onlyWren_setWren ..⟩
  · refine ⟨_, exec_tileSemArrive hs hg ht, ?_⟩
    rw [wrenOf_setWren]
    exact ⟨fun n => toNat_spGet_satAdd (wrenOf s t).tsem g.sem n g.value, rfl, onlyWren_setWren ..⟩
  · exact ⟨_, exec_dieSemArrive hs hg ht, fun n => toNat_spGet_satAdd s.pmh.sem g.sem n g.value, rfl⟩
  · refine ⟨_, exec_tileWaitSatisfied h hwait hvalue, ?_⟩
    rw [wrenOf_setWren]
    exact ⟨toNat_tsem_waited hvalue, rfl, onlyWren_setWren ..⟩

end Sys2Proof.Machine

end

section

namespace Sys2Proof.Machine

/-! ## Every row that issues a slot (R225) -/

/-- The row issues slot `k` of tile `t` at every word that `names` takes. -/
def IssuesSlot (t : Fin 16) (i : Instr) (k : Nat) (names : Nat → Bool) : Prop :=
  ∃ row act, (∀ w, names w = true → row w = true) ∧ ∀ s, exec i s = .next (s.issueSlot t.val k row act)

theorem issuesSlot_of_exec {t : Fin 16} {i : Instr} {k : Nat} {row : Nat → Bool} {act : State → Prog → State}
    (h : ∀ s, exec i s = .next (s.issueSlot t.val k row act)) : IssuesSlot t i k row := ⟨row, act, fun _ hw => hw, h⟩

/-- A row without an effect takes the reserved operations of its slot too. -/
theorem issuesSlot_orReserved {t : Fin 16} {i : Instr} {k : Nat} {names reserved : Nat → Bool} {act : State → Prog → State}
    (h : ∀ s, exec i s = .next (s.issueSlot t.val k (fun w => names w || reserved w) act)) : IssuesSlot t i k names :=
  ⟨_, act, fun _ hw => Bool.or_eq_true_iff.2 (.inl hw), h⟩

theorem issuesSlot_vectorSlot {t : Fin 16} {i : Instr} {op : Nat} {f : Nat → Vec → Res Vec}
    (h : ∀ s, exec i s = .next (s.vectorSlot t.val op f)) : IssuesSlot t i 3 (fun w => decide (vsOp w = op)) :=
  issuesSlot_of_exec h

section

variable {t : Fin 16}

theorem issuesSlot_floatRow {r : LaneRow} (hr : r ∈ floatRows t) :
    IssuesSlot t r.row 3 (fun w => decide (vsOp w = r.op)) := by
  simp only [floatRows, List.mem_cons, List.not_mem_nil, or_false] at hr
  obtain rfl | rfl | rfl | rfl | rfl | rfl | rfl | rfl | rfl | rfl | rfl | rfl := hr <;>
    exact issuesSlot_vectorSlot (fun _ => rfl)

theorem issuesSlot_wordRow {r : LaneRow} (hr : r ∈ wordRows t) :
    IssuesSlot t r.row 3 (fun w => decide (vsOp w = r.op)) := by
  simp only [wordRows, List.mem_cons, List.not_mem_nil, or_false] at hr
  obtain rfl | rfl | rfl | rfl | rfl | rfl | rfl | rfl | rfl | rfl | rfl | rfl | rfl | rfl := hr
  on_goal 12 => exact issuesSlot_of_exec (exec_vsplat t)
  all_goals exact issuesSlot_vectorSlot (fun _ => rfl)

theorem issuesSlot_semaphoreRow {r : Instr × Nat × (Nat → Wren → Wren)} (hr : r ∈ semaphoreRows t) :
    IssuesSlot t r.1 1 (fun w => decide (slOp w = r.2.1)) := by
  simp only [semaphoreRows, List.mem_cons, List.not_mem_nil, or_false] at hr
  obtain rfl | rfl | rfl | rfl | rfl := hr
  · exact issuesSlot_orReserved (fun _ => rfl)
  all_goals exact issuesSlot_of_exec (fun _ => rfl)

theorem issuesSlot_loadRow {r : Instr × Nat × (Nat → VLoadDest) × (Nat → Nat) × (Nat → Nat) × Bool × Nat}
    (hr : r ∈ loadRows t) : IssuesSlot t r.1 3 (fun w => decide (vsOp w = r.2.1)) := by
  simp only [loadRows, List.mem_cons, List.not_mem_nil, or_false] at hr
  obtain rfl | rfl | rfl := hr <;> exact issuesSlot_of_exec (fun _ => rfl)

theorem issuesSlot_slotRow {r : Instr × Nat × (Nat → Bool)} (hr : r ∈ slotRows t) : IssuesSlot t r.1 r.2.1 r.2.2 := by
  simp only [slotRows, List.mem_append, List.mem_map, List.mem_cons, List.not_mem_nil, or_false] at hr
  obtain (((((((((⟨q, hq, rfl⟩ | ⟨q, hq, rfl⟩) | rfl | rfl | rfl | rfl | rfl | rfl) | ⟨q, hq, rfl⟩) | rfl | ⟨q, hq, rfl⟩) |
    ⟨q, hq, rfl⟩) | ⟨q, hq, rfl⟩) | ⟨q, hq, rfl⟩) | ⟨q, hq, rfl⟩) | ⟨q, hq, rfl⟩) | rfl | rfl | rfl | rfl | rfl := hr
  -- scalar rows
  · exact issuesSlot_of_exec (exec_scalarRow hq)
  · exact issuesSlot_of_exec (exec_predicateRow hq)
  · exact issuesSlot_orReserved (exec_scalarNop t)
  · exact issuesSlot_of_exec (exec_br t)
  · exact issuesSlot_of_exec (exec_opEnd t)
  -- move rows
  · exact issuesSlot_of_exec (exec_nld t)
  · exact issuesSlot_of_exec (exec_nst t)
  · exact issuesSlot_of_exec (exec_ifill t)
  · exact issuesSlot_semaphoreRow hq
  -- tensor rows
  · exact issuesSlot_orReserved (exec_tnop t)
  · exact issuesSlot_of_exec (exec_tensorRow hq)
  -- vector rows
  · exact issuesSlot_floatRow hq
  · exact issuesSlot_wordRow hq
  · exact issuesSlot_vectorSlot (exec_maskRow hq)
  · exact issuesSlot_vectorSlot (exec_reduceRow hq)
  · exact issuesSlot_loadRow hq
  · exact issuesSlot_orReserved (exec_vnop t)
  · exact issuesSlot_vectorSlot (exec_vcvt t)
  · exact issuesSlot_vectorSlot (exec_vcomp t)
  · exact issuesSlot_of_exec (exec_vst t)
  · exact issuesSlot_of_exec (exec_mst t)

end

/-! ## The first slot of a bundle -/

theorem bit_zero (k : Nat) : bit 0 k = false := by simp [bit]

theorem prog_of_mayIssue {s : State} {t : Nat} (h : s.mayIssue t = true) : (s.tile t).wren.prog.isSome = true := by
  simp only [State.mayIssue, Bool.and_eq_true] at h
  obtain ⟨⟨⟨⟨⟨-, hprog⟩, -⟩, -⟩, -⟩, -⟩ := h
  exact hprog

/-- What the first slot of a bundle does, by the bundle's fate; `go` is what its issue leaves. -/
def State.byFate (s : State) (t : Nat) (go : State) : BundleFate → State
  | .waits => s
  | .halts f => s.halt t f.status f.order
  | .holdsLoad l => s.setWren t (fun w => { w with held := some l, heldAt := s.time.wave, loadHolds := w.loadHolds + 1 })
  | .issues => go

theorem issueSlot_first {s : State} {t : Fin 16} {k : Nat} {row : Nat → Bool} (hs : s.silent = false)
    (hrow : row (bits (wrenOf s t).bundle (32 * k) 32) = true) (hissued : (wrenOf s t).issued = 0)
    (hmay : s.mayIssue t.val = true) (hheld : (wrenOf s t).held = none) (act : State → Prog → State) :
    ∃ go, s.issueSlot t.val k row act = s.byFate t.val go (s.fate t.val) := by
  obtain ⟨p, hprog⟩ := Option.isSome_iff_exists.1 (prog_of_mayIssue hmay)
  refine ⟨(act (s.setWren t.val Wren.snap) p).setWren t.val (fun w => w.slotIssued k), ?_⟩
  simp only [wrenOf] at hrow hissued hheld
  cases hfate : s.fate t.val <;>
    simp [State.issueSlot, State.byFate, hs, hrow, hissued, bit_zero, hprog, hmay, hheld, hfate]

/-! ## Halts (R246) -/

/-- A Wren that has halted before its next bundle. -/
def Wren.haltedWith (w : Wren) (st : Half) (reason : Byte) : Wren :=
  { w with halted := true, haltStatus := st, haltPc := w.pc, haltReason := reason, held := none, wait := none, kill := none }

/-- A Wren whose semaphores all read 0xFFFF_FFFF. -/
def Wren.semsFull (w : Wren) : Wren := { w with tsem := spSetRange 0 w.tsem 0 64 (fun _ => 0xFFFFFFFF) }

theorem spGet_semsFull (w : Wren) {n : Nat} (hn : n < 64) : spGet 0 w.semsFull.tsem n = 0xFFFFFFFF := by
  rw [Wren.semsFull, spGet_spSetRange, if_pos (by omega)]

/-- A halt of program `p` fills the semaphores of tile `u`: the program has it and no other runs there. -/
def haltFills (p : Prog) (u : Nat) (w : Wren) : Bool :=
  bit p.tiles.toNat u && w.prog.all (fun q => decide (q.slot = p.slot))

/-- Fill the semaphores of tile `u` where the halt does. -/
def State.fillSems (p : Prog) (s : State) (u : Nat) : State :=
  if haltFills p u (s.tile u).wren then s.setWren u Wren.semsFull else s

theorem halt_eq {s : State} {t : Nat} {p : Prog} (h : (s.tile t).wren.prog = some p) (st : Half) (reason : Byte) :
    s.halt t st reason =
      (List.range 16).foldl (State.fillSems p) (s.setWren t (fun w => w.haltedWith st reason)) := by
  rw [State.halt, h]
  dsimp only
  congr 1
  funext s u
  rw [State.fillSems, haltFills]
  cases (s.tile u).wren.prog <;> rfl

section

variable (p : Prog) (s : State)

theorem tile_fillSems_same (u : Nat) : (State.fillSems p s u).tile u =
    if haltFills p u (s.tile u).wren then { s.tile u with wren := (s.tile u).wren.semsFull } else s.tile u := by
  rw [State.fillSems]
  split
  · exact State.tile_setTile_same ..
  · rfl

theorem tile_fillSems_other {u a : Nat} (h : u ≠ a) : (State.fillSems p s a).tile u = s.tile u := by
  rw [State.fillSems]
  split
  · exact State.tile_setWren_other _ _ _ _ h
  · rfl

/-- Filling the semaphores of tiles one after another changes nothing but tiles. -/
theorem foldl_fillSems_frame (l : List Nat) : { l.foldl (State.fillSems p) s with tiles := s.tiles } = s := by
  refine List.foldlRecOn (motive := fun u : State => { u with tiles := s.tiles } = s) l _ rfl (fun u hu a _ => ?_)
  rw [State.fillSems]
  split <;> exact hu

theorem tile_foldl_fillSems_other {u : Nat} {l : List Nat} (h : u ∉ l) : (l.foldl (State.fillSems p) s).tile u = s.tile u :=
  List.foldlRecOn (motive := fun v : State => v.tile u = s.tile u) l _ rfl
    (fun v hv a ha => (tile_fillSems_other p v (fun heq : u = a => h (heq.symm ▸ ha))).trans hv)

/-- The update of a Wren leaves every array and Vector Engine alone. -/
theorem setWren_engines (a : Nat) (f : Wren → Wren) (u : Nat) :
    ((s.setWren a f).tile u).arr = (s.tile u).arr ∧ ((s.setWren a f).tile u).vec = (s.tile u).vec := by
  by_cases h : u = a
  · subst h
    exact ⟨State.tile_setWren_arr .., State.tile_setWren_vec ..⟩
  · rw [State.tile_setWren_other _ _ _ _ h]
    exact ⟨rfl, rfl⟩

/-- Each of them is filled where the program runs on it, whatever the others hold. -/
theorem tile_foldl_fillSems {u : Nat} {l : List Nat} (hd : l.Nodup) (h : u ∈ l) : (l.foldl (State.fillSems p) s).tile u =
    if haltFills p u (s.tile u).wren then { s.tile u with wren := (s.tile u).wren.semsFull } else s.tile u := by
  induction l generalizing s with
  | nil => simp at h
  | cons a l ih =>
    obtain ⟨hnot, hd⟩ := List.nodup_cons.1 hd
    rw [List.foldl_cons]
    rcases List.mem_cons.1 h with rfl | h
    · rw [tile_foldl_fillSems_other p _ hnot, tile_fillSems_same]
    · have hne : u ≠ a := fun heq => hnot (heq ▸ h)
      rw [ih _ hd h, tile_fillSems_other p s hne]

end

section

variable {s : State} {t : Fin 16} {p : Prog} (hprog : (wrenOf s t).prog = some p) (st : Half) (reason : Byte)
include hprog

theorem halt_frame : { s.halt t.val st reason with tiles := s.tiles } = s := by
  rw [halt_eq hprog]
  exact (congrArg (fun u : State => { u with tiles := s.tiles }) (foldl_fillSems_frame p _ (List.range 16)) :)

/-- The tile that halts. -/
theorem wrenOf_halt_same : wrenOf (s.halt t.val st reason) t =
    if bit p.tiles.toNat t.val then ((wrenOf s t).haltedWith st reason).semsFull else (wrenOf s t).haltedWith st reason := by
  have hfills : haltFills p t.val ((wrenOf s t).haltedWith st reason) = bit p.tiles.toNat t.val := by
    simp [haltFills, Wren.haltedWith, hprog]
  rw [halt_eq hprog, wrenOf, tile_foldl_fillSems p _ List.nodup_range (List.mem_range.2 t.isLt), State.tile_setWren_wren,
    show (s.tile t.val).wren = wrenOf s t from rfl, hfills]
  split
  · rfl
  · exact wrenOf_setWren ..

/-- Another tile. -/
theorem wrenOf_halt_other {u : Fin 16} (hu : u ≠ t) : wrenOf (s.halt t.val st reason) u =
    if haltFills p u.val (wrenOf s u) then (wrenOf s u).semsFull else wrenOf s u := by
  have hne : u.val ≠ t.val := fun h => hu (Fin.ext h)
  rw [halt_eq hprog, wrenOf, tile_foldl_fillSems p _ List.nodup_range (List.mem_range.2 u.isLt),
    State.tile_setWren_other _ _ _ _ hne, apply_ite Tile.wren]
  rfl

/-- Arrays and Vector Engines have no part in a halt. -/
theorem halt_engines (u : Nat) : ((s.halt t.val st reason).tile u).arr = (s.tile u).arr ∧
    ((s.halt t.val st reason).tile u).vec = (s.tile u).vec := by
  rw [halt_eq hprog]
  refine List.foldlRecOn (motive := fun v : State => (v.tile u).arr = (s.tile u).arr ∧ (v.tile u).vec = (s.tile u).vec)
    (List.range 16) _ (setWren_engines ..) (fun v hv a _ => ?_)
  rw [State.fillSems]
  split
  · obtain ⟨harr, hvec⟩ := setWren_engines v a Wren.semsFull u
    exact ⟨harr.trans hv.1, hvec.trans hv.2⟩
  · exact hv

/-- What a halt leaves in its tile and in the others, beside the semaphores. -/
theorem wrenOf_halt_frame : { wrenOf (s.halt t.val st reason) t with tsem := [] } =
      { (wrenOf s t).haltedWith st reason with tsem := [] } ∧
    ∀ u : Fin 16, u ≠ t → { wrenOf (s.halt t.val st reason) u with tsem := [] } = { wrenOf s u with tsem := [] } := by
  refine ⟨?_, fun u hu => ?_⟩
  · rw [wrenOf_halt_same hprog]
    split <;> rfl
  · rw [wrenOf_halt_other hprog st reason hu]
    split <;> rfl

/-- Every semaphore of a tile that runs the program reads 0xFFFF_FFFF. -/
theorem tsem_halt_same (hbit : bit p.tiles.toNat t.val = true) {n : Nat} (hn : n < 64) :
    spGet 0 (wrenOf (s.halt t.val st reason) t).tsem n = 0xFFFFFFFF := by
  rw [wrenOf_halt_same hprog, if_pos hbit]
  exact spGet_semsFull _ hn

theorem tsem_halt_other {u : Fin 16} (hu : u ≠ t) (hbit : bit p.tiles.toNat u.val = true)
    (hruns : ∀ q, (wrenOf s u).prog = some q → q.slot = p.slot) {n : Nat} (hn : n < 64) :
    spGet 0 (wrenOf (s.halt t.val st reason) u).tsem n = 0xFFFFFFFF := by
  have hfills : haltFills p u.val (wrenOf s u) = true := by
    simpa [haltFills, hbit, Option.all_eq_true] using hruns
  rw [wrenOf_halt_other hprog st reason hu, if_pos hfills]
  exact spGet_semsFull _ hn

end

/-- Settles O16: the first slot does what its bundle's fate says, and a halt is one update of its tile followed by one of the
semaphores of each tile that runs the program. -/
theorem bundlesHaltOrWait : Obligations.BundlesHaltOrWait := by
  intro t s r hr hnames hs hissued hmay hheld
  obtain ⟨row, act, hrow, hexec⟩ := issuesSlot_slotRow hr
  obtain ⟨go, hfirst⟩ := issueSlot_first hs (hrow _ hnames) hissued hmay hheld act
  refine ⟨fun f p hfate hprog => ⟨s.halt t.val f.status f.order, ?_, ?_⟩, fun hfate => ?_, fun l hfate => ?_⟩
  · rw [hexec, hfirst, hfate, State.byFate]
  · obtain ⟨hsame, hother⟩ := wrenOf_halt_frame hprog f.status f.order
    exact ⟨(congrArg (fun w : Wren => (w.halted, w.haltStatus, w.haltPc, w.haltReason)) hsame :),
      fun hbit n hn => tsem_halt_same hprog f.status f.order hbit hn,
      fun u hu => ⟨hother u hu, fun hbit hruns n hn => tsem_halt_other hprog f.status f.order hu hbit hruns hn⟩,
      halt_engines hprog f.status f.order, ⟨(congrArg Wren.x hsame :), (congrArg Wren.xMark hsame :)⟩,
      (congrArg Wren.p hsame :), (congrArg Wren.pc hsame :), halt_frame hprog f.status f.order⟩
  · rw [hexec, hfirst, hfate, State.byFate]
  · refine ⟨_, hexec s, ?_⟩
    rw [hfirst, hfate, State.byFate]
    exact ⟨wrenOf_setWren .., onlyWren_setWren ..⟩

end Sys2Proof.Machine

end

section

namespace Sys2Proof.Machine

/-! ## The slots that hold commands (R273) -/

/-- The commands that a map of slots lists, with their slots: `State.flying` reads the Pumphouse's. -/
def commandsIn (m : Sparse (Option Cmd)) : List (Nat × Cmd) := m.filterMap (fun e => e.2.map (fun c => (e.1, c)))

theorem flying_eq (s : State) : s.flying = commandsIn s.pmh.cmds := rfl

theorem commandsIn_cons (j : Nat) (x : Option Cmd) (m : Sparse (Option Cmd)) :
    commandsIn ((j, x) :: m) = (x.map (fun c => (j, c))).toList ++ commandsIn m := by
  cases x <;> rfl

/-- A command that takes a free slot joins those in flight. -/
theorem commandsIn_spIns {m : Sparse (Option Cmd)} {k : Nat} (c : Cmd) (h : spGet none m k = none) :
    (commandsIn (spIns m k (some c))).Perm ((k, c) :: commandsIn m) := by
  induction m with
  | nil => exact .refl _
  | cons e m ih =>
    obtain ⟨j, x⟩ := e
    rw [spGet_cons] at h
    rw [spIns]
    by_cases hlt : k < j
    · rw [if_pos hlt, commandsIn_cons]
      exact .refl _
    · rw [if_neg hlt]
      by_cases hk : k = j
      · rw [if_pos hk] at h
        rw [if_pos hk, commandsIn_cons, commandsIn_cons, h]
        exact .refl _
      · rw [if_neg hk] at h
        rw [if_neg hk, commandsIn_cons, commandsIn_cons]
        exact ((ih h).append_left _).trans List.perm_middle

theorem flying_setCmd_free {s : State} {k : Nat} (c : Cmd) (h : s.cmd k = none) :
    (s.setCmd k (some c)).flying.Perm ((k, c) :: s.flying) := by
  have hset : spSet none s.pmh.cmds k (some c) = spIns s.pmh.cmds k (some c) := if_neg (Option.some_ne_none c)
  have hperm := commandsIn_spIns c h
  rw [← hset] at hperm
  exact hperm

/-- As a packet dispatches, it alone joins the commands in flight. -/
theorem flying_atDispatch {s : State} {q k : Nat} {p : Pkt} {rest : List Pkt} (h : DispatchReady s q k p rest) :
    (atDispatch s q k p).flying.Perm ((k, mkCmd (.queue q) p s.pmh.serial s.time.wave) :: s.flying) :=
  flying_setCmd_free _ (freeSlot_none h.slot)

theorem mem_flying_atDispatch {s : State} {q k : Nat} {p : Pkt} {rest : List Pkt} (h : DispatchReady s q k p rest)
    {e : Nat × Cmd} : e ∈ (atDispatch s q k p).flying ↔ e = (k, mkCmd (.queue q) p s.pmh.serial s.time.wave) ∨ e ∈ s.flying :=
  (flying_atDispatch h).mem_iff.trans List.mem_cons

/-! ## What a dispatching packet leaves to its opcode -/

section

variable {s u : State} {q k : Nat} {p : Pkt} {rest : List Pkt}

/-- A row of the Pumphouse whose packet is ready is what its opcode does. -/
theorem exec_dispatch {i : Instr} {row : Pkt → Bool} {act : State → Nat → Pkt → DispOut}
    (hi : exec i s = .next (s.dispatch q row act)) (h : DispatchReady s q k p rest) (hrow : row p = true) :
    exec i s = .next ((act (atDispatch s q k p) k p).apply s k) := by
  rw [hi, dispatch_ready h hrow]

theorem booked_atDispatch (h : DispatchReady s q k p rest) :
    Booked s (atDispatch s q k p) q k (dispatched (s.queue q) k p rest) (some (entryOf s q p .ended)) [] where
  queue := atDispatch_queue h.head
  queues _ hr := atDispatch_queue_other s q k p hr
  cmd := atDispatch_cmd s q k p
  cmds _ hn := atDispatch_cmd_other s q k p hn
  compl := (List.append_nil _).symm
  serial := rfl

/-- The end of a queue's command touches the Pumphouse's commands and completions alone. -/
theorem finish_queue_eq {c : Cmd} (hc : u.cmd k = some c) (hq : c.origin = .queue q) (st : Half) (reason : Byte) (fl : BitVec 4)
    (data : List Byte) : ∃ cmds compl,
    u.finish k st reason fl data = { u with pmh := { u.pmh with cmds := cmds, compl := compl } } := by
  unfold State.finish State.finishLate
  simp only [hc, hq]
  exact ⟨_, _, rfl⟩

theorem onlyPumphouse_finish (h : OnlyPumphouse s u) {c : Cmd} (hc : u.cmd k = some c) (hq : c.origin = .queue q) (st : Half)
    (reason : Byte) (fl : BitVec 4) (data : List Byte) : OnlyPumphouse s (u.finish k st reason fl data) := by
  obtain ⟨cmds, compl, heq⟩ := finish_queue_eq hc hq st reason fl data
  rw [heq]
  exact h

/-- A packet that ends as its parameters fail changes the books alone. -/
theorem fails_books (h : DispatchReady s q k p rest) (st : Half) (reason : Byte) :
    OnlyPumphouse s ((DispOut.fin (atDispatch s q k p) st reason 0 []).apply s k) ∧
      SamePumphouse s ((DispOut.fin (atDispatch s q k p) st reason 0 []).apply s k) ∧
      Ended s ((DispOut.fin (atDispatch s q k p) st reason 0 []).apply s k) q k p rest st reason [] := by
  obtain ⟨hframe, hsame⟩ := finish_samePumphouse (booked_atDispatch h)
    ⟨atDispatch_frame s q k p, atDispatch_samePumphouse s q k p⟩ st reason []
  exact ⟨hframe, hsame, ended_of_fin h st reason []⟩

/-- So does one that goes on in flight. -/
theorem runs_books (h : DispatchReady s q k p rest) (j : Job) :
    OnlyPumphouse s ((DispOut.run (atDispatch s q k p) j).apply s k) ∧
      SamePumphouse s ((DispOut.run (atDispatch s q k p) j).apply s k) ∧
      InFlight s ((DispOut.run (atDispatch s q k p) j).apply s k) q k p rest j := by
  obtain ⟨hframe, hsame⟩ := run_apply_frame s q k p j
  exact ⟨hframe, hsame, inFlight_of_run h j⟩

theorem semOk_atDispatch (c n : Nat) : (atDispatch s q k p).semOk c n = s.semOk c n := rfl
theorem semOf_atDispatch (n : Nat) : (atDispatch s q k p).semOf n = s.semOf n := rfl

end

/-! ## The rows of the Pumphouse's own packets -/

theorem exec_nop (q : Fin 512) (s : State) :
    exec (.nop q) s = .next (s.dispatch q.val (fun p => decide (p.opcode = 0x00)) nopAct) := rfl
theorem exec_fence (q : Fin 512) (s : State) :
    exec (.fence q) s = .next (s.dispatch q.val (fun p => decide (p.opcode = 0x01)) fenceAct) := rfl
theorem exec_semWait (q : Fin 512) (s : State) : exec (.semWait q) s =
    .next (s.dispatch q.val (fun p => decide (p.opcode = 0x02) && decide (p.byte 9 ≠ 1)) semWaitAct) := rfl
theorem exec_semWaitTake (q : Fin 512) (s : State) : exec (.semWaitTake q) s =
    .next (s.dispatch q.val (fun p => decide (p.opcode = 0x02) && decide (p.byte 9 = 1)) semWaitAct) := rfl
theorem exec_semSignal (q : Fin 512) (s : State) : exec (.semSignal q) s =
    .next (s.dispatch q.val (fun p => decide (p.opcode = 0x03) && !bit (p.byte 9) 0) semSignalAct) := rfl
theorem exec_cond (q : Fin 512) (s : State) :
    exec (.cond q) s = .next (s.dispatch q.val (fun p => decide (p.opcode = 0x04)) (condAct q.val)) := rfl
theorem exec_copy (q : Fin 512) (s : State) : exec (.copy q) s = .next (s.dispatch q.val copyRow copyAct) := rfl
theorem exec_fill (q : Fin 512) (s : State) :
    exec (.fill q) s = .next (s.dispatch q.val (fun p => decide (p.opcode = 0x09)) fillAct) := rfl

/-! ## Parameters that fail (R264, R269) -/

section

variable {s : State} {p : Pkt}

theorem semWaitAct_outside (k : Nat) (h : s.semOk p.ctx (p.byte 8) = false) : semWaitAct s k p = .fail s stPermission := by
  simp [semWaitAct, h]

theorem semWaitAct_reserved (k : Nat) (h : s.semOk p.ctx (p.byte 8) = true) (hmode : 1 < p.byte 9) :
    semWaitAct s k p = .fail s stBounds := by
  simp [semWaitAct, h, hmode]

theorem semWaitAct_waits (k : Nat) (h : s.semOk p.ctx (p.byte 8) = true) (hmode : p.byte 9 ≤ 1) :
    semWaitAct s k p = .run s (.semWait (p.byte 8) (decide (p.byte 9 = 1)) (wordAt p.bytes 12)) := by
  simp [semWaitAct, h, Nat.not_lt.2 hmode]

theorem semSignalAct_outside (k : Nat) (h : s.semOk p.ctx (p.byte 8) = false) :
    semSignalAct s k p = .fail s stPermission := by
  simp [semSignalAct, h]

theorem semSignalAct_adds (k : Nat) (h : s.semOk p.ctx (p.byte 8) = true) : semSignalAct s k p =
    .ok (s.addSem (p.byte 8) (wordAt p.bytes 12))
      (leBytes 4 ((s.addSem (p.byte 8) (wordAt p.bytes 12)).semOf (p.byte 8)).toNat) := by
  simp [semSignalAct, h]

theorem condAct_outside (q k : Nat) (h : s.semOk p.ctx (p.byte 8) = false) : condAct q s k p = .fail s stPermission := by
  simp [condAct, h]

theorem condAct_reserved (q k : Nat) (h : s.semOk p.ctx (p.byte 8) = true) (htest : 3 < p.byte 9) :
    condAct q s k p = .fail s stBounds := by
  simp [condAct, h, htest]

theorem fenceAct_reserved (k : Nat) (h : 1 < p.byte 8) : fenceAct s k p = .fail s stBounds := if_pos h

theorem lengthFault_eq_true {len : Nat} : lengthFault len = true ↔ len = 0 ∨ len % 256 ≠ 0 ∨ 2 ^ 30 < len := by
  simp [lengthFault, or_assoc]

theorem lengthFault_eq_false {len : Nat} : lengthFault len = false ↔ 0 < len ∧ len % 256 = 0 ∧ len ≤ 2 ^ 30 := by
  rw [← Bool.not_eq_true, lengthFault_eq_true]
  omega

theorem fillAct_unaligned (k : Nat) (h : p.u64 16 % 256 ≠ 0) : fillAct s k p = .fail s stAlign := by
  simp [fillAct, h]

theorem fillAct_badLength (k : Nat) (h : p.u64 16 % 256 = 0) (hlen : lengthFault (p.u64 24) = true) :
    fillAct s k p = .fail s stBounds := by
  simp [fillAct, h, hlen]

theorem fillAct_unchecked (k : Nat) {f : CheckFail} (h : p.u64 16 % 256 = 0) (hlen : lengthFault (p.u64 24) = false)
    (hf : s.checkRange p.ctx (p.handle 10) .ww (p.u64 16) (p.u64 24) = some f) : fillAct s k p = .failCheck s f := by
  simp [fillAct, h, hlen, hf]

end

theorem checkRange_atDispatch (s : State) (q k : Nat) (p : Pkt) (c hd : Nat) (perm : Perm) (off size : Nat) :
    (atDispatch s q k p).checkRange c hd perm off size = s.checkRange c hd perm off size :=
  check_of_onlyPumphouse (atDispatch_frame s q k p) ..

/-- A row that fails its packet with this status and REASON leaves the books that a failure leaves. -/
theorem fails_of_act {s : State} {q k : Nat} {p : Pkt} {rest : List Pkt} {i : Instr} {row : Pkt → Bool}
    {act : State → Nat → Pkt → DispOut} (hi : exec i s = .next (s.dispatch q row act)) (h : DispatchReady s q k p rest)
    (hrow : row p = true) {st : Half} {reason : Byte}
    (hact : act (atDispatch s q k p) k p = .fin (atDispatch s q k p) st reason 0 []) :
    ∃ s', exec i s = .next s' ∧ OnlyPumphouse s s' ∧ SamePumphouse s s' ∧ Ended s s' q k p rest st reason [] :=
  ⟨_, (exec_dispatch hi h hrow).trans (by rw [hact]), fails_books h st reason⟩

/-- Settles O31: each failing parameter is one branch of its opcode's action, and a failure is the books of its end. -/
theorem failingParametersChangeNothing : Obligations.FailingParametersChangeNothing := by
  intro q k p rest s h fails
  refine ⟨fun hout => ⟨fun hop hmode => ?_, fun hop hmode => ?_, fun hop hremote => ?_, fun hop => ?_⟩,
    fun hin => ⟨fun hop hmode => ?_, fun hop htest => ?_⟩, fun hop hscope => ?_,
    fun hop => ⟨fun hoff => ?_, fun hoff hlen => ?_, fun f hoff hpos hlen hmax hf => ?_⟩⟩
  · exact fails_of_act (exec_semWait q s) h (by simp [hop, hmode]) (semWaitAct_outside k hout)
  · exact fails_of_act (exec_semWaitTake q s) h (by simp [hop, hmode]) (semWaitAct_outside k hout)
  · exact fails_of_act (exec_semSignal q s) h (by simp [hop, hremote]) (semSignalAct_outside k hout)
  · exact fails_of_act (exec_cond q s) h (by simp [hop]) (condAct_outside q.val k hout)
  · exact fails_of_act (exec_semWait q s) h (by simp [hop, Nat.ne_of_gt hmode]) (semWaitAct_reserved k hin hmode)
  · exact fails_of_act (exec_cond q s) h (by simp [hop]) (condAct_reserved q.val k hin htest)
  · exact fails_of_act (exec_fence q s) h (by simp [hop]) (fenceAct_reserved k hscope)
  · exact fails_of_act (exec_fill q s) h (by simp [hop]) (fillAct_unaligned k hoff)
  · exact fails_of_act (exec_fill q s) h (by simp [hop]) (fillAct_badLength k hoff (lengthFault_eq_true.2 hlen))
  · exact fails_of_act (exec_fill q s) h (by simp [hop]) (fillAct_unchecked k hoff
      (lengthFault_eq_false.2 ⟨Nat.pos_of_ne_zero hpos, hlen, hmax⟩) ((checkRange_atDispatch ..).trans hf))

/-! ## NOP, FENCE, SEM_WAIT, SEM_SIGNAL and COND (R263, R266, R267) -/

section

variable {s : State} {q k : Nat} {p : Pkt} {rest : List Pkt}

/-- A NOP that asks for no notice leaves its slot free again (R263). -/
theorem nop_silent (h : DispatchReady s q k p rest) :
    OnlyPumphouse s ((atDispatch s q k p).setCmd k none) ∧ SamePumphouse s ((atDispatch s q k p).setCmd k none) ∧
      Booked s ((atDispatch s q k p).setCmd k none) q k (dispatched (s.queue q) k p rest) none [] := by
  have hbooked := booked_atDispatch h
  exact ⟨onlyPumphouse_setCmd (atDispatch_frame s q k p) .., samePumphouse_setCmd (atDispatch_samePumphouse s q k p) .., {
    queue := hbooked.queue
    queues := hbooked.queues
    cmd := State.cmd_setCmd_same ..
    cmds := fun j hj => (State.cmd_setCmd_other _ _ _ _ hj).trans (hbooked.cmds j hj)
    compl := hbooked.compl
    serial := hbooked.serial }⟩

theorem nopAct_silent (u : State) (k : Nat) (hn : p.notify = false) : (nopAct u k p).apply s k = u.setCmd k none := by
  simp [nopAct, hn, DispOut.apply, State.setJob]

theorem nopAct_notified (u : State) (k : Nat) (hn : p.notify = true) : nopAct u k p = .ok u [] := if_pos hn

/-- The state as a FENCE dispatches shows it an earlier command of its scope, or none (R263). -/
theorem fenceWaits_atDispatch (h : DispatchReady s q k p rest) :
    (atDispatch s q k p).fenceWaits k (decide (p.byte 8 = 1)) = true ↔ fenceAwaits s q k p := by
  have hwaits : (atDispatch s q k p).fenceWaits k (decide (p.byte 8 = 1)) = true ↔
      ∃ e ∈ (atDispatch s q k p).flying, e.1 ≠ k ∧ e.2.serial < s.pmh.serial ∧
        (if p.byte 8 = 1 then e.2.ctx = p.ctx else e.2.origin = .queue q) := by
    rw [State.fenceWaits, atDispatch_cmd]
    dsimp only [mkCmd]
    by_cases hscope : p.byte 8 = 1 <;> simp [hscope, and_assoc]
  rw [hwaits, fenceAwaits]
  constructor
  · rintro ⟨e, he, hk, hrest⟩
    rcases (mem_flying_atDispatch h).1 he with rfl | he
    · exact absurd rfl hk
    · exact ⟨e, he, hk, hrest⟩
  · rintro ⟨e, he, hrest⟩
    exact ⟨e, (mem_flying_atDispatch h).2 (.inr he), hrest⟩

theorem fenceAct_waits (u : State) (hscope : p.byte 8 ≤ 1) (hw : u.fenceWaits k (decide (p.byte 8 = 1)) = true) :
    fenceAct u k p = .run u (.fence (decide (p.byte 8 = 1))) := by
  rw [fenceAct, if_neg (Nat.not_lt.2 hscope)]
  exact if_pos hw

theorem fenceAct_passes (u : State) (hscope : p.byte 8 ≤ 1) (hw : ¬ u.fenceWaits k (decide (p.byte 8 = 1)) = true) :
    fenceAct u k p = .ok u [] := by
  rw [fenceAct, if_neg (Nat.not_lt.2 hscope)]
  exact if_neg hw

/-- A semaphore belongs to no book of a dispatch. -/
theorem booked_setSem {u : State} {x : Queue} {c : Option Cmd} {done : List Compl} (h : Booked s u q k x c done) (n : Nat)
    (v : Word) : Booked s (u.setSem n v) q k x c done :=
  ⟨h.queue, h.queues, h.cmd, h.cmds, h.compl, h.serial⟩

theorem onlyPumphouse_addSem {u : State} (h : OnlyPumphouse s u) (n : Nat) (v : Word) : OnlyPumphouse s (u.addSem n v) := h

theorem toNat_semOf_addSem (u : State) (n m : Nat) (v : Word) : ((u.addSem n v).semOf m).toNat =
    if m = n then min ((u.semOf n).toNat + v.toNat) (2 ^ 32 - 1) else (u.semOf m).toNat := by
  rw [State.addSem]
  split
  · rw [‹m = n›, State.semOf_setSem_same]
    exact toNat_satAdd32 ..
  · next h => rw [State.semOf_setSem_other _ _ _ _ h]

/-- A command that has moved a semaphore and ends: its books, and the semaphores as they stood when it ended. -/
theorem ends_signalled {u : State} {x : Queue} {j : Job} {done : List Compl}
    (h : Booked s u q k x (some (entryOf s q p j)) done)
    (hsame : SamePumphouse s { u with pmh := { u.pmh with sem := s.pmh.sem } }) (st : Half) (data : List Byte) :
    Booked s (u.finish k st 0 0 data) q k x (some (entryOf s q p .ended)) (done ++ [complOf s q k p st 0 data]) ∧
      SamePumphouse s { u.finish k st 0 0 data with pmh := { (u.finish k st 0 0 data).pmh with sem := s.pmh.sem } } ∧
      ∀ n, (u.finish k st 0 0 data).semOf n = u.semOf n := by
  obtain ⟨cmds, compl, heq⟩ := finish_queue_eq h.cmd rfl st 0 0 data
  exact ⟨booked_finish h st 0 data, by rw [heq]; exact hsame, fun n => by rw [heq]; rfl⟩

end

end Sys2Proof.Machine

end

section

namespace Sys2Proof.Machine

/-! ## COND (R267, R270, R280) -/

section

variable {s : State} {q k : Nat} {p : Pkt} {rest : List Pkt}

/-- No SEM_WAIT of a lower queue on the semaphore is satisfied (R270). -/
theorem earlierWait_eq_false {q sem : Nat} : s.earlierWait q sem = false ↔
    ∀ e ∈ s.flying, ∀ t thr, e.2.job = .semWait sem t thr → thr.toNat ≤ (s.semOf sem).toNat → q ≤ e.2.origin.queueNo := by
  rw [State.earlierWait, List.any_eq_false]
  refine forall₂_congr fun e _ => ?_
  cases e.2.job with
  | semWait n t thr =>
    constructor
    · intro h t' thr' heq hthr
      obtain ⟨rfl, rfl, rfl⟩ := Job.semWait.inj heq
      simpa [hthr] using h
    · intro h hwait
      simp only [Bool.and_eq_true, decide_eq_true_eq] at hwait
      obtain ⟨⟨rfl, hthr⟩, hlt⟩ := hwait
      exact absurd (h t thr rfl hthr) (Nat.not_le.2 hlt)
  | _ => simp

/-- A packet that dispatches waits for no semaphore yet. -/
theorem earlierWait_atDispatch (h : DispatchReady s q k p rest) (r sem : Nat) :
    (atDispatch s q k p).earlierWait r sem = s.earlierWait r sem := by
  rw [State.earlierWait, (flying_atDispatch h).any_eq, List.any_cons]
  exact Bool.false_or _

theorem condTest_eq (test : Nat) (a b : Word) (h : test ≤ 3) : condTest test a b = condOutcome test a b := by
  match test, h with
  | 0, _ => rfl
  | 1, _ => rfl
  | 2, _ => rfl
  | 3, _ => rfl

theorem toNat_stepPred (g : BitVec 2) (out : Bool) :
    (stepPred g out).toNat = if out then min 3 (g.toNat + 1) else g.toNat - 1 := by
  revert g out
  decide

/-- What a COND does once no wait goes before it. -/
def condSet (u : State) (q : Nat) (p : Pkt) : State :=
  u.setCond q (condTest (p.byte 9) (u.semOf (p.byte 8)) (wordAt p.bytes 12))

theorem condAct_waits {u : State} (q k : Nat) (htest : p.byte 9 ≤ 3) (hin : u.semOk p.ctx (p.byte 8) = true)
    (hw : u.earlierWait q (p.byte 8) = true) : condAct q u k p = .wait := by
  simp [condAct, hin, Nat.not_lt.2 htest, hw]

theorem condAct_sets {u : State} (q k : Nat) (htest : p.byte 9 ≤ 3) (hin : u.semOk p.ctx (p.byte 8) = true)
    (hw : u.earlierWait q (p.byte 8) = false) : condAct q u k p = .ok (condSet u q p) [] := by
  simp [condAct, hin, Nat.not_lt.2 htest, hw, condSet]

/-- The condition bit, the predictor and the count of wrong guesses are all that a COND sets. -/
theorem setCond_eq (u : State) (q : Nat) (out : Bool) : u.setCond q out =
    { u.setQueue q { u.queue q with
        cond := out
        pred := stepPred (u.queue q).pred out } with
      pmh := { u.pmh with
        laMispred := if decide (2 ≤ (u.queue q).pred.toNat) = out then u.pmh.laMispred else u.pmh.laMispred + 1 } } := by
  unfold State.setCond
  dsimp only
  split <;> rfl

theorem onlyPumphouse_setCond {u : State} (h : OnlyPumphouse s u) (q : Nat) (out : Bool) : OnlyPumphouse s (u.setCond q out) := by
  rw [setCond_eq]
  exact h

theorem samePumphouse_setCond {u : State} (h : SamePumphouse s u) (q : Nat) (out : Bool) :
    SamePumphouse s { u.setCond q out with pmh := { (u.setCond q out).pmh with laMispred := s.pmh.laMispred } } := by
  rw [setCond_eq]
  exact (congrArg (fun x : Pmh => { x with laMispred := s.pmh.laMispred }) h :)

theorem booked_setCond {u : State} {x : Queue} {c : Option Cmd} {done : List Compl} (h : Booked s u q k x c done) (out : Bool) :
    Booked s (u.setCond q out) q k { x with
      cond := out
      pred := stepPred x.pred out } c done := by
  rw [setCond_eq, h.queue]
  exact {
    queue := State.queue_setQueue_same ..
    queues := fun r hr => (State.queue_setQueue_other _ _ _ _ hr).trans (h.queues r hr)
    cmd := h.cmd
    cmds := h.cmds
    compl := h.compl
    serial := h.serial }

theorem laMispred_setCond (u : State) (q : Nat) (out : Bool) : (u.setCond q out).pmh.laMispred =
    if decide (2 ≤ (u.queue q).pred.toNat) = out then u.pmh.laMispred else u.pmh.laMispred + 1 := by
  rw [setCond_eq]

/-- A command that has counted a wrong guess and ends leaves that count, and the rest of the Pumphouse as it was. -/
theorem ends_guessed {u : State} {x : Queue} {j : Job} {done : List Compl}
    (h : Booked s u q k x (some (entryOf s q p j)) done)
    (hsame : SamePumphouse s { u with pmh := { u.pmh with laMispred := s.pmh.laMispred } }) (st : Half) (data : List Byte) :
    SamePumphouse s { u.finish k st 0 0 data with pmh := { (u.finish k st 0 0 data).pmh with laMispred := s.pmh.laMispred } } ∧
      (u.finish k st 0 0 data).pmh.laMispred = u.pmh.laMispred := by
  obtain ⟨cmds, compl, heq⟩ := finish_queue_eq h.cmd rfl st 0 0 data
  rw [heq]
  exact ⟨hsame, rfl⟩

/-- A COND sets its queue's condition bit and predictor, counts a wrong guess, and ends (R267, R280). -/
theorem cond_ends (h : DispatchReady s q k p rest) {out : Bool} {s' : State}
    (hs' : s' = ((atDispatch s q k p).setCond q out).finish k stOK 0 0 []) :
    OnlyPumphouse s s' ∧ SamePumphouse s { s' with pmh := { s'.pmh with laMispred := s.pmh.laMispred } } ∧
      s'.pmh.laMispred =
        (if decide (2 ≤ (s.queue q).pred.toNat) = out then s.pmh.laMispred else s.pmh.laMispred + 1) ∧
      Booked s s' q k { dispatched (s.queue q) k p rest with
          cond := out
          pred := stepPred (s.queue q).pred out } (some (entryOf s q p .ended)) [complOf s q k p stOK 0 []] := by
  subst hs'
  have hset := booked_setCond (booked_atDispatch h) out
  have hpred : ((atDispatch s q k p).queue q).pred = (s.queue q).pred :=
    (congrArg (fun x : Queue => x.pred) (booked_atDispatch h).queue :)
  obtain ⟨hsame, hmiss⟩ := ends_guessed hset (samePumphouse_setCond (atDispatch_samePumphouse s q k p) q out) stOK []
  refine ⟨onlyPumphouse_finish (onlyPumphouse_setCond (atDispatch_frame s q k p) q out) hset.cmd rfl .., hsame, ?_,
    booked_finish hset stOK 0 []⟩
  rw [hmiss, laMispred_setCond, hpred]
  rfl

/-- A SEM_SIGNAL moves its semaphore, gives the value it then has, and ends (R266). -/
theorem signal_ends (h : DispatchReady s q k p rest) (n : Nat) (v : Word) {s' : State} {w : Word}
    (hw : w = ((atDispatch s q k p).addSem n v).semOf n)
    (hs' : s' = ((atDispatch s q k p).addSem n v).finish k stOK 0 0 (leBytes 4 w.toNat)) :
    OnlyPumphouse s s' ∧ w.toNat = min ((s.semOf n).toNat + v.toNat) (2 ^ 32 - 1) ∧ s'.semOf n = w ∧
      (∀ m, m ≠ n → s'.semOf m = s.semOf m) ∧ SamePumphouse s { s' with pmh := { s'.pmh with sem := s.pmh.sem } } ∧
      Ended s s' q k p rest stOK 0 (leBytes 4 w.toNat) := by
  have hbooked := booked_setSem (booked_atDispatch h) n (satAdd32 ((atDispatch s q k p).semOf n) v)
  obtain ⟨hended, hsame, hsem⟩ := ends_signalled hbooked (atDispatch_samePumphouse s q k p) stOK (leBytes 4 w.toNat)
  have hadd := toNat_semOf_addSem (atDispatch s q k p) n
  subst hs'
  refine ⟨onlyPumphouse_finish (onlyPumphouse_addSem (atDispatch_frame s q k p) n v) hbooked.cmd rfl .., ?_,
    (hsem n).trans hw.symm, fun m hm => (hsem m).trans (BitVec.eq_of_toNat_eq ?_), hsame, hended⟩
  · rw [hw, hadd, if_pos rfl, semOf_atDispatch]
  · exact (hadd m v).trans (if_neg hm)

end

/-- Settles O24: each packet dispatches into the books of its end or of its flight, and what its opcode adds is one semaphore,
one queue's condition or nothing. -/
theorem controlPacketsAct : Obligations.ControlPacketsAct := by
  intro q k p rest s h value
  refine ⟨fun hop => ?_, fun hop hscope => ?_, fun hop hmode hin => ?_, fun hop hmode hin => ?_, fun hop hremote hin => ?_,
    fun hop htest hin => ?_⟩
  · have hexec := exec_dispatch (exec_nop q s) h (by simp [hop])
    cases hn : p.notify with
    | true =>
      obtain ⟨hframe, hsame, hended⟩ := fails_books h stOK 0
      rw [nopAct_notified _ _ hn] at hexec
      exact ⟨_, hexec, hframe, hsame, fun _ => hended, by simp⟩
    | false =>
      obtain ⟨hframe, hsame, hbooked⟩ := nop_silent h
      rw [nopAct_silent _ _ hn] at hexec
      exact ⟨_, hexec, hframe, hsame, by simp, fun _ => hbooked⟩
  · have hexec := exec_dispatch (exec_fence q s) h (by simp [hop])
    by_cases hw : (atDispatch s q.val k p).fenceWaits k (decide (p.byte 8 = 1)) = true
    · obtain ⟨hframe, hsame, hflight⟩ := runs_books h (.fence (decide (p.byte 8 = 1)))
      rw [fenceAct_waits _ hscope hw] at hexec
      exact ⟨_, hexec, hframe, hsame, fun _ => hflight, fun hno => absurd ((fenceWaits_atDispatch h).1 hw) hno⟩
    · obtain ⟨hframe, hsame, hended⟩ := fails_books h stOK 0
      rw [fenceAct_passes _ hscope hw] at hexec
      exact ⟨_, hexec, hframe, hsame, fun hyes => absurd ((fenceWaits_atDispatch h).2 hyes) hw, fun _ => hended⟩
  · obtain ⟨hframe, hsame, hflight⟩ := runs_books h (.semWait (p.byte 8) false value)
    have hexec := exec_dispatch (exec_semWait q s) h (by simp [hop, hmode])
    rw [semWaitAct_waits k (s := atDispatch s q.val k p) hin (by omega), decide_eq_false (by omega)] at hexec
    exact ⟨_, hexec, hframe, hsame, hflight⟩
  · obtain ⟨hframe, hsame, hflight⟩ := runs_books h (.semWait (p.byte 8) true value)
    have hexec := exec_dispatch (exec_semWaitTake q s) h (by simp [hop, hmode])
    rw [semWaitAct_waits k (s := atDispatch s q.val k p) hin (by omega), decide_eq_true hmode] at hexec
    exact ⟨_, hexec, hframe, hsame, hflight⟩
  · have hexec := exec_dispatch (exec_semSignal q s) h (by simp [hop, hremote])
    rw [semSignalAct_adds k (s := atDispatch s q.val k p) hin] at hexec
    obtain ⟨hframe, hvalue, hsem, hother, hsame, hended⟩ := signal_ends h (p.byte 8) value rfl rfl
    exact ⟨_, _, hexec, hframe, hvalue, hsem, hother, hsame, hended⟩
  · intro out x first
    have hexec := exec_dispatch (exec_cond q s) h (by simp [hop])
    have hfirst : s.earlierWait q.val (p.byte 8) = false ↔ first := earlierWait_eq_false
    have hwait := earlierWait_atDispatch h q.val (p.byte 8)
    refine ⟨fun hno => ?_, fun hyes => ?_⟩
    · rw [hexec, condAct_waits (u := atDispatch s q.val k p) _ _ htest hin (by rw [hwait, ← Bool.not_eq_false, hfirst]; exact hno)]
      rfl
    · rw [condAct_sets (u := atDispatch s q.val k p) _ _ htest hin (hwait.trans (hfirst.2 hyes)), condSet, condTest_eq _ _ _ htest] at hexec
      obtain ⟨hframe, hsame, hmiss, hbooked⟩ := cond_ends h (out := out) rfl
      have hends : exec (.cond q) s = .next (((atDispatch s q.val k p).setCond q.val out).finish k stOK 0 0 []) := hexec
      exact ⟨_, stepPred x.pred out, hends, hframe, hsame, toNat_stepPred x.pred out, hmiss, hbooked⟩

end Sys2Proof.Machine

end

section

namespace Sys2Proof.Machine

/-! ## Reading clean bytes of a handle (R93, R120) -/

theorem onlyGrants_refl (s : State) : OnlyGrants s s := ⟨sameBanks_refl s, rfl⟩

theorem onlyGrants_trans {a b c : State} (h : OnlyGrants a b) (g : OnlyGrants b c) : OnlyGrants a c := by
  obtain ⟨hbanks, hrest⟩ := h
  obtain ⟨gbanks, grest⟩ := g
  refine ⟨sameBanks_trans hbanks gbanks, ?_⟩
  rw [← grest] at hrest
  exact hrest

theorem onlyGrants_grantX (s : State) (a : Nat) : OnlyGrants s (s.grantX a) := by
  refine ⟨(grantX_accessed s a).1.1, ?_⟩
  simp only [State.grantX, State.setBank]

section

variable {s u : State} (h : OnlyGrants s u)
include h

theorem grantsAndTiles_of_onlyGrants : GrantsAndTiles s u := by
  refine ⟨sameBanks_setTiles h.1 _, ?_⟩
  exact (congrArg (fun x : State => { x with tiles := s.tiles }) h.2 :)

theorem sameMemory_of_onlyGrants : SameMemory s u :=
  ⟨(grantsAndTiles_of_onlyGrants h).mem, (grantsAndTiles_of_onlyGrants h).synd⟩

theorem cleanLines_of_onlyGrants {l : List Nat} (hc : CleanLines s l) : CleanLines u l :=
  (grantsAndTiles_of_onlyGrants h).cleanLines hc

theorem phys_of_onlyGrants (c hd o : Nat) : u.phys c hd o = s.phys c hd o := (grantsAndTiles_of_onlyGrants h).phys c hd o

theorem handleBytes_of_onlyGrants (c hd off len : Nat) : handleBytes u c hd off len = handleBytes s c hd off len := by
  unfold handleBytes
  simp only [phys_of_onlyGrants h, memByte_of_sameMemory (sameMemory_of_onlyGrants h)]

end

theorem handleBytes_append (s : State) (c h off m n : Nat) :
    handleBytes s c h off (m + n) = handleBytes s c h off m ++ handleBytes s c h (off + m) n := by
  simp [handleBytes, List.range_add, Nat.add_assoc]

theorem length_handleBytes (s : State) (c h off n : Nat) : (handleBytes s c h off n).length = n := by simp [handleBytes]

theorem byteAt_handleBytes (s : State) (c h off : Nat) {n i : Nat} (hi : i < n) :
    byteAt (handleBytes s c h off n) i = memByte s (s.phys c h (off + i)) := by
  simp [byteAt, handleBytes, hi]

theorem drop_take_handleBytes (s : State) (c h off : Nat) {d n len : Nat} (hl : d + n ≤ len) :
    ((handleBytes s c h off len).drop d).take n = handleBytes s c h (off + d) n := by
  obtain ⟨m, rfl⟩ := Nat.exists_eq_add_of_le hl
  rw [handleBytes_append, handleBytes_append, List.append_assoc,
    List.drop_left' (length_handleBytes ..), List.take_left' (length_handleBytes ..)]

/-- The lines of `n` lines from line offset `o` of a handle on. -/
def State.linesFrom (s : State) (c h o n : Nat) : List Nat := (List.range n).map (fun i => s.phys c h (o + 256 * i))

theorem linesFrom_succ (s : State) (c h o n : Nat) :
    s.linesFrom c h o (n + 1) = s.phys c h o :: s.linesFrom c h (o + 256) n := by
  rw [State.linesFrom, List.range_succ_eq_map, List.map_cons, List.map_map, State.linesFrom]
  refine congrArg _ (List.map_congr_left fun i _ => ?_)
  simp only [Function.comp, Nat.mul_succ]
  congr 1
  omega

theorem linesFrom_of_onlyGrants {s u : State} (h : OnlyGrants s u) (c hd o n : Nat) :
    u.linesFrom c hd o n = s.linesFrom c hd o n := by
  simp only [State.linesFrom, phys_of_onlyGrants h]

/-- Clean lines of a handle read as they stand, and the reads leave nothing but their grants. -/
theorem readLines_clean (c h n : Nat) : ∀ (s : State) (o : Nat), o % 256 = 0 → CleanLines s (s.linesFrom c h o n) →
    ∃ u, OnlyGrants s u ∧ s.readLines c h o n =
      { bytes := handleBytes s c h o (256 * n), marks := List.replicate (8 * n) false, status := stOK, state := u } := by
  induction n with
  | zero => exact fun s o _ _ => ⟨s, onlyGrants_refl s, rfl⟩
  | succ n ih =>
    intro s o ho hc
    rw [linesFrom_succ] at hc
    have hgrant := onlyGrants_grantX s (s.phys c h o)
    obtain ⟨u, hu, hrest⟩ := ih (s.grantX (s.phys c h o)) (o + 256) (by omega) (by
      rw [linesFrom_of_onlyGrants hgrant]
      exact cleanLines_of_onlyGrants hgrant (fun a ha => hc a (List.mem_cons_of_mem _ ha)))
    have hline := readLine_clean (s := s.grantX (s.phys c h o)) (s.unitInfo c h) (a := s.phys c h o) (translate_aligned _ ho)
      (cleanLines_of_onlyGrants hgrant hc _ List.mem_cons_self)
    have hbytes : (List.range 256).map (fun j => memByte (s.grantX (s.phys c h o)) (s.phys c h o + j)) = handleBytes s c h o 256 :=
      List.map_congr_left (fun j hj => congrArg (memByte s) (translate_add _ ho (List.mem_range.1 hj)).symm)
    refine ⟨u, onlyGrants_trans hgrant hu, ?_⟩
    have hok : worstData stOK stOK = stOK := by decide
    rw [State.readLines, hline, hbytes]
    simp only [hrest, handleBytes_of_onlyGrants hgrant, hok, List.replicate_append_replicate, ← handleBytes_append]
    rw [Nat.mul_succ, Nat.mul_succ, Nat.add_comm 256, Nat.add_comm 8]

/-- So do bytes of clean lines. -/
theorem readBytes_clean {s : State} {c h o n : Nat} (hc : CleanLines s (s.linesFrom c h (o / 256 * 256) (lineCount o n))) :
    ∃ u, OnlyGrants s u ∧ s.readBytes c h o n =
      { bytes := handleBytes s c h o n, marks := List.replicate (8 * lineCount o n) false, status := stOK, state := u } := by
  obtain ⟨u, hu, hlines⟩ := readLines_clean c h (lineCount o n) s (o / 256 * 256) (by omega) hc
  have hlen : n = 0 ∨ o % 256 + n ≤ 256 * lineCount o n := by
    unfold lineCount
    split <;> omega
  refine ⟨u, hu, ?_⟩
  unfold State.readBytes
  rw [hlines]
  dsimp only
  rcases hlen with rfl | hlen
  · simp [handleBytes]
  · rw [drop_take_handleBytes s c h _ hlen, show o / 256 * 256 + o % 256 = o by omega]

theorem lineCount_one {o n : Nat} (hn : n ≠ 0) (h : o % 256 + n ≤ 256) : lineCount o n = 1 := by
  rw [lineCount, if_neg hn]
  omega

theorem linesFrom_one (s : State) (c h o : Nat) : s.linesFrom c h o 1 = [s.phys c h o] := rfl

/-! ## Ring units (R250) -/

theorem unitOff_aligned (m : QMap) (k : Nat) : m.unitOff k % 64 = 0 := by
  rw [QMap.unitOff]
  omega

/-- A ring unit lies in one line. -/
theorem unitOff_mod (m : QMap) (k : Nat) : m.unitOff k % 256 ≤ 192 := by
  have := unitOff_aligned m k
  omega

section

variable {s : State} {m : QMap} {head : Word} {n : Nat}

theorem cleanUnits_first (h : CleanUnits s m head (n + 1)) :
    CleanLines s [s.phys m.ctx m.handle (m.unitOff head.toNat / 256 * 256)] := by
  simpa using h 0 (Nat.succ_pos n)

theorem add_ofNat_succ (w : Word) (i : Nat) : w + BitVec.ofNat 32 (i + 1) = w + 1 + BitVec.ofNat 32 i := by
  rw [BitVec.ofNat_add, BitVec.add_assoc, BitVec.add_comm (BitVec.ofNat 32 i)]
  rfl

theorem cleanUnits_rest (h : CleanUnits s m head (n + 1)) : CleanUnits s m (head + 1) n := fun i hi => by
  rw [← add_ofNat_succ]
  exact h (i + 1) (Nat.succ_lt_succ hi)

theorem ringBytes_succ : ringBytes s m head (n + 1) =
    handleBytes s m.ctx m.handle (m.unitOff head.toNat) 64 ++ ringBytes s m (head + 1) n := by
  have hzero : head + BitVec.ofNat 32 0 = head := BitVec.add_zero head
  rw [ringBytes, List.range_succ_eq_map, List.flatMap_cons, List.flatMap_map, ringBytes, hzero]
  exact congrArg _ (List.flatMap_congr fun i _ => by rw [Nat.succ_eq_add_one, add_ofNat_succ])

theorem cleanUnits_of_onlyGrants {u : State} (hu : OnlyGrants s u) (h : CleanUnits s m head n) : CleanUnits u m head n :=
  fun i hi => by
    rw [phys_of_onlyGrants hu]
    exact cleanLines_of_onlyGrants hu (h i hi)

theorem ringBytes_of_onlyGrants {u : State} (hu : OnlyGrants s u) : ringBytes u m head n = ringBytes s m head n := by
  simp only [ringBytes, handleBytes_of_onlyGrants hu]

/-- Clean units of a ring read as they stand. -/
theorem readUnits_clean (h : CleanUnits s m head n) :
    (s.readUnits m head n).bytes = ringBytes s m head n ∧ OnlyGrants s (s.readUnits m head n).state := by
  induction n generalizing s head with
  | zero => exact ⟨rfl, onlyGrants_refl s⟩
  | succ n ih =>
    have hmod := unitOff_mod m head.toNat
    have hline := lineCount_one (o := m.unitOff head.toNat) (n := 64) (by decide) (by omega)
    obtain ⟨u, hu, hread⟩ := readBytes_clean (s := s) (c := m.ctx) (h := m.handle) (o := m.unitOff head.toNat) (n := 64) (by
      rw [hline, linesFrom_one]
      exact cleanUnits_first h)
    obtain ⟨hbytes, hstate⟩ := ih (cleanUnits_of_onlyGrants hu (cleanUnits_rest h))
    unfold State.readUnits
    simp only [hread]
    exact ⟨by rw [hbytes, ringBytes_succ, ringBytes_of_onlyGrants hu], onlyGrants_trans hu hstate⟩

/-- A byte of a clean unit reads as the ring's bytes hold it. -/
theorem readNat_unit {i : Nat} (hi : i < 64) (h : CleanUnits s m head (n + 1)) :
    s.readNat m.ctx m.handle (m.unitOff head.toNat + i) 1 = (byteAt (ringBytes s m head (n + 1)) i).toNat := by
  have hmod := unitOff_mod m head.toNat
  have hline := lineCount_one (o := m.unitOff head.toNat + i) (n := 1) (by decide) (by omega)
  have hsame : (m.unitOff head.toNat + i) / 256 * 256 = m.unitOff head.toNat / 256 * 256 := by
    have := unitOff_aligned m head.toNat
    omega
  obtain ⟨u, -, hread⟩ := readBytes_clean (s := s) (c := m.ctx) (h := m.handle) (o := m.unitOff head.toNat + i) (n := 1) (by
    rw [hline, hsame, linesFrom_one]
    exact cleanUnits_first h)
  have hbyte : byteAt (ringBytes s m head (n + 1)) i = memByte s (s.phys m.ctx m.handle (m.unitOff head.toNat + i)) := by
    rw [ringBytes_succ, byteAt, List.getD_append _ _ _ _ (by rwa [length_handleBytes])]
    exact byteAt_handleBytes s m.ctx m.handle _ hi
  unfold State.readNat
  simp only [hread, hbyte]
  simp [handleBytes, leNat]

end

end Sys2Proof.Machine

end

section

namespace Sys2Proof.Machine

/-! ## Waiting FENCEs and SEM_WAITs end (R263, R266, R270) -/

section

variable {s : State} {k q : Nat} {c : Cmd}

theorem exec_fenceComplete (k : Fin 1024) (s : State) : exec (.fenceComplete k) s = .next (fenceComplete k.val s) := rfl
theorem exec_semWaitSatisfied (k : Fin 1024) (s : State) :
    exec (.semWaitSatisfied k) s = .next (semWaitSatisfied k.val s) := rfl
theorem exec_packetSkip (q : Fin 512) (s : State) : exec (.packetSkip q) s = .next (packetSkip q.val s) := rfl
theorem exec_lookaheadPrestage (q : Fin 512) (s : State) :
    exec (.lookaheadPrestage q) s = .next (lookaheadPrestage q.val s) := rfl

theorem fenceWaits_eq_false {scope : Bool} (hc : s.cmd k = some c) (h : ∀ e ∈ s.flying, e.1 ≠ k → e.2.serial < c.serial →
    if scope then e.2.ctx ≠ c.ctx else e.2.origin ≠ c.origin) : s.fenceWaits k scope = false := by
  rw [State.fenceWaits, hc]
  refine List.any_eq_false.2 fun e he hwait => ?_
  simp only [Bool.and_eq_true, decide_eq_true_eq] at hwait
  obtain ⟨⟨hk, hserial⟩, hscope⟩ := hwait
  have hother := h e he hk hserial
  cases scope with
  | true => exact hother (by simpa using hscope)
  | false => exact hother (by simpa using hscope)

theorem fenceComplete_ends {scope : Bool} (hs : s.silent = false) (hc : s.cmd k = some c) (hj : c.job = .fence scope)
    (hw : s.fenceWaits k scope = false) : fenceComplete k s = s.finish k stOK 0 0 [] := by
  simp [fenceComplete, hc, hj, hs, hw]

/-- A queue's command that ends leaves the Pumphouse's other books. -/
theorem finish_queue_keeps (hc : s.cmd k = some c) (hq : c.origin = .queue q) (st : Half) (reason : Byte) (fl : BitVec 4)
    (data : List Byte) :
    OnlyPumphouse s (s.finish k st reason fl data) ∧
      { (s.finish k st reason fl data).pmh with
        cmds := s.pmh.cmds
        compl := s.pmh.compl } = s.pmh := by
  obtain ⟨cmds, compl, heq⟩ := finish_queue_eq hc hq st reason fl data
  rw [heq]
  exact ⟨rfl, rfl⟩

/-- A semaphore as a satisfied SEM_WAIT leaves it (R266). -/
def State.semTaken (s : State) (sem : Nat) (take : Bool) (thr : Word) : State :=
  if take then s.setSem sem (s.semOf sem - thr) else s

theorem semOf_semTaken (s : State) (sem : Nat) (take : Bool) (thr : Word) :
    (s.semTaken sem take thr).semOf sem = if take then s.semOf sem - thr else s.semOf sem := by
  cases take
  · rfl
  · exact State.semOf_setSem_same ..

theorem semWaitSatisfied_ends {sem : Nat} {take : Bool} {thr : Word} (hs : s.silent = false) (hc : s.cmd k = some c)
    (hj : c.job = .semWait sem take thr) (hthr : thr.toNat ≤ (s.semOf sem).toNat)
    (hw : s.earlierWait c.origin.queueNo sem = false) : semWaitSatisfied k s =
      (s.semTaken sem take thr).finish k stOK 0 0 (leBytes 4 ((s.semTaken sem take thr).semOf sem).toNat) := by
  simp [semWaitSatisfied, hc, hj, hs, hw, Nat.not_lt.2 hthr, State.semTaken]

theorem semOf_semTaken_other (s : State) {sem n : Nat} (take : Bool) (thr : Word) (hn : n ≠ sem) :
    (s.semTaken sem take thr).semOf n = s.semOf n := by
  cases take
  · rfl
  · exact State.semOf_setSem_other _ _ _ _ hn

theorem semTaken_eq (s : State) (sem : Nat) (take : Bool) (thr : Word) :
    ∃ m, s.semTaken sem take thr = { s with pmh := { s.pmh with sem := m } } := by
  cases take
  · exact ⟨s.pmh.sem, rfl⟩
  · exact ⟨_, rfl⟩

/-- A SEM_WAIT that ends has moved its own semaphore alone, and its books are those of its end. -/
theorem semTaken_finishes (hc : s.cmd k = some c) (hq : c.origin = .queue q) (sem : Nat) (take : Bool) (thr : Word)
    {s' : State} {data : List Byte} (hs' : s' = (s.semTaken sem take thr).finish k stOK 0 0 data) :
    OnlyPumphouse s s' ∧ s'.semOf sem = (if take then s.semOf sem - thr else s.semOf sem) ∧
      (∀ n, n ≠ sem → s'.semOf n = s.semOf n) ∧
      { s'.pmh with
        cmds := s.pmh.cmds
        compl := s.pmh.compl
        sem := s.pmh.sem } = s.pmh ∧
      Finished s s' q k c stOK 0 0 data := by
  have hsem := semOf_semTaken s sem take thr
  have hother := fun n => semOf_semTaken_other s (sem := sem) (n := n) take thr
  obtain ⟨m, hm⟩ := semTaken_eq s sem take thr
  rw [hm] at hs' hsem hother
  have hset : ({ s with pmh := { s.pmh with sem := m } } : State).cmd k = some c := hc
  obtain ⟨cmds, compl, heq⟩ := finish_queue_eq hset hq stOK 0 0 data
  obtain ⟨hcmd, hcmds, hqueues, hcompl⟩ := finish_queue hset hq stOK 0 0 data
  rw [← hs'] at hcmd hcmds hqueues hcompl heq
  refine ⟨?_, ?_, fun n hn => ?_, ?_, hcmd, hcmds, hqueues, hcompl⟩
  · rw [heq]
    rfl
  · rw [heq]
    exact hsem
  · rw [heq]
    exact hother n hn
  · rw [heq]

end

/-! ## Packets are skipped, and lookahead reads on (R268, R279, R280) -/

section

variable {s : State} {q : Nat} {p : Pkt} {rest : List Pkt}

theorem packetSkip_skips (h : (s.queue q).decoded = p :: rest) (hmay : s.mayDispatch q p = true) (hflag : p.condFlag = true)
    (hcond : (s.queue q).cond = false) : packetSkip q s = s.setQueue q { s.queue q with
      decoded := rest
      looked := (s.queue q).looked - 1 } := by
  simp [packetSkip, h, hmay, hflag, hcond]

/-- The header that the ring's first unit begins, where its units are covered and clean. -/
theorem ringPacket_first {m : QMap} {tail head : Word} {n : Nat} (hcheck : s.checkUnit m head = none) (hn : 1 ≤ n)
    (hcovered : n ≤ (tail - head).toNat) (hclean : CleanUnits s m head n)
    (hunits : n = bits (byteAt (ringBytes s m head n) 1).toNat 0 4 + 1) :
    s.ringPacket m tail 0 head = some (head, n) := by
  have hne : head ≠ tail := by
    rintro rfl
    simp at hcovered
    omega
  obtain ⟨j, rfl⟩ := Nat.exists_eq_add_of_le' hn
  have hread : s.readNat m.ctx m.handle (m.unitOff head.toNat + 1) 1 % 16 + 1 = j + 1 := by
    rw [readNat_unit (by decide) hclean]
    simpa [bits] using hunits.symm
  rw [State.ringPacket, if_neg (by simp [hne, hcheck])]
  dsimp only
  rw [hread, if_neg (Nat.not_lt.2 hcovered)]

/-- The packet that `AheadIs` names is the one whose header lookahead reads next (R279). -/
theorem packetAhead_of_aheadIs (h : AheadIs s q p) : s.packetAhead q ((s.queue q).looked + 1) = some p := by
  unfold State.packetAhead
  rcases h with hdecoded | ⟨hlen, hcheck, n, hn, hcovered, hclean, hunits, hp⟩
  · dsimp only
    rw [hdecoded]
  · have hnone : (s.queue q).decoded[(s.queue q).looked + 1]? = none := by rw [← hlen, List.getElem?_length]
    have hfirst := ringPacket_first hcheck hn hcovered hclean (by rw [hp] at hunits; exact hunits)
    dsimp only
    rw [hnone, hlen, Nat.sub_self, hfirst]
    dsimp only [Option.map_some]
    rw [(readUnits_clean hclean).1, hp]

theorem lookaheadPrestage_reads (hopen : s.dispatchOpen = true) (hen : (s.act.qmap q).en = true)
    (hlooked : (s.queue q).looked < 16) (h : s.packetAhead q ((s.queue q).looked + 1) = some p) :
    lookaheadPrestage q s = { s.setQueue q { s.queue q with looked := (s.queue q).looked + 1 } with
      pmh := { s.pmh with
        laPrestage := s.pmh.laPrestage + BitVec.ofNat 32 (if p.lookahead = true ∧
          (p.condFlag = true → 2 ≤ (s.queue q).pred.toNat) then s.prestageLines p else 0) } } := by
  have hflag : (p.lookahead && (!p.condFlag || decide (2 ≤ (s.queue q).pred.toNat))) = true ↔
      p.lookahead = true ∧ (p.condFlag = true → 2 ≤ (s.queue q).pred.toNat) := by
    cases p.condFlag <;> simp
  unfold lookaheadPrestage
  simp only [h, hopen, hen, Nat.not_le.2 hlooked, hflag, Bool.not_true, Bool.or_self, decide_false,
    Bool.false_eq_true, if_false]
  rfl

end

/-- Settles O25: each waiting command ends where its wait is over, and the head packet and the header count move as their queue
says. -/
theorem queuesGoOn : Obligations.QueuesGoOn := by
  refine ⟨fun k q c s hs hc hq => ⟨fun scope hj hnone => ?_, fun sem take thr hj hthr hfirst => ?_⟩,
    fun q p s => ⟨fun rest hhead hmay hflag hcond => ?_, fun hopen hen hlooked hahead => ?_⟩⟩
  · obtain ⟨hframe, hkept⟩ := finish_queue_keeps hc hq stOK 0 0 []
    have hexec := exec_fenceComplete k s
    rw [fenceComplete_ends hs hc hj (fenceWaits_eq_false hc hnone)] at hexec
    refine ⟨_, hexec, hframe, ?_, finish_queue hc hq stOK 0 0 []⟩
    exact (congrArg (fun x : Pmh => { x with serial := s.pmh.serial }) hkept :)
  · have hwait : s.earlierWait c.origin.queueNo sem = false := by
      rw [hq]
      exact earlierWait_eq_false.2 hfirst
    have hexec := exec_semWaitSatisfied k s
    rw [semWaitSatisfied_ends hs hc hj hthr hwait] at hexec
    obtain ⟨hframe, hsem, hother, hpmh, hfinished⟩ := semTaken_finishes hc hq sem take thr rfl
    refine ⟨_, hexec, hframe, hsem, hother, hpmh, ?_⟩
    rw [hsem, ← semOf_semTaken]
    exact hfinished
  · have hexec := exec_packetSkip q s
    rw [packetSkip_skips hhead hmay hflag hcond] at hexec
    exact ⟨_, hexec, rfl, State.queue_setQueue_same .., fun r hr => State.queue_setQueue_other _ _ _ _ hr⟩
  · have hexec := exec_lookaheadPrestage q s
    rw [lookaheadPrestage_reads hopen hen hlooked (packetAhead_of_aheadIs hahead)] at hexec
    exact ⟨_, _, hexec, rfl, State.queue_setQueue_same .., fun r hr => State.queue_setQueue_other _ _ _ _ hr, rfl, rfl⟩

end Sys2Proof.Machine

end

section

namespace Sys2Proof.Machine

/-! ## The decoder's candidates (R252, R256, R259) -/

section

variable {s : State} {q : Nat} {c : Cand}

theorem bits_lt (v lo n : Nat) : bits v lo n < 2 ^ n := Nat.mod_lt _ (Nat.two_pow_pos n)

theorem qmap_cls_le (a : CfgSet) (q : Nat) : (a.qmap q).cls ≤ 7 := Nat.le_of_lt_succ (bits_lt ..)

theorem classOf_le (a : CfgSet) (q b : Nat) : (a.qmap q).classOf b ≤ 7 := by
  have hfloor : (a.qmap q).floor ≤ 7 := Nat.le_of_lt_succ (bits_lt ..)
  have hcls := qmap_cls_le a q
  rw [QMap.classOf]
  split
  · exact max_le ‹b ≤ 7› hfloor
  · exact hcls

/-- A candidate names its queue and a class of Table CMD-5; where it has no units, the read of its first unit fails. -/
theorem candidate_facts (h : s.candidate q = some c) :
    c.q = q ∧ c.cls ≤ 7 ∧ (c.units = none → ∃ st, s.unitsFault (s.act.qmap q) (s.queue q).head 1 = some st) := by
  unfold State.candidate at h
  dsimp only at h
  split at h
  · exact absurd h (by simp)
  · split at h
    · next st hst =>
      obtain rfl := Option.some.inj h
      exact ⟨rfl, qmap_cls_le .., fun _ => ⟨st, hst⟩⟩
    · split at h
      · exact absurd h (by simp)
      · obtain rfl := Option.some.inj h
        exact ⟨rfl, classOf_le .., by simp⟩

/-- The candidates of every queue, in the queues' order. -/
def State.candidates (s : State) : List Cand := (List.range 512).filterMap s.candidate

theorem candidate_of_mem (h : c ∈ s.candidates) : s.candidate c.q = some c ∧ c.q < 512 := by
  obtain ⟨q, hq, hc⟩ := List.mem_filterMap.1 h
  obtain ⟨rfl, -⟩ := candidate_facts hc
  exact ⟨hc, List.mem_range.1 hq⟩

theorem candidates_pairwise (s : State) : s.candidates.Pairwise (fun a b => a.q < b.q) := by
  refine List.pairwise_filterMap.2 (List.pairwise_lt_range.imp fun hlt a ha b hb => ?_)
  rw [(candidate_facts ha).1, (candidate_facts hb).1]
  exact hlt

end

/-! ## The arbiter (R257, R258) -/

section

variable {s : State} {cs : List Cand} {c : Cand} {cls : Nat}

theorem roundRobin_none (h : s.roundRobin cls cs = none) : ∀ x ∈ cs, x.cls ≠ cls := by
  intro x hx hcls
  have hmine : cs.filter (fun c => decide (c.cls = cls)) ≠ [] :=
    List.ne_nil_of_mem (List.mem_filter.2 ⟨hx, by simp [hcls]⟩)
  unfold State.roundRobin at h
  dsimp only at h
  split at h
  · exact absurd h (by simp)
  · exact hmine (List.head?_eq_none_iff.1 h)

/-- The arbiter's choice within a class: one of the class, and the first from the queue after the last served. -/
theorem roundRobin_first (hsorted : cs.Pairwise (fun a b => a.q < b.q)) (hq : ∀ x ∈ cs, x.q < 512)
    (hlast : spGet 0 s.pmh.lastQ cls ≤ 512) (h : s.roundRobin cls cs = some c) :
    c ∈ cs ∧ c.cls = cls ∧ ∀ x ∈ cs, x.cls = cls →
      (c.q + 512 - spGet 0 s.pmh.lastQ cls) % 512 ≤ (x.q + 512 - spGet 0 s.pmh.lastQ cls) % 512 := by
  unfold State.roundRobin at h
  dsimp only at h
  generalize hmine : cs.filter (fun c => decide (c.cls = cls)) = mine at h
  generalize spGet 0 s.pmh.lastQ cls = last at h hlast ⊢
  have hmem : ∀ x, x ∈ mine ↔ x ∈ cs ∧ x.cls = cls := fun x => by simp [← hmine]
  have hpair : mine.Pairwise (fun a b => a.q < b.q) := hmine ▸ hsorted.filter _
  split at h
  · next y hy =>
    obtain rfl := Option.some.inj h
    obtain ⟨hle, as, bs, hsplit, has⟩ := List.find?_eq_some_iff_append.1 hy
    obtain ⟨hc, hcls⟩ := (hmem y).1 (by simp [hsplit])
    rw [hsplit, List.pairwise_append, List.pairwise_cons] at hpair
    obtain ⟨-, ⟨hafter, -⟩, -⟩ := hpair
    refine ⟨hc, hcls, fun x hx hxc => ?_⟩
    have hxq := hq x hx
    have hyq := hq y hc
    have hle' : last ≤ y.q := by simpa using hle
    have hxm := (hmem x).2 ⟨hx, hxc⟩
    rw [hsplit, List.mem_append, List.mem_cons] at hxm
    rcases hxm with hxa | rfl | hxb
    · have hlt : x.q < last := by simpa using has x hxa
      omega
    · exact Nat.le_refl _
    · have := hafter x hxb
      omega
  · next hnone =>
    have hbelow : ∀ x ∈ mine, x.q < last := by simpa using hnone
    obtain ⟨tail, rfl⟩ := List.head?_eq_some_iff.1 h
    obtain ⟨hc, hcls⟩ := (hmem c).1 List.mem_cons_self
    refine ⟨hc, hcls, fun x hx hxc => ?_⟩
    have hxm := (hmem x).2 ⟨hx, hxc⟩
    have hxlt := hbelow x hxm
    have hclt := hbelow c List.mem_cons_self
    have hle : c.q ≤ x.q := by
      rcases List.mem_cons.1 hxm with rfl | hxt
      · exact Nat.le_refl _
      · exact Nat.le_of_lt ((List.pairwise_cons.1 hpair).1 x hxt)
    omega

theorem weight_pos (a : CfgSet) (cls : Nat) : 0 < a.weight cls := by
  unfold CfgSet.weight
  generalize (if cls ≤ 4 then _ else _ : Nat) = b
  dsimp only
  split
  · exact Nat.one_pos
  · split <;> omega

/-- What a round chooses, it chooses of some class by `roundRobin`. -/
theorem roundPick_some {fuel used : Nat} {r : Cand × Nat × Nat} (h : s.roundPick cs fuel cls used = some r) :
    ∃ d, s.roundRobin d cs = some r.1 := by
  induction fuel generalizing cls used with
  | zero => exact absurd h (by simp [State.roundPick])
  | succ fuel ih =>
    rw [State.roundPick] at h
    split at h
    · next c hc =>
      obtain rfl := Option.some.inj h
      split at hc
      · exact ⟨cls, hc⟩
      · exact absurd hc (by simp)
    · exact ih h

/-- A round that starts a class afresh reaches every class that its fuel lets it reach. -/
theorem roundPick_reaches {d : Nat} (hd : s.roundRobin d cs ≠ none) {fuel i : Nat} (hi : i < fuel) :
    nextClass^[i] cls = d → s.roundPick cs fuel cls 0 ≠ none := by
  induction fuel generalizing cls i with
  | zero => exact absurd hi (Nat.not_lt_zero i)
  | succ fuel ih =>
    intro hreach
    rw [State.roundPick, if_pos (weight_pos ..)]
    split
    · simp
    · next hnone =>
      cases i with
      | zero => exact absurd (hreach ▸ hnone) hd
      | succ i => exact ih (Nat.lt_of_succ_lt_succ hi) hreach

theorem nextClass_range (c : Nat) : 1 ≤ nextClass c ∧ nextClass c ≤ 7 := by
  unfold nextClass
  split <;> omega

/-- Classes 1 to 7 follow one another in a round. -/
theorem iterate_nextClass {e : Nat} (h1 : 1 ≤ e) (h7 : e ≤ 7) (i : Nat) : nextClass^[i] e = (e - 1 + i) % 7 + 1 := by
  induction i with
  | zero => rw [Function.iterate_zero_apply]; omega
  | succ i ih =>
    rw [Function.iterate_succ_apply', ih, nextClass]
    split <;> omega

theorem nextClass_reaches {e d : Nat} (he1 : 1 ≤ e) (he7 : e ≤ 7) (hd1 : 1 ≤ d) (hd7 : d ≤ 7) :
    ∃ i < 8, nextClass^[i] e = d := by
  refine ⟨(d + 7 - e) % 7, by omega, ?_⟩
  rw [iterate_nextClass he1 he7]
  omega

/-- Nine turns of the rounds reach every class from 1 to 7. -/
theorem roundPick_nine {d used : Nat} (hd : s.roundRobin d cs ≠ none) (h1 : 1 ≤ d) (h7 : d ≤ 7) :
    s.roundPick cs 9 cls used ≠ none := by
  obtain ⟨hn1, hn7⟩ := nextClass_range cls
  obtain ⟨i, hi, hreach⟩ := nextClass_reaches hn1 hn7 h1 h7
  unfold State.roundPick
  split
  · exact Option.some_ne_none _
  · exact roundPick_reaches hd hi hreach

/-- The arbiter serves a candidate wherever there is one: of class 0 before the others, and within its class the first from the
queue after the last served. -/
theorem exists_pick (hne : cs ≠ []) (hsorted : cs.Pairwise (fun a b => a.q < b.q)) (hfacts : ∀ x ∈ cs, x.q < 512 ∧ x.cls ≤ 7)
    (hlast : ∀ cls, spGet 0 s.pmh.lastQ cls ≤ 512) :
    ∃ c cls used, s.pick cs = some (c, cls, used) ∧ c ∈ cs ∧ ((∃ x ∈ cs, x.cls = 0) → c.cls = 0) ∧
      (∀ x ∈ cs, x.cls = c.cls →
        (c.q + 512 - spGet 0 s.pmh.lastQ c.cls) % 512 ≤ (x.q + 512 - spGet 0 s.pmh.lastQ c.cls) % 512) := by
  unfold State.pick
  split
  · next c hc =>
    obtain ⟨hmem, hcls, hmin⟩ := roundRobin_first hsorted (fun x hx => (hfacts x hx).1) (hlast 0) hc
    exact ⟨c, _, _, rfl, hmem, fun _ => hcls, by rw [hcls]; exact hmin⟩
  · next hnone =>
    have hzero := roundRobin_none hnone
    obtain ⟨x, hx⟩ := List.exists_mem_of_ne_nil _ hne
    obtain ⟨-, hx7⟩ := hfacts x hx
    have hpick : s.roundPick cs 9 s.pmh.roundCls s.pmh.roundUsed ≠ none :=
      roundPick_nine (fun hn => roundRobin_none hn x hx rfl) (Nat.pos_of_ne_zero (hzero x hx)) hx7
    obtain ⟨⟨c, cls, used⟩, hr⟩ := Option.ne_none_iff_exists'.1 hpick
    obtain ⟨d, hd⟩ := roundPick_some hr
    obtain ⟨hmem, rfl, hmin⟩ := roundRobin_first hsorted (fun x hx => (hfacts x hx).1) (hlast d) hd
    exact ⟨c, cls, used, hr, hmem, fun ⟨y, hy, hy0⟩ => absurd hy0 (hzero y hy), hmin⟩

end

end Sys2Proof.Machine

end

section

namespace Sys2Proof.Machine

/-! ## A notice leaves the queues and the memory alone (R516) -/

section

variable (s : State) (n : Notice)

theorem notify_pmh : (s.notify n).pmh = s.pmh := pmh_of_onlyAccesses (notify_accessed s n).1
theorem notify_queues : (s.notify n).queues = s.queues := queues_of_onlyAccesses (notify_accessed s n).1
theorem notify_queue (q : Nat) : (s.notify n).queue q = s.queue q := by rw [State.queue, notify_queues, State.queue]
theorem notify_sameMemory : SameMemory s (s.notify n) := by rw [SameMemory, State.notify_cis]; exact ⟨rfl, rfl⟩

end

/-! ## One decode (R253, R254, R262) -/

section

variable {s : State} {q n : Nat}

/-- A queue whose ring read fails is FAULTED (R254). -/
theorem faultQueue_faults (s : State) (q : Nat) (st : Half) :
    (s.faultQueue q st).queue q = { s.queue q with
      faulted := true
      fstatus := st } ∧ (∀ r, r ≠ q → (s.faultQueue q st).queue r = s.queue r) ∧ (s.faultQueue q st).pmh = s.pmh ∧
      SameMemory s (s.faultQueue q st) := by
  unfold State.faultQueue
  refine ⟨?_, fun r hr => ?_, notify_pmh .., notify_sameMemory ..⟩
  · rw [notify_queue, State.queue_setQueue_same]
  · rw [notify_queue, State.queue_setQueue_other _ _ _ _ hr]

/-- The packet of the given bytes, decoded next from queue `q`. -/
def State.pktOf (s : State) (q : Nat) (bytes : List Byte) : Pkt :=
  let m := s.act.qmap q
  { bytes := bytes, ctx := m.ctx, cls := m.classOf (byteAt bytes 5).toNat, order := s.pmh.order }

/-- The packet that a decode takes from its ring, as the ring's bytes hold it (R253, R256). -/
def State.ringPkt (s : State) (q n : Nat) : Pkt :=
  s.pktOf q (ringBytes s (s.act.qmap q) (s.queue q).head n)

/-- The completion of a packet that fails its header check (R262, R273). -/
def State.headerCompl (s : State) (q : Nat) (p : Pkt) (st : Half) : Compl :=
  { slot := none, ctx := p.ctx, queue := q, tag := p.tag, notify := p.notify, status := st, reason := 0, flags := 0,
    late := false, wave := s.time.wave, data := [] }

/-- One more packet has been given its place in the decode order. -/
def State.ordered (s : State) : State := { s with pmh := { s.pmh with order := s.pmh.order + 1 } }

/-- One more completion waits. -/
def State.awaiting (s : State) (x : Compl) : State := { s with pmh := { s.pmh with compl := s.pmh.compl ++ [x] } }

/-- The packet `p` enters queue `q`, which stands at `x`, or its header's fault is told. -/
def State.entered (s : State) (q : Nat) (x : Queue) (p : Pkt) : Option Half → State
  | none => s.setQueue q { x with decoded := x.decoded ++ [p] }
  | some st => (s.setQueue q x).awaiting (s.headerCompl q p st)

theorem decodeFrom_eq (h : s.unitsFault (s.act.qmap q) (s.queue q).head n = none) :
    ∃ u p, Accessed s u ∧ p.ctx = (s.act.qmap q).ctx ∧
      s.decodeFrom q n = u.ordered.entered q { s.queue q with head := (s.queue q).head + BitVec.ofNat 32 n } p
        (u.headerFault (s.act.qmap q) p) ∧
      (CleanUnits s (s.act.qmap q) (s.queue q).head n → OnlyGrants s u ∧ p = s.ringPkt q n) := by
  have haccess : ∀ (m : QMap) (n : Nat) (s : State) (head : Word), Accessed s (s.readUnits m head n).state := by
    intro m n
    induction n with
    | zero => exact fun s _ => .refl s
    | succ n ih => exact fun s head => (readBytes_accessed ..).trans (ih ..)
  have hacc := haccess (s.act.qmap q) n s (s.queue q).head
  have horder : (s.readUnits (s.act.qmap q) (s.queue q).head n).state.pmh.order = s.pmh.order := by
    rw [pmh_of_onlyAccesses hacc.1]
  refine ⟨_, s.pktOf q (s.readUnits (s.act.qmap q) (s.queue q).head n).bytes, hacc, rfl, ?_, fun hclean => ?_⟩
  · unfold State.decodeFrom
    simp only [h]
    generalize s.readUnits (s.act.qmap q) (s.queue q).head n = g at horder ⊢
    rw [horder]
    change (match g.state.headerFault (s.act.qmap q) (s.pktOf q g.bytes) with | none => _ | some st => _) = _
    cases hfault : g.state.headerFault (s.act.qmap q) (s.pktOf q g.bytes) with
    | none => simp only [State.entered, State.ordered, horder, State.pktOf]
    | some st => simp only [State.entered, State.ordered, State.awaiting, State.headerCompl, horder, State.pktOf]; rfl
  · obtain ⟨hbytes, hgrants⟩ := readUnits_clean hclean
    exact ⟨hgrants, by rw [hbytes]; rfl⟩

theorem entered_pmh (u : State) (q : Nat) (x : Queue) (p : Pkt) (f : Option Half) :
    (u.ordered.entered q x p f).pmh.lastQ = u.pmh.lastQ ∧ (u.ordered.entered q x p f).pmh.cmds = u.pmh.cmds ∧
      (u.ordered.entered q x p f).pmh.order = u.pmh.order + 1 := by
  cases f <;> exact ⟨rfl, rfl, rfl⟩

theorem entered_queue_other (u : State) {q r : Nat} (hr : r ≠ q) (x : Queue) (p : Pkt) (f : Option Half) :
    (u.ordered.entered q x p f).queue r = u.queue r := by
  cases f <;> exact State.queue_setQueue_other _ _ _ _ hr

theorem entered_sameMemory (u : State) (q : Nat) (x : Queue) (p : Pkt) (f : Option Half) :
    SameMemory u (u.ordered.entered q x p f) := by
  cases f <;> exact ⟨rfl, rfl⟩

theorem entered_frame (u : State) (q : Nat) (x : Queue) (p : Pkt) (f : Option Half) :
    { u.ordered.entered q x p f with
      queues := u.queues
      pmh := u.pmh } = u := by
  cases f <;> rfl

/-- The Pumphouse's own part changes after the grants of the banks. -/
theorem onlyMemory_of_onlyGrants {s u v : State} (h : OnlyGrants s u) (hv : { v with
    queues := u.queues
    pmh := u.pmh } = u) : OnlyMemory s v := by
  obtain ⟨hbanks, hrest⟩ := h
  have hcis : v.cis = u.cis := (congrArg (fun x : State => x.cis) hv :)
  have hpmh : u.pmh = s.pmh := (congrArg (fun x : State => x.pmh) hrest :)
  have hqueues : u.queues = s.queues := (congrArg (fun x : State => x.queues) hrest :)
  refine ⟨fun tr k => ?_, ?_⟩
  · rw [State.bank, hcis]
    exact hbanks tr k
  · rw [hpmh, hqueues] at hv
    rw [← hv] at hrest
    have h2 := congrArg (fun x : State => { x with cis := { x.cis with
      mem := s.cis.mem
      synd := s.cis.synd } }) hrest
    exact h2

end

/-! ## The choice and the decode together -/

section

variable {s : State}

/-- The arbiter has chosen: it remembers the queue served, and where its rounds stand (R257, R258). -/
def State.chosen (s : State) (c : Cand) (cls used : Nat) : State :=
  { s with pmh := { s.pmh with
    lastQ := spSet 0 s.pmh.lastQ c.cls (c.q + 1)
    roundCls := cls
    roundUsed := used } }

theorem chosen_lastQ (c : Cand) (cls used : Nat) : spGet 0 (s.chosen c cls used).pmh.lastQ c.cls = c.q + 1 := by
  change spGet 0 (spSet 0 s.pmh.lastQ c.cls (c.q + 1)) c.cls = c.q + 1
  exact spGet_spSet_same

theorem exec_packetDecode {c : Cand} {cls used : Nat} (hopen : s.decodeOpen = true)
    (hpick : s.pick s.candidates = some (c, cls, used)) :
    exec .packetDecode s = .next (match c.units with
      | none => (s.chosen c cls used).faultQueue c.q ((s.unitsFault (s.act.qmap c.q) (s.queue c.q).head 1).getD stBounds)
      | some n => (s.chosen c cls used).decodeFrom c.q n) := by
  change Host.Outcome.next (packetDecode s) = _
  unfold packetDecode
  unfold State.candidates at hpick
  simp only [hopen, hpick, Bool.not_true, Bool.false_eq_true, if_false]
  rfl

/-- A failed ring read leaves the queue FAULTED and the rest where the arbiter's choice left it (R254). -/
theorem decode_faults (c : Cand) (cls used q : Nat) (st : Half) :
    let v := (s.chosen c cls used).faultQueue q st
    spGet 0 v.pmh.lastQ c.cls = c.q + 1 ∧ v.pmh.cmds = s.pmh.cmds ∧ (∀ r, r ≠ q → v.queue r = s.queue r) ∧
      v.queue q = { s.queue q with
        faulted := true
        fstatus := st } ∧ SameMemory s v := by
  obtain ⟨hq, hothers, hpmh, hmem⟩ := faultQueue_faults (s.chosen c cls used) q st
  exact ⟨by rw [hpmh, chosen_lastQ], by rw [hpmh]; rfl, hothers, hq, hmem⟩

/-- What a decode of the arbiter's choice leaves, whatever its words' marks. -/
theorem decode_keeps (c : Cand) (cls used n : Nat) :
    let v := (s.chosen c cls used).decodeFrom c.q n
    spGet 0 v.pmh.lastQ c.cls = c.q + 1 ∧ v.pmh.cmds = s.pmh.cmds ∧ ∀ r, r ≠ c.q → v.queue r = s.queue r := by
  cases hfault : (s.chosen c cls used).unitsFault ((s.chosen c cls used).act.qmap c.q)
      ((s.chosen c cls used).queue c.q).head n with
  | some st =>
    have hdecode : (s.chosen c cls used).decodeFrom c.q n = (s.chosen c cls used).faultQueue c.q st := by
      unfold State.decodeFrom
      simp only [hfault]
    dsimp only
    rw [hdecode]
    obtain ⟨hlast, hcmds, hothers, -⟩ := decode_faults (s := s) c cls used c.q st
    exact ⟨hlast, hcmds, hothers⟩
  | none =>
    obtain ⟨u, p, hacc, -, hdecode, -⟩ := decodeFrom_eq hfault
    have hpmh := pmh_of_onlyAccesses hacc.1
    dsimp only
    rw [hdecode]
    obtain ⟨hlast, hcmds, -⟩ := entered_pmh u c.q _ p (u.headerFault ((s.chosen c cls used).act.qmap c.q) p)
    refine ⟨?_, ?_, fun r hr => ?_⟩
    · rw [hlast, hpmh, chosen_lastQ]
    · rw [hcmds, hpmh]; rfl
    · rw [entered_queue_other u hr, State.queue, queues_of_onlyAccesses hacc.1]; rfl

theorem onlyMemory_chosen {c : Cand} {cls used : Nat} {v : State} (h : OnlyMemory (s.chosen c cls used) v) :
    OnlyMemory s v := by
  have h2 := congrArg (fun x : State => { x with pmh := s.pmh }) h.2
  exact ⟨h.1, h2⟩

/-- A decode of clean words takes the packet that the ring holds (R253, R262). -/
theorem decode_clean (c : Cand) (cls used n : Nat)
    (hunits : s.unitsFault (s.act.qmap c.q) (s.queue c.q).head n = none)
    (hclean : CleanUnits s (s.act.qmap c.q) (s.queue c.q).head n) :
    let v := (s.chosen c cls used).decodeFrom c.q n
    let x := s.queue c.q
    let p := s.ringPkt c.q n
    OnlyMemory s v ∧ SameMemory s v ∧ v.pmh.order = s.pmh.order + 1 ∧
      (s.headerFault (s.act.qmap c.q) p = none →
        v.queue c.q = { x with
          head := x.head + BitVec.ofNat 32 n
          decoded := x.decoded ++ [p] } ∧ v.pmh.compl = s.pmh.compl) ∧
      ∀ st, s.headerFault (s.act.qmap c.q) p = some st →
        v.queue c.q = { x with head := x.head + BitVec.ofNat 32 n } ∧
          v.pmh.compl = s.pmh.compl ++ [s.headerCompl c.q p st] := by
  obtain ⟨u, p, hacc, hctx, hdecode, hrest⟩ := decodeFrom_eq (s := s.chosen c cls used) hunits
  obtain ⟨hgrants, rfl⟩ := hrest hclean
  have hfault : u.headerFault (s.act.qmap c.q) (s.ringPkt c.q n) = s.headerFault (s.act.qmap c.q) (s.ringPkt c.q n) :=
    (congrArg (fun x : State => x.headerFault (s.act.qmap c.q) (s.ringPkt c.q n)) hgrants.2 :)
  have hpmh : u.pmh = (s.chosen c cls used).pmh := (congrArg (fun x : State => x.pmh) hgrants.2 :)
  have hqueues : u.queues = s.queues := (congrArg (fun x : State => x.queues) hgrants.2 :)
  have hwave : u.time = s.time := (congrArg (fun x : State => x.time) hgrants.2 :)
  have hp : (s.chosen c cls used).ringPkt c.q n = s.ringPkt c.q n := rfl
  have hact : (s.chosen c cls used).act = s.act := rfl
  have hqueue : (s.chosen c cls used).queue c.q = s.queue c.q := rfl
  rw [hp, hact, hfault, hqueue] at hdecode
  dsimp only
  rw [hdecode]
  obtain ⟨-, -, horder⟩ := entered_pmh u c.q { s.queue c.q with head := (s.queue c.q).head + BitVec.ofNat 32 n }
    (s.ringPkt c.q n) (s.headerFault (s.act.qmap c.q) (s.ringPkt c.q n))
  refine ⟨onlyMemory_chosen (onlyMemory_of_onlyGrants hgrants (entered_frame ..)), ?_, ?_, fun hnone => ?_, fun st hst => ?_⟩
  · have h1 := sameMemory_of_onlyGrants hgrants
    have h2 := entered_sameMemory u c.q { s.queue c.q with head := (s.queue c.q).head + BitVec.ofNat 32 n }
      (s.ringPkt c.q n) (s.headerFault (s.act.qmap c.q) (s.ringPkt c.q n))
    exact ⟨h2.1.trans h1.1, h2.2.trans h1.2⟩
  · rw [horder, hpmh]; rfl
  · rw [hnone]
    exact ⟨State.queue_setQueue_same .., (congrArg Pmh.compl hpmh :)⟩
  · rw [hst]
    refine ⟨State.queue_setQueue_same .., ?_⟩
    have hcompl : u.ordered.headerCompl c.q (s.ringPkt c.q n) st = s.headerCompl c.q (s.ringPkt c.q n) st := by
      simp only [State.headerCompl, State.ordered, hwave]
    have hc : (s.chosen c cls used).pmh.compl = s.pmh.compl := rfl
    rw [← hc, ← hpmh, ← hcompl]
    rfl

/-- Settles O26: the arbiter's choice, then the decode of the queue that it chose. -/
theorem decodingServesTheArbitersQueue : Obligations.DecodingServesTheArbitersQueue := by
  unfold Obligations.DecodingServesTheArbitersQueue
  intro s
  change _ → s.candidates ≠ [] → _
  dsimp only
  intro hopen hne hlast
  obtain ⟨c, cls, used, hpick, hmem, hzero, hfirst⟩ := exists_pick hne (candidates_pairwise s)
    (fun x hx => ⟨(candidate_of_mem hx).2, (candidate_facts (candidate_of_mem hx).1).2.1⟩) hlast
  obtain ⟨-, -, hunits⟩ := candidate_facts (candidate_of_mem hmem).1
  have hexec := exec_packetDecode hopen hpick
  cases hc : c.units with
  | none =>
    obtain ⟨st, hst⟩ := hunits hc
    simp only [hc, hst, Option.getD_some] at hexec
    obtain ⟨hlastQ, hcmds, hothers, hq, hsame⟩ := decode_faults (s := s) c cls used c.q st
    exact ⟨c, _, hmem, hexec, hzero, hfirst, hlastQ, hcmds, hothers, fun _ => ⟨st, hst, hq, hsame⟩,
      fun n hn => absurd (hc.symm.trans hn) (by simp)⟩
  | some n =>
    simp only [hc] at hexec
    obtain ⟨hlastQ, hcmds, hothers⟩ := decode_keeps (s := s) c cls used n
    refine ⟨c, _, hmem, hexec, hzero, hfirst, hlastQ, hcmds, hothers,
      fun hn => absurd (hc.symm.trans hn) (by simp), fun n' hn' hfault hclean => ?_⟩
    obtain rfl := Option.some.inj (hc.symm.trans hn')
    exact decode_clean c cls used n hfault hclean

end

end Sys2Proof.Machine

end

section

namespace Sys2Proof.Machine

/-! ## A flit that overtakes its channel (R446) -/

/-- A remote SEM_SIGNAL of context 1 to die 0x10: it adds 5 to semaphore 255 (Table CMD-4). -/
def remoteSignal : Pkt :=
  { bytes := leBytes 64 (3 + 255 * 2 ^ 64 + 2 ^ 72 + 0x10 * 2 ^ 80 + 5 * 2 ^ 96), ctx := 1, cls := 1, order := 0 }

/-- The WR_SEG of the transfer in slot 1, to die 0x10. -/
def waitingSegment : Flit := { idleFlit with vc := vcReq, typ := 1, dst := 0x10, xid := 1 }

/-- A DATA flit of the transfer in slot `xid`, to die 0x10. -/
def waitingData (xid : BitVec 10) : Flit := { idleFlit with vc := vcBulk, typ := 1, dst := 0x10, xid := xid }

/-- An active port without credits for REQ and with credits for BULK: the WR_SEG of slot 1 waits, the DATA of its segment behind
it, and the DATA of slot 2 behind that. -/
def waitingPort : Port :=
  { Port.reset with
    state := .active
    sent := [(1, 128)]
    egress := [waitingSegment, waitingData 1, waitingData 2] }

/-- The die READY, the remote SEM_SIGNAL at the head of queue 0, and the hub port waiting as above. -/
def signallingDie : State :=
  { State.reset with
    rst := { Rst.reset with
      held := none
      fuseDone := true
      testDone := true
      zeroDone := true
      windowDone := true
      ready := true }
    top := { Top.reset with hubPort := 0 }
    ports := [(0, waitingPort)]
    queues := [(0, { Queue.reset with decoded := [remoteSignal] })] }

theorem signallingDie_ready : DispatchReady signallingDie 0 0 remoteSignal [] where
  head := by decide +kernel
  may := by decide +kernel
  cond := by decide +kernel
  slot := by decide +kernel
  allowed := by decide +kernel
  first := by decide +kernel
  live := by decide +kernel

/-- The BULK flits of the port after the command: the DATA of slot 2 has left, that of slot 1 still waits for its WR_SEG. -/
theorem signallingDie_bulk :
    onChannel ((semSignalRemote 0 signallingDie).port 0) vcBulk = [waitingData 2, waitingData 1] := by decide +kernel

/-- Refutes O29: it asks that a port take the flits of a command behind those that it holds, in the order of each channel, and a
port sends what it may of one channel past a DATA flit that waits for its WR_SEG (R446). In `signallingDie` the DATA of slot 2
overtakes that of slot 1 as the port sends what it can for the SEM_SIG. -/
theorem not_remoteCommandsLeave : ¬ Obligations.RemoteCommandsLeave := by
  unfold Obligations.RemoteCommandsLeave
  intro h
  obtain ⟨hsignal, -⟩ := h 0 0 remoteSignal [] 0 signallingDie signallingDie_ready
  obtain ⟨s', hexec, -, -, ⟨hport, -⟩, -⟩ := hsignal (by decide +kernel) (by decide +kernel) (by decide +kernel)
  have hs' : semSignalRemote 0 signallingDie = s' := Host.Outcome.next.inj hexec
  have hbulk := hport vcBulk
  rw [← hs', signallingDie_bulk] at hbulk
  exact absurd hbulk (by decide +kernel)

end Sys2Proof.Machine

end

section

namespace Sys2Proof.Machine

/-! ## Writes of whole words through a handle (R93, R120) -/

/-- Nothing but stored words and the grants of the banks differs. -/
def OnlyStores (s u : State) : Prop :=
  SameBanks s u ∧ { u with cis := { u.cis with
    mem := s.cis.mem
    synd := s.cis.synd
    banks := s.cis.banks
    slots := s.cis.slots } } = s

theorem onlyStores_of_onlyGrants {s u : State} (h : OnlyGrants s u) : OnlyStores s u := by
  refine ⟨h.1, ?_⟩
  have h2 := congrArg (fun x : State => { x with cis := { x.cis with
    mem := s.cis.mem
    synd := s.cis.synd } }) h.2
  exact h2

theorem onlyStores_putWord (s : State) (w : Nat) (d : List Byte) (y : BitVec 10) : OnlyStores s (s.putWord w d y) :=
  ⟨sameBanks_refl s, rfl⟩

theorem onlyStores_trans {a b c : State} (h : OnlyStores a b) (g : OnlyStores b c) : OnlyStores a c := by
  obtain ⟨hbanks, hrest⟩ := h
  obtain ⟨gbanks, grest⟩ := g
  refine ⟨sameBanks_trans hbanks gbanks, ?_⟩
  rw [← grest] at hrest
  exact hrest

/-- Bytes that a write gives by address, of each word all or none. -/
def WholeWords (f : Nat → Option Byte) : Prop :=
  ∀ w, (∀ k, k < 32 → f (32 * w + k) = none) ∨ ∀ k, k < 32 → (f (32 * w + k)).isSome

/-- What a write of the bytes `f` to the words `ws` leaves: their bytes, and clean check bits. -/
structure Stores (s u : State) (ws : Nat → Prop) (f : Nat → Option Byte) : Prop where
  only : OnlyStores s u
  byte : ∀ a, ws (a / 32) → memByte u a = (f a).getD (memByte s a)
  synd : ∀ w, ws w → u.syndrome w = if (f (32 * w)).isSome then 0 else s.syndrome w
  bytes : ∀ a, ¬ ws (a / 32) → memByte u a = memByte s a
  synds : ∀ w, ¬ ws w → u.syndrome w = s.syndrome w

theorem writeWord_whole (s : State) (i : AccessInfo) (w : Nat) {f : Nat → Option Byte} (hf : WholeWords f) :
    ∃ u, s.writeWord i w (fun k => f (32 * w + k)) false = (stOK, u) ∧ Stores s u (fun v => v = w) f := by
  unfold State.writeWord
  rcases hf w with hnone | hsome
  · rw [if_pos (by simpa using hnone)]
    refine ⟨s, rfl, ⟨sameBanks_refl s, rfl⟩, fun a ha => ?_, fun v hv => ?_, fun _ _ => rfl, fun _ _ => rfl⟩
    · have hfa := hnone (a % 32) (Nat.mod_lt _ (by decide))
      rw [← ha, Nat.div_add_mod] at hfa
      rw [hfa, Option.getD_none]
    · have hfv := hnone 0 (by decide)
      rw [hv, show f (32 * w) = none from hfv]
      rfl
  · have h0 : (f (32 * w)).isSome := hsome 0 (by decide)
    rw [if_neg (by simpa using ⟨0, by decide, Option.isSome_iff_ne_none.1 h0⟩), if_pos (by simpa using hsome)]
    refine ⟨_, rfl, onlyStores_putWord .., fun a ha => ?_, fun v hv => ?_, fun a ha => ?_, fun v hv => ?_⟩
    · have hlt : a % 32 < 32 := Nat.mod_lt _ (by decide)
      obtain ⟨b, hb⟩ := Option.isSome_iff_exists.1 (hsome _ hlt)
      rw [memByte_putWord, if_pos ha, byteAt_merge _ _ hlt, hb]
      rw [← ha, Nat.div_add_mod] at hb
      rw [hb]
      rfl
    · rw [syndrome_putWord, if_pos hv, hv, if_pos h0]
      rfl
    · rw [memByte_putWord, if_neg ha]
    · rw [syndrome_putWord, if_neg hv]

theorem stores_refl (s : State) (f : Nat → Option Byte) : Stores s s (fun _ => False) f :=
  ⟨⟨sameBanks_refl s, rfl⟩, fun _ h => h.elim, fun _ h => h.elim, fun _ _ => rfl, fun _ _ => rfl⟩

/-- Two writes to different words make one write. -/
theorem Stores.trans {s t u : State} {ws vs : Nat → Prop} {f : Nat → Option Byte} (h : Stores s t ws f) (g : Stores t u vs f)
    (hdisj : ∀ w, ws w → ¬ vs w) : Stores s u (fun w => ws w ∨ vs w) f where
  only := onlyStores_trans h.only g.only
  byte a ha := by
    by_cases hv : vs (a / 32)
    · rw [g.byte a hv, h.bytes a (fun hw => hdisj _ hw hv)]
    · rw [g.bytes a hv, h.byte a (ha.resolve_right hv)]
  synd w hw := by
    by_cases hv : vs w
    · rw [g.synd w hv, h.synds w (fun hws => hdisj _ hws hv)]
    · rw [g.synds w hv, h.synd w (hw.resolve_right hv)]
  bytes a ha := by
    obtain ⟨hw, hv⟩ := not_or.1 ha
    rw [g.bytes a hv, h.bytes a hw]
  synds w hw := by
    obtain ⟨hws, hv⟩ := not_or.1 hw
    rw [g.synds w hv, h.synds w hws]

theorem Stores.congr {s u : State} {ws vs : Nat → Prop} {f g : Nat → Option Byte} (h : Stores s u ws f)
    (hws : ∀ w, vs w ↔ ws w) (hfg : ∀ a, ws (a / 32) → g a = f a) : Stores s u vs g where
  only := h.only
  byte a ha := by rw [h.byte a ((hws _).1 ha), hfg a ((hws _).1 ha)]
  synd w hw := by rw [h.synd w ((hws _).1 hw), hfg (32 * w) (by simpa using (hws _).1 hw)]
  bytes a ha := h.bytes a (fun hw => ha ((hws _).2 hw))
  synds w hw := h.synds w (fun hv => hw ((hws _).2 hv))

theorem writeWords_whole (i : AccessInfo) {f : Nat → Option Byte} (hf : WholeWords f) (n : Nat) : ∀ (s : State) (w : Nat),
    ∃ u, s.writeWords i w f (fun _ => false) n = (stOK, u) ∧ Stores s u (fun v => w ≤ v ∧ v < w + n) f := by
  induction n with
  | zero => exact fun s w => ⟨s, rfl, (stores_refl s f).congr (fun v => ⟨fun hv => by omega, fun hv => hv.elim⟩) (fun _ h => h.elim)⟩
  | succ n ih =>
    intro s w
    obtain ⟨t, ht, hst⟩ := writeWord_whole s i w hf
    obtain ⟨u, hu, htu⟩ := ih t (w + 1)
    refine ⟨u, ?_, (hst.trans htu (fun v hv hlt => by omega)).congr (fun v => by omega) (fun _ _ => rfl)⟩
    rw [State.writeWords, ht]
    simp only [hu]
    rfl

theorem writeLine_whole (s : State) (i : AccessInfo) {a : Nat} (ha : a % 256 = 0) {f : Nat → Option Byte} (hf : WholeWords f) :
    ∃ u, s.writeLine i a f (fun _ => false) = (stOK, u) ∧ Stores s u (fun v => v / 8 * 256 = a) f := by
  obtain ⟨u, hu, hst⟩ := writeWords_whole i hf 8 s (a / 256 * 8)
  refine ⟨u, ?_, hst.congr (fun v => by omega) (fun _ _ => rfl)⟩
  rw [State.writeLine, hu]
  exact Prod.ext rfl (countPoison_ok u)

/-! ### Lines of a handle -/

/-- The address of the handle's bytes, by offset. -/
theorem phys_add (s : State) (c h : Nat) {o b : Nat} (ho : o % 256 = 0) (hb : b < 256) : s.phys c h (o + b) = s.phys c h o + b :=
  translate_add _ ho hb

/-- What a write of lines of a handle leaves: by offset the bytes written, and nothing outside its lines. -/
structure StoresLines (s u : State) (c h o n : Nat) (f : Nat → Option Byte) : Prop where
  only : OnlyStores s u
  byte : ∀ i, i < 256 * n → memByte u (s.phys c h (o + i)) = (f (o + i)).getD (memByte s (s.phys c h (o + i)))
  synd : ∀ i, i < 256 * n → u.syndrome (s.phys c h (o + i) / 32) =
    if (f ((o + i) / 32 * 32)).isSome then 0 else s.syndrome (s.phys c h (o + i) / 32)
  bytes : ∀ a, a / 256 * 256 ∉ s.linesFrom c h o n → memByte u a = memByte s a
  synds : ∀ w, w / 8 * 256 ∉ s.linesFrom c h o n → u.syndrome w = s.syndrome w

theorem phys_of_onlyStores {s u : State} (h : OnlyStores s u) (c hd o : Nat) : u.phys c hd o = s.phys c hd o :=
  (congrArg (fun x : State => x.phys c hd o) h.2 :)

theorem linesFrom_of_onlyStores {s u : State} (h : OnlyStores s u) (c hd o n : Nat) :
    u.linesFrom c hd o n = s.linesFrom c hd o n := by
  simp only [State.linesFrom, phys_of_onlyStores h]

theorem phys_div_mem_linesFrom (s : State) (c h : Nat) {o n i : Nat} (ho : o % 256 = 0) (hi : i < 256 * n) :
    s.phys c h (o + i) / 256 * 256 ∈ s.linesFrom c h o n := by
  refine List.mem_map.2 ⟨i / 256, List.mem_range.2 (by omega), ?_⟩
  have haligned : s.phys c h (o + 256 * (i / 256)) % 256 = 0 := translate_aligned _ (by omega)
  have hadd := phys_add s c h (o := o + 256 * (i / 256)) (b := i % 256) (by omega) (by omega)
  rw [show o + 256 * (i / 256) + i % 256 = o + i by omega] at hadd
  omega

/-- The write of one line of a handle. -/
theorem writeLine_handle (s : State) (c h : Nat) {o : Nat} (ho : o % 256 = 0) {f : Nat → Option Byte} (hf : WholeWords f) :
    ∃ u, (s.grantX (s.phys c h o)).writeLine (s.unitInfo c h) (s.phys c h o) (fun x => f (o + (x - s.phys c h o)))
        (fun _ => false) = (stOK, u) ∧ StoresLines s u c h o 1 f := by
  have haligned : s.phys c h o % 256 = 0 := translate_aligned _ ho
  have hwhole : WholeWords (fun x => f (o + (x - s.phys c h o))) := by
    intro w
    dsimp only
    by_cases hw : 32 * w < s.phys c h o
    · have heq : ∀ k, k < 32 → o + (32 * w + k - s.phys c h o) = o := fun k hk => by omega
      cases hfo : f o with
      | none => exact .inl fun k hk => by rw [heq k hk, hfo]
      | some b => exact .inr fun k hk => by rw [heq k hk, hfo]; rfl
    · have heq : ∀ k, k < 32 → o + (32 * w + k - s.phys c h o) = 32 * (o / 32 + (w - s.phys c h o / 32)) + k :=
        fun k hk => by omega
      exact (hf (o / 32 + (w - s.phys c h o / 32))).imp (fun hn k hk => by rw [heq k hk]; exact hn k hk)
        (fun hn k hk => by rw [heq k hk]; exact hn k hk)
  obtain ⟨u, hu, hst⟩ := writeLine_whole (s.grantX (s.phys c h o)) (s.unitInfo c h) haligned hwhole
  have hgrant := onlyGrants_grantX s (s.phys c h o)
  have hmem : ∀ a, memByte (s.grantX (s.phys c h o)) a = memByte s a := memByte_of_sameMemory (sameMemory_of_onlyGrants hgrant)
  have hline : ∀ i, i < 256 → s.phys c h (o + i) = s.phys c h o + i := fun i hi => phys_add s c h ho hi
  refine ⟨u, hu, onlyStores_trans (onlyStores_of_onlyGrants hgrant) hst.only, fun i hi => ?_, fun i hi => ?_, fun a ha => ?_,
    fun w hw => ?_⟩
  · rw [hline i (by omega), hst.byte _ (by omega), hmem, Nat.add_sub_cancel_left]
  · rw [hline i (by omega), hst.synd _ (by omega), show o + (32 * ((s.phys c h o + i) / 32) - s.phys c h o) = (o + i) / 32 * 32 by omega]
    rfl
  · rw [linesFrom_one, List.mem_singleton] at ha
    rw [show a / 256 * 256 = a / 32 / 8 * 256 by omega] at ha
    rw [hst.bytes a ha, hmem]
  · rw [linesFrom_one, List.mem_singleton] at hw
    rw [hst.synds w hw]
    rfl

/-- The write of different lines of a handle, of each word all or none. -/
theorem writeLines_whole (c h : Nat) {f : Nat → Option Byte} (hf : WholeWords f) (n : Nat) : ∀ (s : State) (o : Nat),
    o % 256 = 0 → (s.linesFrom c h o n).Nodup →
    ∃ u, s.writeLines c h o f (fun _ => false) n = (stOK, u) ∧ StoresLines s u c h o n f := by
  induction n with
  | zero =>
    exact fun s o _ _ => ⟨s, rfl, ⟨sameBanks_refl s, rfl⟩, fun i hi => by omega, fun i hi => by omega, fun _ _ => rfl,
      fun _ _ => rfl⟩
  | succ n ih =>
    intro s o ho hnodup
    rw [linesFrom_succ, List.nodup_cons] at hnodup
    obtain ⟨hfirst, hrest⟩ := hnodup
    obtain ⟨t, ht, hst⟩ := writeLine_handle s c h ho hf
    obtain ⟨u, hu, htu⟩ := ih t (o + 256) (by omega) (by rwa [linesFrom_of_onlyStores hst.only])
    have hphys := phys_of_onlyStores hst.only c h
    have hlines := linesFrom_of_onlyStores hst.only c h (o + 256) n
    have hone : ∀ i, i < 256 → s.phys c h (o + i) / 256 * 256 ∉ s.linesFrom c h (o + 256) n := by
      intro i hi
      have := phys_add s c h ho hi
      have : s.phys c h o % 256 = 0 := translate_aligned _ ho
      rwa [show s.phys c h (o + i) / 256 * 256 = s.phys c h o by omega]
    have hlater : ∀ i, i < 256 * n → s.phys c h (o + 256 + i) / 256 * 256 ≠ s.phys c h o := fun i hi heq =>
      hfirst (heq ▸ phys_div_mem_linesFrom s c h (by omega) hi)
    refine ⟨u, ?_, onlyStores_trans hst.only htu.only, fun i hi => ?_, fun i hi => ?_, fun a ha => ?_, fun w hw => ?_⟩
    · rw [State.writeLines]
      simp only [ht, hu]
      rfl
    · by_cases h256 : i < 256
      · rw [htu.bytes _ (by rw [hlines]; exact hone i h256), hst.byte i (by omega)]
      · have hb := htu.byte (i - 256) (by omega)
        have hl := hlater (i - 256) (by omega)
        rw [hphys, show o + 256 + (i - 256) = o + i by omega] at hb
        rw [show o + 256 + (i - 256) = o + i by omega] at hl
        rw [hb, hst.bytes _ (by rw [linesFrom_one, List.mem_singleton]; exact hl)]
    · by_cases h256 : i < 256
      · have hi' := hone i h256
        rw [htu.synds _ (by rw [hlines, show s.phys c h (o + i) / 32 / 8 * 256 = s.phys c h (o + i) / 256 * 256 by omega]; exact hi'),
          hst.synd i (by omega)]
      · have hb := htu.synd (i - 256) (by omega)
        have hl := hlater (i - 256) (by omega)
        rw [hphys, show o + 256 + (i - 256) = o + i by omega] at hb
        rw [show o + 256 + (i - 256) = o + i by omega] at hl
        rw [hb, hst.synds _ (by
          rw [linesFrom_one, List.mem_singleton,
            show s.phys c h (o + i) / 32 / 8 * 256 = s.phys c h (o + i) / 256 * 256 by omega]
          exact hl)]
    · rw [linesFrom_succ, List.mem_cons, not_or] at ha
      rw [htu.bytes a (by rw [hlines]; exact ha.2), hst.bytes a (by rw [linesFrom_one, List.mem_singleton]; exact ha.1)]
    · rw [linesFrom_succ, List.mem_cons, not_or] at hw
      rw [htu.synds w (by rw [hlines]; exact hw.2), hst.synds w (by rw [linesFrom_one, List.mem_singleton]; exact hw.1)]

end Sys2Proof.Machine

end

section

namespace Sys2Proof.Machine

/-! ## COPY and FILL (R264, R265) -/

section

variable {s u v : State} {c hd o n : Nat} {f : Nat → Option Byte}

/-- Lines that a write gives every byte of hold those bytes afterwards, and are clean. -/
theorem StoresLines.holds (h : StoresLines s u c hd o n f) (hcis : v.cis = u.cis) (hact : v.act = u.act) (ho : o % 256 = 0)
    {b : Nat → Byte} (hf : ∀ i, i < 256 * n → f (o + i) = some (b i)) :
    handleBytes v c hd o (256 * n) = (List.range (256 * n)).map b ∧
      (∀ a, a / 256 * 256 ∉ s.linesFrom c hd o n → memByte v a = memByte s a) ∧
      (∀ w, w / 8 * 256 ∈ s.linesFrom c hd o n → Clean v w) ∧
      ∀ w, w / 8 * 256 ∉ s.linesFrom c hd o n → v.syndrome w = s.syndrome w := by
  have hmem : ∀ a, memByte v a = memByte u a := fun a => by rw [memByte, hcis, memByte]
  have hsynd : ∀ w, v.syndrome w = u.syndrome w := fun w => by rw [State.syndrome, hcis, State.syndrome]
  have hphys : ∀ x, v.phys c hd x = s.phys c hd x := fun x => by
    rw [State.phys, hact, ← phys_of_onlyStores h.only c hd x, State.phys]
  refine ⟨List.map_congr_left fun i hi => ?_, fun a ha => ?_, fun w hw => ?_, fun w hw => ?_⟩
  · have hi' := List.mem_range.1 hi
    rw [hmem, hphys, h.byte i hi', hf i hi', Option.getD_some]
  · rw [hmem, h.bytes a ha]
  · obtain ⟨i, hi, hline⟩ := List.mem_map.1 hw
    have hin := List.mem_range.1 hi
    have hword : s.phys c hd (o + (256 * i + 32 * (w % 8))) = 32 * w := by
      rw [← Nat.add_assoc, phys_add s c hd (by omega) (by omega), hline]
      omega
    have hclean := h.synd (256 * i + 32 * (w % 8)) (by omega)
    rw [hword, Nat.mul_div_cancel_left _ (by decide), show (o + (256 * i + 32 * (w % 8))) / 32 * 32 =
      o + (256 * i + 32 * (w % 8)) by omega, hf _ (by omega), Option.isSome_some, if_pos rfl] at hclean
    rw [Clean, hsynd, hclean]
  · rw [hsynd, h.synds w hw]

/-- Stores between a dispatch and its end leave nothing but memory and the Pumphouse's part. -/
theorem onlyMemory_of_onlyStores {a : State} (ha : OnlyPumphouse s a) (hu : OnlyStores a u) (hv : { v with
    queues := u.queues
    pmh := u.pmh } = u) : OnlyMemory s v := by
  obtain ⟨hbanks, hrest⟩ := hu
  have hcis : v.cis = u.cis := (congrArg (fun x : State => x.cis) hv :)
  have hsame : a.cis = s.cis := (congrArg (fun x : State => x.cis) ha :)
  refine ⟨fun tr k => ?_, ?_⟩
  · have hk := hbanks tr k
    rw [State.bank, State.bank, hsame, ← hcis] at hk
    exact hk
  · rw [← hsame]
    have h1 := congrArg (fun x : State => { x with
      queues := s.queues
      pmh := s.pmh
      cis := { x.cis with
        mem := a.cis.mem
        synd := a.cis.synd
        banks := a.cis.banks
        slots := a.cis.slots } }) hv
    have h2 := congrArg (fun x : State => { x with
      queues := s.queues
      pmh := s.pmh }) hrest
    exact h1.trans (h2.trans ha)

theorem pmh_of_onlyStores (h : OnlyStores s u) : u.pmh = s.pmh := (congrArg (fun x : State => x.pmh) h.2 :)
theorem queues_of_onlyStores (h : OnlyStores s u) : u.queues = s.queues := (congrArg (fun x : State => x.queues) h.2 :)
theorem act_of_onlyStores (h : OnlyStores s u) : u.act = s.act := (congrArg (fun x : State => x.act) h.2 :)

end

section

variable {s u : State} {q k : Nat} {p : Pkt} {rest : List Pkt}

/-- The semaphore that a COPY with SEMEN adds to. -/
def State.addSemIf (s : State) (en : Bool) (n : Nat) (v : Word) : State := if en then s.addSem n v else s

theorem addSemIf_frame (u : State) (en : Bool) (n : Nat) (v : Word) :
    { u.addSemIf en n v with pmh := u.pmh } = u ∧
      { (u.addSemIf en n v).pmh with sem := u.pmh.sem } = u.pmh := by
  unfold State.addSemIf
  split <;> exact ⟨rfl, rfl⟩

theorem toNat_semOf_addSemIf (u : State) (en : Bool) (n m : Nat) (v : Word) : ((u.addSemIf en n v).semOf m).toNat =
    if en = true ∧ m = n then min ((u.semOf m).toNat + v.toNat) (2 ^ 32 - 1) else (u.semOf m).toNat := by
  cases en with
  | false => rw [if_neg (by simp)]; rfl
  | true =>
    rw [State.addSemIf, if_pos rfl, toNat_semOf_addSem]
    by_cases hm : m = n
    · rw [if_pos hm, if_pos ⟨rfl, hm⟩, hm]
    · rw [if_neg hm, if_neg (by simp [hm])]

theorem act_of_onlyPumphouse {s a : State} (h : OnlyPumphouse s a) : a.act = s.act := (congrArg (fun x : State => x.act) h :)
theorem cis_of_onlyPumphouse {s a : State} (h : OnlyPumphouse s a) : a.cis = s.cis := (congrArg (fun x : State => x.cis) h :)

/-- What a dispatch leaves of the memory and of the handles' addresses: everything. -/
theorem linesFrom_atDispatch (s : State) (q k : Nat) (p : Pkt) (c hd o n : Nat) :
    (atDispatch s q k p).linesFrom c hd o n = s.linesFrom c hd o n := by
  simp only [State.linesFrom, State.phys, act_of_onlyPumphouse (atDispatch_frame s q k p)]

theorem physLines_atDispatch (s : State) (q k : Nat) (p : Pkt) (c hd o n : Nat) :
    (atDispatch s q k p).physLines c hd o n = s.physLines c hd o n := by
  simp only [State.physLines, State.phys, act_of_onlyPumphouse (atDispatch_frame s q k p)]

theorem memByte_atDispatch (s : State) (q k : Nat) (p : Pkt) (a : Nat) : memByte (atDispatch s q k p) a = memByte s a := by
  rw [memByte, cis_of_onlyPumphouse (atDispatch_frame s q k p), memByte]

theorem syndrome_atDispatch (s : State) (q k : Nat) (p : Pkt) (w : Nat) : (atDispatch s q k p).syndrome w = s.syndrome w := by
  rw [State.syndrome, cis_of_onlyPumphouse (atDispatch_frame s q k p), State.syndrome]

theorem handleBytes_atDispatch (s : State) (q k : Nat) (p : Pkt) (c hd o n : Nat) :
    handleBytes (atDispatch s q k p) c hd o n = handleBytes s c hd o n := by
  simp only [handleBytes, memByte_atDispatch, State.phys, act_of_onlyPumphouse (atDispatch_frame s q k p)]

theorem cleanLines_atDispatch (s : State) (q k : Nat) (p : Pkt) (l : List Nat) :
    CleanLines (atDispatch s q k p) l ↔ CleanLines s l := by
  simp only [CleanLines, Clean, syndrome_atDispatch]

/-- A command that has stored words, and has moved its semaphore where it has one, ends with OK. -/
theorem stores_end (h : DispatchReady s q k p rest) (hu : OnlyStores (atDispatch s q k p) u) (en : Bool) (n : Nat) (v : Word)
    (data : List Byte) :
    let w := (u.addSemIf en n v).finish k stOK 0 0 data
    w.cis = u.cis ∧ w.act = u.act ∧ OnlyMemory s w ∧ SamePumphouse s { w with pmh := { w.pmh with sem := s.pmh.sem } } ∧
      (∀ m, w.semOf m = (u.addSemIf en n v).semOf m) ∧ Ended s w q k p rest stOK 0 data ∧ (en = false → SamePumphouse s w) := by
  obtain ⟨hframe, hsem⟩ := addSemIf_frame u en n v
  have hpmh := pmh_of_onlyStores hu
  have hbooked := booked_of_same (booked_atDispatch h) hpmh (queues_of_onlyStores hu)
  have hbooked' : Booked s (u.addSemIf en n v) q k (dispatched (s.queue q) k p rest) (some (entryOf s q p .ended)) [] := by
    unfold State.addSemIf
    split
    · exact booked_setSem hbooked n _
    · exact hbooked
  have hs : SamePumphouse s u := by
    rw [SamePumphouse, hpmh]
    exact atDispatch_samePumphouse s q k p
  have hsame : SamePumphouse s { u.addSemIf en n v with pmh := { (u.addSemIf en n v).pmh with sem := s.pmh.sem } } := by
    unfold State.addSemIf
    split
    · exact (congrArg (fun x : Pmh => { x with sem := s.pmh.sem }) hs :)
    · exact (congrArg (fun x : Pmh => { x with sem := s.pmh.sem }) hs :)
  obtain ⟨hended, hsame', hsems⟩ := ends_signalled hbooked' hsame stOK data
  obtain ⟨cmds, compl, heq⟩ := finish_queue_eq hbooked'.cmd rfl stOK 0 0 data
  refine ⟨?_, ?_, onlyMemory_of_onlyStores (atDispatch_frame s q k p) hu ?_, hsame', hsems, hended, fun hen => ?_⟩
  · rw [heq]
    exact (congrArg (fun x : State => x.cis) hframe :)
  · rw [heq]
    exact (congrArg (fun x : State => x.act) hframe :)
  · rw [heq]
    exact (congrArg (fun x : State => { x with queues := u.queues }) hframe :)
  · rw [heq, hen]
    exact hs

/-- `StoresLines.holds` for the lines of a command, in terms of the state in which it dispatches. -/
theorem holds_atDispatch {v : State} {c hd o len : Nat} {f : Nat → Option Byte}
    (h : StoresLines (atDispatch s q k p) u c hd o (len / 256) f) (hcis : v.cis = u.cis) (hact : v.act = u.act) (ho : o % 256 = 0)
    (hlen : len % 256 = 0) {b : Nat → Byte} (hf : ∀ i, i < len → f (o + i) = some (b i)) :
    handleBytes v c hd o len = (List.range len).map b ∧
      (∀ a, a / 256 * 256 ∉ s.physLines c hd o len → memByte v a = memByte s a) ∧
      (∀ w, w / 8 * 256 ∈ s.physLines c hd o len → Clean v w) ∧
      ∀ w, w / 8 * 256 ∉ s.physLines c hd o len → v.syndrome w = s.syndrome w := by
  have hl : 256 * (len / 256) = len := Nat.mul_div_cancel' (Nat.dvd_of_mod_eq_zero hlen)
  have hholds := h.holds (b := b) hcis hact ho (fun i hi => hf i (by rwa [hl] at hi))
  simp only [hl, linesFrom_atDispatch, memByte_atDispatch, syndrome_atDispatch] at hholds
  exact hholds

theorem fin_apply (u s : State) (k : Nat) (st : Half) (reason : Byte) (fl : BitVec 4) (data : List Byte) :
    (DispOut.fin u st reason fl data).apply s k = u.finish k st reason fl data := rfl

/-- The bytes of a FILL, by offset (R265). -/
def fillByte (p : Pkt) (x : Nat) : Option Byte := some (byteAt p.bytes (32 + x % 8))

theorem fillAct_writes (u : State) (k : Nat) (hoff : p.u64 16 % 256 = 0) (hlen : lengthFault (p.u64 24) = false)
    (hcheck : u.checkRange p.ctx (p.handle 10) .ww (p.u64 16) (p.u64 24) = none) :
    fillAct u k p =
      let w := u.writeLines p.ctx (p.handle 10) (p.u64 16) (fillByte p) (fun _ => false) (p.u64 24 / 256)
      .fin w.2 w.1 0 0 (leBytes 8 (p.u64 24)) := by
  unfold fillAct
  simp only [hoff, hlen, hcheck, ne_eq, not_true_eq_false, if_false, Bool.false_eq_true]
  rfl

/-- FILL: the pattern of eight bytes, and nothing else. -/
theorem fill_stores {q : Fin 512} (h : DispatchReady s q.val k p rest) (hop : p.opcode = 0x09) (hoff : p.u64 16 % 256 = 0)
    (hmod : p.u64 24 % 256 = 0) (hpos : 0 < p.u64 24) (hmax : p.u64 24 ≤ 2 ^ 30)
    (hcheck : s.checkRange p.ctx (p.handle 10) .ww (p.u64 16) (p.u64 24) = none)
    (hnodup : (s.linesFrom p.ctx (p.handle 10) (p.u64 16) (p.u64 24 / 256)).Nodup) :
    ∃ u, StoresLines (atDispatch s q.val k p) u p.ctx (p.handle 10) (p.u64 16) (p.u64 24 / 256) (fillByte p) ∧
      exec (.fill q) s = .next (u.finish k stOK 0 0 (leBytes 8 (p.u64 24))) := by
  obtain ⟨u, hu, hst⟩ := writeLines_whole p.ctx (p.handle 10) (f := fillByte p) (fun _ => .inr fun _ _ => rfl) (p.u64 24 / 256)
    (atDispatch s q.val k p) (p.u64 16) hoff (by rwa [linesFrom_atDispatch])
  refine ⟨u, hst, ?_⟩
  rw [exec_dispatch (exec_fill q s) h (by simp [hop]), fillAct_writes _ _ hoff (lengthFault_eq_false.2 ⟨hpos, hmod, hmax⟩)
    ((checkRange_atDispatch ..).trans hcheck), hu, fin_apply]

/-- The bytes of a range, by offset; none outside it. -/
def rangeByte (bytes : List Byte) (o x : Nat) : Option Byte :=
  if o ≤ x ∧ x < o + bytes.length then some (byteAt bytes (x - o)) else none

theorem wholeWords_rangeByte {bytes : List Byte} {o : Nat} (ho : o % 32 = 0) (hl : bytes.length % 32 = 0) :
    WholeWords (rangeByte bytes o) := by
  intro w
  by_cases hin : o ≤ 32 * w ∧ 32 * w < o + bytes.length
  · exact .inr fun k hk => by rw [rangeByte, if_pos (by omega)]; rfl
  · exact .inl fun k hk => by rw [rangeByte, if_neg (by omega)]

theorem rangeByte_in {bytes : List Byte} {o i : Nat} (hi : i < bytes.length) : rangeByte bytes o (o + i) = some (byteAt bytes i) := by
  rw [rangeByte, if_pos (by omega), Nat.add_sub_cancel_left]

/-- Unmarked bytes of whole words are written by lines. -/
theorem writeMarked_eq (u : State) (c hd o : Nat) (bytes : List Byte) (m : Nat) :
    u.writeMarked c hd o bytes (List.replicate m false) =
      u.writeLines c hd (o / 256 * 256) (rangeByte bytes o) (fun _ => false) (lineCount o bytes.length) := by
  unfold State.writeMarked
  congr 1
  funext w
  simp [List.getD_eq_getElem?_getD, List.getElem?_replicate]
  split <;> rfl

theorem line_start {o : Nat} (ho : o % 256 = 0) : o / 256 * 256 = o := Nat.div_mul_cancel (Nat.dvd_of_mod_eq_zero ho)

theorem lineCount_lines {o n : Nat} (ho : o % 256 = 0) (hn : n % 256 = 0) : lineCount o n = n / 256 := by
  unfold lineCount
  split <;> omega

theorem copyFault_none (hboth : bit (p.byte 12) 0 = false) (hsoff : p.u64 16 % 256 = 0) (hdoff : p.u64 24 % 256 = 0)
    (hlen : lengthFault (p.u64 32) = false) : copyFault p = none := by
  simp [copyFault, hboth, hsoff, hdoff, hlen]

theorem copyAct_writes (u : State) (k : Nat) (hfault : copyFault p = none)
    (hsrc : u.checkRange p.ctx (p.handle 10) .wr (p.u64 16) (p.u64 32) = none)
    (hdst : u.checkRange p.ctx (p.handle 11) .ww (p.u64 24) (p.u64 32) = none)
    (hdisj : ∀ a ∈ u.physLines p.ctx (p.handle 10) (p.u64 16) (p.u64 32), a ∉ u.physLines p.ctx (p.handle 11) (p.u64 24) (p.u64 32))
    (hsem : bit (p.byte 12) 3 = true → u.semOk p.ctx (p.byte 13) = true) :
    copyAct u k p =
      let g := u.readBytes p.ctx (p.handle 10) (p.u64 16) (p.u64 32)
      let w := g.state.writeMarked p.ctx (p.handle 11) (p.u64 24) g.bytes g.marks
      .fin (w.2.addSemIf (bit (p.byte 12) 3) (p.byte 13) (wordAt p.bytes 40)) (worstData g.status w.1) 0 0
        (leBytes 8 (p.u64 32)) := by
  have hany : (u.physLines p.ctx (p.handle 10) (p.u64 16) (p.u64 32)).any
      (fun a => (u.physLines p.ctx (p.handle 11) (p.u64 24) (p.u64 32)).contains a) = false := by
    simpa using hdisj
  have hsem' : (bit (p.byte 12) 3 && !u.semOk p.ctx (p.byte 13)) = false := by
    cases hb : bit (p.byte 12) 3 with
    | false => rfl
    | true => rw [hsem hb]; rfl
  unfold copyAct
  simp only [hfault, hsrc, hdst, firstFail, hany, hsem', if_false, Bool.false_eq_true]
  rfl

theorem syndrome_of_onlyGrants {s u : State} (h : OnlyGrants s u) (w : Nat) : u.syndrome w = s.syndrome w := by
  rw [State.syndrome, (sameMemory_of_onlyGrants h).2, State.syndrome]

/-- Grants before the stores of lines. -/
theorem storesLines_of_onlyGrants {s t u : State} {c hd o n : Nat} {f : Nat → Option Byte} (hg : OnlyGrants s t)
    (h : StoresLines t u c hd o n f) : StoresLines s u c hd o n f where
  only := onlyStores_trans (onlyStores_of_onlyGrants hg) h.only
  byte i hi := by
    have hb := h.byte i hi
    rwa [phys_of_onlyGrants hg, memByte_of_sameMemory (sameMemory_of_onlyGrants hg)] at hb
  synd i hi := by
    have hb := h.synd i hi
    rwa [phys_of_onlyGrants hg, syndrome_of_onlyGrants hg] at hb
  bytes a ha := by
    rw [h.bytes a (by rwa [linesFrom_of_onlyGrants hg]), memByte_of_sameMemory (sameMemory_of_onlyGrants hg)]
  synds w hw := by rw [h.synds w (by rwa [linesFrom_of_onlyGrants hg]), syndrome_of_onlyGrants hg]

/-- The read and the write of a COPY of clean lines: the source's bytes go to the destination's lines, unmarked. -/
theorem copy_lines {u : State} {c src dst soff doff len : Nat} (hsoff : soff % 256 = 0) (hdoff : doff % 256 = 0)
    (hlen : len % 256 = 0) (hclean : CleanLines u (u.linesFrom c src soff (len / 256)))
    (hnodup : (u.linesFrom c dst doff (len / 256)).Nodup) :
    let g := u.readBytes c src soff len
    ∃ w, g.state.writeMarked c dst doff g.bytes g.marks = (stOK, w) ∧ g.status = stOK ∧
      StoresLines u w c dst doff (len / 256) (rangeByte (handleBytes u c src soff len) doff) := by
  have hs := line_start hsoff
  have hd := line_start hdoff
  obtain ⟨v, hv, hread⟩ := readBytes_clean (s := u) (c := c) (h := src) (o := soff) (n := len)
    (by rw [hs, lineCount_lines hsoff hlen]; exact hclean)
  have hl := length_handleBytes u c src soff len
  obtain ⟨w, hw, hst⟩ := writeLines_whole c dst
    (wholeWords_rangeByte (bytes := handleBytes u c src soff len) (o := doff) (by omega) (by rw [hl]; omega)) (len / 256) v doff hdoff
    (by rwa [linesFrom_of_onlyGrants hv])
  refine ⟨w, ?_, by rw [hread], storesLines_of_onlyGrants hv hst⟩
  rw [hread]
  dsimp only
  rw [writeMarked_eq, hl, hd, lineCount_lines hdoff hlen, hw]

/-- COPY: the source's bytes to the destination, and its semaphore. -/
theorem copy_stores {q : Fin 512} (h : DispatchReady s q.val k p rest) (hop : p.opcode = 0x08) (hsrc : bit (p.byte 12) 0 = false)
    (hdst : bit (p.byte 12) 1 = false) (hsoff : p.u64 16 % 256 = 0) (hdoff : p.u64 24 % 256 = 0) (hlen : p.u64 32 % 256 = 0)
    (hpos : 0 < p.u64 32) (hmax : p.u64 32 ≤ 2 ^ 30)
    (hread : s.checkRange p.ctx (p.handle 10) .wr (p.u64 16) (p.u64 32) = none)
    (hwrite : s.checkRange p.ctx (p.handle 11) .ww (p.u64 24) (p.u64 32) = none)
    (hclean : CleanLines s (s.linesFrom p.ctx (p.handle 10) (p.u64 16) (p.u64 32 / 256)))
    (hnodup : (s.linesFrom p.ctx (p.handle 11) (p.u64 24) (p.u64 32 / 256)).Nodup)
    (hdisj : ∀ a ∈ s.physLines p.ctx (p.handle 10) (p.u64 16) (p.u64 32), a ∉ s.physLines p.ctx (p.handle 11) (p.u64 24) (p.u64 32))
    (hsem : bit (p.byte 12) 3 = true → s.semOk p.ctx (p.byte 13) = true) :
    ∃ u, StoresLines (atDispatch s q.val k p) u p.ctx (p.handle 11) (p.u64 24) (p.u64 32 / 256)
        (rangeByte (handleBytes s p.ctx (p.handle 10) (p.u64 16) (p.u64 32)) (p.u64 24)) ∧
      exec (.copy q) s = .next ((u.addSemIf (bit (p.byte 12) 3) (p.byte 13) (wordAt p.bytes 40)).finish k stOK 0 0
        (leBytes 8 (p.u64 32))) := by
  rw [← linesFrom_atDispatch s q.val k p] at hclean hnodup
  obtain ⟨u, hu, hstatus, hst⟩ := copy_lines hsoff hdoff hlen ((cleanLines_atDispatch ..).2 hclean) hnodup
  rw [handleBytes_atDispatch] at hst
  rw [← checkRange_atDispatch s q.val k p] at hread hwrite
  simp only [← physLines_atDispatch s q.val k p] at hdisj
  have hok : worstData stOK stOK = stOK := by decide
  refine ⟨u, hst, ?_⟩
  rw [exec_dispatch (exec_copy q s) h (by simp [copyRow, hop, hsrc, hdst]),
    copyAct_writes _ _ (copyFault_none hsrc hsoff hdoff (lengthFault_eq_false.2 ⟨hpos, hlen, hmax⟩))
      hread hwrite hdisj hsem]
  dsimp only
  rw [hu, hstatus]
  dsimp only
  rw [hok, fin_apply]

/-- Settles O28: the stores of whole lines, then the end of the command. -/
theorem copyAndFillMoveBytes : Obligations.CopyAndFillMoveBytes := by
  unfold Obligations.CopyAndFillMoveBytes
  intro q k p rest s h
  refine ⟨fun hop hsrc hdst => ?_, fun hop => ?_⟩
  · intro soff doff len semen src dst hsoff hdoff hlen hpos hmax hread hwrite hclean hnodup hdisj hsem
    obtain ⟨u, hst, hexec⟩ := copy_stores h hop hsrc hdst hsoff hdoff hlen hpos hmax hread hwrite hclean hnodup hdisj hsem
    obtain ⟨hcis, hact, honly, hsame, hsems, hended, -⟩ := stores_end h hst.only (bit (p.byte 12) 3) (p.byte 13)
      (wordAt p.bytes 40) (leBytes 8 (p.u64 32))
    obtain ⟨hbytes, hothers, hcleans, hsynds⟩ := holds_atDispatch hst hcis hact hdoff hlen
      (fun i hi => rangeByte_in (by rwa [length_handleBytes]))
    refine ⟨_, hexec, ?_, hothers, hcleans, hsynds, honly, hsame, fun n => ?_, hended⟩
    · rw [hbytes]
      exact List.map_congr_left fun i hi => byteAt_handleBytes _ _ _ _ (List.mem_range.1 hi)
    · rw [hsems, toNat_semOf_addSemIf, show u.semOf n = s.semOf n by
        rw [State.semOf, pmh_of_onlyStores hst.only, ← State.semOf, semOf_atDispatch]]
  · intro off len dst hoff hmod hpos hmax hcheck hnodup
    obtain ⟨u, hst, hexec⟩ := fill_stores h hop hoff hmod hpos hmax hcheck hnodup
    obtain ⟨hcis, hact, honly, -, -, hended, hsame⟩ := stores_end h hst.only false 0 0 (leBytes 8 (p.u64 24))
    obtain ⟨hbytes, hothers, hcleans, hsynds⟩ := holds_atDispatch hst hcis hact hoff hmod (fun i _ => rfl)
    refine ⟨_, hexec, ?_, hothers, hcleans, hsynds, honly, hsame rfl, hended⟩
    · refine hbytes.trans (List.map_congr_left fun i _ => ?_)
      rw [show (p.u64 16 + i) % 8 = i % 8 by omega]

end

end Sys2Proof.Machine

end

section

namespace Sys2Proof.Machine

/-! ## The record of a completion (R276, Table CMD-6) -/

section

variable {s u : State} {c : Nat} {r : Ring} {x : Compl}

theorem takeCompl_append {pre post : List Compl} (hx : x.ctx = c) (hpre : ∀ y ∈ pre, y.ctx ≠ c) :
    takeCompl c (pre ++ x :: post) = some (x, pre ++ post) := by
  induction pre with
  | nil => rw [List.nil_append, takeCompl, if_pos hx]; rfl
  | cons y pre ih =>
    rw [List.cons_append, takeCompl, if_neg (hpre y List.mem_cons_self), ih (fun z hz => hpre z (List.mem_cons_of_mem _ hz))]
    rfl

theorem length_padTo (n : Nat) (bs : List Byte) : (padTo n bs).length = n := by simp [padTo]

theorem byteAt_padTo {n : Nat} {bs : List Byte} (h : bs.length ≤ n) (i : Nat) : byteAt (padTo n bs) i = byteAt bs i := by
  by_cases hi : i < n
  · simp [byteAt, padTo, hi]
  · rw [byteAt, byteAt, List.getD_eq_default _ _ (by rw [length_padTo]; omega), List.getD_eq_default _ _ (by omega)]

theorem byteAt_append (as bs : List Byte) (i : Nat) :
    byteAt (as ++ bs) i = if i < as.length then byteAt as i else byteAt bs (i - as.length) := by
  rw [byteAt, List.getD_eq_getElem?_getD, List.getElem?_append]
  split <;> simp [byteAt, List.getD_eq_getElem?_getD]

/-- A record before its result data: what Table CMD-6 says of bytes 0 to 19. -/
def Compl.head (x : Compl) (phase : Nat) (now : DWord) (wave : Nat) : List Byte :=
  leBytes 2 x.tag.toNat ++ leBytes 2 (x.queue + 2 ^ 15 * phase) ++ leBytes 2 x.status.toNat
    ++ [x.reason, BitVec.ofNat 8 (x.flags.toNat + if x.late then 16 else 0)] ++ leBytes 8 now.toNat
    ++ leBytes 4 (min (wave - x.wave) (2 ^ 32 - 1))

theorem record_eq (phase : Nat) (now : DWord) (wave : Nat) : x.record phase now wave = x.head phase now wave ++ padTo 12 x.data := by
  have hphase : at_ phase 15 = 2 ^ 15 * phase := Nat.mul_comm ..
  have hlate : at_ (b2n x.late) 4 = if x.late then 16 else 0 := by cases x.late <;> rfl
  rw [Compl.record, Compl.head, hphase, hlate, elapsed]

theorem length_record (phase : Nat) (now : DWord) (wave : Nat) : (x.record phase now wave).length = 32 := by
  simp [record_eq, Compl.head, length_padTo, length_leBytes]

theorem byteAt_record (h : x.data.length ≤ 12) (phase : Nat) (now : DWord) (wave i : Nat) :
    byteAt (x.record phase now wave) i = byteAt (x.head phase now wave ++ x.data) i := by
  rw [record_eq, byteAt_append, byteAt_append, byteAt_padTo h]

theorem slotOff_aligned (r : Ring) : r.slotOff 32 % 32 = 0 := by
  rw [Ring.slotOff]
  omega

/-- A record of 32 bytes at a ring's tail is one whole word. -/
theorem ringPut_stores {bytes : List Byte} (hl : bytes.length = 32) :
    StoresLines s (s.ringPut c r bytes) c r.handle.toNat (r.slotOff 32 / 256 * 256) 1 (rangeByte bytes (r.slotOff 32)) := by
  have hoff := slotOff_aligned r
  obtain ⟨u, hu, hst⟩ := writeLines_whole c r.handle.toNat (wholeWords_rangeByte hoff (by rw [hl])) 1 s
    (r.slotOff 32 / 256 * 256) (Nat.mul_mod_left ..) (List.nodup_singleton _)
  have hput : s.ringPut c r bytes = u := by
    rw [State.ringPut, State.writeBytes, hl, show ([] : List Bool) = List.replicate 0 false from rfl, writeMarked_eq, hl,
      lineCount_one (by decide) (by omega), hu]
  rwa [hput]

theorem phys_slot (s : State) (c h o : Nat) {i : Nat} (hi : o % 256 + i < 256) :
    s.phys c h (o / 256 * 256 + (o % 256 + i)) = s.phys c h o + i := by
  have hline := phys_add s c h (o := o / 256 * 256) (b := o % 256) (Nat.mul_mod_left ..) (by omega)
  rw [phys_add s c h (Nat.mul_mod_left ..) hi, ← Nat.add_assoc, ← hline, Nat.mul_comm, Nat.div_add_mod]

theorem phys_mod (s : State) (c h o : Nat) : s.phys c h o % 256 = o % 256 ∧
    s.phys c h o / 256 * 256 = s.phys c h (o / 256 * 256) := by
  have haligned : s.phys c h (o / 256 * 256) % 256 = 0 := translate_aligned _ (Nat.mul_mod_left ..)
  have hline := phys_add s c h (o := o / 256 * 256) (b := o % 256) (Nat.mul_mod_left ..) (by omega)
  rw [Nat.mul_comm, Nat.div_add_mod] at hline
  rw [Nat.mul_comm] at haligned
  rw [hline, Nat.mul_comm (o / 256)]
  omega

/-- The bytes of the record stand at the ring's tail, and no other byte has changed. -/
theorem memByte_ringPut {bytes : List Byte} (hl : bytes.length = 32) :
    (∀ i, i < 32 → memByte (s.ringPut c r bytes) (s.phys c r.handle.toNat (r.slotOff 32) + i) = byteAt bytes i) ∧
      ∀ a, a / 32 ≠ s.phys c r.handle.toNat (r.slotOff 32) / 32 → memByte (s.ringPut c r bytes) a = memByte s a := by
  have hoff := slotOff_aligned r
  have hst : StoresLines s (s.ringPut c r bytes) c r.handle.toNat _ 1 _ := ringPut_stores hl
  generalize r.slotOff 32 = o at hoff hst ⊢
  refine ⟨fun i hi => ?_, fun a ha => ?_⟩
  · have hb := hst.byte (o % 256 + i) (by omega)
    rw [phys_slot s c _ o (by omega), show o / 256 * 256 + (o % 256 + i) = o + i by omega,
      rangeByte_in (by omega), Option.getD_some] at hb
    exact hb
  · by_cases hline : a / 256 * 256 = s.phys c r.handle.toNat (o / 256 * 256)
    · obtain ⟨hmod, hdiv⟩ := phys_mod s c r.handle.toNat o
      have hphys := phys_add s c r.handle.toNat (o := o / 256 * 256) (b := a % 256) (Nat.mul_mod_left ..) (by omega)
      rw [← hline, Nat.mul_comm (a / 256), Nat.div_add_mod] at hphys
      have hb := hst.byte (a % 256) (by omega)
      rw [hphys, rangeByte, if_neg (by omega), Option.getD_none] at hb
      exact hb
    · exact hst.bytes a (by rw [linesFrom_one, List.mem_singleton]; exact hline)

end

/-! ## What follows a record (R272, R273, R278) -/

section

variable {s : State} {c k : Nat} {x : Compl}

/-- No close is under way, so none goes on. -/
theorem closesGoOn_idle (h : ∀ e ∈ s.flying, e.2.opcode ≠ 0x3B) : s.closesGoOn = s := by
  have hnone : s.slotsThat (fun c => decide (c.opcode = 0x3B) && c.lives) = [] := by
    rw [State.slotsThat, List.map_eq_nil_iff, List.filter_eq_nil_iff]
    intro e he
    have hne := h e he
    simp_all
  rw [State.closesGoOn, hnone, List.foldl_nil]

theorem detachGoesOn_idle (h : s.rst.detach = none) : s.detachGoesOn = s := by rw [State.detachGoesOn, h]
theorem detachWritten_idle (h : s.rst.detach = none) (k : Nat) : s.detachWritten k = s := by rw [State.detachWritten, h]
theorem countFinished_idle (h : s.rst.detach = none) (k : Nat) : s.countFinished k = s := by rw [State.countFinished, h]

theorem detach_notify (s : State) (n : Notice) : (s.notify n).rst.detach = s.rst.detach :=
  (congrArg (fun x : State => x.rst.detach) (notify_accessed s n).1.2 :)

theorem flying_notify (s : State) (n : Notice) : (s.notify n).flying = s.flying := by
  rw [flying_eq, notify_pmh, flying_eq]

/-- The queue that the command in slot `k` holds goes on. -/
def State.goesOn (s : State) (k : Nat) : Origin → State
  | .queue q => if (s.queue q).hold = some k then s.setQueue q { s.queue q with hold := none } else s
  | .script _ => s

theorem goesOn_frame (s : State) (k : Nat) (o : Origin) : { s.goesOn k o with queues := s.queues } = s := by
  unfold State.goesOn
  split
  · split <;> rfl
  · rfl

theorem goesOn_queue (s : State) (k q : Nat) :
    (s.goesOn k (.queue q)).queue q =
        (if (s.queue q).hold = some k then { s.queue q with hold := none } else s.queue q) ∧
      ∀ j, j ≠ q → (s.goesOn k (.queue q)).queue j = s.queue j := by
  unfold State.goesOn
  dsimp only
  split
  · exact ⟨State.queue_setQueue_same .., fun j hj => State.queue_setQueue_other _ _ _ _ hj⟩
  · exact ⟨rfl, fun _ _ => rfl⟩

/-- A command without pins leaves flight while no detach is under way. -/
theorem leaveFlight_eq {y : Cmd} (hy : s.cmd k = some y) (hpins : y.pins = []) (hdetach : s.rst.detach = none) :
    s.leaveFlight k = (s.setCmd k none).goesOn k y.origin := by
  have hunpin : s.unpinAll y.ctx y.pins = s := by rw [hpins]; rfl
  have hdetach' : ((s.setCmd k none).goesOn k y.origin).rst.detach = none :=
    (congrArg (fun x : State => x.rst.detach) (goesOn_frame (s.setCmd k none) k y.origin) :).trans hdetach
  rw [← countFinished_idle hdetach' k, State.leaveFlight, hy]
  dsimp only
  rw [hunpin]
  cases y.origin <;> rfl

/-- The command of a completion, if it has one, leaves flight. -/
def State.left (s : State) (x : Compl) : State :=
  match x.slot with
  | none => s
  | some k => s.leaveFlight k

section

variable (hpins : ∀ k y, x.slot = some k → s.cmd k = some y → y.pins = []) (hdetach : s.rst.detach = none)
include hpins hdetach

/-- A command that leaves flight leaves everything else as it was. -/
theorem left_frame : { s.left x with
    queues := s.queues
    pmh := { (s.left x).pmh with cmds := s.pmh.cmds } } = s := by
  unfold State.left
  split
  · rfl
  · next k hk =>
    cases hy : s.cmd k with
    | none => rw [State.leaveFlight, hy]
    | some y =>
      rw [leaveFlight_eq hy (hpins k y hk hy) hdetach]
      have hf := goesOn_frame (s.setCmd k none) k y.origin
      exact (congrArg (fun x : State => { x with
        queues := s.queues
        pmh := { x.pmh with cmds := s.pmh.cmds } }) hf :)

theorem left_cis : (s.left x).cis = s.cis := (congrArg (fun y : State => y.cis) (left_frame hpins hdetach) :)
theorem left_ctxs : (s.left x).ctxs = s.ctxs := (congrArg (fun y : State => y.ctxs) (left_frame hpins hdetach) :)
theorem left_compl : (s.left x).pmh.compl = s.pmh.compl :=
  (congrArg (fun y : State => y.pmh.compl) (left_frame hpins hdetach) :)

theorem left_cmd (hk : x.slot = some k) : (s.left x).cmd k = none ∧ (∀ j, j ≠ k → (s.left x).cmd j = s.cmd j) ∧
    ∀ y q, s.cmd k = some y → y.origin = .queue q →
      (s.left x).queue q = (if (s.queue q).hold = some k then { s.queue q with hold := none } else s.queue q) ∧
      ∀ j, j ≠ q → (s.left x).queue j = s.queue j := by
  rw [State.left, hk]
  dsimp only
  cases hy : s.cmd k with
  | none =>
    rw [State.leaveFlight, hy]
    exact ⟨hy, fun _ _ => rfl, fun y q h => absurd h (by simp)⟩
  | some y =>
    rw [leaveFlight_eq hy (hpins k y hk hy) hdetach]
    have hpmh : ((s.setCmd k none).goesOn k y.origin).pmh = (s.setCmd k none).pmh :=
      (congrArg (fun x : State => x.pmh) (goesOn_frame (s.setCmd k none) k y.origin) :)
    refine ⟨?_, fun j hj => ?_, fun z q hz hq => ?_⟩
    · rw [State.cmd, hpmh]
      exact State.cmd_setCmd_same ..
    · rw [State.cmd, hpmh]
      exact State.cmd_setCmd_other _ _ _ _ hj
    · obtain rfl := Option.some.inj hz
      rw [hq]
      exact goesOn_queue (s.setCmd k none) k q

/-- No command enters flight. -/
theorem mem_flying_left {e : Nat × Cmd} (he : e ∈ (s.left x).flying) : e ∈ s.flying := by
  unfold State.left at he
  split at he
  · exact he
  · next k hk =>
    cases hy : s.cmd k with
    | none => rwa [State.leaveFlight, hy] at he
    | some y =>
      rw [leaveFlight_eq hy (hpins k y hk hy) hdetach, flying_eq,
        (congrArg (fun x : State => x.pmh) (goesOn_frame (s.setCmd k none) k y.origin) :)] at he
      obtain ⟨i, hi, hie⟩ := List.mem_filterMap.1 he
      exact List.mem_filterMap.2 ⟨i, List.mem_of_mem_filter hi, hie⟩

/-- While no close and no detach is under way, a record is followed by its notice alone. -/
theorem afterRecord_eq (hclose : ∀ e ∈ s.flying, e.2.opcode ≠ 0x3B) :
    s.afterRecord x = if x.notify then (s.left x).notify (ntCmdNotify x.ctx x.tag) else s.left x := by
  have hdet : (s.left x).rst.detach = none :=
    (congrArg (fun y : State => y.rst.detach) (left_frame hpins hdetach) :).trans hdetach
  have hfly : ∀ e ∈ (s.left x).flying, e.2.opcode ≠ 0x3B := fun e he => hclose e (mem_flying_left hpins hdetach he)
  have hend : ∀ u : State, u.rst.detach = none → (∀ e ∈ u.flying, e.2.opcode ≠ 0x3B) →
      (match x.slot with | none => u.closesGoOn | some k => u.closesGoOn.detachWritten k).detachGoesOn = u := by
    intro u hu hf
    rw [closesGoOn_idle hf]
    cases x.slot with
    | none => exact detachGoesOn_idle hu
    | some k =>
      dsimp only
      rw [detachWritten_idle hu, detachGoesOn_idle hu]
  refine hend (if x.notify then (s.left x).notify (ntCmdNotify x.ctx x.tag) else s.left x) ?_ ?_
  · split
    · rw [detach_notify]
      exact hdet
    · exact hdet
  · split
    · rw [flying_notify]
      exact hfly
    · exact hfly

end

end

/-! ## COMPLETION_WRITE -/

section

variable {s : State} {c : Nat} {x : Compl} {pre post : List Compl}

theorem ntCmdNotify_eq (hc : c < 16) (tag : Half) : ntCmdNotify c tag =
    { cls := 1, code := 1, data := BitVec.ofNat 64 (c + 2 ^ 16 * tag.toNat) } := by
  have htag := tag.isLt
  have hdata : leNat (padTo 8 (leBytes 2 c ++ leBytes 2 tag.toNat)) = c + 2 ^ 16 * tag.toNat := by
    simp [padTo, leBytes, leNat, byteAt, List.range_succ]
    omega
  rw [ntCmdNotify, mkNotice, hdata]
  rfl

/-- The state with the record written and its completion gone from those that wait (R276). -/
def State.recorded (s : State) (c : Nat) (x : Compl) (rest : List Compl) : State :=
  let r := (s.ctxOf c).cring
  let u := s.ringPut c r (x.record (r.phase 32) s.now s.time.wave)
  let u := u.setCtx c { u.ctxOf c with cring := { r with
    tail := r.tail + 1
    told := false } }
  { u with pmh := { u.pmh with compl := rest } }

theorem exec_completionWrite {c : Fin 16} (hcompl : s.pmh.compl = pre ++ x :: post) (hx : x.ctx = c.val)
    (hpre : ∀ y ∈ pre, y.ctx ≠ c.val) (hsilent : s.silent = false) (hstandby : s.rst.standby = false)
    (hready : s.ringReady c.val (s.ctxOf c.val).cring 32 = true) :
    exec (.completionWrite c) s = .next (
      if (s.ctxOf c.val).cring.room 32 then (s.recorded c.val x (pre ++ post)).afterRecord x
      else if (s.ctxOf c.val).cring.told then s
      else (s.setCtx c.val { s.ctxOf c.val with cring := { (s.ctxOf c.val).cring with told := true } }).notify
        (ntCringFull c.val)) := by
  change Host.Outcome.next (completionWrite c.val s) = _
  congr 1
  unfold completionWrite
  rw [hcompl, takeCompl_append hx hpre]
  simp only [hsilent, hstandby, hready, Bool.not_true, Bool.or_false, Bool.false_eq_true, if_false]
  cases (s.ctxOf c.val).cring.room 32 <;> rfl

theorem ctxOf_setCtx_same (s : State) (c : Nat) (y : Ctx) : (s.setCtx c y).ctxOf c = y := spGet_spSet_same
theorem ctxOf_setCtx_other (s : State) {c d : Nat} (h : d ≠ c) (y : Ctx) : (s.setCtx c y).ctxOf d = s.ctxOf d :=
  spGet_spSet_other h
theorem ctxOf_notify (s : State) (n : Notice) (c : Nat) : (s.notify n).ctxOf c = s.ctxOf c :=
  (congrArg (fun x : State => x.ctxOf c) (notify_accessed s n).1.2 :)

theorem recorded_facts (s : State) (c : Nat) (x : Compl) (rest : List Compl) :
    let v := s.recorded c x rest
    let r := (s.ctxOf c).cring
    v.cis = (s.ringPut c r (x.record (r.phase 32) s.now s.time.wave)).cis ∧ v.pmh = { s.pmh with compl := rest } ∧
      v.queues = s.queues ∧ v.rst.detach = s.rst.detach ∧
      v.ctxOf c = { s.ctxOf c with cring := { r with
        tail := r.tail + 1
        told := false } } ∧ ∀ d, d ≠ c → v.ctxOf d = s.ctxOf d := by
  have honly : OnlyStores s _ := (ringPut_stores (s := s) (c := c) (r := (s.ctxOf c).cring)
    (length_record (x := x) ((s.ctxOf c).cring.phase 32) s.now s.time.wave)).only
  have hctxs := (congrArg (fun x : State => x.ctxs) honly.2 :)
  have hrst := (congrArg (fun x : State => x.rst.detach) honly.2 :)
  have hpmh := pmh_of_onlyStores honly
  have hqueues := queues_of_onlyStores honly
  unfold State.recorded
  dsimp only
  generalize s.ringPut c (s.ctxOf c).cring (x.record ((s.ctxOf c).cring.phase 32) s.now s.time.wave) = u at *
  have hctx : ∀ d, u.ctxOf d = s.ctxOf d := fun d => by rw [State.ctxOf, hctxs, State.ctxOf]
  refine ⟨rfl, ?_, hqueues, hrst, ?_, fun d hd => ?_⟩
  · rw [← hpmh]
    rfl
  · rw [hctx]
    exact ctxOf_setCtx_same ..
  · rw [← hctx d]
    exact ctxOf_setCtx_other _ hd _

/-- Settles O27: the record of one whole word, then the command leaves flight and the notice goes out. -/
theorem completionsAreWritten : Obligations.CompletionsAreWritten := by
  unfold Obligations.CompletionsAreWritten
  dsimp only
  intro c s pre post x hcompl hx hpre hsilent hstandby hready
  have hexec := exec_completionWrite hcompl hx hpre hsilent hstandby hready
  refine ⟨fun hroom hpins hdetach hclose hdata => ?_, fun hroom htold => ?_⟩
  · obtain ⟨hcis, hpmh, hqueues, hdet, hctx, hctxs⟩ := recorded_facts s c.val x (pre ++ post)
    obtain ⟨hbytes, hothers⟩ := memByte_ringPut (s := s) (c := c.val) (r := (s.ctxOf c.val).cring)
      (length_record (x := x) ((s.ctxOf c.val).cring.phase 32) s.now s.time.wave)
    rw [if_pos hroom] at hexec
    generalize s.recorded c.val x (pre ++ post) = v at *
    have hcmd : ∀ k, v.cmd k = s.cmd k := fun k => by rw [State.cmd, hpmh, State.cmd]
    have hqueue : ∀ q, v.queue q = s.queue q := fun q => by rw [State.queue, hqueues, State.queue]
    have hpins' : ∀ k y, x.slot = some k → v.cmd k = some y → y.pins = [] := fun k y hk hy => hpins k y hk (by rwa [← hcmd])
    have hdetach' : v.rst.detach = none := hdet.trans hdetach
    have hmem : ∀ a, memByte (v.left x) a = memByte (s.ringPut c.val (s.ctxOf c.val).cring
        (x.record ((s.ctxOf c.val).cring.phase 32) s.now s.time.wave)) a := fun a => by
      rw [memByte, left_cis hpins' hdetach', hcis, memByte]
    have hleft : ∀ d, (v.left x).ctxOf d = v.ctxOf d := fun d => by
      rw [State.ctxOf, left_ctxs hpins' hdetach', State.ctxOf]
    rw [afterRecord_eq hpins' hdetach' (fun e he => hclose e (by rwa [flying_eq, hpmh] at he)), hx, ntCmdNotify_eq c.isLt] at hexec
    refine ⟨v.left x, ?_, fun i hi => ?_, fun a ha => ?_, ?_, fun hslot => ?_, fun k hk => ?_, (hleft _).trans hctx,
      fun d hd => (hleft d).trans (hctxs d hd)⟩
    · exact hexec
    · rw [hmem, hbytes i hi, byteAt_record hdata]
      rfl
    · rw [hmem, hothers a ha]
    · rw [left_compl hpins' hdetach', hpmh]
    · rw [State.left, hslot, hpmh]
      exact ⟨rfl, hqueues⟩
    · obtain ⟨hnone, hother, hgo⟩ := left_cmd hpins' hdetach' hk
      simp only [hcmd, hqueue] at hother hgo
      exact ⟨hnone, hother, hgo⟩
  · rw [if_neg (by simp [hroom]), if_neg (by simp [htold])] at hexec
    refine ⟨_, hexec, notify_pmh .., notify_queues .., ?_, ?_⟩
    · exact notify_sameMemory ..
    · rw [ctxOf_notify]
      exact ctxOf_setCtx_same ..

end

end Sys2Proof.Machine

end

section

namespace Sys2Proof.Machine

/-! ## What traffic leaves of a port (R434, R471) -/

/-- A port's settings and its state: what traffic does not change. -/
def Port.link (x : Port) : Bool × Bool × Bool × PortState := (x.en, x.zrcEn, x.hubOff, x.state)

/-- Every port keeps its settings and its state. -/
structure KeepsLinks (s u : State) : Prop where
  link : ∀ p, (u.port p).link = (s.port p).link

section

variable {s u : State} (h : KeepsLinks s u) (p : Nat)
include h

theorem KeepsLinks.en : (u.port p).en = (s.port p).en := (congrArg (fun x : Bool × Bool × Bool × PortState => x.1) (h.link p) :)
theorem KeepsLinks.zrcEn : (u.port p).zrcEn = (s.port p).zrcEn :=
  (congrArg (fun x : Bool × Bool × Bool × PortState => x.2.1) (h.link p) :)
theorem KeepsLinks.hubOff : (u.port p).hubOff = (s.port p).hubOff :=
  (congrArg (fun x : Bool × Bool × Bool × PortState => x.2.2.1) (h.link p) :)
theorem KeepsLinks.state : (u.port p).state = (s.port p).state :=
  (congrArg (fun x : Bool × Bool × Bool × PortState => x.2.2.2) (h.link p) :)

end

theorem KeepsLinks.refl (s : State) : KeepsLinks s s := ⟨fun _ => rfl⟩

theorem KeepsLinks.trans {a b c : State} (h : KeepsLinks a b) (g : KeepsLinks b c) : KeepsLinks a c :=
  ⟨fun p => (g.link p).trans (h.link p)⟩

theorem keepsLinks_of_ports {s u : State} (h : u.ports = s.ports) : KeepsLinks s u := ⟨fun p => by rw [State.port, h, State.port]⟩

theorem keepsLinks_setPort {s : State} {p : Nat} {x : Port} (h : x.link = (s.port p).link) : KeepsLinks s (s.setPort p x) := by
  refine ⟨fun r => ?_⟩
  by_cases hr : r = p
  · rw [hr, State.port_setPort_same, h]
  · rw [State.port_setPort_other _ _ _ _ hr]

theorem KeepsLinks.foldl {α : Type} {f : State → α → State} (h : ∀ s a, KeepsLinks s (f s a)) (l : List α) :
    ∀ s, KeepsLinks s (l.foldl f s) := by
  induction l with
  | nil => exact fun s => .refl s
  | cons a l ih => exact fun s => (h s a).trans (ih _)

theorem KeepsLinks.ite {s a b : State} {c : Prop} [Decidable c] (ha : KeepsLinks s a) (hb : KeepsLinks s b) :
    KeepsLinks s (if c then a else b) := by
  split
  · exact ha
  · exact hb

theorem link_pumpList (s : State) (fs : List Flit) : ∀ p blocked kept, (pumpList s fs p blocked kept).link = p.link := by
  induction fs with
  | nil => exact fun _ _ _ => rfl
  | cons f fs ih =>
    intro p blocked kept
    rw [pumpList]
    split
    · split
      · exact ih ..
      · exact (ih ..).trans rfl
    · exact ih ..

theorem pump_keepsLinks (s : State) (p : Nat) : KeepsLinks s (s.pump p) := keepsLinks_setPort (link_pumpList ..)

theorem portSend_keepsLinks (s : State) (p : Nat) (f : Flit) : KeepsLinks s (s.portSend p f) :=
  (keepsLinks_setPort (x := { s.port p with egress := (s.port p).egress ++ [f] }) rfl).trans (pump_keepsLinks ..)

theorem sendOn_keepsLinks (s : State) (f : Flit) (lp : Nat) : KeepsLinks s (s.sendOn f lp none) := by
  unfold State.sendOn
  split
  · exact keepsLinks_of_ports rfl
  · exact portSend_keepsLinks ..

theorem sendOwn_keepsLinks (s : State) (f : Flit) : KeepsLinks s (s.sendOwn f) := by
  unfold State.sendOwn
  split
  · exact .refl s
  · exact sendOn_keepsLinks ..

theorem bufferNotice_keepsLinks (s : State) (n : Notice) : KeepsLinks s (s.bufferNotice n) :=
  .ite (keepsLinks_of_ports rfl) (keepsLinks_of_ports rfl)

theorem notify_keepsLinks (s : State) (n : Notice) : KeepsLinks s (s.notify n) :=
  .ite (.refl s) (.ite (sendOwn_keepsLinks ..) (bufferNotice_keepsLinks ..))

theorem flushNotices_keepsLinks (s : State) : KeepsLinks s s.flushNotices :=
  .ite ((keepsLinks_of_ports rfl : KeepsLinks s { s with rst := { s.rst with noticeBuf := [] } }).trans
    (.foldl (fun _ _ => sendOwn_keepsLinks ..) _ _)) (.refl s)

theorem findHub_keepsLinks (s : State) : KeepsLinks s s.findHub := by
  refine .ite (flushNotices_keepsLinks s) ?_
  exact ((keepsLinks_of_ports rfl : KeepsLinks s { s with rst := { s.rst with hubFound := true } }).trans
    (sendOwn_keepsLinks ..)).trans (flushNotices_keepsLinks _)

theorem tellReady_keepsLinks (s : State) : KeepsLinks s s.tellReady :=
  .ite ((keepsLinks_of_ports rfl : KeepsLinks s { s with rst := { s.rst with readySent := true } }).trans (notify_keepsLinks ..))
    (.refl s)

theorem sendHello_keepsLinks (s : State) (p : Nat) : KeepsLinks s (s.sendHello p) :=
  (keepsLinks_setPort (x := { s.port p with unacked := (s.port p).unacked + 1 }) rfl).trans (portSend_keepsLinks ..)

theorem sendHellos_keepsLinks (s : State) : KeepsLinks s s.sendHellos :=
  .foldl (fun _ _ => .ite (sendHello_keepsLinks ..) (.refl _)) _ _

theorem toldDist_keepsLinks (s : State) (d : Byte) : KeepsLinks s (({ s with top := { s.top with lastDist := d } } : State).sendHellos) :=
  (keepsLinks_of_ports rfl : KeepsLinks s { s with top := { s.top with lastDist := d } }).trans (sendHellos_keepsLinks _)

theorem afterTopology_keepsLinks (s : State) : KeepsLinks s s.afterTopology := by
  unfold State.afterTopology
  dsimp only
  split
  · exact (findHub_keepsLinks _).trans (tellReady_keepsLinks _)
  · exact (toldDist_keepsLinks ..).trans ((findHub_keepsLinks _).trans (tellReady_keepsLinks _))

/-! ### The accesses of a command whose partner is lost -/

theorem logError_ports (s : State) (a k : Nat) (y : BitVec 10) (i : AccessInfo) : (s.logError a k y i).ports = s.ports := by
  unfold State.logError
  dsimp only
  split <;> rfl

theorem logCe_keepsLinks (s : State) (a : Nat) (y : BitVec 10) (i : AccessInfo) : KeepsLinks s (s.logCe a y i) :=
  have h : KeepsLinks s { s.logError a kindCe y i with cis := { (s.logError a kindCe y i).cis with
      ce := (s.logError a kindCe y i).cis.ce + 1 } } := keepsLinks_of_ports (logError_ports ..)
  .ite (h.trans (notify_keepsLinks ..)) h

theorem logUe_keepsLinks (s : State) (a : Nat) (y : BitVec 10) (i : AccessInfo) : KeepsLinks s (s.logUe a y i) :=
  have h : KeepsLinks s { s.logError a kindUe y i with cis := { (s.logError a kindUe y i).cis with
      ue := (s.logError a kindUe y i).cis.ue + 1 } } := keepsLinks_of_ports (logError_ports ..)
  h.trans (notify_keepsLinks ..)

theorem putWord_keepsLinks (s : State) (w : Nat) (d : List Byte) (y : BitVec 10) : KeepsLinks s (s.putWord w d y) :=
  keepsLinks_of_ports rfl

theorem countPoison_keepsLinks (s : State) (st : Half) : KeepsLinks s (s.countPoison st) :=
  .ite (keepsLinks_of_ports rfl) (.refl s)

theorem readWord_keepsLinks (s : State) (i : AccessInfo) (w : Nat) : KeepsLinks s (s.readWord i w).state := by
  unfold State.readWord
  split
  · exact .refl s
  · exact (putWord_keepsLinks ..).trans (logCe_keepsLinks ..)
  · exact .refl s
  · exact (putWord_keepsLinks ..).trans (logUe_keepsLinks ..)

theorem mergeWord_keepsLinks (s : State) (i : AccessInfo) (w : Nat) (f : Nat → Option Byte) (p : Bool) :
    KeepsLinks s (s.mergeWord i w f p).2 := by
  unfold State.mergeWord
  dsimp only
  split
  · exact putWord_keepsLinks ..
  · exact (putWord_keepsLinks ..).trans (logCe_keepsLinks ..)
  · exact putWord_keepsLinks ..
  · exact (putWord_keepsLinks ..).trans (logUe_keepsLinks ..)

theorem writeWord_keepsLinks (s : State) (i : AccessInfo) (w : Nat) (f : Nat → Option Byte) (p : Bool) :
    KeepsLinks s (s.writeWord i w f p).2 := by
  unfold State.writeWord
  split
  · exact .refl s
  · split
    · exact putWord_keepsLinks ..
    · exact mergeWord_keepsLinks ..

theorem readWords_keepsLinks (i : AccessInfo) (n : Nat) : ∀ (s : State) (w : Nat), KeepsLinks s (s.readWords i w n).state := by
  induction n with
  | zero => exact fun s _ => .refl s
  | succ n ih => exact fun s w => (readWord_keepsLinks s i w).trans (ih ..)

theorem writeWords_keepsLinks (i : AccessInfo) (f : Nat → Option Byte) (p : Nat → Bool) (n : Nat) :
    ∀ (s : State) (w : Nat), KeepsLinks s (s.writeWords i w f p n).2 := by
  induction n with
  | zero => exact fun s _ => .refl s
  | succ n ih => exact fun s w => (writeWord_keepsLinks s i w _ _).trans (ih ..)

theorem grantX_keepsLinks (s : State) (a : Nat) : KeepsLinks s (s.grantX a) := keepsLinks_of_ports rfl

theorem readLines_keepsLinks (c h n : Nat) : ∀ (s : State) (o : Nat), KeepsLinks s (s.readLines c h o n).state := by
  induction n with
  | zero => exact fun s _ => .refl s
  | succ n ih =>
    exact fun s o => ((grantX_keepsLinks ..).trans ((readWords_keepsLinks ..).trans (countPoison_keepsLinks ..))).trans (ih ..)

theorem writeLines_keepsLinks (c h : Nat) (f : Nat → Option Byte) (p : Nat → Bool) (n : Nat) :
    ∀ (s : State) (o : Nat), KeepsLinks s (s.writeLines c h o f p n).2 := by
  induction n with
  | zero => exact fun s _ => .refl s
  | succ n ih =>
    exact fun s o => ((grantX_keepsLinks ..).trans ((writeWords_keepsLinks ..).trans (countPoison_keepsLinks ..))).trans (ih ..)

theorem writeBytes_keepsLinks (s : State) (c h o : Nat) (bs : List Byte) : KeepsLinks s (s.writeBytes c h o bs).2 :=
  writeLines_keepsLinks ..

theorem havoc_keepsLinks (s : State) (c h o n : Nat) : KeepsLinks s (s.havoc c h o n) :=
  (writeBytes_keepsLinks ..).trans (keepsLinks_of_ports rfl)

theorem havocXfer_keepsLinks (s : State) (c : Nat) (x : Xfer) : KeepsLinks s (s.havocXfer c x) :=
  .ite (.foldl (fun _ _ => havoc_keepsLinks ..) _ _) (.refl s)

theorem io_write_keepsLinks (x : Io) (c h off : Nat) (bs : List Byte) : KeepsLinks x.s (x.write c h off bs).s :=
  writeLines_keepsLinks ..

theorem io_touchRec_keepsLinks (x : Io) (c n : Nat) : KeepsLinks x.s (x.touchRec c n).s := readLines_keepsLinks ..

theorem io_setPool_keepsLinks (x : Io) (c : Nat) (p : Pool) : KeepsLinks x.s (x.setPool c p).s := keepsLinks_of_ports rfl

theorem push_keepsLinks (x : Io) (c n : Nat) : KeepsLinks x.s (x.push c n).s := by
  unfold Io.push
  dsimp only
  split
  · exact (io_setPool_keepsLinks ..).trans (io_write_keepsLinks ..)
  · exact ((io_setPool_keepsLinks ..).trans (io_write_keepsLinks ..)).trans (keepsLinks_of_ports rfl)

theorem unpin_keepsLinks (x : Io) (c n : Nat) : KeepsLinks x.s (x.unpin c n).s := by
  unfold Io.unpin
  dsimp only
  split
  · exact ((io_touchRec_keepsLinks ..).trans (io_setPool_keepsLinks ..)).trans (push_keepsLinks ..)
  · exact (io_touchRec_keepsLinks ..).trans (io_write_keepsLinks ..)

theorem unpinAll_keepsLinks (s : State) (c : Nat) (pins : List Nat) : KeepsLinks s (s.unpinAll c pins) := by
  have hfold : ∀ (l : List Nat) (x : Io), KeepsLinks x.s (l.foldl (fun x n => x.unpin c n) x).s := by
    intro l
    induction l with
    | nil => exact fun x => .refl x.s
    | cons n l ih => exact fun x => (unpin_keepsLinks x c n).trans (ih _)
  exact hfold pins (Io.of s)

theorem scriptEnds_keepsLinks (s : State) (k c idx : Nat) (st : Half) (fl : BitVec 4) :
    KeepsLinks s (s.scriptEnds k c idx st fl) := by
  have hleft : KeepsLinks s (match s.cmd k with
      | none => s
      | some x => (s.unpinAll x.ctx x.pins).setCmd k none) := by
    split
    · exact .refl s
    · exact (unpinAll_keepsLinks ..).trans (keepsLinks_of_ports rfl)
  unfold State.scriptEnds
  dsimp only
  split
  · exact hleft
  · exact hleft.trans (keepsLinks_of_ports rfl)

theorem finish_keepsLinks (s : State) (k : Nat) (st : Half) (reason : Byte) (fl : BitVec 4) (data : List Byte) :
    KeepsLinks s (s.finish k st reason fl data) := by
  unfold State.finish State.finishLate
  split
  · exact .refl s
  · dsimp only
    split
    · exact scriptEnds_keepsLinks ..
    · exact keepsLinks_of_ports rfl

theorem loseCmd_keepsLinks (s : State) (k : Nat) (st : Half) : KeepsLinks s (s.loseCmd k st) := by
  unfold State.loseCmd
  split
  · exact .refl s
  · split
    · exact (havocXfer_keepsLinks ..).trans (finish_keepsLinks ..)
    · exact finish_keepsLinks ..
    · exact .refl s

theorem loseCommands_keepsLinks (s : State) (p : Nat) (st : Half) : KeepsLinks s (s.loseCommands p st) :=
  (keepsLinks_of_ports rfl :
    KeepsLinks s { s with rxSegs := s.rxSegs.filter (fun r => decide (r.port.val ≠ p)) }).trans
    (.foldl (fun _ _ => loseCmd_keepsLinks ..) _ _)

end Sys2Proof.Machine

end

section

namespace Sys2Proof.Machine

/-! ## What the topology's own traffic touches (R471, R472, R516, R517) -/

/-- Nothing but the ports, the notices and what the die has told of its place differs. -/
def OnlyTopology (s u : State) : Prop :=
  { u with
    ports := s.ports
    rst := s.rst
    top := { u.top with
      lastDist := s.top.lastDist
      unroutable := s.top.unroutable } } = s

theorem OnlyTopology.refl (s : State) : OnlyTopology s s := rfl

theorem OnlyTopology.trans {a b c : State} (h : OnlyTopology a b) (g : OnlyTopology b c) : OnlyTopology a c := by
  unfold OnlyTopology at h g
  rw [← g] at h
  exact h

theorem OnlyTopology.foldl {α : Type} {f : State → α → State} (h : ∀ s a, OnlyTopology s (f s a)) (l : List α) :
    ∀ s, OnlyTopology s (l.foldl f s) := by
  induction l with
  | nil => exact fun s => .refl s
  | cons a l ih => exact fun s => (h s a).trans (ih _)

theorem OnlyTopology.ite {s a b : State} {c : Prop} [Decidable c] (ha : OnlyTopology s a) (hb : OnlyTopology s b) :
    OnlyTopology s (if c then a else b) := by
  split
  · exact ha
  · exact hb

theorem setPort_onlyTopology (s : State) (p : Nat) (x : Port) : OnlyTopology s (s.setPort p x) := rfl

theorem pump_onlyTopology (s : State) (p : Nat) : OnlyTopology s (s.pump p) := setPort_onlyTopology ..

theorem portSend_onlyTopology (s : State) (p : Nat) (f : Flit) : OnlyTopology s (s.portSend p f) :=
  (setPort_onlyTopology ..).trans (pump_onlyTopology ..)

theorem sendOn_onlyTopology (s : State) (f : Flit) (lp : Nat) : OnlyTopology s (s.sendOn f lp none) := by
  unfold State.sendOn
  split
  · exact rfl
  · exact portSend_onlyTopology ..

theorem sendOwn_onlyTopology (s : State) (f : Flit) : OnlyTopology s (s.sendOwn f) := by
  unfold State.sendOwn
  split
  · exact .refl s
  · exact sendOn_onlyTopology ..

theorem rst_onlyTopology (s : State) (r : Rst) : OnlyTopology s { s with rst := r } := rfl

theorem notify_onlyTopology (s : State) (n : Notice) : OnlyTopology s (s.notify n) :=
  .ite (.refl s) (.ite (sendOwn_onlyTopology ..) (.ite (rst_onlyTopology ..) (rst_onlyTopology ..)))

theorem flushNotices_onlyTopology (s : State) : OnlyTopology s s.flushNotices :=
  .ite ((rst_onlyTopology ..).trans (.foldl (fun _ _ => sendOwn_onlyTopology ..) _ _)) (.refl s)

theorem findHub_onlyTopology (s : State) : OnlyTopology s s.findHub :=
  .ite (flushNotices_onlyTopology s)
    (((rst_onlyTopology ..).trans (sendOwn_onlyTopology ..)).trans (flushNotices_onlyTopology _))

theorem tellReady_onlyTopology (s : State) : OnlyTopology s s.tellReady :=
  .ite ((rst_onlyTopology ..).trans (notify_onlyTopology ..)) (.refl s)

theorem sendHello_onlyTopology (s : State) (p : Nat) : OnlyTopology s (s.sendHello p) :=
  (setPort_onlyTopology ..).trans (portSend_onlyTopology ..)

theorem sendHellos_onlyTopology (s : State) : OnlyTopology s s.sendHellos :=
  .foldl (fun _ _ => .ite (sendHello_onlyTopology ..) (.refl _)) _ _

theorem lastDist_onlyTopology (s : State) (d : Byte) : OnlyTopology s { s with top := { s.top with lastDist := d } } := rfl

theorem afterTopology_onlyTopology (s : State) : OnlyTopology s s.afterTopology := by
  unfold State.afterTopology
  dsimp only
  split
  · exact (findHub_onlyTopology _).trans (tellReady_onlyTopology _)
  · exact ((lastDist_onlyTopology ..).trans (sendHellos_onlyTopology _)).trans
      ((findHub_onlyTopology _).trans (tellReady_onlyTopology _))

/-! ### Partners are checked again (R473) -/

/-- So much, and the mismatches of the ports. -/
def OnlyChecks (s u : State) : Prop :=
  { u with
    ports := s.ports
    rst := s.rst
    top := { u.top with
      lastDist := s.top.lastDist
      unroutable := s.top.unroutable
      mismatch := s.top.mismatch } } = s

theorem onlyChecks_of_onlyTopology {s u : State} (h : OnlyTopology s u) : OnlyChecks s u := by
  have h2 := congrArg (fun x : State => { x with top := { x.top with mismatch := s.top.mismatch } }) h
  exact h2

theorem OnlyChecks.refl (s : State) : OnlyChecks s s := rfl

theorem OnlyChecks.trans {a b c : State} (h : OnlyChecks a b) (g : OnlyChecks b c) : OnlyChecks a c := by
  unfold OnlyChecks at h g
  rw [← g] at h
  exact h

theorem OnlyChecks.ite {s a b : State} {c : Prop} [Decidable c] (ha : OnlyChecks s a) (hb : OnlyChecks s b) :
    OnlyChecks s (if c then a else b) := by
  split
  · exact ha
  · exact hb

theorem mismatch_onlyChecks (s : State) (m : BitVec 9) : OnlyChecks s { s with top := { s.top with mismatch := m } } := rfl

theorem checkPort_onlyChecks (s : State) (p : Nat) : OnlyChecks s (s.checkPort p) := by
  have hhold : ∀ (u : State) (x : Port), OnlyChecks u (if x.state = .active then
      (u.setPort p { x with state := .ctrlOnly }).sendHello p else u) := fun u x => by
    split
    · exact onlyChecks_of_onlyTopology ((setPort_onlyTopology ..).trans (sendHello_onlyTopology ..))
    · exact .refl u
  unfold State.checkPort
  dsimp only
  split
  · exact .refl s
  · split
    · exact .refl s
    · split
      · split
        · exact (mismatch_onlyChecks ..).trans (hhold ..)
        · exact ((mismatch_onlyChecks ..).trans (hhold ..)).trans (onlyChecks_of_onlyTopology (notify_onlyTopology ..))
      · split
        · exact .refl s
        · exact onlyChecks_of_onlyTopology ((setPort_onlyTopology ..).trans (pump_onlyTopology ..))

theorem checkPorts_onlyChecks (s : State) : OnlyChecks s s.checkPorts := by
  have hfold : ∀ (l : List Nat) (s : State), OnlyChecks s (l.foldl State.checkPort s) := by
    intro l
    induction l with
    | nil => exact fun s => .refl s
    | cons p l ih => exact fun s => (checkPort_onlyChecks s p).trans (ih _)
  exact hfold _ s

section

variable {s u : State} (h : OnlyChecks s u)
include h

theorem OnlyChecks.mapv : u.top.mapv = s.top.mapv := (congrArg (fun x : State => x.top.mapv) h :)
theorem OnlyChecks.module : u.top.module = s.top.module := (congrArg (fun x : State => x.top.module) h :)
theorem OnlyChecks.expect : u.top.expect = s.top.expect := (congrArg (fun x : State => x.top.expect) h :)
theorem OnlyChecks.suspended : u.top.suspended = s.top.suspended := (congrArg (fun x : State => x.top.suspended) h :)
theorem OnlyChecks.pmh : u.pmh = s.pmh := (congrArg (fun x : State => x.pmh) h :)
theorem OnlyChecks.cis : u.cis = s.cis := (congrArg (fun x : State => x.cis) h :)

theorem OnlyChecks.sameMemory : SameMemory s u := by
  rw [SameMemory, OnlyChecks.cis h]
  exact ⟨rfl, rfl⟩

end

theorem OnlyTopology.mismatch {s u : State} (h : OnlyTopology s u) : u.top.mismatch = s.top.mismatch :=
  (congrArg (fun x : State => x.top.mismatch) h :)

end Sys2Proof.Machine

end

section

namespace Sys2Proof.Machine

/-! ## Writes of single registers -/

section

variable {s : State}

/-- The die READY and in no reset takes the write of every register (R515). -/
theorem single_ready (hs : s.silent = false) (hr : s.rst.ready = true) (off : Nat) (f : State → State) : s.single off f = f s := by
  rw [State.single, hs, hr]
  rfl

theorem exec_poolArm (hs : s.silent = false) (hr : s.rst.ready = true) (c : Fin 16) :
    exec (.poolArm c) s = .next (poolArm c.val s) := by
  change Host.Outcome.next (s.single 0x300000 (poolArm c.val)) = _
  rw [single_ready hs hr]

theorem exec_portConfirm (hs : s.silent = false) (hr : s.rst.ready = true) (mask : BitVec 9) :
    exec (.portConfirm mask) s = .next (portConfirm mask s) := by
  change Host.Outcome.next (s.single 0x300C4 (portConfirm mask)) = _
  rw [single_ready hs hr]

theorem exec_topMapWrite (hs : s.silent = false) (hr : s.rst.ready = true) (w : Word) :
    exec (.topMapWrite w) s = .next (topMapWrite w s) := by
  change Host.Outcome.next (s.single 0x30008 (topMapWrite w)) = _
  rw [single_ready hs hr]

theorem exec_topExpectWrite (hs : s.silent = false) (hr : s.rst.ready = true) (p : Fin 9) (w : Word) :
    exec (.topExpectWrite p w) s = .next (topExpectWrite p.val w s) := by
  change Host.Outcome.next (s.single 0x30040 (topExpectWrite p.val w)) = _
  rw [single_ready hs hr]

theorem exec_draftWrite (hs : s.silent = false) (hr : s.rst.ready = true) (e : Fin 4096) (word : Fin 32) (w : Word) :
    exec (.draftWrite e word w) s = .next (draftWrite e.val word.val w s) := by
  change Host.Outcome.next (s.single 0x200000 (draftWrite e.val word.val w)) = _
  rw [single_ready hs hr]

theorem exec_linkEnable (hs : s.silent = false) (hr : s.rst.ready = true) (p : Fin 9) (w : Word) :
    exec (.linkEnable p w) s = .next (linkEnable p.val w s) := by
  change Host.Outcome.next (s.single 0x40000 (linkEnable p.val w)) = _
  rw [single_ready hs hr]

theorem exec_queueDoorbell (hs : s.silent = false) (hr : s.rst.ready = true) (q : Fin 512) (tail : Word) :
    exec (.queueDoorbell q tail) s = .next (queueDoorbell q.val tail s) := by
  change Host.Outcome.next (s.single 0x101000 (queueDoorbell q.val tail)) = _
  rw [single_ready hs hr]

theorem exec_tileHold (hs : s.silent = false) (hr : s.rst.ready = true) (w : Half) :
    exec (.tileHold w) s = .next (tileHold w s) := by
  change Host.Outcome.next (s.single 0x103080 (tileHold w)) = _
  rw [single_ready hs hr]

/-! ### Bits of the ports' masks -/

theorem bit_setBit_ports (m : BitVec 9) (i : Nat) {j : Nat} (hj : j < 9) (b : Bool) :
    bit (setBit m i b).toNat j = if j = i then b else bit m.toNat j := by
  have htest (v : BitVec 9) : bit v.toNat j = v.getLsbD j := by
    rw [bit, BitVec.getLsbD, Nat.testBit_eq_decide_div_mod_eq]
  have hmask : (BitVec.ofNat 9 (2 ^ i)).getLsbD j = decide (j = i) := by
    rw [BitVec.getLsbD_ofNat, Nat.testBit_two_pow]
    simp [hj, eq_comm]
  rw [htest, htest, setBit]
  cases b with
  | false =>
    simp only [Bool.false_eq_true, if_false, BitVec.getLsbD_and, BitVec.getLsbD_not, hmask]
    by_cases h : j = i <;> simp [h, hj]
  | true =>
    simp only [if_true, BitVec.getLsbD_or, hmask]
    by_cases h : j = i <;> simp [h]

/-! ### POOL_ARM (R328) -/

theorem reserved_iff (p : Pool) : p.reserved_ = true ↔
    p.fmt = 3 ∨ p.headdim = 3 ∨ 20 < p.bucketBits.toNat ∨ p.dataOff.toNat % 256 ≠ 0 ∨ p.metaOff.toNat % 256 ≠ 0 := by
  simp [Pool.reserved_, or_assoc]

theorem clearBuckets_accessed (s : State) (c : Nat) : Accessed s (s.clearBuckets c) := by
  unfold State.clearBuckets
  dsimp only
  split
  · exact .refl s
  · exact writeBytes_accessed ..

theorem pool_of_accessed {u : State} (h : Accessed s u) (c : Nat) : u.pool c = s.pool c :=
  (congrArg (fun x : State => x.pool c) h.1.2 :)

/-- A pool that is not LIVE after the write of ARM (R328). -/
theorem armPool_cases (s : State) (c : Nat) :
    (∀ d, d ≠ c → (s.armPool c).pool d = s.pool d) ∧ (s.armPool c).pmh = s.pmh ∧
      (s.armPool c).pool c = (if (s.pool c).reserved_ then { s.pool c with armErr := 2 }
        else if ((s.pool c).areas true).any (fun a => decide ((s.act.desc c a.1).bytes < a.2.1 + a.2.2)) then
          { s.pool c with armErr := 1 }
        else { (s.pool c).unset with
          live := true
          armErr := 0
          free := (s.pool c).pages.toNat }) := by
  unfold State.armPool
  dsimp only
  split
  · exact ⟨fun d hd => State.pool_setPool_other _ _ _ _ hd, rfl, State.pool_setPool_same ..⟩
  · split
    · exact ⟨fun d hd => State.pool_setPool_other _ _ _ _ hd, rfl, State.pool_setPool_same ..⟩
    · generalize hset : s.setPool c _ = u
      have hacc := clearBuckets_accessed u c
      refine ⟨fun d hd => ?_, ?_, ?_⟩
      · rw [pool_of_accessed hacc, ← hset, State.pool_setPool_other _ _ _ _ hd]
      · rw [pmh_of_onlyAccesses hacc.1, ← hset]
        rfl
      · rw [pool_of_accessed hacc, ← hset, State.pool_setPool_same]

theorem poolArm_acts (hs : s.silent = false) (hr : s.rst.ready = true) (c : Fin 16) :
    let p := s.pool c.val
    let reserved := p.fmt = 3 ∨ p.headdim = 3 ∨ 20 < p.bucketBits.toNat ∨ p.dataOff.toNat % 256 ≠ 0 ∨ p.metaOff.toNat % 256 ≠ 0
    let outside := ∃ a ∈ p.areas true, (s.act.desc c.val a.1).bytes < a.2.1 + a.2.2
    ∃ s', exec (.poolArm c) s = .next s' ∧ (∀ d, d ≠ c.val → s'.pool d = s.pool d) ∧ s'.pmh = s.pmh ∧
      (p.live = true → s' = s) ∧
      (p.live = false → reserved → s'.pool c.val = { p with armErr := 2 }) ∧
      (p.live = false → ¬reserved → outside → s'.pool c.val = { p with armErr := 1 }) ∧
      (p.live = false → ¬reserved → ¬outside →
        let p' := s'.pool c.val
        (p'.live, p'.armErr, p'.free, p'.held, p'.fresh, p'.stack, p'.nodesLive) =
          (true, 0, p.pages.toNat, 0, 0, [], 0)) := by
  dsimp only
  have hexec := exec_poolArm hs hr c
  have hreserved := reserved_iff (s.pool c.val)
  have houtside : ((s.pool c.val).areas true).any (fun a => decide ((s.act.desc c.val a.1).bytes < a.2.1 + a.2.2)) = true ↔
      ∃ a ∈ (s.pool c.val).areas true, (s.act.desc c.val a.1).bytes < a.2.1 + a.2.2 := by
    simp only [List.any_eq_true, decide_eq_true_eq]
  by_cases hlive : (s.pool c.val).live = true
  · rw [show poolArm c.val s = s from if_pos hlive] at hexec
    exact ⟨s, hexec, fun _ _ => rfl, rfl, fun _ => rfl, by simp [hlive], by simp [hlive], by simp [hlive]⟩
  · rw [show poolArm c.val s = s.armPool c.val from if_neg hlive] at hexec
    obtain ⟨hothers, hpmh, hpool⟩ := armPool_cases s c.val
    refine ⟨_, hexec, hothers, hpmh, fun h => absurd h hlive, fun _ hres => ?_, fun _ hres hout => ?_, fun _ hres hout => ?_⟩
    · rw [hpool, if_pos (hreserved.2 hres)]
    · rw [hpool, if_neg (mt hreserved.1 hres), if_pos (houtside.2 hout)]
    · rw [hpool, if_neg (mt hreserved.1 hres), if_neg (mt houtside.1 hout)]
      rfl

/-! ### The topology's registers (R470, R473, R474) -/

theorem confirmPort_facts (s : State) {lp : Nat} (hlp : lp < 9) :
    let u := s.confirmPort lp
    bit u.top.mismatch.toNat lp = false ∧ bit u.top.suspended.toNat lp = true ∧
      ((s.port (physPort s.top.orient lp)).state = .ctrlOnly → (u.port (physPort s.top.orient lp)).state = .active) ∧
      u.pmh = s.pmh ∧ u.cis = s.cis := by
  have hclear : bit (setBit s.top.mismatch lp false).toNat lp = false := (bit_setBit_ports _ _ hlp _).trans (if_pos rfl)
  have hset : bit (setBit s.top.suspended lp true).toNat lp = true := (bit_setBit_ports _ _ hlp _).trans (if_pos rfl)
  unfold State.confirmPort
  dsimp only
  split
  · refine ⟨hclear, hset, fun _ => ?_, rfl, rfl⟩
    rw [(pump_keepsLinks ..).state, State.port_setPort_same]
  · next hstate => exact ⟨hclear, hset, fun h => absurd h hstate, rfl, rfl⟩

theorem portConfirm_acts (hs : s.silent = false) (hr : s.rst.ready = true) (mask : BitVec 9) {lp : Nat} (hlp : lp < 9)
    (hmask : maskList mask.toNat 9 = [lp]) :
    ∃ s', exec (.portConfirm mask) s = .next s' ∧ bit s'.top.mismatch.toNat lp = false ∧
      bit s'.top.suspended.toNat lp = true ∧
      ((s.port (physPort s.top.orient lp)).state = .ctrlOnly → (s'.port (physPort s.top.orient lp)).state = .active) ∧
      s'.pmh = s.pmh ∧ SameMemory s s' := by
  have hexec := exec_portConfirm hs hr mask
  rw [portConfirm, hmask, List.foldl_cons, List.foldl_nil] at hexec
  obtain ⟨hmismatch, hsuspended, hstate, hpmh, hcis⟩ := confirmPort_facts s hlp
  have htop := afterTopology_onlyTopology (s.confirmPort lp)
  have hchecks := onlyChecks_of_onlyTopology htop
  have hlinks := afterTopology_keepsLinks (s.confirmPort lp)
  refine ⟨_, hexec, ?_, ?_, fun h => ?_, hchecks.pmh.trans hpmh, ?_⟩
  · rw [htop.mismatch, hmismatch]
  · rw [hchecks.suspended, hsuspended]
  · rw [hlinks.state, hstate h]
  · rw [SameMemory, hchecks.cis, hcis]
    exact ⟨rfl, rfl⟩

theorem topMapWrite_acts (hs : s.silent = false) (hr : s.rst.ready = true) (w : Word) :
    ∃ s', exec (.topMapWrite w) s = .next s' ∧ s'.top.mapv = bit w.toNat 31 ∧
      s'.top.module.toNat = (if s.top.mapv = true then s.top.module.toNat else w.toNat % 4096) ∧ s'.pmh = s.pmh ∧
      SameMemory s s' := by
  have hexec := exec_topMapWrite hs hr w
  have hmap : OnlyChecks { s with top := { s.top with
      module := if s.top.mapv then s.top.module else w.setWidth 12
      mapv := bit w.toNat 31 } } (topMapWrite w s) := by
    unfold topMapWrite
    dsimp only
    exact (OnlyChecks.trans (.ite (.refl _) (onlyChecks_of_onlyTopology (sendHellos_onlyTopology _)))
      (checkPorts_onlyChecks _)).trans (onlyChecks_of_onlyTopology (afterTopology_onlyTopology _))
  refine ⟨_, hexec, hmap.mapv, ?_, hmap.pmh, hmap.sameMemory⟩
  rw [hmap.module]
  dsimp only
  split
  · rfl
  · rw [BitVec.toNat_setWidth]

theorem topExpectWrite_acts (hs : s.silent = false) (hr : s.rst.ready = true) (p : Fin 9) (w : Word) :
    ∃ s', exec (.topExpectWrite p w) s = .next s' ∧ spGet 0 s'.top.expect p.val = w &&& 0x810FFFFF ∧
      (∀ r, r ≠ p.val → spGet 0 s'.top.expect r = spGet 0 s.top.expect r) ∧ s'.pmh = s.pmh ∧ SameMemory s s' := by
  have hexec := exec_topExpectWrite hs hr p w
  have hchecks : OnlyChecks _ (topExpectWrite p.val w s) :=
    (checkPorts_onlyChecks { s with top := { s.top with expect := spSet 0 s.top.expect p.val (w &&& 0x810FFFFF) } }).trans
      (onlyChecks_of_onlyTopology (afterTopology_onlyTopology _))
  refine ⟨_, hexec, ?_, fun r hr => ?_, hchecks.pmh, hchecks.sameMemory⟩
  · rw [hchecks.expect]
    exact spGet_spSet_same
  · rw [hchecks.expect]
    exact spGet_spSet_other hr

end

end Sys2Proof.Machine

end

section

namespace Sys2Proof.Machine

section

variable {s : State}

/-! ### Draft words (R354) -/

theorem getD_setAt {α : Type} (d a : α) (l : List α) : ∀ i k, i < l.length →
    (setAt l i a).getD k d = if k = i then a else l.getD k d := by
  induction l with
  | nil => exact fun i k hi => absurd hi (Nat.not_lt_zero i)
  | cons b l ih =>
    intro i k hi
    cases i with
    | zero => cases k <;> simp [setAt]
    | succ i =>
      cases k with
      | zero => simp [setAt]
      | succ k => simpa [setAt] using ih i k (Nat.lt_of_succ_lt_succ hi)

theorem getD_padDraft (l : List Word) {k : Nat} (hk : k < 8) : (draftWrite.padDraft l).getD k 0 = l.getD k 0 := by
  simp [draftWrite.padDraft, hk]

theorem length_padDraft (l : List Word) : (draftWrite.padDraft l).length = 8 := by simp [draftWrite.padDraft]

/-- The entry after a draft write that it takes. -/
def Entry.drafted (x : Entry) (word : Nat) (w : Word) : Entry :=
  if word = 7 then (if 8 < bits w.toNat 28 4 then x else { x with ndraft := bits w.toNat 28 4 })
  else { x with draft := setAt (draftWrite.padDraft x.draft) (word - 24) w }

theorem drafted_facts (x : Entry) {word : Nat} (hword : word = 7 ∨ 24 ≤ word) (h32 : word < 32) (w : Word) :
    { x.drafted word w with
      ndraft := x.ndraft
      draft := x.draft } = x ∧
    (x.drafted word w).ndraft = (if word = 7 ∧ w.toNat / 2 ^ 28 ≤ 8 then w.toNat / 2 ^ 28 else x.ndraft) ∧
    ∀ k, k < 8 → (x.drafted word w).draft.getD k 0 = if word = 24 + k then w else x.draft.getD k 0 := by
  have hbits : bits w.toNat 28 4 = w.toNat / 2 ^ 28 := by
    have := w.isLt
    rw [bits]
    omega
  unfold Entry.drafted
  rw [hbits]
  by_cases h7 : word = 7
  · rw [if_pos h7]
    by_cases h8 : 8 < w.toNat / 2 ^ 28
    · rw [if_pos h8, if_neg (by omega)]
      exact ⟨rfl, rfl, fun k _ => by rw [if_neg (by omega)]⟩
    · rw [if_neg h8, if_pos ⟨h7, by omega⟩]
      exact ⟨rfl, rfl, fun k _ => by rw [if_neg (by omega)]⟩
  · rw [if_neg h7, if_neg (fun h => h7 h.1)]
    refine ⟨rfl, rfl, fun k hk => ?_⟩
    dsimp only
    rw [getD_setAt _ _ _ _ _ (by rw [length_padDraft]; omega), getD_padDraft _ hk]
    by_cases hkw : k = word - 24
    · rw [if_pos hkw, if_pos (by omega)]
    · rw [if_neg hkw, if_neg (by omega)]

theorem draftWrite_eq (e : Nat) {word : Nat} (hword : word = 7 ∨ 24 ≤ word) (w : Word) :
    draftWrite e word w s = if (s.entry e).inStep then { s with srv := { s.srv with draftLost := s.srv.draftLost + 1 } }
      else if word = 7 ∧ 8 < bits w.toNat 28 4 then s
      else s.setEntry e ((s.entry e).drafted word w) := by
  unfold draftWrite Entry.drafted
  dsimp only
  rw [if_neg (by omega)]
  refine ite_congr rfl (fun _ => rfl) (fun _ => ?_)
  by_cases h7 : word = 7
  · by_cases h8 : 8 < bits w.toNat 28 4
    · rw [if_pos h7, if_pos h8, if_pos ⟨h7, h8⟩]
    · rw [if_pos h7, if_neg h8, if_neg (fun h => h8 h.2), if_pos h7, if_neg h8]
  · rw [if_neg h7, if_neg (fun h => h7 h.1), if_neg h7]

theorem draftWrite_acts (hs : s.silent = false) (hr : s.rst.ready = true) (e : Fin 4096) (word : Fin 32) (w : Word)
    (hword : word.val = 7 ∨ 24 ≤ word.val) :
    let x := s.entry e.val
    (x.inStep = true → exec (.draftWrite e word w) s =
      .next { s with srv := { s.srv with draftLost := s.srv.draftLost + 1 } }) ∧
    (x.inStep = false → ∃ s', exec (.draftWrite e word w) s = .next s' ∧
      { s' with srv := { s'.srv with entries := s.srv.entries } } = s ∧ (∀ n, n ≠ e.val → s'.entry n = s.entry n) ∧
      { s'.entry e.val with
        ndraft := x.ndraft
        draft := x.draft } = x ∧
      (s'.entry e.val).ndraft = (if word.val = 7 ∧ w.toNat / 2 ^ 28 ≤ 8 then w.toNat / 2 ^ 28 else x.ndraft) ∧
      ∀ k, k < 8 → (s'.entry e.val).draft.getD k 0 = if word.val = 24 + k then w else x.draft.getD k 0) := by
  have hexec := exec_draftWrite hs hr e word w
  rw [draftWrite_eq e.val hword w] at hexec
  refine ⟨fun hstep => ?_, fun hstep => ?_⟩
  · rw [hexec, if_pos hstep]
  · have hfacts := drafted_facts (s.entry e.val) hword word.isLt w
    rw [if_neg (by simp [hstep])] at hexec
    by_cases hlost : word.val = 7 ∧ 8 < bits w.toNat 28 4
    · have hsame : (s.entry e.val).drafted word.val w = s.entry e.val := by
        rw [Entry.drafted, if_pos hlost.1, if_pos hlost.2]
      rw [hsame] at hfacts
      rw [if_pos hlost] at hexec
      exact ⟨s, hexec, rfl, fun _ _ => rfl, hfacts⟩
    · rw [if_neg hlost] at hexec
      refine ⟨_, hexec, rfl, fun n hn => State.entry_setEntry_other _ _ _ _ hn, ?_⟩
      rw [State.entry_setEntry_same]
      exact hfacts

/-! ### Shadow words (R288, R293) -/

theorem shadowWrite_acts (hs : s.silent = false) (hr : s.rst.ready = true) (off : BitVec 24) (w : Word) (it : CfgItem)
    (hoff : off.toNat % 4 = 0) (hit : cfgItem off.toNat = some it) :
    let c := s.shd.put off.toNat (w &&& s.cfgAbsent it)
    exec (.shadowRegisterWrite off w) s = .next (
      if it.mask &&& s.cfgAbsent it = 0 then s
      else if s.cfg.swap.isSome = true ∨ s.cfg.walking.isSome = true then { s with cfg := { s.cfg with wlost := true } }
      else if (s.itemFault c it).isSome = true then s
      else { s with shd := c }) := by
  change Host.Outcome.next (s.single off.toNat (fun s => if off.toNat % 4 = 0 then s.rwsWrite off.toNat w else s)) = _
  rw [single_ready hs hr, if_pos hoff, State.rwsWrite, hit]
  dsimp only
  simp only [Bool.or_eq_true]
  cases s.itemFault (s.shd.put off.toNat (w &&& s.cfgAbsent it)) it <;> rfl

/-! ### LNK_CTRL (R457) -/

/-- The port with the settings that a write of LNK_CTRL gives it. -/
def Port.controlled (x : Port) (w : Word) : Port :=
  { x with
    en := bit w.toNat 0
    maxRate := BitVec.ofNat 2 (bits w.toNat 1 2)
    zrcEn := bit w.toNat 3
    hubOff := bit w.toNat 4 }

theorem linkEnable_eq (p : Nat) (w : Word) (hp : s.fuse.portPresent p = true) :
    linkEnable p w s =
      let u := s.setPort p ((s.port p).controlled w)
      if (s.port p).en && !bit w.toNat 0 then u.disablePort p
      else if !(s.port p).en && bit w.toNat 0 && s.rst.fuseDone && s.portUsable p then
        u.setPort p { (u.port p).restart with state := .training }
      else u := by
  unfold linkEnable
  rw [hp]
  rfl

/-- A port that is disabled keeps its settings (Table LNK-4). -/
theorem disablePort_link (u : State) (p : Nat) :
    ((u.disablePort p).port p).link = ((u.port p).en, (u.port p).zrcEn, (u.port p).hubOff, .disabled) := by
  unfold State.disablePort
  dsimp only
  rw [(afterTopology_keepsLinks _).link, (loseCommands_keepsLinks ..).link, State.port_setPort_same]
  rfl

theorem linkEnable_link (p : Nat) (w : Word) (hp : s.fuse.portPresent p = true) :
    ((linkEnable p w s).port p).link = (bit w.toNat 0, bit w.toNat 3, bit w.toNat 4,
      if (s.port p).en = true ∧ bit w.toNat 0 = false then .disabled
      else if (s.port p).en = false ∧ bit w.toNat 0 = true ∧ s.rst.fuseDone = true ∧ s.portUsable p = true then .training
      else (s.port p).state) := by
  rw [linkEnable_eq p w hp]
  dsimp only
  by_cases hoff : (s.port p).en = true ∧ bit w.toNat 0 = false
  · rw [if_pos (by simp [hoff]), if_pos hoff, disablePort_link, State.port_setPort_same]
    rfl
  · by_cases hon : (s.port p).en = false ∧ bit w.toNat 0 = true ∧ s.rst.fuseDone = true ∧ s.portUsable p = true
    · rw [if_neg (by simpa using hoff), if_neg hoff, if_pos hon, if_pos (by simp [hon]), State.port_setPort_same,
        State.port_setPort_same]
      rfl
    · rw [if_neg (by simpa using hoff), if_neg hoff, if_neg hon, if_neg (by simpa [and_assoc] using hon), State.port_setPort_same]
      rfl

theorem linkEnable_acts (hs : s.silent = false) (hr : s.rst.ready = true) (p : Fin 9) (w : Word)
    (hp : s.fuse.portPresent p.val = true) :
    ∃ s', exec (.linkEnable p w) s = .next s' ∧ (s'.port p.val).en = bit w.toNat 0 ∧
      (s'.port p.val).zrcEn = bit w.toNat 3 ∧ (s'.port p.val).hubOff = bit w.toNat 4 ∧
      (s'.port p.val).state = (if (s.port p.val).en = true ∧ bit w.toNat 0 = false then .disabled
        else if (s.port p.val).en = false ∧ bit w.toNat 0 = true ∧ s.rst.fuseDone = true ∧ s.portUsable p.val = true
          then .training else (s.port p.val).state) := by
  have hlink := linkEnable_link p.val w hp
  obtain ⟨hen, hzrc, hhub, hstate⟩ := by simpa only [Port.link, Prod.mk.injEq] using hlink
  exact ⟨_, exec_linkEnable hs hr p w, hen, hzrc, hhub, hstate⟩

/-- Settles O46: a ready die takes each register's write, and each register's write acts as its lemma above says. -/
theorem registerWritesAct : Obligations.RegisterWritesAct := by
  unfold Obligations.RegisterWritesAct
  intro s hs hr
  refine ⟨fun q tail => ?_, poolArm_acts hs hr, fun mask lp hlp hmask => portConfirm_acts hs hr mask hlp hmask,
    topMapWrite_acts hs hr, topExpectWrite_acts hs hr, fun w => exec_tileHold hs hr w, draftWrite_acts hs hr,
    shadowWrite_acts hs hr, linkEnable_acts hs hr⟩
  exact exec_queueDoorbell hs hr q tail

end

end Sys2Proof.Machine

end

section

namespace Sys2Proof.Machine

/-! ## Opening a context (R299) -/

section

variable {s u a : State} {q k : Nat} {p : Pkt} {rest : List Pkt}

/-- Budgets are set to 0, and nothing else differs. -/
theorem zeroBudgets_cust (l : List Nat) (s : State) :
    { l.foldl State.zeroBudget s with srv := { (l.foldl State.zeroBudget s).srv with cust := s.srv.cust } } = s := by
  induction l generalizing s with
  | nil => rfl
  | cons c l ih =>
    exact (congrArg (fun x : State => { x with srv := { x.srv with cust := s.srv.cust } }) (ih (s.zeroBudget c)) :)

/-- A customer's budget is set to 0. -/
def Customer.broke (x : Customer) : Customer := { x with budget := 0 }

theorem cust_zeroBudget (s : State) (c n : Nat) : spGet Customer.reset (s.zeroBudget c).srv.cust n =
    if n = c then (spGet Customer.reset s.srv.cust n).broke else spGet Customer.reset s.srv.cust n := by
  change spGet Customer.reset (spModify Customer.reset s.srv.cust c Customer.broke) n = _
  by_cases hn : n = c
  · rw [hn, if_pos rfl, spGet_spModify_same]
  · rw [if_neg hn, spGet_spModify_other hn]

theorem cust_zeroBudgets (l : List Nat) (n : Nat) : ∀ s : State,
    spGet Customer.reset (l.foldl State.zeroBudget s).srv.cust n =
      if n ∈ l then (spGet Customer.reset s.srv.cust n).broke else spGet Customer.reset s.srv.cust n := by
  induction l with
  | nil => exact fun s => (if_neg List.not_mem_nil).symm
  | cons c l ih =>
    intro s
    rw [List.foldl_cons, ih, cust_zeroBudget]
    by_cases hn : n = c
    · rw [if_pos hn, if_pos (List.mem_cons.2 (.inl hn))]
      split <;> rfl
    · rw [if_neg hn]
      simp only [List.mem_cons, hn, false_or]

theorem mem_customersOf (s : State) (c n : Nat) : n ∈ s.customersOf c ↔ (s.act.range c).hasCust n = true := by
  simp only [State.customersOf, List.mem_map, List.mem_range, CtxRange.hasCust, Bool.and_eq_true, decide_eq_true_eq]
  exact ⟨fun ⟨i, hi, h⟩ => by omega, fun h => ⟨n - (s.act.range c).custBase, by omega, by omega⟩⟩

/-- The context as CTX_OPEN leaves it. -/
def Ctx.openedWith (x : Ctx) (salt : DWord) : Ctx :=
  { x with
    state := .opened
    salt := salt
    cring := { x.cring with
      tail := 0
      told := false } }

/-- CTX_OPEN's effects before its budgets: the context and its pool (R299). -/
def State.openedCtx (s : State) (c : Nat) (salt : DWord) : State :=
  (s.setCtx c ((s.ctxOf c).openedWith salt)).setPool c (s.pool c).unset

/-- CTX_OPEN's effects (R299). -/
def State.contextOpened (s : State) (c : Nat) (salt : DWord) : State :=
  ((s.openedCtx c salt).customersOf c).foldl State.zeroBudget (s.openedCtx c salt)

theorem openedCtx_frame (a : State) (c : Nat) (salt : DWord) : { a.openedCtx c salt with
    ctxs := a.ctxs
    kvp := a.kvp } = a := rfl

theorem openedCtx_ctxs (a : State) (c : Nat) (salt : DWord) :
    (a.openedCtx c salt).ctxs = spSet Ctx.reset a.ctxs c ((a.ctxOf c).openedWith salt) := rfl
theorem openedCtx_kvp (a : State) (c : Nat) (salt : DWord) :
    (a.openedCtx c salt).kvp = spSet Pool.reset a.kvp c (a.pool c).unset := rfl

theorem openedCtx_facts (a : State) (c : Nat) (salt : DWord) :
    (a.openedCtx c salt).ctxOf c = (a.ctxOf c).openedWith salt ∧
      (∀ d, d ≠ c → (a.openedCtx c salt).ctxOf d = a.ctxOf d ∧ (a.openedCtx c salt).pool d = a.pool d) ∧
      (a.openedCtx c salt).pool c = (a.pool c).unset := by
  refine ⟨?_, fun d hd => ⟨?_, ?_⟩, ?_⟩
  · rw [State.ctxOf, openedCtx_ctxs, spGet_spSet_same]
  · rw [State.ctxOf, openedCtx_ctxs, spGet_spSet_other hd, State.ctxOf]
  · rw [State.pool, openedCtx_kvp, spGet_spSet_other hd, State.pool]
  · rw [State.pool, openedCtx_kvp, spGet_spSet_same]

/-- Nothing but contexts, pools and budgets differs. -/
def OnlyOpens (a u : State) : Prop :=
  { u with
    ctxs := a.ctxs
    kvp := a.kvp
    srv := { u.srv with cust := a.srv.cust } } = a

theorem OnlyOpens.pmh (h : OnlyOpens a u) : u.pmh = a.pmh := (congrArg (fun x : State => x.pmh) h :)
theorem OnlyOpens.queues (h : OnlyOpens a u) : u.queues = a.queues := (congrArg (fun x : State => x.queues) h :)

/-- Budgets set to 0 after changes of contexts and pools. -/
theorem zeroBudgets_onlyOpens (hu : { u with
    ctxs := a.ctxs
    kvp := a.kvp } = a) (l : List Nat) : OnlyOpens a (l.foldl State.zeroBudget u) := by
  have hsrv : u.srv = a.srv := (congrArg (fun x : State => x.srv) hu :)
  unfold OnlyOpens
  rw [← hsrv]
  exact (congrArg (fun x : State => { x with
    ctxs := a.ctxs
    kvp := a.kvp }) (zeroBudgets_cust l u) :).trans hu

theorem contextOpened_onlyOpens (a : State) (c : Nat) (salt : DWord) : OnlyOpens a (a.contextOpened c salt) :=
  zeroBudgets_onlyOpens (openedCtx_frame a c salt) _

/-- What differs once the opening command has ended. -/
theorem onlyOpens_end {v : State} (ha : OnlyPumphouse s a) (hu : OnlyOpens a u) (hv : { v with
    queues := u.queues
    pmh := u.pmh } = u) : { v with
      queues := s.queues
      pmh := s.pmh
      ctxs := s.ctxs
      kvp := s.kvp
      srv := { v.srv with cust := s.srv.cust } } = s := by
  have hctxs : a.ctxs = s.ctxs := (congrArg (fun x : State => x.ctxs) ha :)
  have hkvp : a.kvp = s.kvp := (congrArg (fun x : State => x.kvp) ha :)
  have hsrv : a.srv = s.srv := (congrArg (fun x : State => x.srv) ha :)
  rw [← hctxs, ← hkvp, ← hsrv]
  have h1 := congrArg (fun x : State => { x with
    queues := s.queues
    pmh := s.pmh
    ctxs := a.ctxs
    kvp := a.kvp
    srv := { x.srv with cust := a.srv.cust } }) hv
  have h2 := congrArg (fun x : State => { x with
    queues := s.queues
    pmh := s.pmh }) hu
  exact h1.trans (h2.trans ha)

theorem ctxs_zeroBudgets (l : List Nat) (s : State) : (l.foldl State.zeroBudget s).ctxs = s.ctxs :=
  (congrArg (fun x : State => x.ctxs) (zeroBudgets_frame l s) :)
theorem kvp_zeroBudgets (l : List Nat) (s : State) : (l.foldl State.zeroBudget s).kvp = s.kvp :=
  (congrArg (fun x : State => x.kvp) (zeroBudgets_frame l s) :)

theorem contextOpened_facts (a : State) (c : Nat) (salt : DWord) :
    (a.contextOpened c salt).ctxOf c = (a.ctxOf c).openedWith salt ∧
      (∀ d, d ≠ c → (a.contextOpened c salt).ctxOf d = a.ctxOf d ∧ (a.contextOpened c salt).pool d = a.pool d) ∧
      (a.contextOpened c salt).pool c = (a.pool c).unset ∧
      ∀ n, spGet Customer.reset (a.contextOpened c salt).srv.cust n =
        if (a.act.range c).hasCust n = true then (spGet Customer.reset a.srv.cust n).broke
        else spGet Customer.reset a.srv.cust n := by
  obtain ⟨hctx, hothers, hpool⟩ := openedCtx_facts a c salt
  have hc : ∀ d, (a.contextOpened c salt).ctxOf d = (a.openedCtx c salt).ctxOf d := fun d => by
    rw [State.ctxOf, State.contextOpened, ctxs_zeroBudgets, State.ctxOf]
  have hp : ∀ d, (a.contextOpened c salt).pool d = (a.openedCtx c salt).pool d := fun d => by
    rw [State.pool, State.contextOpened, kvp_zeroBudgets, State.pool]
  have hsrv : (a.openedCtx c salt).srv = a.srv := (congrArg (fun x : State => x.srv) (openedCtx_frame a c salt) :)
  have hact : (a.openedCtx c salt).act = a.act := (congrArg (fun x : State => x.act) (openedCtx_frame a c salt) :)
  refine ⟨(hc c).trans hctx, fun d hd => ⟨(hc d).trans (hothers d hd).1, (hp d).trans (hothers d hd).2⟩, (hp c).trans hpool,
    fun n => ?_⟩
  rw [State.contextOpened, cust_zeroBudgets]
  simp only [mem_customersOf, hact, hsrv]

theorem exec_ctxOpen {q : Fin 512} (s : State) : exec (.ctxOpen q) s =
    .next (s.dispatch q.val (fun p => decide (p.opcode = 0x3A)) ctxOpenAct) := rfl

theorem ctxOpenAct_opens (a : State) (k : Nat) (h1 : 1 ≤ p.byte 8) (h15 : p.byte 8 ≤ 15) (hclosed : (a.ctxOf (p.byte 8)).state = .closed) :
    ctxOpenAct a k p = .ok (a.contextOpened (p.byte 8) (dwordAt p.bytes 16)) [] := by
  unfold ctxOpenAct
  dsimp only
  rw [if_neg (by omega), if_neg (by simp [hclosed])]
  rfl

theorem ctxOf_atDispatch (s : State) (q k : Nat) (p : Pkt) (c : Nat) : (atDispatch s q k p).ctxOf c = s.ctxOf c :=
  (congrArg (fun x : State => x.ctxOf c) (atDispatch_frame s q k p) :)
theorem pool_atDispatch (s : State) (q k : Nat) (p : Pkt) (c : Nat) : (atDispatch s q k p).pool c = s.pool c :=
  (congrArg (fun x : State => x.pool c) (atDispatch_frame s q k p) :)
theorem srv_atDispatch (s : State) (q k : Nat) (p : Pkt) : (atDispatch s q k p).srv = s.srv :=
  (congrArg (fun x : State => x.srv) (atDispatch_frame s q k p) :)

/-- A command that has changed neither the Pumphouse nor the queues ends with OK. -/
theorem ends_of_same (h : DispatchReady s q k p rest) (hpmh : u.pmh = (atDispatch s q k p).pmh)
    (hqueues : u.queues = (atDispatch s q k p).queues) (data : List Byte) :
    { u.finish k stOK 0 0 data with
      queues := u.queues
      pmh := u.pmh } = u ∧
    SamePumphouse s (u.finish k stOK 0 0 data) ∧ Ended s (u.finish k stOK 0 0 data) q k p rest stOK 0 data := by
  have hbooked := booked_of_same (booked_atDispatch h) hpmh hqueues
  obtain ⟨cmds, compl, heq⟩ := finish_queue_eq hbooked.cmd rfl stOK 0 0 data
  refine ⟨by rw [heq], ?_, booked_finish hbooked stOK 0 data⟩
  rw [heq, SamePumphouse, hpmh]
  exact atDispatch_samePumphouse s q k p

/-- What the end of a CTX_OPEN tells of its context, its pool and its budgets. -/
structure OpensEnded (s v : State) (c : Nat) (salt : DWord) : Prop where
  frame : { v with
    queues := s.queues
    pmh := s.pmh
    ctxs := s.ctxs
    kvp := s.kvp
    srv := { v.srv with cust := s.srv.cust } } = s
  ctx : v.ctxOf c = (s.ctxOf c).openedWith salt
  others : ∀ d, d ≠ c → v.ctxOf d = s.ctxOf d ∧ v.pool d = s.pool d
  pool : v.pool c = (s.pool c).unset
  cust : ∀ n, spGet Customer.reset v.srv.cust n =
    if (s.act.range c).hasCust n = true then (spGet Customer.reset s.srv.cust n).broke else spGet Customer.reset s.srv.cust n

theorem opensEnded_of_end {v : State} {c : Nat} {salt : DWord} (hu : OnlyOpens (atDispatch s q k p) u)
    (hctx : u.ctxOf c = (s.ctxOf c).openedWith salt) (hothers : ∀ d, d ≠ c → u.ctxOf d = s.ctxOf d ∧ u.pool d = s.pool d)
    (hpool : u.pool c = (s.pool c).unset)
    (hcust : ∀ n, spGet Customer.reset u.srv.cust n = if (s.act.range c).hasCust n = true
      then (spGet Customer.reset s.srv.cust n).broke else spGet Customer.reset s.srv.cust n)
    (hv : { v with
      queues := u.queues
      pmh := u.pmh } = u) : OpensEnded s v c salt := by
  have hectx : ∀ d, v.ctxOf d = u.ctxOf d := fun d => (congrArg (fun x : State => x.ctxOf d) hv :)
  have hepool : ∀ d, v.pool d = u.pool d := fun d => (congrArg (fun x : State => x.pool d) hv :)
  have hesrv : v.srv = u.srv := (congrArg (fun x : State => x.srv) hv :)
  exact {
    frame := onlyOpens_end (atDispatch_frame s q k p) hu hv
    ctx := (hectx c).trans hctx
    others := fun d hd => ⟨(hectx d).trans (hothers d hd).1, (hepool d).trans (hothers d hd).2⟩
    pool := (hepool c).trans hpool
    cust := fun n => by rw [hesrv]; exact hcust n }

theorem ctxOpen_ends {q : Fin 512} (h : DispatchReady s q.val k p rest) (h1 : 1 ≤ p.byte 8) (h15 : p.byte 8 ≤ 15)
    (hop : p.opcode = 0x3A) (hclosed : (s.ctxOf (p.byte 8)).state = .closed) :
    ∃ v, exec (.ctxOpen q) s = .next v ∧ OpensEnded s v (p.byte 8) (dwordAt p.bytes 16) ∧ SamePumphouse s v ∧
      Ended s v q.val k p rest stOK 0 [] := by
  have hexec := exec_dispatch (exec_ctxOpen s) h (by simp [hop])
  rw [ctxOpenAct_opens _ _ h1 h15 (by rwa [ctxOf_atDispatch]), DispOut.ok, fin_apply] at hexec
  have hopens := contextOpened_onlyOpens (atDispatch s q.val k p) (p.byte 8) (dwordAt p.bytes 16)
  obtain ⟨hctx, hothers, hpool, hcust⟩ := contextOpened_facts (atDispatch s q.val k p) (p.byte 8) (dwordAt p.bytes 16)
  have hsrv := srv_atDispatch s q.val k p
  have hact := act_of_onlyPumphouse (atDispatch_frame s q.val k p)
  simp only [ctxOf_atDispatch, pool_atDispatch, hsrv, hact] at hctx hothers hpool hcust
  obtain ⟨hend, hsame, hended⟩ := ends_of_same h hopens.pmh hopens.queues []
  exact ⟨_, hexec, opensEnded_of_end hopens hctx hothers hpool hcust hend, hsame, hended⟩

end

end Sys2Proof.Machine

end

section

namespace Sys2Proof.Machine

/-! ## Closing a context: dispatch and rows 1 to 4 of Table CTX-3 (R300) -/

/-- A queue whose undecoded packets have been discarded (R255). -/
def Queue.discarded (x : Queue) : Queue :=
  { x with
    looked := min x.looked (x.decoded.length - 1)
    head := x.tail }

/-- No queue of the map has a decoded packet of context `c`. -/
def NoPackets (c : Nat) (m : Sparse Queue) : Prop := ∀ e ∈ m, ∀ p ∈ e.2.decoded, p.ctx ≠ c

theorem noPackets_spGet {c : Nat} {m : Sparse Queue} (h : NoPackets c m) (i : Nat) :
    ∀ p ∈ (spGet Queue.reset m i).decoded, p.ctx ≠ c := by
  induction m with
  | nil => exact fun p hp => absurd hp List.not_mem_nil
  | cons e m ih =>
    obtain ⟨j, x⟩ := e
    rw [spGet_cons]
    by_cases hij : i = j
    · rw [if_pos hij]
      exact h (j, x) List.mem_cons_self
    · rw [if_neg hij]
      exact ih fun e he => h e (List.mem_cons_of_mem _ he)

theorem mem_spIns {α : Type} {m : Sparse α} {i : Nat} {v : α} {e : Nat × α} (h : e ∈ spIns m i v) : e = (i, v) ∨ e ∈ m := by
  induction m with
  | nil => exact .inl (List.mem_singleton.1 h)
  | cons a m ih =>
    obtain ⟨j, x⟩ := a
    rw [spIns] at h
    split at h
    · exact List.mem_cons.1 h
    · split at h
      · exact (List.mem_cons.1 h).imp_right (List.mem_cons_of_mem _)
      · rcases List.mem_cons.1 h with h | h
        · exact .inr (h ▸ List.mem_cons_self)
        · exact (ih h).imp_right (List.mem_cons_of_mem _)

theorem mem_spSet {α : Type} [DecidableEq α] {d : α} {m : Sparse α} {i : Nat} {v : α} {e : Nat × α} (h : e ∈ spSet d m i v) :
    e = (i, v) ∨ e ∈ m := by
  unfold spSet at h
  split at h
  · exact .inr (List.mem_of_mem_filter h)
  · exact mem_spIns h

/-- A queue that has decoded no packet but those it had keeps it so. -/
theorem noPackets_spSet {c i : Nat} {m : Sparse Queue} {x : Queue} (h : NoPackets c m) (hx : ∀ p ∈ x.decoded, p.ctx ≠ c) :
    NoPackets c (spSet Queue.reset m i x) := by
  intro e he
  rcases mem_spSet he with rfl | he
  · exact hx
  · exact h e he

theorem spIns_spIns {α : Type} (m : Sparse α) (i : Nat) (v w : α) : spIns (spIns m i v) i w = spIns m i w := by
  induction m with
  | nil => simp [spIns]
  | cons e m ih =>
    obtain ⟨j, x⟩ := e
    rw [spIns, spIns]
    by_cases hlt : i < j
    · simp [hlt, spIns]
    · by_cases hij : i = j
      · simp [hij, spIns]
      · simp [hlt, hij, spIns, ih]

theorem pmh_cmds_setCmd (s : State) (k : Nat) (c : Cmd) : (s.setCmd k (some c)).pmh.cmds = spIns s.pmh.cmds k (some c) := by
  rw [State.setCmd, spSet, if_neg (Option.some_ne_none c)]

/-- The queues of a list have discarded what they have not decoded. -/
structure QueuesDiscarded (l : List Nat) (s u : State) : Prop where
  frame : { u with
    queues := s.queues
    pmh := { u.pmh with qdiscard := s.pmh.qdiscard } } = s
  queue : ∀ q, u.queue q = if q ∈ l then (s.queue q).discarded else s.queue q
  packets : ∀ c, NoPackets c s.queues → NoPackets c u.queues

theorem discardQueue_discarded (s : State) (q : Nat) (m : QMap) : QueuesDiscarded [q] s (s.discardQueue q m) := by
  obtain ⟨n, hn⟩ := discardQueue_eq s q m
  rw [hn]
  refine ⟨rfl, fun r => ?_, fun c hc => noPackets_spSet hc (noPackets_spGet hc q)⟩
  by_cases hr : r = q
  · rw [hr, State.queue_setQueue_same, if_pos List.mem_cons_self]
    rfl
  · rw [State.queue_setQueue_other _ _ _ _ hr, if_neg (by simpa using hr)]
    rfl

theorem queuesDiscarded_trans {l l' : List Nat} {s t u : State} (h : QueuesDiscarded l s t) (h' : QueuesDiscarded l' t u)
    (hl : ∀ q ∈ l, q ∉ l') : QueuesDiscarded (l ++ l') s u where
  frame := by
    have h1 := congrArg (fun x : State => { x with
      queues := s.queues
      pmh := { x.pmh with qdiscard := s.pmh.qdiscard } }) h'.frame
    exact h1.trans h.frame
  queue q := by
    rw [h'.queue, h.queue]
    by_cases hq : q ∈ l
    · simp [hq, hl q hq]
    · simp [hq]
  packets c hc := h'.packets c (h.packets c hc)

theorem discardQueues_discarded {l : List Nat} (hl : l.Nodup) (s : State) :
    QueuesDiscarded l s (l.foldl (fun s q => s.discardQueue q (s.act.qmap q)) s) := by
  induction l generalizing s with
  | nil => exact ⟨rfl, fun _ => (if_neg List.not_mem_nil).symm, fun _ hc => hc⟩
  | cons q l ih =>
    obtain ⟨hq, hl⟩ := List.nodup_cons.1 hl
    rw [List.foldl_cons]
    exact queuesDiscarded_trans (discardQueue_discarded s q _) (ih hl _) fun r hr => by rwa [List.mem_singleton.1 hr]

theorem queuesOf_nodup (s : State) (c : Nat) : (s.queuesOf c).Nodup := List.nodup_range.filter _

theorem mem_queuesOf {s : State} {c r : Nat} : r ∈ s.queuesOf c ↔ r < 512 ∧ (s.act.qmap r).ctx = c := by
  simp [State.queuesOf]

/-- Where a CTX_CLOSE of context `c` that dispatched from `s` stands once its row 1 is done: its slot holds the job `j`. -/
structure CloseAt (s u : State) (q k : Nat) (p : Pkt) (c : Nat) (j : CloseJob) : Prop where
  frame : { u with
    queues := s.queues
    ctxs := s.ctxs
    pmh := { u.pmh with
      qdiscard := s.pmh.qdiscard
      cmds := s.pmh.cmds
      serial := s.pmh.serial } } = s
  cmds : u.pmh.cmds = spIns s.pmh.cmds k (some (entryOf s q p (.close j)))
  ctx : u.ctxOf c = { s.ctxOf c with state := .closing }
  queue : ∀ r, r ≠ q → u.queue r = if r ∈ s.queuesOf c then (s.queue r).discarded else s.queue r
  packets : p.ctx ≠ c → NoPackets c s.queues → NoPackets c u.queues

/-- A fresh CTX_CLOSE of context `c`. -/
def closeJobOf (c : Nat) : CloseJob := { target := c, row := 2, ended := 0, retired := 0, tracts := [], walks := 0 }

section

variable {s a u d : State} {q k : Nat} {p : Pkt} {rest : List Pkt} {c : Nat} {j : CloseJob}

theorem exec_ctxClose {q : Fin 512} (s : State) : exec (.ctxClose q) s =
    .next (s.dispatch q.val (fun p => decide (p.opcode = 0x3B)) ctxCloseAct).closesGoOn := rfl

/-- Row 1 over the state at dispatch. -/
theorem ctxCloseAct_runs (hfrozen : a.frozen = false) (h1 : 1 ≤ p.byte 8) (h15 : p.byte 8 ≤ 15)
    (hopen : (a.ctxOf (p.byte 8)).state = .opened) : ∃ d, ctxCloseAct a k p = .run d (.close (closeJobOf (p.byte 8))) ∧
      QueuesDiscarded (a.queuesOf (p.byte 8)) (a.setCtx (p.byte 8) { a.ctxOf (p.byte 8) with state := .closing }) d := by
  unfold ctxCloseAct
  dsimp only
  rw [hfrozen, if_neg Bool.false_ne_true, if_neg (by omega), if_neg (by simp [hopen])]
  exact ⟨_, rfl, discardQueues_discarded (queuesOf_nodup a _) _⟩

theorem noPackets_atDispatch {c : Nat} (hc : NoPackets c s.queues) :
    NoPackets c (atDispatch s q k p).queues := by
  refine noPackets_spSet hc fun p' hp' => noPackets_spGet hc q p' ?_
  exact List.mem_of_mem_drop hp'

/-- The command's slot as its job is set. -/
theorem cmds_setJob {cmd : Cmd} {m : Sparse (Option Cmd)} (h : u.pmh.cmds = spIns m k (some cmd)) (j : Job) :
    (u.setJob k j).pmh.cmds = spIns m k (some { cmd with job := j }) := by
  have hcmd : u.cmd k = some cmd := by rw [State.cmd, h, spGet_spIns_same]
  rw [setJob_of_cmd hcmd, pmh_cmds_setCmd, h, spIns_spIns]

theorem CloseAt.setJob (h : CloseAt s u q k p c j) (i : CloseJob) : CloseAt s (u.setJob k (.close i)) q k p c i := by
  have hcmd : u.cmd k = some (entryOf s q p (.close j)) := by rw [State.cmd, h.cmds, spGet_spIns_same]
  have hcmds := cmds_setJob h.cmds (.close i)
  rw [setJob_of_cmd hcmd] at hcmds ⊢
  exact ⟨h.frame, hcmds, h.ctx, h.queue, h.packets⟩

/-- Row 1 over a state `a` in which the packet has taken its slot. -/
theorem closeAt_of_discards {x : Cmd} (ha : { a with
      queues := s.queues
      pmh := { a.pmh with
        cmds := s.pmh.cmds
        serial := s.pmh.serial } } = s)
    (hcmds : a.pmh.cmds = spIns s.pmh.cmds k (some x)) (hx : { x with job := .close j } = entryOf s q p (.close j))
    (hqueue : ∀ r, r ≠ q → a.queue r = s.queue r) (hpackets : ∀ c, NoPackets c s.queues → NoPackets c a.queues)
    (hd : QueuesDiscarded (a.queuesOf c) (a.setCtx c { a.ctxOf c with state := .closing }) d) :
    CloseAt s (d.setJob k (.close j)) q k p c j := by
  have hctxOf : a.ctxOf c = s.ctxOf c := (congrArg (fun y : State => y.ctxOf c) ha :)
  have hqueuesOf : a.queuesOf c = s.queuesOf c := (congrArg (fun y : State => y.queuesOf c) ha :)
  have hdframe : { d with
      queues := a.queues
      ctxs := a.ctxs
      pmh := { d.pmh with qdiscard := a.pmh.qdiscard } } = a := (congrArg (fun y : State => { y with ctxs := a.ctxs }) hd.frame :)
  have hdcmds : d.pmh.cmds = spIns s.pmh.cmds k (some x) :=
    (congrArg (fun y : State => y.pmh.cmds) hd.frame :).trans hcmds
  have hdcmd : d.cmd k = some x := by rw [State.cmd, hdcmds, spGet_spIns_same]
  have hdctx : d.ctxOf c = (a.setCtx c { a.ctxOf c with state := .closing }).ctxOf c :=
    (congrArg (fun y : State => y.ctxOf c) hd.frame :)
  have hset := cmds_setJob hdcmds (.close j)
  rw [setJob_of_cmd hdcmd] at hset ⊢
  exact {
    frame := (congrArg (fun y : State => { y with
      queues := s.queues
      ctxs := s.ctxs
      pmh := { y.pmh with
        qdiscard := s.pmh.qdiscard
        cmds := s.pmh.cmds
        serial := s.pmh.serial } }) hdframe :).trans (congrArg (fun y : State => { y with
          ctxs := s.ctxs
          pmh := { y.pmh with qdiscard := s.pmh.qdiscard } }) ha :)
    cmds := by rw [hset, hx]
    ctx := by
      change d.ctxOf c = _
      rw [hdctx, ctxOf_setCtx_same, hctxOf]
    queue := fun r hr => by
      change d.queue r = _
      rw [hd.queue, ← hqueuesOf, ← hqueue r hr]
      rfl
    packets := fun _ hs => hd.packets c (hpackets c hs) }

theorem books_frame (hframe : OnlyPumphouse s u) (hsame : SamePumphouse s u) (hcompl : u.pmh.compl = s.pmh.compl) :
    { u with
      queues := s.queues
      pmh := { u.pmh with
        cmds := s.pmh.cmds
        serial := s.pmh.serial } } = s := by
  have hpmh : { u.pmh with
      cmds := s.pmh.cmds
      serial := s.pmh.serial } = s.pmh := by
    unfold SamePumphouse at hsame
    rw [← hcompl] at hsame
    exact hsame
  rw [hpmh]
  exact hframe

theorem atDispatch_books (s : State) (q k : Nat) (p : Pkt) : { atDispatch s q k p with
    queues := s.queues
    pmh := { (atDispatch s q k p).pmh with
      cmds := s.pmh.cmds
      serial := s.pmh.serial } } = s :=
  books_frame (atDispatch_frame s q k p) (atDispatch_samePumphouse s q k p) (atDispatch_compl s q k p)

theorem cmds_atDispatch (s : State) (q k : Nat) (p : Pkt) :
    (atDispatch s q k p).pmh.cmds = spIns s.pmh.cmds k (some (mkCmd (.queue q) p s.pmh.serial s.time.wave)) :=
  pmh_cmds_setCmd ..

/-- A CTX_CLOSE of an open context dispatches and takes its row 1; then every close goes on. -/
theorem ctxClose_dispatches {q : Fin 512} (h : DispatchReady s q.val k p rest) (hop : p.opcode = 0x3B)
    (hfrozen : s.frozen = false) (h1 : 1 ≤ p.byte 8) (h15 : p.byte 8 ≤ 15) (hopen : (s.ctxOf (p.byte 8)).state = .opened) :
    ∃ u, exec (.ctxClose q) s = .next u.closesGoOn ∧ CloseAt s u q.val k p (p.byte 8) (closeJobOf (p.byte 8)) := by
  have hat : (atDispatch s q.val k p).frozen = s.frozen :=
    (congrArg (fun x : State => x.frozen) (atDispatch_frame s q.val k p) :)
  obtain ⟨d, hact, hd⟩ := ctxCloseAct_runs (k := k) (hat.trans hfrozen) h1 h15 (by rwa [ctxOf_atDispatch])
  refine ⟨d.setJob k (.close (closeJobOf (p.byte 8))), ?_, closeAt_of_discards (atDispatch_books s q.val k p)
    (cmds_atDispatch s q.val k p) rfl (fun r hr => atDispatch_queue_other s q.val k p hr)
    (fun c hc => noPackets_atDispatch hc) hd⟩
  rw [exec_ctxClose, dispatch_ready h (by simp [hop]), hact, DispOut.apply]

theorem CloseAt.cmd (h : CloseAt s u q k p c j) : u.cmd k = some (entryOf s q p (.close j)) := by
  rw [State.cmd, h.cmds, spGet_spIns_same]

/-- The close alone joins the commands that were in flight. -/
theorem CloseAt.flying (h : CloseAt s u q k p c j) (hs : s.cmd k = none) :
    u.flying.Perm ((k, entryOf s q p (.close j)) :: s.flying) := by
  rw [flying_eq, h.cmds]
  exact commandsIn_spIns _ hs

/-- A CTX_CLOSE that has not ended. -/
def Cmd.closes (x : Cmd) : Bool := decide (x.opcode = 0x3B) && x.lives

/-- It is the only close under way. -/
theorem CloseAt.closesGoOn (h : CloseAt s u q k p c j) (hs : s.cmd k = none) (hop : p.opcode = 0x3B)
    (hother : ∀ e ∈ s.flying, e.2.opcode ≠ 0x3B) : u.closesGoOn = u.closeStep k := by
  have hown : (entryOf s q p (.close j)).closes = true := by simp [entryOf, mkCmd, hop, Cmd.closes, Cmd.lives]
  have hnone : s.flying.filter (fun e => e.2.closes) = [] := by
    refine List.filter_eq_nil_iff.2 fun e he => ?_
    rw [Cmd.closes, decide_eq_false (hother e he)]
    exact Bool.false_ne_true
  have hone : ((k, entryOf s q p (.close j)) :: s.flying).filter (fun e => e.2.closes) = [(k, entryOf s q p (.close j))] :=
    List.filter_cons.trans (by rw [if_pos hown, hnone])
  have hperm := (h.flying hs).filter (fun e => e.2.closes)
  rw [hone, List.perm_singleton] at hperm
  have hslots : u.slotsThat Cmd.closes = [k] := congrArg (List.map Prod.fst) hperm
  exact congrArg (List.foldl State.closeStep u) hslots

/-- A long command of the context keeps row 2 (R300). -/
theorem closeStep_waits {x : Cmd} (hc : u.cmd k = some x) (hj : x.job = .close j) (hrow : j.row = 2)
    (hlong : u.flying.any (fun e => decide (e.2.ctx = j.target) && u.longCmd e.2) = true) : u.closeStep k = u := by
  simp [State.closeStep, hc, hj, hrow, hlong]

/-- Where the context has no command in flight and is quiet, the rows to the end are taken. -/
theorem closeStep_closes {x : Cmd} (hc : u.cmd k = some x) (hj : x.job = .close j) (hrow : j.row = 2)
    (hnone : ∀ e ∈ u.flying, e.2.ctx ≠ j.target)
    (hquiet : (u.setJob k (.close { j with row := 4, ended := 0 })).ctxQuiet j.target = true) :
    u.closeStep k = (u.setJob k (.close { j with row := 4, ended := 0 })).closeRows k { j with row := 4, ended := 0 } := by
  have hshort : u.flying.any (fun e => decide (e.2.ctx = j.target) && u.longCmd e.2) = false :=
    List.any_eq_false.2 fun e he => by simp [hnone e he]
  have hends : u.slotsThat (fun e => decide (e.ctx = j.target) && e.lives) = [] := by
    rw [State.slotsThat, List.map_eq_nil_iff, List.filter_eq_nil_iff]
    exact fun e he => by simp [hnone e he]
  simp only [State.closeStep, hc, hj, hrow, hshort, hends, State.endAll, List.foldl_nil, List.length_nil]
  simp [hquiet]

theorem CloseAt.longCmd (h : CloseAt s u q k p c j) (x : Cmd) : u.longCmd x = s.longCmd x :=
  (congrArg (fun y : State => y.longCmd x) h.frame :)
theorem CloseAt.ctxRuns (h : CloseAt s u q k p c j) (x : Nat) : u.ctxRuns x = s.ctxRuns x :=
  (congrArg (fun y : State => y.ctxRuns x) h.frame :)
theorem CloseAt.compl (h : CloseAt s u q k p c j) : u.pmh.compl = s.pmh.compl :=
  (congrArg (fun y : State => y.pmh.compl) h.frame :)

theorem CloseAt.ctxQuiet (h : CloseAt s u q k p c j) (hs : s.cmd k = none) (hp : p.ctx ≠ c) (hquiet : s.ctxQuiet c = true) :
    u.ctxQuiet c = true := by
  simp only [State.ctxQuiet, Bool.and_eq_true, Bool.not_eq_true', List.any_eq_false, decide_eq_true_eq] at hquiet ⊢
  obtain ⟨⟨⟨hflying, hruns⟩, hcompl⟩, hqueues⟩ := hquiet
  refine ⟨⟨⟨fun e he => ?_, by rwa [h.ctxRuns]⟩, by rwa [h.compl]⟩, ?_⟩
  · rcases List.mem_cons.1 ((h.flying hs).mem_iff.1 he) with rfl | he
    · exact hp
    · exact hflying e he
  · have hnone : NoPackets c s.queues := fun e he p' hp' => by simpa using List.all_eq_true.1 (List.all_eq_true.1 hqueues e he) p' hp'
    exact List.all_eq_true.2 fun e he => List.all_eq_true.2 fun p' hp' => by simpa using h.packets hp hnone e he p' hp'

end

end Sys2Proof.Machine

end

section

namespace Sys2Proof.Machine

/-! ## Closing a context: what row 5 of Table CTX-3 releases (R285, R303) -/

section

variable {s a b u v : State} {c : Nat}

/-- Entries of a list become FREE. -/
def State.entriesFreed (s : State) (l : List Nat) : State :=
  l.foldl (fun s e => { s with srv := { s.srv with entries := spSet Entry.reset s.srv.entries e Entry.reset } }) s

/-- The open segments of a list fail. -/
def State.segsFailed (s : State) (l : List RxSeg) : State := l.foldl (fun s r => s.failSeg r stRefuseContext 1) s

/-- The context's step and its records that still wait are dropped. -/
def State.stepDropped (s : State) (c : Nat) : State :=
  { s.setStepJob c none with srv := { (s.setStepJob c none).srv with recs := spSet [] (s.setStepJob c none).srv.recs c [] } }

/-- The open segments that other dies send a context. -/
def State.liveSegs (s : State) (c : Nat) : List RxSeg := s.rxSegs.filter (fun r => decide (r.ctx.toNat = c) && !r.dead)

/-- The semaphores of a range hold 0. -/
def State.semsCleared (s : State) (r : CtxRange) : State :=
  { s with pmh := { s.pmh with sem := spSetRange 0 s.pmh.sem r.semBase r.semCount (fun _ => 0) } }

/-- The streams of a range are closed. -/
def State.streamsClosed (s : State) (r : CtxRange) : State :=
  { s with lrk := { s.lrk with
      streams := spSetRange Stream.reset s.lrk.streams r.strmBase r.strmCount (fun i => (s.stream (r.strmBase + i)).closed) } }

/-- Row 5 up to the pool. -/
def State.servicesDropped (s : State) (c : Nat) : State :=
  let a := (s.entriesFreed (s.entriesOf c)).stepDropped c
  a.segsFailed (a.liveSegs c)

/-- The pool is UNSET and the customers have no budget. -/
def State.poolDropped (s : State) (c : Nat) : State :=
  ((s.setPool c (s.pool c).unset).customersOf c).foldl State.zeroBudget (s.setPool c (s.pool c).unset)

theorem releaseContext_eq (s : State) (c : Nat) : s.releaseContext c =
    ((((s.servicesDropped c).poolDropped c).semsCleared (s.act.range c)).streamsClosed (s.act.range c)) := rfl

/-- Nothing but the entries differs. -/
theorem entriesFreed_frame (l : List Nat) (s : State) :
    { s.entriesFreed l with srv := { (s.entriesFreed l).srv with entries := s.srv.entries } } = s := by
  refine List.foldlRecOn (motive := fun u : State => { u with srv := { u.srv with entries := s.srv.entries } } = s) l _ rfl
    fun u hu e _ => ?_
  exact hu

theorem entries_entriesFreed (l : List Nat) (n : Nat) : ∀ s : State, spGet Entry.reset (s.entriesFreed l).srv.entries n =
    if n ∈ l then Entry.reset else spGet Entry.reset s.srv.entries n := by
  induction l with
  | nil => exact fun s => (if_neg List.not_mem_nil).symm
  | cons e l ih =>
    intro s
    refine (ih _).trans ?_
    rw [spGet_spSet]
    by_cases hn : n = e <;> simp [hn]

/-- An entry that an update has ever named stands in the map. -/
theorem mem_of_spGet {α : Type} {d : α} {m : Sparse α} {n : Nat} (h : spGet d m n ≠ d) : (n, spGet d m n) ∈ m := by
  induction m with
  | nil => exact absurd rfl h
  | cons e m ih =>
    obtain ⟨j, x⟩ := e
    rw [spGet_cons] at h ⊢
    by_cases hj : n = j
    · simp [hj]
    · rw [if_neg hj] at h ⊢
      exact List.mem_cons_of_mem _ (ih h)

/-- Every entry of the context is FREE once its entries have been freed. -/
theorem entriesFreed_free {n : Nat} (h : (spGet Entry.reset s.srv.entries n).ctx = c) :
    (spGet Entry.reset (s.entriesFreed (s.entriesOf c)).srv.entries n).state = .free := by
  rw [entries_entriesFreed]
  by_cases hn : n ∈ s.entriesOf c
  · rw [if_pos hn]
    rfl
  · rw [if_neg hn]
    by_contra hstate
    have hreset : spGet Entry.reset s.srv.entries n ≠ Entry.reset := fun he => hstate (by rw [he]; rfl)
    exact hn (List.mem_map.2 ⟨_, List.mem_filter.2 ⟨mem_of_spGet hreset, by simp [hstate, h]⟩, rfl⟩)

/-- Nothing but ports, the count of what no route took, and the segments differs. -/
def OnlySegments (s u : State) : Prop :=
  { u with
    ports := s.ports
    rst := s.rst
    top := s.top
    rxSegs := s.rxSegs } = s

theorem OnlySegments.trans (h : OnlySegments s a) (g : OnlySegments a b) : OnlySegments s b := by
  unfold OnlySegments at h g
  rw [← g] at h
  exact h

theorem onlySegments_of_topology (h : OnlyTopology s u) : OnlySegments s u :=
  (congrArg (fun x : State => { x with
    top := s.top
    rxSegs := s.rxSegs }) h :)

theorem failSeg_onlySegments (s : State) (r : RxSeg) (st : Half) (reason : Byte) : OnlySegments s (s.failSeg r st reason) := by
  have hput : OnlySegments s (s.putSeg { r with dead := true, buf := [], marks := [] }) := rfl
  refine hput.trans ?_
  have hsent := sendOwn_onlyTopology (s.putSeg { r with dead := true, buf := [], marks := [] })
    (rspFlit s.dieId r.src 1 r.ctx r.xid r.segno (wrAckBytes st reason r.written))
  exact onlySegments_of_topology hsent

theorem rxSegs_failSeg (s : State) (r : RxSeg) (st : Half) (reason : Byte) : (s.failSeg r st reason).rxSegs =
    s.rxSegs.filter (fun x => !x.isKey r.src r.xid r.segno) ++ [{ r with dead := true, buf := [], marks := [] }] :=
  (congrArg (fun x : State => x.rxSegs) (sendOwn_onlyTopology (s.putSeg { r with dead := true, buf := [], marks := [] })
    (rspFlit s.dieId r.src 1 r.ctx r.xid r.segno (wrAckBytes st reason r.written))) :)

theorem segsFailed_onlySegments (l : List RxSeg) (s : State) : OnlySegments s (s.segsFailed l) :=
  List.foldlRecOn (motive := OnlySegments s) l _ rfl fun _ hu r _ => hu.trans (failSeg_onlySegments _ r _ _)

/-- After the segments of a list have failed, what was dead before or stands in the list is dead. -/
theorem segsFailed_dead (l : List RxSeg) : ∀ s : State,
    (∀ r ∈ s.rxSegs, r.ctx.toNat = c → r.dead = true ∨ r ∈ l) → ∀ r ∈ (s.segsFailed l).rxSegs, r.ctx.toNat = c → r.dead = true := by
  induction l with
  | nil => exact fun s h r hr hc => (h r hr hc).resolve_right List.not_mem_nil
  | cons x l ih =>
    intro s h
    refine ih _ fun r hr hc => ?_
    rw [rxSegs_failSeg, List.mem_append, List.mem_filter, List.mem_singleton] at hr
    rcases hr with ⟨hr, hkey⟩ | rfl
    · refine (h r hr hc).imp_right fun hmem => (List.mem_cons.1 hmem).resolve_left ?_
      rintro rfl
      simp [RxSeg.isKey] at hkey
    · exact .inl rfl

/-- What the first part of row 5 leaves. -/
structure ServicesDropped (s u : State) (c : Nat) : Prop where
  frame : { u with
    ports := s.ports
    rst := s.rst
    top := s.top
    rxSegs := s.rxSegs
    srv := s.srv } = s
  entries : ∀ n, (spGet Entry.reset s.srv.entries n).ctx = c → (spGet Entry.reset u.srv.entries n).state = .free
  segs : ∀ r ∈ u.rxSegs, r.ctx.toNat = c → r.dead = true

theorem stepDropped_facts (s : State) (c : Nat) :
    { s.stepDropped c with srv := s.srv } = s ∧ (s.stepDropped c).srv.entries = s.srv.entries := ⟨rfl, rfl⟩

theorem liveSegs_dead {l : List RxSeg} : ∀ r ∈ l, r.ctx.toNat = c →
    r.dead = true ∨ r ∈ l.filter (fun r => decide (r.ctx.toNat = c) && !r.dead) := by
  intro r hr hc
  cases hdead : r.dead with
  | true => exact .inl rfl
  | false => exact .inr (List.mem_filter.2 ⟨hr, by simp [hc, hdead]⟩)

theorem servicesDropped_of_steps (hfreed : { a with srv := { a.srv with entries := s.srv.entries } } = s)
    (hentries : ∀ n, (spGet Entry.reset s.srv.entries n).ctx = c → (spGet Entry.reset a.srv.entries n).state = .free)
    (hstep : { b with srv := a.srv } = a ∧ b.srv.entries = a.srv.entries)
    (hsegs : OnlySegments b u) (hdead : ∀ r ∈ u.rxSegs, r.ctx.toNat = c → r.dead = true) : ServicesDropped s u c := by
  obtain ⟨hframe, hsame⟩ := hstep
  have hsrv : u.srv = b.srv := (congrArg (fun x : State => x.srv) hsegs :)
  refine ⟨?_, fun n hn => by rw [hsrv, hsame]; exact hentries n hn, hdead⟩
  have h1 := congrArg (fun x : State => { x with
    ports := s.ports
    rst := s.rst
    top := s.top
    rxSegs := s.rxSegs
    srv := s.srv }) hsegs
  have h2 := congrArg (fun x : State => { x with
    ports := s.ports
    rst := s.rst
    top := s.top
    rxSegs := s.rxSegs
    srv := s.srv }) hframe
  have h3 := congrArg (fun x : State => { x with
    ports := s.ports
    rst := s.rst
    top := s.top
    rxSegs := s.rxSegs
    srv := s.srv }) hfreed
  exact h1.trans (h2.trans h3)

theorem servicesDropped_dropped (s : State) (c : Nat) : ServicesDropped s (s.servicesDropped c) c :=
  servicesDropped_of_steps (entriesFreed_frame _ s) (fun _ hn => entriesFreed_free hn)
    (stepDropped_facts (s.entriesFreed (s.entriesOf c)) c) (segsFailed_onlySegments _ _) (segsFailed_dead _ _ liveSegs_dead)

/-- What the pool's part of row 5 leaves. -/
structure PoolDropped (s u : State) (c : Nat) : Prop where
  frame : { u with
    srv := { u.srv with cust := s.srv.cust }
    kvp := s.kvp } = s
  pool : (u.pool c).live = false

theorem setPool_facts (s : State) (c : Nat) (x : Pool) :
    { s.setPool c x with kvp := s.kvp } = s ∧ (s.setPool c x).pool c = x :=
  ⟨rfl, spGet_spSet_same⟩

theorem poolDropped_of_steps (hset : { a with kvp := s.kvp } = s ∧ a.pool c = (s.pool c).unset)
    (hbudgets : { u with srv := { u.srv with cust := a.srv.cust } } = a) : PoolDropped s u c := by
  obtain ⟨hframe, hpool⟩ := hset
  have hsrv : a.srv = s.srv := (congrArg (fun x : State => x.srv) hframe :)
  have hupool : u.pool c = a.pool c := (congrArg (fun x : State => x.pool c) hbudgets :)
  refine ⟨?_, by rw [hupool, hpool, Pool.unset]⟩
  rw [← hsrv]
  exact (congrArg (fun x : State => { x with kvp := s.kvp }) hbudgets :).trans hframe

theorem poolDropped_dropped (s : State) (c : Nat) : PoolDropped s (s.poolDropped c) c :=
  poolDropped_of_steps (setPool_facts s c _) (zeroBudgets_cust _ _)

/-- What row 5 leaves of a context. -/
structure Released (s u : State) (c : Nat) : Prop where
  frame : { u with
    ports := s.ports
    rst := s.rst
    top := s.top
    rxSegs := s.rxSegs
    srv := s.srv
    kvp := s.kvp
    lrk := s.lrk
    pmh := { u.pmh with sem := s.pmh.sem } } = s
  entries : ∀ n, (spGet Entry.reset s.srv.entries n).ctx = c → (spGet Entry.reset u.srv.entries n).state = .free
  segs : ∀ r ∈ u.rxSegs, r.ctx.toNat = c → r.dead = true
  pool : (u.pool c).live = false
  sems : ∀ n, u.semOf n = if (s.act.range c).hasSem n = true then 0 else s.semOf n

theorem semOf_semsCleared (s : State) (r : CtxRange) (n : Nat) :
    (s.semsCleared r).semOf n = if r.hasSem n = true then 0 else s.semOf n := by
  refine (spGet_spSetRange (d := 0)).trans ?_
  simp only [CtxRange.hasSem, Bool.and_eq_true, decide_eq_true_eq]
  rfl

theorem clears_frame (s : State) (r : CtxRange) : { (s.semsCleared r).streamsClosed r with
    lrk := s.lrk
    pmh := { ((s.semsCleared r).streamsClosed r).pmh with sem := s.pmh.sem } } = s := rfl

theorem semOf_streamsClosed (s : State) (r : CtxRange) (n : Nat) : (s.streamsClosed r).semOf n = s.semOf n := rfl

theorem released_of_steps (ha : ServicesDropped s a c) (hb : PoolDropped a b c) (hu : { u with
      lrk := b.lrk
      pmh := { u.pmh with sem := b.pmh.sem } } = b)
    (hsems : ∀ n, u.semOf n = if (s.act.range c).hasSem n = true then 0 else b.semOf n) : Released s u c := by
  have hbentries : b.srv.entries = a.srv.entries := (congrArg (fun x : State => x.srv.entries) hb.frame :)
  have hbsegs : b.rxSegs = a.rxSegs := (congrArg (fun x : State => x.rxSegs) hb.frame :)
  have hbsem : ∀ n, b.semOf n = a.semOf n := fun n => (congrArg (fun x : State => x.semOf n) hb.frame :)
  have hasem : ∀ n, a.semOf n = s.semOf n := fun n => (congrArg (fun x : State => x.semOf n) ha.frame :)
  have husrv : u.srv = b.srv := (congrArg (fun x : State => x.srv) hu :)
  have husegs : u.rxSegs = b.rxSegs := (congrArg (fun x : State => x.rxSegs) hu :)
  have hupool : u.pool c = b.pool c := (congrArg (fun x : State => x.pool c) hu :)
  exact {
    frame := by
      have hblrk : b.pmh.sem = s.pmh.sem :=
        (congrArg (fun x : State => x.pmh.sem) hb.frame :).trans (congrArg (fun x : State => x.pmh.sem) ha.frame :)
      rw [← hblrk]
      have h1 := congrArg (fun x : State => { x with
        ports := s.ports
        rst := s.rst
        top := s.top
        rxSegs := s.rxSegs
        srv := s.srv
        kvp := s.kvp
        lrk := s.lrk }) hu
      have h2 := congrArg (fun x : State => { x with
        ports := s.ports
        rst := s.rst
        top := s.top
        rxSegs := s.rxSegs
        srv := s.srv
        kvp := s.kvp
        lrk := s.lrk }) hb.frame
      have h3 := congrArg (fun x : State => { x with
        kvp := s.kvp
        lrk := s.lrk }) ha.frame
      exact h1.trans (h2.trans h3)
    entries := fun n hn => by rw [husrv, hbentries]; exact ha.entries n hn
    segs := by rw [husegs, hbsegs]; exact ha.segs
    pool := by rw [hupool]; exact hb.pool
    sems := fun n => by rw [hsems, hbsem, hasem] }

theorem releaseContext_released (s : State) (c : Nat) : Released s (s.releaseContext c) c := by
  rw [releaseContext_eq]
  exact released_of_steps (servicesDropped_dropped s c) (poolDropped_dropped _ c) (clears_frame _ _)
    fun n => (semOf_streamsClosed _ _ n).trans (semOf_semsCleared _ _ n)

end

end Sys2Proof.Machine

end

section

namespace Sys2Proof.Machine

/-! ## Closing a context: what row 6 of Table CTX-3 removes (R241, R255) -/

/-- A set without a context keeps this word. -/
def CfgSet.keepsWord (a : CfgSet) (c i : Nat) : Bool :=
  match cfgItem (4 * i) with
  | some (.desc y _ _) => decide (y ≠ c)
  | some (.qmap q _) => decide ((a.qmap q).ctx ≠ c)
  | _ => true

theorem without_eq (a : CfgSet) (c : Nat) : a.without c = a.filter (fun e => a.keepsWord c e.1) := rfl

/-- The control-space offset of word `i` of a descriptor. -/
theorem cfgItem_desc {d h i : Nat} (hd : d < 16) (hh : h < 64) (hi : i < 8) :
    cfgItem (offHnd + 0x800 * d + 0x20 * h + 4 * i) = some (.desc d h i) := by
  have hstatic : ¬ offHnd + 0x800 * d + 0x20 * h + 4 * i = offPwrStatic := by simp only [offHnd, offPwrStatic]; omega
  have hstatic2 : ¬ offHnd + 0x800 * d + 0x20 * h + 4 * i = offPwrStatic2 := by simp only [offHnd, offPwrStatic2]; omega
  have hgroup : ¬ (offPwrGroup ≤ offHnd + 0x800 * d + 0x20 * h + 4 * i ∧ offHnd + 0x800 * d + 0x20 * h + 4 * i < offPwrGroup + 32) := by
    simp only [offHnd, offPwrGroup]; omega
  have hhnd : offHnd ≤ offHnd + 0x800 * d + 0x20 * h + 4 * i ∧ offHnd + 0x800 * d + 0x20 * h + 4 * i < offHnd + 0x8000 := by omega
  have hctx : (offHnd + 0x800 * d + 0x20 * h + 4 * i - offHnd) / 0x800 = d := by omega
  have hhandle : (offHnd + 0x800 * d + 0x20 * h + 4 * i - offHnd) / 0x20 % 64 = h := by omega
  have hword : (offHnd + 0x800 * d + 0x20 * h + 4 * i - offHnd) / 4 % 8 = i := by omega
  rw [cfgItem, if_neg hstatic, if_neg hstatic2, if_neg hgroup, if_pos hhnd, hctx, hhandle, hword]

/-- A descriptor's words leave the set with their context and stay with any other. -/
theorem word_without_desc (a : CfgSet) (c : Nat) {d h i : Nat} (hd : d < 16) (hh : h < 64) (hi : i < 8) :
    (a.without c).word (offHnd + 0x800 * d + 0x20 * h + 4 * i) =
      if d = c then 0 else a.word (offHnd + 0x800 * d + 0x20 * h + 4 * i) := by
  have hitem := cfgItem_desc hd hh hi
  have haligned : 4 * ((offHnd + 0x800 * d + 0x20 * h + 4 * i) / 4) = offHnd + 0x800 * d + 0x20 * h + 4 * i := by
    simp only [offHnd]; omega
  have hkeeps : a.keepsWord c ((offHnd + 0x800 * d + 0x20 * h + 4 * i) / 4) = decide (d ≠ c) := by
    rw [CfgSet.keepsWord, haligned, hitem]
  have hreset : (CfgItem.desc d h i).resetWord = 0 := rfl
  rw [CfgSet.word, CfgSet.word, hitem, without_eq]
  dsimp only
  rw [hreset, spGet_filter (a.keepsWord c), hkeeps]
  by_cases hdc : d = c <;> simp [hdc]

theorem wide_congr {a b : CfgSet} {o n : Nat} (hw : ∀ i, i < n → a.word (o + 4 * i) = b.word (o + 4 * i)) :
    a.wide o n = b.wide o n :=
  List.foldl_ext _ _ _ fun x i hi => by rw [hw i (List.mem_range.1 hi)]

theorem wide_zero {a : CfgSet} {o n : Nat} (hw : ∀ i, i < n → a.word (o + 4 * i) = 0) : a.wide o n = 0 :=
  List.foldlRecOn (motive := fun x => x = 0) (List.range n) _ rfl fun x hx i hi => by
    simp [hx, hw i (List.mem_range.1 hi)]

theorem desc_eq_of_words {a b : CfgSet} {d h : Nat}
    (hw : ∀ i, i < 4 → a.word (offHnd + 0x800 * d + 0x20 * h + 4 * i) = b.word (offHnd + 0x800 * d + 0x20 * h + 4 * i)) :
    a.desc d h = b.desc d h := by
  rw [CfgSet.desc, CfgSet.desc, wide_congr hw]

/-- Another context's descriptors stay. -/
theorem desc_without_other (a : CfgSet) {c d h : Nat} (hd : d < 16) (hdc : d ≠ c) (hh : h < 64) :
    (a.without c).desc d h = a.desc d h :=
  desc_eq_of_words fun i hi => by rw [word_without_desc a c hd hh (by omega), if_neg hdc]

/-- The context's own are invalid. -/
theorem desc_without_same (a : CfgSet) {c h : Nat} (hc : c < 16) (hh : h < 64) : ((a.without c).desc c h).valid = false := by
  have hw : ∀ i, i < 4 → (a.without c).word (offHnd + 0x800 * c + 0x20 * h + 4 * i) = 0 := fun i hi => by
    rw [word_without_desc a c hc hh (by omega), if_pos rfl]
  rw [CfgSet.desc, if_pos hh, wide_zero hw]
  rfl

section

variable {s a b u : State} {c : Nat}

/-- A tile as the context leaves it (R241). -/
theorem left_owner (x : Tile) (c : Nat) :
    (x.wren.owner = some c → ((x.left c).wren.ibuf, (x.left c).wren.ibMark, (x.left c).wren.owner) = ([], [], none)) ∧
    (x.wren.owner ≠ some c → ((x.left c).wren.ibuf, (x.left c).wren.ibMark, (x.left c).wren.owner) =
      (x.wren.ibuf, x.wren.ibMark, x.wren.owner)) := by
  by_cases hlast : x.wren.lastCtx = some c <;> by_cases howner : x.wren.owner = some c <;>
    simp [Tile.left, Tile.wiped, Tile.emptied, hlast, howner]

theorem left_last (x : Tile) (c : Nat) :
    (x.wren.lastCtx = some c →
      ((x.left c).wren.x, (x.left c).wren.xMark, (x.left c).wren.p, (x.left c).wren.tsem) = ([], [], 1, []) ∧
      ((x.left c).arr.acc, (x.left c).arr.dacc, (x.left c).arr.kind, (x.left c).vec.v, (x.left c).vec.m, (x.left c).vec.t) =
        ([], [], [], [], [], [])) ∧
    (x.wren.lastCtx ≠ some c → (x.left c).wren.x = x.wren.x ∧ (x.left c).arr = x.arr ∧ (x.left c).vec = x.vec) := by
  by_cases hlast : x.wren.lastCtx = some c <;> by_cases howner : x.wren.owner = some c <;>
    simp [Tile.left, Tile.wiped, Tile.emptied, hlast, howner]

/-- What row 6 leaves of a context. -/
structure Removed (s u : State) (c : Nat) : Prop where
  frame : { u with
    queues := s.queues
    act := s.act
    shd := s.shd
    tiles := s.tiles
    pmh := { u.pmh with qdiscard := s.pmh.qdiscard } } = s
  act : u.act = s.act.without c
  shd : u.shd = s.shd.without c
  queue : ∀ r, u.queue r = if r ∈ s.queuesOf c then resetOf (s.queue r) else s.queue r
  tile : ∀ t, t < 16 → u.tile t = (s.tile t).left c

/-- Queues reset one after another touch of the Pumphouse only the count of what was discarded. -/
theorem resetQueues_frame (l : List Nat) (s : State) :
    { l.foldl (fun s q => s.resetQueue q (s.act.qmap q)) s with
      queues := s.queues
      pmh := { (l.foldl (fun s q => s.resetQueue q (s.act.qmap q)) s).pmh with qdiscard := s.pmh.qdiscard } } = s := by
  refine List.foldlRecOn (motive := fun u : State => { u with
    queues := s.queues
    pmh := { u.pmh with qdiscard := s.pmh.qdiscard } } = s) l _ rfl fun u hu q _ => ?_
  obtain ⟨n, hn⟩ := resetQueue_eq u q (u.act.qmap q)
  rw [hn]
  exact hu

/-- Both sets lose the context. -/
def State.setsWithout (s : State) (c : Nat) : State :=
  { s with
    act := s.act.without c
    shd := s.shd.without c }

/-- Every tile as the context leaves it. -/
def State.tilesLeft (s : State) (c : Nat) : State := (List.range 16).foldl (fun s t => s.setTile t ((s.tile t).left c)) s

theorem removeContext_eq (s : State) (c : Nat) : s.removeContext c =
    (((s.queuesOf c).foldl (fun s q => s.resetQueue q (s.act.qmap q)) s).setsWithout c).tilesLeft c := rfl

theorem setsWithout_facts (s : State) (c : Nat) :
    { s.setsWithout c with
      act := s.act
      shd := s.shd } = s ∧ (s.setsWithout c).act = s.act.without c ∧ (s.setsWithout c).shd = s.shd.without c := ⟨rfl, rfl, rfl⟩

theorem tilesLeft_frame (s : State) (c : Nat) : { s.tilesLeft c with tiles := s.tiles } = s :=
  foldl_setTile_frame id (fun _ x => x.left c) (List.range 16) s

theorem tile_tilesLeft (s : State) (c : Nat) {t : Nat} (ht : t < 16) : (s.tilesLeft c).tile t = (s.tile t).left c :=
  tile_foldl_setTile_same id (fun _ x => x.left c) (List.range 16) (by simpa using List.nodup_range) (List.mem_range.2 ht) s

theorem removed_of_steps (hframe : { a with
      queues := s.queues
      pmh := { a.pmh with qdiscard := s.pmh.qdiscard } } = s)
    (hqueue : ∀ r, a.queue r = if r ∈ s.queuesOf c then resetOf (s.queue r) else s.queue r)
    (hsets : { b with
      act := a.act
      shd := a.shd } = a ∧ b.act = a.act.without c ∧ b.shd = a.shd.without c)
    (htiles : { u with tiles := b.tiles } = b) (htile : ∀ t, t < 16 → u.tile t = (b.tile t).left c) : Removed s u c := by
  obtain ⟨hb, hact, hshd⟩ := hsets
  have haact : a.act = s.act := (congrArg (fun x : State => x.act) hframe :)
  have hashd : a.shd = s.shd := (congrArg (fun x : State => x.shd) hframe :)
  have hatile : ∀ t, a.tile t = s.tile t := fun t => (congrArg (fun x : State => x.tile t) hframe :)
  have hbtile : ∀ t, b.tile t = a.tile t := fun t => (congrArg (fun x : State => x.tile t) hb :)
  have hbqueue : ∀ r, b.queue r = a.queue r := fun r => (congrArg (fun x : State => x.queue r) hb :)
  have huqueue : ∀ r, u.queue r = b.queue r := fun r => (congrArg (fun x : State => x.queue r) htiles :)
  have huact : u.act = b.act := (congrArg (fun x : State => x.act) htiles :)
  have hushd : u.shd = b.shd := (congrArg (fun x : State => x.shd) htiles :)
  exact {
    frame := by
      have h1 := congrArg (fun x : State => { x with
        queues := s.queues
        act := s.act
        shd := s.shd
        tiles := s.tiles
        pmh := { x.pmh with qdiscard := s.pmh.qdiscard } }) htiles
      have h2 := congrArg (fun x : State => { x with
        queues := s.queues
        act := s.act
        shd := s.shd
        tiles := s.tiles
        pmh := { x.pmh with qdiscard := s.pmh.qdiscard } }) hb
      have h3 := congrArg (fun x : State => { x with
        act := s.act
        shd := s.shd
        tiles := s.tiles }) hframe
      exact h1.trans (h2.trans h3)
    act := by rw [huact, hact, haact]
    shd := by rw [hushd, hshd, hashd]
    queue := fun r => by rw [huqueue, hbqueue, hqueue]
    tile := fun t ht => by rw [htile t ht, hbtile, hatile] }

theorem removeContext_removed (s : State) (c : Nat) : Removed s (s.removeContext c) c := by
  rw [removeContext_eq]
  exact removed_of_steps (resetQueues_frame _ s) (resetQueues_reset (queuesOf_nodup s c) s).queue (setsWithout_facts _ c)
    (tilesLeft_frame _ c) fun t ht => tile_tilesLeft _ c ht

end

end Sys2Proof.Machine

end

section

namespace Sys2Proof.Machine

/-! ## Closing a context: the end of a CTX_CLOSE (R302) -/

section

variable {s w u x y : State} {q k : Nat} {p : Pkt} {rest : List Pkt} {c : Nat} {i j : CloseJob}

/-- A context once it is CLOSED. -/
def Ctx.closedDown (x : Ctx) : Ctx :=
  { x with
    state := .closed
    salt := 0
    closing := [] }

/-- Row 7 without its completion. -/
def State.ctxClosed (s : State) (c : Nat) : State :=
  { s.setCtx c (s.ctxOf c).closedDown with ctxCloses := s.ctxCloses + 1 }

theorem contextClosed_eq (s : State) (k : Nat) (j : CloseJob) : s.contextClosed k j =
    (s.ctxClosed j.target).finish k stOK 0 0 (leBytes 2 j.ended ++ leBytes 2 j.retired ++ leBytes 2 j.walks) := rfl

theorem ctxClosed_facts (s : State) (c : Nat) : { s.ctxClosed c with
      ctxs := s.ctxs
      ctxCloses := s.ctxCloses } = s ∧ (s.ctxClosed c).ctxOf c = (s.ctxOf c).closedDown :=
  ⟨rfl, ctxOf_setCtx_same ..⟩

/-- With no granule to clear, the rows from row 5 on are taken at once. -/
theorem closeRows_closes (hts : u.walkTracts (u.act.ownedBy j.target) = []) : u.closeRows k j =
    ((u.releaseContext j.target).removeContext j.target).contextClosed k
      { j with row := 7, retired := (u.entriesOf j.target).length, tracts := [], walks := 0 } := by
  simp only [State.closeRows, hts, List.isEmpty_nil, if_true, List.length_nil]

/-- What row 7 leaves, the command of slot `k` having ended with these data. -/
structure RowSeven (s u : State) (k q : Nat) (x : Cmd) (c : Nat) (data : List Byte) : Prop where
  frame : { u with
    ctxs := s.ctxs
    ctxCloses := s.ctxCloses
    pmh := s.pmh } = s
  sems : ∀ n, u.semOf n = s.semOf n
  ctx : u.ctxOf c = (s.ctxOf c).closedDown
  cmd : u.cmd k = some { x with job := .ended, flags := x.flags ||| 0 }
  compl : u.pmh.compl = s.pmh.compl ++ [
    { slot := some k, ctx := x.ctx, queue := q, tag := x.tag, notify := x.notify, status := withData x.data stOK,
      reason := 0, flags := x.flags ||| 0, late := false, wave := x.wave, data := data }]

theorem rowSeven_of_finish {cmd : Cmd} {data : List Byte} (hu : { u with
      ctxs := s.ctxs
      ctxCloses := s.ctxCloses } = s ∧ u.ctxOf c = (s.ctxOf c).closedDown) (hc : s.cmd k = some cmd)
    (hq : cmd.origin = .queue q) : RowSeven s (u.finish k stOK 0 0 data) k q cmd c data := by
  obtain ⟨hframe, hctx⟩ := hu
  have hpmh : u.pmh = s.pmh := (congrArg (fun x : State => x.pmh) hframe :)
  have hucmd : u.cmd k = some cmd := by rw [State.cmd, hpmh]; exact hc
  obtain ⟨hcmd, -, -, hcompl⟩ := finish_queue hucmd hq stOK 0 0 data
  obtain ⟨cmds, compl, heq⟩ := finish_queue_eq hucmd hq stOK 0 0 data
  rw [hpmh] at hcompl
  rw [heq] at hcmd hcompl ⊢
  exact {
    frame := (congrArg (fun x : State => { x with pmh := s.pmh }) hframe :)
    sems := fun n => (congrArg (fun x : State => x.semOf n) hframe :)
    ctx := hctx
    cmd := hcmd
    compl := hcompl }

/-- The queues of a context are at their reset values whether or not what they had not decoded was discarded before. -/
theorem resetOf_discarded (x : Queue) : resetOf x.discarded = resetOf x := by
  simp [resetOf, Queue.discarded]

/-- What a CTX_CLOSE of context `c` that ends at its dispatch from `s` leaves (Table CTX-3). -/
structure ContextGone (s y : State) (q k : Nat) (p : Pkt) (c : Nat) (data : List Byte) : Prop where
  cis : y.cis = s.cis
  ctx : y.ctxOf c = (s.ctxOf c).closedDown
  act : y.act = s.act.without c
  shd : y.shd = s.shd.without c
  queue : ∀ r, r ≠ q → r ∈ s.queuesOf c → y.queue r = resetOf (s.queue r)
  tile : ∀ t, t < 16 → y.tile t = (s.tile t).left c
  segs : ∀ r ∈ y.rxSegs, r.ctx.toNat = c → r.dead = true
  entries : ∀ n, (spGet Entry.reset s.srv.entries n).ctx = c → (spGet Entry.reset y.srv.entries n).state = .free
  sems : ∀ n, y.semOf n = if (s.act.range c).hasSem n = true then 0 else s.semOf n
  pool : (y.pool c).live = false
  cmd : y.cmd k = some (entryOf s q p .ended)
  compl : y.pmh.compl = s.pmh.compl ++ [complOf s q k p stOK 0 data]

theorem removed_cmd (hu : Released w u c) (hx : Removed u x c) : x.cmd k = w.cmd k :=
  (congrArg (fun z : State => z.cmd k) hx.frame :).trans (congrArg (fun z : State => z.cmd k) hu.frame :)

theorem contextGone_of_rows {data : List Byte} (hw : CloseAt s w q k p c j) (hu : Released w u c) (hx : Removed u x c)
    (hy : RowSeven x y k q (entryOf s q p (.close j)) c data) : ContextGone s y q k p c data := by
  have hact : u.act = s.act :=
    (congrArg (fun z : State => z.act) hu.frame :).trans (congrArg (fun z : State => z.act) hw.frame :)
  have hshd : u.shd = s.shd :=
    (congrArg (fun z : State => z.shd) hu.frame :).trans (congrArg (fun z : State => z.shd) hw.frame :)
  have hqueuesOf : u.queuesOf c = s.queuesOf c := by rw [State.queuesOf, hact, State.queuesOf]
  have hyqueue : ∀ r, y.queue r = x.queue r := fun r => (congrArg (fun z : State => z.queue r) hy.frame :)
  have huqueue : ∀ r, u.queue r = w.queue r := fun r => (congrArg (fun z : State => z.queue r) hu.frame :)
  have hytile : ∀ t, y.tile t = x.tile t := fun t => (congrArg (fun z : State => z.tile t) hy.frame :)
  have hutile : ∀ t, u.tile t = s.tile t := fun t =>
    (congrArg (fun z : State => z.tile t) hu.frame :).trans (congrArg (fun z : State => z.tile t) hw.frame :)
  have hysrv : y.srv = u.srv :=
    (congrArg (fun z : State => z.srv) hy.frame :).trans (congrArg (fun z : State => z.srv) hx.frame :)
  have hwsrv : w.srv = s.srv := (congrArg (fun z : State => z.srv) hw.frame :)
  have hysegs : y.rxSegs = u.rxSegs :=
    (congrArg (fun z : State => z.rxSegs) hy.frame :).trans (congrArg (fun z : State => z.rxSegs) hx.frame :)
  have hypool : y.pool c = u.pool c :=
    (congrArg (fun z : State => z.pool c) hy.frame :).trans (congrArg (fun z : State => z.pool c) hx.frame :)
  have hxctx : x.ctxOf c = w.ctxOf c :=
    (congrArg (fun z : State => z.ctxOf c) hx.frame :).trans (congrArg (fun z : State => z.ctxOf c) hu.frame :)
  have hxsem : ∀ n, x.semOf n = u.semOf n := fun n => (congrArg (fun z : State => z.semOf n) hx.frame :)
  have hwsem : ∀ n, w.semOf n = s.semOf n := fun n => (congrArg (fun z : State => z.semOf n) hw.frame :)
  have hwact : w.act = s.act := (congrArg (fun z : State => z.act) hw.frame :)
  have hxcompl : x.pmh.compl = s.pmh.compl :=
    (congrArg (fun z : State => z.pmh.compl) hx.frame :).trans
      ((congrArg (fun z : State => z.pmh.compl) hu.frame :).trans hw.compl)
  exact {
    cis := (congrArg (fun z : State => z.cis) hy.frame :).trans ((congrArg (fun z : State => z.cis) hx.frame :).trans
      ((congrArg (fun z : State => z.cis) hu.frame :).trans (congrArg (fun z : State => z.cis) hw.frame :)))
    ctx := by rw [hy.ctx, hxctx, hw.ctx]; rfl
    act := by rw [← hact, ← hx.act]; exact (congrArg (fun z : State => z.act) hy.frame :)
    shd := by rw [← hshd, ← hx.shd]; exact (congrArg (fun z : State => z.shd) hy.frame :)
    queue := fun r hrq hr => by
      rw [hyqueue, hx.queue, hqueuesOf, if_pos hr, huqueue, hw.queue r hrq, if_pos hr, resetOf_discarded]
    tile := fun t ht => by rw [hytile, hx.tile t ht, hutile]
    segs := by rw [hysegs]; exact hu.segs
    entries := fun n hn => by rw [hysrv]; exact hu.entries n (by rwa [hwsrv])
    sems := fun n => by rw [hy.sems, hxsem, hu.sems, hwsem, hwact]
    pool := by rw [hypool]; exact hu.pool
    cmd := hy.cmd.trans (by simp [entryOf, mkCmd])
    compl := by rw [hy.compl, hxcompl]; simp [entryOf, mkCmd, complOf] }

theorem CloseAt.walkTracts (h : CloseAt s u q k p c j) (l : List Nat) : u.walkTracts l = s.walkTracts l :=
  (congrArg (fun z : State => z.walkTracts l) h.frame :)
theorem CloseAt.entriesOf (h : CloseAt s u q k p c j) (d : Nat) : u.entriesOf d = s.entriesOf d :=
  (congrArg (fun z : State => z.entriesOf d) h.frame :)
theorem CloseAt.act (h : CloseAt s u q k p c j) : u.act = s.act := (congrArg (fun z : State => z.act) h.frame :)
theorem CloseAt.cis (h : CloseAt s u q k p c j) : u.cis = s.cis := (congrArg (fun z : State => z.cis) h.frame :)

/-- The rows from row 5 on, taken at once. -/
theorem closeRows_gone (h : CloseAt s u q k p j.target j) (hts : s.walkTracts (s.act.ownedBy j.target) = []) :
    ContextGone s (u.closeRows k j) q k p j.target
      (leBytes 2 j.ended ++ leBytes 2 (s.entriesOf j.target).length ++ leBytes 2 0) := by
  rw [closeRows_closes (by rw [h.walkTracts, h.act, hts]), h.entriesOf, contextClosed_eq]
  have hreleased := releaseContext_released u j.target
  have hremoved := removeContext_removed (u.releaseContext j.target) j.target
  refine contextGone_of_rows h hreleased hremoved (rowSeven_of_finish (ctxClosed_facts _ _) ?_ rfl)
  rw [removed_cmd hreleased hremoved, h.cmd]

theorem ctxQuiet_flying (h : s.ctxQuiet c = true) : ∀ e ∈ s.flying, e.2.ctx ≠ c := by
  simp only [State.ctxQuiet, Bool.and_eq_true, Bool.not_eq_true', List.any_eq_false, decide_eq_true_eq] at h
  exact h.1.1.1

/-- Where nothing of the context is left to wait for and no granule to clear, the close ends at once. -/
theorem closeStep_gone (h : CloseAt s u q k p c (closeJobOf c)) (hs : s.cmd k = none) (hp : p.ctx ≠ c)
    (hquiet : s.ctxQuiet c = true) (hts : s.walkTracts (s.act.ownedBy c) = []) :
    ContextGone s (u.closeStep k) q k p c (leBytes 2 0 ++ leBytes 2 (s.entriesOf c).length ++ leBytes 2 0) := by
  have hrow4 := h.setJob { closeJobOf c with row := 4, ended := 0 }
  rw [closeStep_closes h.cmd rfl rfl ?_ (hrow4.ctxQuiet hs hp hquiet)]
  · exact closeRows_gone hrow4 hts
  · intro e he
    rcases List.mem_cons.1 ((h.flying hs).mem_iff.1 he) with rfl | he
    · exact hp
    · exact ctxQuiet_flying hquiet e he

/-- While a long command of the context runs, the close waits. -/
theorem closeStep_long (h : CloseAt s u q k p c (closeJobOf c)) (hs : s.cmd k = none)
    (hlong : ∃ e ∈ s.flying, e.1 ≠ k ∧ e.2.ctx = c ∧ s.longCmd e.2 = true) : u.closeStep k = u := by
  obtain ⟨e, he, -, hc, hl⟩ := hlong
  refine closeStep_waits h.cmd rfl rfl (List.any_eq_true.2 ⟨e, (h.flying hs).mem_iff.2 (List.mem_cons_of_mem _ he), ?_⟩)
  rw [h.longCmd, hl]
  simp [hc, closeJobOf]

end

/-- Settles O35: a context opens by its own effects; a close takes row 1 at dispatch, waits for a long command, and where the
context is quiet and owns no granule to clear takes the rows to its end. -/
theorem contextsOpenAndClose : Obligations.ContextsOpenAndClose := by
  unfold Obligations.ContextsOpenAndClose
  intro q k p rest s hready c h1 h15
  have hfree := freeSlot_none hready.slot
  refine ⟨fun hop hclosed => ?_, fun hop hopen hfrozen hother => ?_⟩
  · obtain ⟨v, hexec, hopens, hsame, hended⟩ := ctxOpen_ends hready h1 h15 hop hclosed
    exact ⟨v, hexec, hopens.frame, hsame, hopens.ctx, hopens.others, by rw [hopens.pool]; rfl, hopens.cust, hended⟩
  · obtain ⟨u, hexec, hat⟩ := ctxClose_dispatches hready hop hfrozen h1 h15 hopen
    rw [hat.closesGoOn hfree hop hother] at hexec
    refine ⟨fun hlong => ?_, fun hquiet hts => ?_⟩
    · rw [closeStep_long hat hfree hlong] at hexec
      refine ⟨u, hexec, hat.ctx, fun r hr hrc hrq => ?_, hat.cmd, hat.compl, by rw [hat.cis], by rw [hat.cis]⟩
      rw [hat.queue r hrq, if_pos (mem_queuesOf.2 ⟨hr, hrc⟩)]
      rfl
    · have hp : p.ctx ≠ c := by
        rw [hready.allowed (by rw [hop]; decide)]
        omega
      have hgone := closeStep_gone hat hfree hp hquiet hts
      refine ⟨_, hexec, hgone.ctx, fun h hh => ?_, fun d h hd hdc hh => ?_, fun r hr hrq hrc => ?_, fun t ht => ?_, hgone.segs,
        hgone.entries, hgone.sems, hgone.pool, hgone.cmd, ⟨by rw [hgone.cis], by rw [hgone.cis]⟩, hgone.compl⟩
      · rw [hgone.act, hgone.shd]
        exact ⟨desc_without_same _ (by omega) hh, desc_without_same _ (by omega) hh⟩
      · rw [hgone.act, desc_without_other _ hd hdc hh]
      · exact hgone.queue r hrq (mem_queuesOf.2 ⟨hr, hrc⟩)
      · rw [hgone.tile t ht]
        obtain ⟨howner, hkept⟩ := left_owner (s.tile t) c
        obtain ⟨hlast, hothers⟩ := left_last (s.tile t) c
        exact ⟨howner, hkept, hlast, hothers⟩

end Sys2Proof.Machine

end
